-- ==== Sys2Proof/Word.lean ====
section
/-! DEFINITION. The plain word types of the model: bytes, 64-bit counters, statuses of R9. -/

namespace Sys2Proof

/-- One byte of memory, of a register window or of a message. -/
abbrev Byte := BitVec 8

/-- A 32-bit register word. -/
abbrev Word := BitVec 32

/-- The status codes of R9; the device returns no other value. -/
inductive Status where
  | ok | pending | badOpcode | badField | wrongState | notPrivileged | busy
  | insufficientUnits | programRejected | featureMissing
  | memoryError | streamError | compressedSizeMismatch | stashFull
  | hostLinkLost | fabricAbort | collectiveAborted | thermalHalt
  | imageCheckFailed | imageNotBound | imageIncompatible | rollbackRefused
  | unitRetired | stepSkipped | internal
  deriving DecidableEq, Repr

/-- The 16-bit code of a status (R9). -/
def Status.code : Status → Nat
  | .ok => 0x0000 | .pending => 0x0001 | .badOpcode => 0x0010 | .badField => 0x0011
  | .wrongState => 0x0012 | .notPrivileged => 0x0013 | .busy => 0x0014
  | .insufficientUnits => 0x0020 | .programRejected => 0x0021 | .featureMissing => 0x0022
  | .memoryError => 0x0030 | .streamError => 0x0031 | .compressedSizeMismatch => 0x0032
  | .stashFull => 0x0033 | .hostLinkLost => 0x0040 | .fabricAbort => 0x0041
  | .collectiveAborted => 0x0042 | .thermalHalt => 0x0050 | .imageCheckFailed => 0x0060
  | .imageNotBound => 0x0061 | .imageIncompatible => 0x0062 | .rollbackRefused => 0x0063
  | .unitRetired => 0x0070 | .stepSkipped => 0x0071 | .internal => 0x00FF

/-- The device states of R11. -/
inductive DevState where
  | dark | pilot | booting | maintenance | ready | running | draining | faulted
  deriving DecidableEq, Repr

/-- The STATE encoding of R634; DARK has no code there (nothing can be read in it) and reads 0. -/
def DevState.code : DevState → Nat
  | .dark => 0 | .pilot => 1 | .booting => 2 | .maintenance => 3 | .ready => 4
  | .running => 5 | .draining => 6 | .faulted => 7

/-- The lit states (R627): every state but DARK and PILOT. -/
def DevState.lit : DevState → Bool
  | .dark | .pilot => false
  | .booting | .maintenance | .ready | .running | .draining | .faulted => true

/-- The PILOT domain answers (every state but DARK). -/
def DevState.answers : DevState → Bool
  | .dark => false
  | _ => true

end Sys2Proof
end

