-- ==== Sys2Proof/Terms.lean ====
section
/-! DEFINITION. The operand types of the commands: unit addresses, mailbox requests, and the
reports of what only the environment decides (sensor readings, PASS or FAIL, decode outcomes). -/

namespace Sys2Proof

/-- The unit kinds of R658. -/
inductive UnitKind where
  | none | dieLane | portLane | array | tile | channel | stack | computeDie | port | link
  | sharedPage | beaconPage | bsu | device
  deriving DecidableEq, Repr

/-- The 8-byte unit address of R658, as its fields. -/
structure UnitAddr where
  kind : UnitKind := .none
  die : Nat := 0
  link : Nat := 0
  index : Nat := 0
  sub : Nat := 0
  deriving DecidableEq, Repr

/-- A lane of a die-to-die link of R23 or of a Torcor port (R526). -/
inductive LaneRef where
  | die (link lane : Nat)
  | port (port lane : Nat)
  deriving DecidableEq, Repr

/-- A mailbox request (R608): the header's fields but OPCODE, which is the row's, and the bytes
of the inline payload area. The reserved fields are kept so that R7 can be checked. -/
structure Request where
  flags : BitVec 16 := 0
  sequence : BitVec 32 := 0
  payloadLength : Nat := 0
  resultCapacity : Nat := 0
  payloadAddr : BitVec 64 := 0
  resultAddr : BitVec 64 := 0
  role : Nat := 0
  reserved : BitVec 120 := 0
  credential : BitVec 128 := 0
  payload : List Byte := []
  deriving DecidableEq, Repr

/-- PASS, MARGINAL or FAIL of a lane test (R26, R65), NOT_TESTED before the first (R735). -/
inductive TestResult where
  | pass | marginal | fail | notTested
  deriving DecidableEq, Repr

/-- The loop-back stages of R735. -/
inductive LoopStage where
  | electrical | optical
  deriving DecidableEq, Repr

/-- What the loop-backs and the training of one lane showed (R26, R63): the two loop-back results, the bit
errors counted over 1 ms of PRBS31, and whether the eye keeps its margin. -/
structure LaneTest where
  lane : LaneRef
  electrical : TestResult := .pass
  optical : TestResult := .pass
  bitErrors : Nat := 0
  eyeMargin : Bool := true
  deriving DecidableEq, Repr

/-- The units that failed an item of the boot self-test or of SELF_TEST (R733). -/
structure SelfTestReport where
  /-- Lanes tested, with what the tests showed; a lane not named passes. -/
  lanes : List LaneTest := []
  /-- (die, position, array) that failed the fixed vectors (R117). -/
  arrays : List (Nat × Nat × Nat) := []
  /-- (die, position, bank) of tile memory that failed the march test. -/
  banks : List (Nat × Nat × Nat) := []
  /-- (die, page) of the shared buffer that failed. -/
  sharedPages : List (Nat × Nat) := []
  /-- (stack, channel) whose BSU failed the fixed vectors. -/
  bsus : List (Nat × Nat) := []
  /-- (stack, channel) whose BSU SRAM failed the march test. -/
  bsuSram : List (Nat × Nat) := []
  /-- Beacon buffer pages that failed. -/
  beaconPages : List Nat := []
  /-- How long the run took, in ns (R735). -/
  durationNs : Nat := 0
  deriving DecidableEq, Repr

/-- What a stack's identification data says (R446, R449, R453): validity, the thresholds WARN,
THROTTLE, HALT and refresh in degrees Celsius, and the activation threshold. -/
structure StackId where
  valid : Bool := true
  warn : Nat := 85
  throttle : Nat := 95
  halt : Nat := 105
  refresh : Nat := 85
  activations : Nat := 4096
  deriving DecidableEq, Repr

/-- What a part reports with its start-up PASS (R673): the microcode, optics and port checks carry
nothing more; MBD_FIRMWARE carries the identification data of its stacks. -/
structure PartReport where
  stackIds : List StackId := []
  deriving DecidableEq, Repr

/-- What the boot ROM finds at WAKE: the SRAM march test, the dies that do not answer on the
sideband (R52), and whether every unit's retained image rehashes to the warm record (R728). -/
structure WakeReport where
  sramTestPass : Bool := true
  absentDies : List Nat := []
  imagesMatch : Bool := true
  /-- Identification data as the MBDs read it at a warm boot; empty when unchanged (R733). -/
  stackIds : List StackId := []
  deriving DecidableEq, Repr

/-- The firmware parts of R673. -/
inductive Part where
  | lampMain | lampRecovery | wickMicrocode | mbdFirmware | opticalEngine | portFirmware
  | beaconFirmware | policyTable
  deriving DecidableEq, Repr

/-- PART_TYPE of a part (R673). -/
def Part.code : Part → Nat
  | .lampMain => 1 | .lampRecovery => 2 | .wickMicrocode => 3 | .mbdFirmware => 4
  | .opticalEngine => 5 | .portFirmware => 6 | .beaconFirmware => 7 | .policyTable => 8

/-- How a descriptor's transfer ends: as its requests ended, or by a failure of the host link (R594). -/
inductive XferOutcome where
  | ok
  | hostLinkLost
  deriving DecidableEq, Repr

/-- What befell a protected unit that an access reads, a 32-byte burst of stacked memory or a word of an SRAM (R86,
R439, R440): a core die's own code corrected it, the MBD's code did, it decoded on retry, or it is lost. -/
inductive EccOutcome where
  | onDie | corrected | retried | uncorrectable
  deriving DecidableEq, Repr

/-- The units of an access that do not read clean: the number of each, counted from the unit that holds the access's
first byte, and what befell it. -/
abbrev Ecc := List (Nat × EccOutcome)

/-- A device read of host memory waiting for its completion (R584). -/
inductive HostRead where
  | dma (channel : Nat)
  | tileStream (die pos slot : Nat)
  | bsuStream (stack channel slot : Nat)
  | mailbox (n : Nat)
  deriving DecidableEq, Repr

/-- A register reached from the host that has no behaviour of its own: a BAR 0 offset, or a field
of configuration space for which the manual gives no offset. -/
inductive RegTarget where
  | bar0 (offset : Nat)
  | configMsixEnable
  | configCxlCacheEnable
  deriving DecidableEq, Repr

/-- The supply rails of RAIL_FAULT (R740), in bit order. -/
inductive Rail where
  | vddIod | vddCd0 | vddCd1 | vppHbm | vddHbm | vddqHbm | vddOpt | vddLaser
  deriving DecidableEq, Repr

/-- The bit of a rail in RAIL_FAULT (R740). -/
def Rail.bit : Rail → Nat
  | .vddIod => 0 | .vddCd0 => 1 | .vddCd1 => 2 | .vppHbm => 3 | .vddHbm => 4 | .vddqHbm => 5
  | .vddOpt => 6 | .vddLaser => 7

/-- The tuning states of R19 (OFF is the telemetry code of a ring that is not lit, R752). -/
inductive Tuning where
  | locked | seeking | rangeLimit | off
  deriving DecidableEq, Repr

/-- Why Lamplighter restarts (R605). -/
inductive RestartCause where
  | lockstep | watchdog | sramUncorrectable
  deriving DecidableEq, Repr

/-- The UNCONTAINED causes of R645 that are not a Lamplighter restart. -/
inductive UncontainedCause where
  | commitRecordReadBack | flashLogAppend | pilotParity | fuseParity
  deriving DecidableEq, Repr

/-- The TRACE settings of R702. -/
inductive TraceMode where
  | off | events | steps
  deriving DecidableEq, Repr

/-- A Torcor packet: the header of R540 field by field, and its payload. -/
structure Packet where
  ptype : Nat
  /-- FLAGS: virtual channel, FTC, LAST, NEIGHBOUR, reserved bits [7:6]. -/
  flags : BitVec 8 := 0
  srcRank : Nat := 0
  dstRank : Nat := 0
  key : BitVec 64 := 0
  step : BitVec 32 := 0
  entry : Nat := 0
  sequence : Nat := 0
  address : BitVec 64 := 0
  chainPos : Nat := 0
  hops : Nat := 0
  tag : BitVec 32 := 0
  msgId : BitVec 32 := 0
  e2eCrc : BitVec 32 := 0
  payload : List Byte := []
  deriving DecidableEq, Repr

/-- A 256-byte link flit (R536) as received. -/
structure Flit where
  kind : Nat
  creditVc : Nat := 0
  creditCount : Nat := 0
  seq : Nat := 0
  ack : Nat := 0
  ackValid : Bool := false
  nak : Bool := false
  body : List Byte := []
  crc : BitVec 32 := 0
  deriving DecidableEq, Repr

/-- FMT_OUT of an array slot (R157). -/
inductive FmtOut where
  | fp32 | bf16 | fp16 | none
  deriving DecidableEq, Repr

/-- INIT of an array slot (R76). -/
inductive InitMode where
  | zero | load | hold
  deriving DecidableEq, Repr

/-- The array slot's fields (R157); `pair` distinguishes PAIR_BACKWARD from MATMUL. -/
structure ArraySlot where
  pair : Bool
  fmtA : Nat
  fmtB : Nat
  fmtOut : FmtOut
  init : InitMode
  amax : Bool
  maskEn : Bool
  transA : Bool
  transB : Bool
  dxOnly : Bool
  oddSrc : Bool
  accBlock : Nat
  desc : Nat
  done : Nat
  fmtP : Nat
  deriving DecidableEq, Repr

/-- Where an upset strikes the arithmetic of an array (R104 to R108): an element of the accumulated block, one of
the eight predicted sums (rows, then columns), or the sum of a chunk on its way to an element. -/
inductive UpsetSite where
  | element (e : Nat)
  | predicted (line : Nat)
  | chunk (c e : Nat)
  deriving DecidableEq, Repr

/-- A transient upset in a pass: the array, its accumulator block, where it strikes, and the bits it flips. -/
structure Upset where
  array : Nat
  block : Nat
  site : UpsetSite
  flip : BitVec 32
  deriving DecidableEq, Repr

/-- A BSU operation descriptor (R470). BOP is the operation code of R473. -/
structure BsuDesc where
  bop : Nat
  cls : Nat := 0
  recordAmax : Bool := false
  countSat : Bool := false
  fmtA : Nat := 0
  fmtB : Nat := 0
  fmtD : Nat := 0
  slot : Nat := 0
  tensorA : Nat := 0xFFFFFFFF
  tensorB : Nat := 0xFFFFFFFF
  tensorD : Nat := 0xFFFFFFFF
  scalar : BitVec 32 := 0
  first : Nat := 0
  count : Nat := 1
  result : Nat := 0
  addend : Nat := 0
  rowElements : Nat := 0
  streamProgram : Nat := 0
  deriving DecidableEq, Repr

/-- Owners of requests at the shared points (R219, R220). -/
inductive ReqOwner where
  | tileSlot (die pos slot : Nat)
  | bsuSlot (stack channel slot : Nat)
  | xfer (die pos index : Nat)
  | dma (channel : Nat)
  | beacon (entry : Nat)
  /-- A cross-die event, a SIGNAL's or an XFER's (R169, R220). -/
  | event
  deriving DecidableEq, Repr

/-- The shared points of R219. -/
inductive Point where
  | tilePort (die pos : Nat)
  | diePort (die port : Nat)
  | pseudoChannel (stack pch : Nat)
  | linkCc (fromDie : Nat)
  | linkCi (die : Nat) (toIod : Bool)
  | beaconPort
  | hostOut
  deriving DecidableEq, Repr

/-- A running stream: a tile's slot or a BSU's (R192). -/
inductive StreamRef where
  | tile (die pos slot : Nat)
  | bsu (stack channel slot : Nat)
  deriving DecidableEq, Repr

/-- The on-chip memories that are scrubbed (R743), with the word's place in each. -/
inductive SramRef where
  | tileMemory (die pos : Nat)
  | sharedBuffer (die page : Nat)
  | bsuSram (stack channel : Nat)
  | beaconBuffer (page : Nat)
  | lamplighter
  deriving DecidableEq, Repr

end Sys2Proof
end

