-- ==== Sys2Proof/Syntax.lean ====
section
/-! DEFINITION. The commands of the block: one constructor for each row of the opcode table, in the
table's order, with the row's operands. An operand is what the sender names (a unit, a payload) or
what only the environment decides (a sensor reading, a PASS, a decode outcome). -/

namespace Sys2Proof

/-- A command. -/
inductive Instr where
  /-- QUERY_IDENTITY (R627). Mailbox command that returns the identity block, the available
  tiles per die and the unit identifier. -/
  | queryIdentity (n : Nat) (r : Request)
  /-- QUERY_STATE (R634). Mailbox command that returns the 64-byte state record. -/
  | queryState (n : Nat) (r : Request)
  /-- ATTACH (R635). Mailbox command that clears DETACHED and returns the held state of
  mailboxes and DMA channels. -/
  | attach (n : Nat) (r : Request)
  /-- READ_TELEMETRY (R753). Mailbox command that reads telemetry records from FROM_SEQ and may
  set the ring threshold. -/
  | readTelemetry (n : Nat) (r : Request)
  /-- READ_EVENTS (R668). Mailbox command that reads event records from the SRAM or flash ring
  and may acknowledge them. -/
  | readEvents (n : Nat) (r : Request)
  /-- OPEN_SESSION (R628). Mailbox command that sets the job session and topology, unloads the
  program and exchanges HELLO. -/
  | openSession (n : Nat) (r : Request)
  /-- SET_PROTECTION (R697). Owner command that replaces all host DMA windows and fabric
  partition keys at once. -/
  | setProtection (n : Nat) (r : Request)
  /-- MAP_REGION (R696). Owner command that applies all or none of a list of region-table SET
  and REMOVE operations. -/
  | mapRegion (n : Nat) (r : Request)
  /-- SET_POLICY (R636). Owner command that checks every policy item and then applies all of
  them or none. -/
  | setPolicy (n : Nat) (r : Request)
  /-- SET_CREDENTIAL (R619). Owner command that installs or replaces the Owner digest. -/
  | setCredential (n : Nat) (r : Request)
  /-- LOAD_PROGRAM (R144). Long command that checks a program image in order, lays out state and
  adopts or initialises the commit area. -/
  | loadProgram (n : Nat) (r : Request) (ecc : Ecc)
  /-- RUN_STEP (R631). Long command that checks and accepts a step, enters RUNNING and starts
  STEP_OPEN, font placement and tile lighting. -/
  | runStep (n : Nat) (r : Request)
  /-- ABORT_STEP (R632). Command that aborts the running step and originates the abort, unless
  the COMMITTED record was already written. -/
  | abortStep (n : Nat) (r : Request)
  /-- DRAIN (R629). Long command that moves the device to DRAINING or MAINTENANCE according to
  TARGET. -/
  | drain (n : Nat) (r : Request)
  /-- RESUME (R627). Command that returns the device from MAINTENANCE to READY when minimum
  service holds and the main image runs. -/
  | resume (n : Nat) (r : Request)
  /-- SELF_TEST (R734). Long command that runs the self-test items that SCOPE selects and
  returns the lane results. -/
  | selfTest (n : Nat) (r : Request) (rep : SelfTestReport)
  /-- RETIRE_UNIT_RETIRE (R660). RETIRE_UNIT with ACTION RETIRE, which retires a unit at once
  with every consequence of a threshold retirement. -/
  | retireUnitRetire (n : Nat) (r : Request)
  /-- RETIRE_UNIT_RESTORE (R661). RETIRE_UNIT with ACTION RESTORE, which appends a RESTORE entry
  that takes effect at the next boot. -/
  | retireUnitRestore (n : Nat) (r : Request)
  /-- STAGE_BUNDLE (R682). Owner command that fetches one 64 KiB bundle block and writes it to
  the target slot. -/
  | stageBundle (n : Nat) (r : Request)
  /-- ACTIVATE_BUNDLE (R684). Owner command that writes PENDING into the activation record for
  the next reset. -/
  | activateBundle (n : Nat) (r : Request)
  /-- ACTIVATE_BUNDLE_CANCEL (R684). ACTIVATE_BUNDLE with CANCEL, which clears PENDING. -/
  | activateBundleCancel (n : Nat) (r : Request)
  /-- ATTEST (R689). Command that returns a report signed by the identity key. -/
  | attest (n : Nat) (r : Request)
  /-- RESET_DEVICE (R627). Command that writes OK and then resets the whole device to DARK. -/
  | resetDevice (n : Nat) (r : Request)
  /-- OWNER_LOCKOUT_EXPIRY (R620). End of the 60 s lockout, after which OWNER requests are
  served again. -/
  | ownerLockoutExpiry
  /-- DOORBELL_OVERRUN (R612). Doorbell write on a SUBMITTED or PENDING mailbox, which is
  ignored and counted. -/
  | doorbellOverrun (n : Nat)
  /-- REGISTER_WRITE (R5). Write to a register field that has no behaviour of its own, under its
  access type. -/
  | registerWrite (target : RegTarget) (value : BitVec 32)
  /-- MEMWIN_BASE_WRITE (R587). Write of MEMWIN_BASE, which rebases every later BAR 2 request.
  -/
  | memwinBaseWrite (value : BitVec 64)
  /-- INT_STATUS_CLEAR (R601). W1C write that clears pending interrupt source bits. -/
  | intStatusClear (value : BitVec 64)
  /-- HOST_ERR_CLEAR (R601). Write of 1 to HOST_ERR VALID, which clears the whole error record.
  -/
  | hostErrClear (value : BitVec 32)
  /-- DMA_TAIL_WRITE (R591). Write of a DMA channel's TAIL, which acts as the channel doorbell
  and may start the next descriptor. -/
  | dmaTailWrite (ch : Nat) (value : BitVec 32)
  /-- DMA_RESTART (R602). Write of RESTART, which takes a HALTED channel out of HALTED to resume
  at HEAD. -/
  | dmaRestart (ch : Nat)
  /-- DMA_DESCRIPTOR_COMPLETE (R593). Completion of a descriptor once its bytes are visible,
  with STATUS, CAUSE and DONE written and HEAD advanced. -/
  | dmaDescriptorComplete (ch : Nat) (outcome : XferOutcome)
  /-- BAR2_READ (R588). Host read through the memory window, served in arrival order or recorded
  in HOST_ERR. -/
  | bar2Read (offset len : Nat) (ecc : Ecc)
  /-- BAR2_WRITE (R588). Host write through the memory window, served in arrival order or
  dropped and recorded. -/
  | bar2Write (offset : Nat) (data : List Byte) (ecc : Ecc)
  /-- HOST_READ_TIMEOUT (R584). A device read of host memory with no completion within 50 ms
  ends with HOST_LINK_LOST. -/
  | hostReadTimeout (read : HostRead)
  /-- HOST_LINK_RETRAIN_COMPLETE (R596). Retraining of the host link that completes within 100
  ms and loses nothing. -/
  | hostLinkRetrainComplete
  /-- HOST_LINK_LOSS (R597). Link loss, including retraining beyond 100 ms, which resets host
  state, sets DETACHED and drains the step. -/
  | hostLinkLoss
  /-- PERST_ASSERT (R597). Assertion of PERST#, handled as a link loss with host interface state
  reset. -/
  | perstAssert
  /-- HOST_LINK_RETURN (R599). Return of the host link after a loss or PERST#, which signals
  vector 26 once MSI-X is enabled. -/
  | hostLinkReturn (speed width : Nat) (cxl : Bool)
  /-- VDD_PILOT_UP (R722). VDD_PILOT comes within tolerance and powers the supply monitors and
  retention store. -/
  | vddPilotUp
  /-- VDD_PILOT_LOSS (R726). Loss of the pilot supply, which takes the device to DARK and clears
  the retention store. -/
  | vddPilotLoss
  /-- DEV_RESET_N_RELEASE (R623). Release of DEV_RESET_N with supplies up, which starts the
  pilot domain, samples straps and enters PILOT. -/
  | devResetNRelease (rails : BitVec 8) (straps : BitVec 2)
  /-- DEV_RESET_N_ASSERT (R726). Assertion of DEV_RESET_N, which puts the stacks in self-refresh
  and resets the device to DARK. -/
  | devResetNAssert
  /-- RAIL_EXCURSION (R725). A rail other than VDD_PILOT out of tolerance for more than 2 µs,
  handled as a reset to DARK with RAIL_FAULT set. -/
  | railExcursion (rail : Rail)
  /-- RAILS_RESTORED (R725). Every rail back within tolerance after an excursion, so the device
  passes to PILOT. -/
  | railsRestored
  /-- WAKE (R717). WAKE_N held low for 10 µs in PILOT, which starts BOOTING. -/
  | wake (rep : WakeReport)
  /-- PART_STARTUP_TIMEOUT (R673). A loaded part that reports no PASS within 500 ms fails its
  start-up check. -/
  | partStartupTimeout
  /-- PART_STARTUP_PASS (R673). A part reports PASS, and loading moves to the next part or boot
  continues. -/
  | partStartupPass (rep : PartReport)
  /-- LINK_TRAINING_COMPLETE (R27). End of link training at boot, with lane states assigned from
  PASS, MARGINAL and FAIL. -/
  | linkTrainingComplete (rep : SelfTestReport)
  /-- RING_TUNING_TICK (R19). Run of a ring's tuning loop every 20 µs, updating its heater code
  and tuning state. -/
  | ringTuningTick (link lane role : Nat) (heater detune : BitVec 16) (tuning : Tuning)
  /-- RING_OUT_OF_LOCK (R20). A ring out of LOCKED for more than 1 µs while its lane is ACTIVE,
  a transient-threshold crossing. -/
  | ringOutOfLock (link lane role : Nat)
  /-- LANE_THRESHOLD_CROSSING (R29). Evaluation of the sliding 1 s window that finds a transient
  or permanent lane threshold crossed. -/
  | laneThresholdCrossing (lane : LaneRef) (bitErrors codewords : Nat)
  /-- LANE_LOSS_OF_SIGNAL (R30). A lane without signal for more than 1 µs, counted as a failed
  retrain. -/
  | laneLossOfSignal (lane : LaneRef)
  /-- QUIESCE_POINT (R31). A link reaches its quiesce point and applies the pending lane swap,
  retrain or narrowing. -/
  | quiescePoint (link : LaneRef)
  /-- LANE_RETRAIN_COMPLETE (R33). End of a single-lane retrain, which returns the lane to
  ACTIVE or handles it as a failed retrain. -/
  | laneRetrainComplete (lane : LaneRef) (passed : Bool)
  /-- BACKGROUND_RETRAIN (R33). Retrain of a SUSPECT lane 60 s after it became SUSPECT, making
  it SPARE or retiring it. -/
  | backgroundRetrain (lane : LaneRef) (passed : Bool)
  /-- SPARE_LANE_ROTATION (R747). Daily swap of the most-used ACTIVE lane with the least-used
  SPARE lane of a die-to-die link. -/
  | spareLaneRotation (link : Nat)
  /-- BUNDLE_ISSUE (R151). Issue of one bundle on a tile, or its hold at a WAIT or a full queue.
  -/
  | bundleIssue (d p : Nat) (ecc : Ecc)
  /-- ARRAY_NOP (R157). Array slot opcode NOP. -/
  | arrayNop (d p : Nat)
  /-- MATMUL (R74). Forward array operation over row groups and passes, with checksums and
  write-back. -/
  | matmul (d p : Nat) (slot : ArraySlot) (ecc : Ecc)
  /-- PAIR_BACKWARD (R88). Backward pair operation computing dX and, by pair mode, dW or ZᵀdY.
  -/
  | pairBackward (d p : Nat) (slot : ArraySlot) (ecc : Ecc)
  /-- ARRAY_PASS_WRITE_BACK (R77). End of a pass, with checksum comparison, conversion, amax and
  masked write-back. -/
  | arrayPassWriteBack (d p : Nat) (upsets : List Upset)
  /-- ARRAY_OP_COMPLETE (R78). Completion of an array operation after every pass has passed its
  checksum and been written, incrementing DONE_EVENT. -/
  | arrayOpComplete (d p : Nat)
  /-- FLICKER_REPLAY (R109). Replay of a flickered operation from the accumulator snapshot after
  its last pass. -/
  | flickerReplay (d p : Nat)
  /-- ARRAY_RETIRED (R112). An array whose flicker history reaches a threshold is retired and
  the spare is requested. -/
  | arrayRetired (d p a : Nat)
  /-- SPARE_SUBSTITUTION_COMPLETE (R113). The spare array takes the retired array's position and
  snapshot, and the operation is replayed. -/
  | spareSubstitutionComplete (d p : Nat)
  /-- TILE_RETIRED (R114). Retirement of a tile, which faults its operation, aborts the step and
  takes the tile dark. -/
  | tileRetired (d p : Nat)
  /-- VECTOR_NOP (R161). Vector slot opcode NOP. -/
  | vectorNop (d p : Nat)
  /-- VECTOR_ADD (R161). Vector operation D = A + B. -/
  | vectorAdd (d p desc done : Nat) (ecc : Ecc)
  /-- VECTOR_SUB (R161). Vector operation D = A − B. -/
  | vectorSub (d p desc done : Nat) (ecc : Ecc)
  /-- VECTOR_MUL (R161). Vector operation D = A × B. -/
  | vectorMul (d p desc done : Nat) (ecc : Ecc)
  /-- VECTOR_FMA (R161). Vector operation D = A × B + D, fused. -/
  | vectorFma (d p desc done : Nat) (ecc : Ecc)
  /-- VECTOR_AXPY (R161). Vector operation D = SCALAR × A + B, fused. -/
  | vectorAxpy (d p desc done : Nat) (ecc : Ecc)
  /-- VECTOR_MAX (R161). Vector elementwise maximum. -/
  | vectorMax (d p desc done : Nat) (ecc : Ecc)
  /-- VECTOR_MIN (R161). Vector elementwise minimum. -/
  | vectorMin (d p desc done : Nat) (ecc : Ecc)
  /-- VECTOR_EXP (R253). Vector exponential, correctly rounded. -/
  | vectorExp (d p desc done : Nat) (ecc : Ecc)
  /-- VECTOR_LOG (R253). Vector natural logarithm, correctly rounded. -/
  | vectorLog (d p desc done : Nat) (ecc : Ecc)
  /-- VECTOR_RCP (R253). Vector reciprocal, correctly rounded. -/
  | vectorRcp (d p desc done : Nat) (ecc : Ecc)
  /-- VECTOR_RSQRT (R253). Vector reciprocal square root, correctly rounded. -/
  | vectorRsqrt (d p desc done : Nat) (ecc : Ecc)
  /-- VECTOR_SUM (R251). Vector FP32 sum in the chunked reference order. -/
  | vectorSum (d p desc done : Nat) (ecc : Ecc)
  /-- VECTOR_AMAX (R262). Vector largest magnitude with the NaN and infinity rules. -/
  | vectorAmax (d p desc done : Nat) (ecc : Ecc)
  /-- VECTOR_CONVERT (R265). Scaled conversion to a narrow format, with a given or derived
  power-of-two scale. -/
  | vectorConvert (d p desc done : Nat) (ecc : Ecc)
  /-- VECTOR_ACCUM (R259). Vector D = D + A, stochastically rounded into a 16-bit destination.
  -/
  | vectorAccum (d p desc done : Nat) (ecc : Ecc)
  /-- VECTOR_DROPOUT (R335). Drop-out with the mask regenerated from Philox. -/
  | vectorDropout (d p desc done : Nat) (ecc : Ecc)
  /-- VECTOR_COPY (R161). Vector format conversion copy. -/
  | vectorCopy (d p desc done : Nat) (ecc : Ecc)
  /-- VECTOR_OP_COMPLETE (R168). Completion of a vector operation once its writes are visible,
  updating amax and incrementing DONE_EVENT. -/
  | vectorOpComplete (d p : Nat)
  /-- STREAM_SLOT_NOP (R162). Stream slot opcode NOP. -/
  | streamSlotNop (d p : Nat)
  /-- BIND (R162). Binds a stream slot to a stream program. -/
  | bind (d p slot prog : Nat)
  /-- START (R206). Loads Q registers, clears the stream's registers and starts the stream at
  instruction 0. -/
  | start (d p slot arg done : Nat)
  /-- CONSUME (R211). Releases the oldest completed blocks to the producer, or ends the stream
  with CONSUME_EXCESS. -/
  | consume (d p slot blocks : Nat)
  /-- UNBIND (R162). Unbinds an idle stream slot. -/
  | unbind (d p slot : Nat)
  /-- CONTROL_NOP (R164). Control slot opcode NOP. -/
  | controlNop (d p : Nat)
  /-- WAIT (R164). Holds the bundle until a counter reaches a threshold, optionally consuming
  it. -/
  | wait (d p counter threshold : Nat) (consume : Bool)
  /-- SIGNAL (R164). Sends an increment to a counter of a tile on the same or the other die. -/
  | signal (d p counter scope target increment : Nat)
  /-- SIGNAL_ARRIVAL (R169). Arrival of a SIGNAL increment at its target counter, in issue
  order. -/
  | signalArrival (fromDie fromPos toDie toPos counter : Nat)
  /-- YIELD (R174). Yield point at which wick may switch to a lower-numbered READY context. -/
  | yieldPoint (d p : Nat)
  /-- BARRIER (R170). Arrival of a tile at a barrier, blocking its context until the barrier
  opens. -/
  | barrier (d p id : Nat)
  /-- BARRIER_OPEN (R170). A barrier opens when every member has arrived and releases the
  members. -/
  | barrierOpen (id : Nat)
  /-- XFER (R781). Die-to-die copy split into requests with up to 32 outstanding. -/
  | xfer (d p desc done : Nat)
  /-- XFER_COMPLETE (R781). Last byte of an XFER visible, incrementing DONE_EVENT and
  TARGET_EVENT in issue order. -/
  | xferComplete (d p : Nat)
  /-- COLL (R164). Issues a Beacon operation or BSU operation from the collective plan. -/
  | coll (d p entry done : Nat)
  /-- FENCE (R164). Holds the context until its writes to the named scopes are visible. -/
  | fence (d p scopes : Nat)
  /-- FENCE_COMPLETE (R164). Writes of the fenced scopes become visible and the context is
  released. -/
  | fenceComplete (d p ctx : Nat)
  /-- HALT (R164). Holds until the context's operations complete, then sets it HALTED. -/
  | halt (d p : Nat)
  /-- CONTEXT_HALTED (R179). A context reaches HALTED; the last one ends the compute phase and
  starts the update. -/
  | contextHalted (d p ctx : Nat)
  /-- NEXT (R154). Sequencing to the next bundle. -/
  | nextBundle (d p : Nat)
  /-- LOOP_BEGIN (R154). Starts a loop with an immediate count. -/
  | loopBegin (d p reg imm : Nat)
  /-- LOOP_BEGIN_P (R155). Starts a loop with a count from a parameter register. -/
  | loopBeginP (d p reg imm : Nat)
  /-- LOOP_END (R154). Decrements a loop count and branches back while it is non-zero. -/
  | loopEnd (d p reg : Nat)
  /-- JUMP (R154). Branches within the current segment. -/
  | jump (d p imm : Nat)
  /-- SEGMENT (R149). Transfers to another segment, resident or loaded. -/
  | segment (d p imm : Nat)
  /-- SEGMENT_LOAD_COMPLETE (R149). End of a segment load, which unblocks the context. -/
  | segmentLoadComplete (d p : Nat)
  /-- PADD (R154). Adds a signed immediate to a parameter register. -/
  | padd (d p reg imm : Nat)
  /-- PSET (R154). Sets a parameter register to an immediate. -/
  | pset (d p reg imm : Nat)
  /-- JUMP_IF_GE (R154). Branches when a parameter register is at least P1. -/
  | jumpIfGe (d p reg imm : Nat)
  /-- CONTEXT_SWITCH_COMPLETE (R176). End of the 16-cycle switch, after which the new context
  issues. -/
  | contextSwitchComplete (d p : Nat)
  /-- TILE_IDLE_DARK (R180). A used tile with all contexts halted or blocked for 4,096 cycles
  goes dark. -/
  | tileIdleDark (d p : Nat)
  /-- TILE_LIT (R181). A dark tile finishes lighting and may issue. -/
  | tileLit (d p : Nat)
  /-- STREAM_END (R204). Stream instruction END. -/
  | streamEnd (r : StreamRef)
  /-- STREAM_SETA (R204). Stream instruction that sets an address register. -/
  | streamSeta (r : StreamRef)
  /-- STREAM_SETS (R204). Stream instruction that sets a stride register. -/
  | streamSets (r : StreamRef)
  /-- STREAM_ADDS (R204). Stream instruction that adds a stride to an address register. -/
  | streamAdds (r : StreamRef)
  /-- STREAM_ADDQ (R204). Stream instruction that adds a scaled Q register to an address
  register. -/
  | streamAddq (r : StreamRef)
  /-- STREAM_LOOP (R204). Stream instruction that starts a counted loop. -/
  | streamLoop (r : StreamRef)
  /-- STREAM_LOOPQ (R204). Stream instruction that starts a loop counted by a Q register. -/
  | streamLoopq (r : StreamRef)
  /-- STREAM_ENDLOOP (R204). Stream instruction that decrements a loop and returns to the body.
  -/
  | streamEndloop (r : StreamRef)
  /-- STREAM_MOVE (R207). Stream instruction that splits a move into requests of at most 256
  bytes and issues them. -/
  | streamMove (r : StreamRef)
  /-- STREAM_INDEX (R215). Stream instruction that pops an index value and forms an address, or
  waits on an empty FIFO. -/
  | streamIndex (r : StreamRef)
  /-- STREAM_BACK_PRESSURE_RESUME (R210). A buffered stream waiting on full blocks resumes
  issuing when CONSUME frees a block. -/
  | streamBackPressureResume (r : StreamRef)
  /-- REQUEST_LANDED (R209). A stream request lands and becomes visible. -/
  | requestLanded (owner : ReqOwner) (seq : Nat) (ecc : Ecc)
  /-- STREAM_ERROR (R229). A stream ends in error, enters ERROR and aborts the step. -/
  | streamError (r : StreamRef) (reason tier : Nat) (destSide : Bool)
  /-- NO_PROGRESS (R231). A RUNNING stream that lands no byte for STALL_LIMIT ends with
  NO_PROGRESS. -/
  | noProgress (owner : ReqOwner)
  /-- ARBITER_GRANT (R221). A shared point grants the candidate of smallest deadline rank at a
  grant opportunity. -/
  | arbiterGrant (pt : Point) (ecc : Ecc)
  /-- FTC_UNIT_GRANT (R520). An FTC unit that falls free goes to the waiting stream with the
  lowest slot key. -/
  | ftcUnitGrant (die : Nat) (encoder : Bool)
  /-- STEP_COMPUTE_START (R631). After placement and tile lighting complete, the step constants
  are written and context 0 issues. -/
  | stepComputeStart
  /-- STEP_OPEN_COMPLETE (R404). Result of STEP_OPEN, which rolls back, rolls forward or skips
  as NOT_CURRENT before the step runs. -/
  | stepOpenComplete
  /-- STEP_STATS_COMPLETE (R386). Result of STEP_STATS, which votes 0b101 on NONFINITE or issues
  RECORD_STATS. -/
  | stepStatsComplete
  /-- RECORD_STATS_COMPLETE (R386). Result of RECORD_STATS, which starts the sweep into the
  shadow bank. -/
  | recordStatsComplete
  /-- SWEEP_COMPLETE (R386). End of the sweep, which forms the vote and, when due, issues
  DIGEST_EXCHANGE. -/
  | sweepComplete
  /-- DIGEST_EXCHANGE_COMPLETE (R407). Comparison of replica digests that sets DIGEST_OK,
  followed by the PREPARED record and COMMIT_READY. -/
  | digestExchangeComplete
  /-- COMMIT_READY_COMPLETE (R392). The FLAG_AND result decides UPDATE, SKIP or NOT_COMMITTED
  and the commit record is written. -/
  | commitReadyComplete
  /-- STEP_END (R623). End of a step by commit, skip or abort, returning to READY or
  MAINTENANCE. -/
  | stepEnd
  /-- EXPORT_START (R408). Start of delta export of a committed step's object after the flip. -/
  | exportStart
  /-- EXPORT_COMPLETE (R409). An exported object is complete at its sink and a waiting sweep may
  proceed. -/
  | exportComplete
  /-- GRADIENT_CLEAR_COMPLETE (R369). End of the BSU clearing of every gradient copy after a
  skip or abort. -/
  | gradientClearComplete
  /-- COMMIT_COPY_REBUILT (R457). A new copy of the commit or program area is written after its
  channel is retired. -/
  | commitCopyRebuilt (readBack : Bool)
  /-- BSU_ADD (R473). BSU operation D = A + B. -/
  | bsuAdd (d p done : Nat) (desc : BsuDesc)
  /-- BSU_MUL (R473). BSU operation D = A × B. -/
  | bsuMul (d p done : Nat) (desc : BsuDesc)
  /-- BSU_AXPY (R473). BSU operation D = SCALAR × A + B, fused. -/
  | bsuAxpy (d p done : Nat) (desc : BsuDesc)
  /-- BSU_SCALE (R473). BSU operation D = SCALAR × A. -/
  | bsuScale (d p done : Nat) (desc : BsuDesc)
  /-- BSU_FILL (R473). BSU operation D = SCALAR. -/
  | bsuFill (d p done : Nat) (desc : BsuDesc)
  /-- BSU_COPY (R473). BSU conversion copy. -/
  | bsuCopy (d p done : Nat) (desc : BsuDesc)
  /-- BSU_CONVERT (R479). BSU scaling pass with one broadcast power-of-two scale. -/
  | bsuConvert (d p done : Nat) (desc : BsuDesc)
  /-- BSU_ACCUM (R474). BSU D = D + A, stochastically rounded into 16-bit destinations. -/
  | bsuAccum (d p done : Nat) (desc : BsuDesc)
  /-- BSU_SUM (R477). BSU FP32 sum combined over the ring and stacks. -/
  | bsuSum (d p done : Nat) (desc : BsuDesc)
  /-- BSU_NORM2 (R477). BSU FP32 squared norm combined over the ring and stacks. -/
  | bsuNorm2 (d p done : Nat) (desc : BsuDesc)
  /-- BSU_AMAX (R477). BSU largest magnitude. -/
  | bsuAmax (d p done : Nat) (desc : BsuDesc)
  /-- BSU_GATHER (R480). BSU row gather by index. -/
  | bsuGather (d p done : Nat) (desc : BsuDesc)
  /-- BSU_SCATTER_ADD (R480). BSU row scatter-add by index in index order. -/
  | bsuScatterAdd (d p done : Nat) (desc : BsuDesc)
  /-- BSU_STREAM (R481). Starts a stream program on a BSU slot of every BSU holding the range.
  -/
  | bsuStream (d p done : Nat) (desc : BsuDesc)
  /-- LANDING_ACCUM (R478). Accumulation of a landed reduced sum into the gradient copy. -/
  | landingAccum (st ch : Nat) (ecc : Ecc)
  /-- BSU_SLICE_END (R489). End of a BSU slice, which releases its footprint, grants held
  requests and chooses the next slice. -/
  | bsuSliceEnd (st ch : Nat) (ecc : Ecc)
  /-- BSU_OPERATION_COMPLETE (R469). Every BSU finishes its part and the COLL's DONE_EVENT is
  incremented. -/
  | bsuOperationComplete (id : Nat)
  /-- BSU_OPERATION_ERROR (R494). A BSU operation ends in error, the BSUs stop and the device
  acts by operation kind. -/
  | bsuOperationError (id st ch reason : Nat)
  /-- BSU_IDLE_DARK (R467). A BSU with no work for 20 µs goes dark. -/
  | bsuIdleDark (st ch : Nat)
  /-- BSU_LIT (R467). A dark BSU finishes lighting for dispatched work. -/
  | bsuLit (st ch : Nat)
  /-- BSU_DUTY_WINDOW (R486). Start of a BSU's share of each 10 µs duty window under a cap. -/
  | bsuDutyWindow (st ch : Nat)
  /-- REFRESH_DUE (R444). A bank's per-bank refresh falls due and is issued or postponed. -/
  | refreshDue (st pch bank : Nat)
  /-- REFRESH_FORCED (R445). A bank whose debt reaches 8 takes a forced refresh that holds its
  requests. -/
  | refreshForced (st pch bank : Nat)
  /-- REFRESH_MANAGEMENT (R446). A bank's activation count reaches threshold and a refresh-
  management command is issued. -/
  | refreshManagement (st pch bank : Nat)
  /-- PATROL_SCRUB_SECTOR (R442). The scrubber reads one sector and writes back a corrected
  sector. -/
  | patrolScrubSector (st pch : Nat) (ecc : Ecc)
  /-- SCRUB_LATE (R443). A scrub cycle not complete after 24 h sets SCRUB_LATE. -/
  | scrubLate (st : Nat)
  /-- STACK_SENSOR_SAMPLE (R448). Sample of every layer sensor each 50 µs, with stage rises
  including entry to HALT. -/
  | stackSensorSample (st : Nat) (temps : List Int)
  /-- STAGE_FALL (R450). A stack falls one stage after 10 ms with every governing temperature 3
  °C below. -/
  | stageFall (st : Nat)
  /-- CHANNEL_RETIRED (R455). A channel that reaches a threshold leaves service with its BSU and
  its regions are marked lost. -/
  | channelRetired (st ch : Nat) (threshold : Nat)
  /-- PHY_CALIBRATION (R744). Drift calibration of one pseudo-channel, holding its requests for
  up to 200 ns. -/
  | phyCalibration (st pch : Nat)
  /-- SHARED_PAGE_RETIRED (R641). A shared-buffer page with 2 uncorrectable events in 60 min is
  mapped out and its regions marked lost. -/
  | sharedPageRetired (die page : Nat)
  /-- BEACON_PAGE_REPLACED (R641). A failing Beacon buffer page is replaced from the early-
  arrival reserve. -/
  | beaconPageReplaced (page : Nat)
  /-- SHARED_QUARTER_DARK (R719). A shared-buffer quarter with no access for 100 µs goes dark.
  -/
  | sharedQuarterDark (die quarter : Nat)
  /-- SHARED_QUARTER_LIT (R720). A dark quarter finishes lighting and serves the waiting access.
  -/
  | sharedQuarterLit (die quarter : Nat)
  /-- SRAM_SCRUB_WORD (R743). Scrub of one on-chip word in an unclaimed bank cycle. -/
  | sramScrubWord (word : SramRef) (ecc : Option EccOutcome) (passDone : Bool)
  /-- LASER_TRACKING (R746). Sample of each laser each 1 s, with switchover or retirement of a
  worn source. -/
  | laserTracking (source drive output : Nat) (temp : BitVec 16)
  /-- LASER_OUTPUT_DROP (R746). A source whose output falls more than 3 dB within 1 ms is
  retired and its partner raised. -/
  | laserOutputDrop (source output : Nat)
  /-- FLASH_RELOCATION (R748). Relocation of a worn flash block when the controller is idle; whether its erase
  succeeds. -/
  | flashRelocation (block : Nat) (eraseOk : Bool)
  /-- TELEMETRY_SAMPLE (R749). Each 1 ms, closing of an interval and appending of a 512-byte
  telemetry record. -/
  | telemetrySample (meanPowerMw : Nat)
  /-- SNUFFER_WINDOW (R737). End of a 100 µs window, which raises the Snuffer level when power
  or die temperature is too high. -/
  | snufferWindow (powerMw : Nat) (cdTempMax iodTemp : Int)
  /-- SNUFFER_LOWER (R737). After 1 ms below 0.95 L and 95 °C, the Snuffer level falls by one.
  -/
  | snufferLower
  /-- TILE_HOLD (R738). Start or end of a tile's thermal hold within each 10 µs window. -/
  | tileHold (d p : Nat) (start : Bool)
  /-- THERM_ASSERT (R739). The pilot controller asserts THERM_N at 110 °C or after 10 ms at
  level 4 over the limit. -/
  | thermAssert
  /-- THERM_RELEASE (R739). THERM_N is released after 10 ms below 100 °C and below the limit. -/
  | thermRelease
  /-- LAMPLIGHTER_RESTART (R605). Lockstep mismatch, watchdog expiry or uncorrectable SRAM word
  restarts Lamplighter and enters FAULTED. -/
  | lamplighterRestart (cause : RestartCause)
  /-- UNCONTAINED (R645). An uncontained fault moves the device to FAULTED. -/
  | uncontained (cause : UncontainedCause)
  /-- FLIT_RECEIVE (R537). Receipt of a link flit, with CRC and sequence checks, acknowledgement
  or NAK, and credit return. -/
  | flitReceive (port : Nat) (flit : Flit)
  /-- FLIT_ACK_TIMEOUT (R537). No acknowledgement for 2 µs triggers replay from the oldest
  unacknowledged flit. -/
  | flitAckTimeout (port : Nat)
  /-- LANE_CHANGE (R527). Receipt of a LANE_CHANGE control message that both port ends apply at
  one quiesce point. -/
  | laneChange (port lane width : Nat)
  /-- RETRAIN_REQUEST (R539). Receipt of a RETRAIN_REQUEST control message. -/
  | retrainRequest (port lane : Nat)
  /-- QUIESCE (R539). Receipt of a QUIESCE control message. -/
  | quiesce (port : Nat)
  /-- PACKET_FORWARD (R535). Cut-through forwarding of a packet not addressed to this device. -/
  | packetForward (port : Nat) (pkt : Packet)
  /-- PUT_RECEIVE (R545). Receipt of a PUT, which is written and acknowledged or refused with
  NACK. -/
  | putReceive (port : Nat) (pkt : Packet) (ecc : Ecc)
  /-- PACKET_ACK_RECEIVE (R545). Receipt of an ACK, which completes a PUT and increments its
  DONE_EVENT. -/
  | packetAckReceive (port : Nat) (pkt : Packet)
  /-- NACK_RECEIVE (R544). Receipt of a NACK, which ends a PUT with FABRIC_ABORT or aborts a
  collective. -/
  | nackReceive (port : Nat) (pkt : Packet)
  /-- COLL_DATA_RECEIVE (R561). Receipt of collective data, matched by step, entry and sequence,
  held early or discarded as stale. -/
  | collDataReceive (port : Nat) (pkt : Packet)
  /-- COLL_FLAG_RECEIVE (R561). Receipt of a collective flag word. -/
  | collFlagReceive (port : Nat) (pkt : Packet)
  /-- ABORT_RECEIVE (R567). Receipt of the first ABORT for a step, which is forwarded and ends
  the step's instances. -/
  | abortReceive (port : Nat) (pkt : Packet)
  /-- HELLO_RECEIVE (R529). Receipt of a HELLO, which is compared with the expected rank and
  port and may put the port in MISWIRED. -/
  | helloReceive (port : Nat) (pkt : Packet)
  /-- PUT_TIMEOUT (R545). A PUT with neither ACK nor NACK within STALL_LIMIT ends with
  FABRIC_ABORT. -/
  | putTimeout (msgId : Nat)
  /-- COLLECTIVE_STALL (R568). A collective instance idle for STALL_LIMIT aborts with
  FABRIC_ABORT and the device originates an abort. -/
  | collectiveStall (entry sequence : Nat)
  /-- COLLECTIVE_COMPLETE (R560). The device's part of a collective is visible and the COLL's
  DONE_EVENT is incremented. -/
  | collectiveComplete (entry sequence : Nat)
  /-- PORT_PEER_LOSS (R779). Loss of signal on every lane of a port, or of the peer for 1 ms,
  makes the port FAILED without charging lanes. -/
  | portPeerLoss (port : Nat)
  /-- PORT_TRAINING_COMPLETE (R575). A port finishes training and exchanges HELLO. -/
  | portTrainingComplete (port : Nat) (tests : List LaneTest)
  /-- ETHERNET_LINK_UP (R547). A port set to Ethernet mode finishes training and becomes
  ETHERNET_UP. -/
  | ethernetLinkUp (port : Nat)
  /-- ETHERNET_LANE_FAILURE (R549). A lane failure in Ethernet mode takes the port to
  ETHERNET_DOWN. -/
  | ethernetLaneFailure (port lane : Nat)
  /-- ETHERNET_RETRAIN (R549). A port in ETHERNET_DOWN retries training every 10 s. -/
  | ethernetRetrain (port : Nat) (passed : Bool)
  /-- CNP_RECEIVE (R548). Receipt of a congestion notification packet, which reduces the sending
  rate. -/
  | cnpReceive (port : Nat)
  /-- ETHERNET_INBOUND_REQUEST (R548). An inbound RDMA request, which is refused with a remote-
  access NAK. -/
  | ethernetInboundRequest (port : Nat)
  /-- ETH_READ_COMPLETE (R551). Completion or failure of an RDMA READ of an ETH_READ plan entry.
  -/
  | ethReadComplete (entry sequence : Nat) (data : Option (List Byte))
  /-- I3C_STATUS (R756). Out-of-band command that returns pilot, Snuffer and temperature status
  and the state record. -/
  | i3cStatus
  /-- I3C_RECORDS (R756). Out-of-band command that reads telemetry records with its own cursor.
  -/
  | i3cRecords (fromSeq count : Nat)
  /-- I3C_EVENTS (R756). Out-of-band command that reads event records without acknowledgement.
  -/
  | i3cEvents (fromSeq count : Nat)
  /-- I3C_REGISTER (R756). Out-of-band command that reads control-space registers. -/
  | i3cRegister (addr words : Nat)
  /-- I3C_DISEC (R757). Controller command that disables the target's in-band interrupts. -/
  | i3cDisec
  /-- I3C_SETDASA (R755). Assignment of a dynamic address from the static address. -/
  | i3cSetdasa (addr : BitVec 7)
  /-- I3C_ENTDAA (R755). Dynamic address assignment procedure. -/
  | i3cEntdaa (addr : BitVec 7)
  /-- TINDER_HELP (R702). Tinder command that lists the commands. -/
  | tinderHelp
  /-- TINDER_STATUS (R702). Tinder command that prints the state record. -/
  | tinderStatus
  /-- TINDER_UNLOCK (R701). Tinder command that unlocks with the Owner credential until reset.
  -/
  | tinderUnlock (credential : BitVec 128)
  /-- TINDER_PEEK (R702). Tinder command that reads aligned words. -/
  | tinderPeek (addr words : Nat)
  /-- TINDER_POKE (R704). Tinder command that writes one word and sets TAINTED. -/
  | tinderPoke (addr : Nat) (value : BitVec 32)
  /-- TINDER_DUMP (R702). Tinder command that prints up to 1 MiB. -/
  | tinderDump (addr len : Nat) (ecc : Ecc)
  /-- TINDER_TRACE (R702). Tinder command that selects event, step or no trace output. -/
  | tinderTrace (mode : TraceMode)
  /-- TINDER_BREAK (R703). Tinder command that stops tile issue and holds BSUs, setting TAINTED.
  -/
  | tinderBreak
  /-- TINDER_GO (R702). Tinder command that ends a BREAK. -/
  | tinderGo
  /-- TINDER_FUSE_DEBUG (R706). Tinder command that blows the debug fuse for the named unit. -/
  | tinderFuseDebug (unitId : BitVec 128)
  /-- JTAG_FUSE_DEBUG (R706). JTAG instruction FUSE_DEBUG that blows the debug fuse. -/
  | jtagFuseDebug
  /-- DEBUG_ACCESS (R705). JTAG instruction for register and memory access. -/
  | debugAccess (addr : Nat) (value : Option (BitVec 32))
  /-- CORE_HALT (R705). JTAG instruction that halts a core. -/
  | coreHalt (core : Nat)
  /-- SCAN_DUMP (R705). JTAG instruction that dumps scan state. -/
  | scanDump
  /-- DIE_ISOLATE (R59). JTAG instruction that places a die in stand-alone test mode. -/
  | dieIsolate (die : Nat) (passed : Bool) (tests : List LaneTest)
  /-- HOST_LINK_RETRAINING (R596). The host link enters retraining, so host traffic waits:
  program streams stall under HOST_LATE and DMA channels and mailboxes pause. -/
  | hostLinkRetraining
  /-- OPEN_SESSION_HELLO_TIMEOUT (R628). 100 ms after OPEN_SESSION, with HELLO still missing on
  some mapped port, the command completes with PORTS_BAD listing the silent ports. -/
  | openSessionHelloTimeout
  /-- HOST_SNOOP (R580). A CXL.cache snoop from the host is answered with RspIHitI. -/
  | hostSnoop
  /-- ARP_AND_NEIGHBOUR_DISCOVERY (R548). An ARP or IPv6 neighbour-discovery request received on
  an Ethernet port is answered by the port firmware. -/
  | arpAndNeighbourDiscovery (port : Nat)
  /-- ECN_MARKED_TRAFFIC (R548). ECN-marked traffic received on an Ethernet port is answered
  with a congestion notification packet. -/
  | ecnMarkedTraffic (port : Nat)
  /-- PORT_LIGHT_RETURN (R779). Light returns on a Torcor port that failed by peer loss, and the
  port trains again from DOWN, keeping each lane's prior state as history. -/
  | portLightReturn (port : Nat)
  /-- BAD_OPCODE (R621). A doorbell submits a request whose OPCODE is not listed, and the
  mailbox gets a FINAL response with BAD_OPCODE and no other effect. -/
  | badOpcode (n opcode : Nat) (r : Request)
  /-- FLASH_APPEND_COMPLETE (R671). A flash append of an event record or fault-log entry
  completes, setting IN_FLASH, or fails and is retried toward the third-failure UNCONTAINED
  fault. -/
  | flashAppendComplete (ok : Bool)
  deriving DecidableEq, Repr

end Sys2Proof
end

