-- ==== Sys2Proof/Machine/Bits.lean ====
section
/-! DEFINITION. Byte order, bit fields, sign extension and list access: every multi-byte field is
little-endian (00 Notation). -/

namespace Sys2Proof.Machine

/-- The value of a little-endian byte string. -/
def leNat : List Byte → Nat
  | [] => 0
  | b :: bs => b.toNat + 256 * leNat bs

/-- The `n` low bytes of a value, least significant first. -/
def leBytes : Nat → Nat → List Byte
  | 0, _ => []
  | n + 1, v => BitVec.ofNat 8 v :: leBytes n (v / 256)

@[simp] theorem leBytes_length (n v : Nat) : (leBytes n v).length = n := by
  induction n generalizing v with
  | zero => rfl
  | succ n ih => simp [leBytes, ih]

/-- The field of `size` bytes at `off`. -/
def field (bs : List Byte) (off size : Nat) : Nat := leNat ((bs.drop off).take size)

/-- The bytes from `off`, `size` of them. -/
def slice (bs : List Byte) (off size : Nat) : List Byte := (bs.drop off).take size

/-- `size` bytes from `off`, with zeros past the end. -/
def sliceZ (bs : List Byte) (off size : Nat) : List Byte :=
  let t := (bs.drop off).take size
  t ++ List.replicate (size - t.length) 0

/-- `n` zero bytes. -/
def zeros (n : Nat) : List Byte := List.replicate n 0

/-- Whether every byte is zero. -/
def allZero (bs : List Byte) : Bool := bs.all (· == 0)

/-- Bit `i` of a value. -/
def bit (v i : Nat) : Bool := v.testBit i

/-- Bits [hi:lo] of a value. -/
def bits (v hi lo : Nat) : Nat := (v >>> lo) % 2 ^ (hi + 1 - lo)

/-- 1 or 0. -/
def bool01 (b : Bool) : Nat := if b then 1 else 0

/-- The two's complement value of the low `w` bits. -/
def signExtend (w v : Nat) : Int :=
  let m := v % 2 ^ w
  if 2 * m < 2 ^ w then (m : Int) else (m : Int) - 2 ^ w

/-- The `w`-bit two's complement pattern of an integer. -/
def twos (w : Nat) (v : Int) : Nat := (v % (2 ^ w : Int)).toNat

/-- All ones of a 64-bit register. -/
def ones64 : Nat := 2 ^ 64 - 1

/-- A 64-bit counter that saturates at all ones (R600, R638, R670, R707, R741, R760). -/
def satAdd (c n : Nat) : Nat := min (c + n) ones64

/-- A mask of the indices, below `n`, for which `p` holds. -/
def maskOf (n : Nat) (p : Nat → Bool) : Nat :=
  (List.range n).foldl (fun m i => if p i then m ||| (1 <<< i) else m) 0

/-- Update of element `i` of a list; a list without it is unchanged. -/
def modAt {α : Type} (l : List α) (i : Nat) (f : α → α) : List α := l.modify i f

/-- Whether `errors` bits in one second of a lane (4 × 10¹¹ bits) exceed an FP32 rate below 1 (R29). -/
def berAbove (rate : BitVec 32) (errors : Nat) : Bool :=
  let e := bits rate.toNat 30 23
  let m := bits rate.toNat 22 0
  let man := if e = 0 then m else m + 2 ^ 23
  let exp := if e = 0 then 1 else e
  decide (400000000000 * man < errors * 2 ^ (150 - exp))

/-- Ceiling division. -/
def ceilDiv (a b : Nat) : Nat := (a + b - 1) / b

/-- `a` rounded up to a multiple of `b`. -/
def roundUp (a b : Nat) : Nat := ceilDiv a b * b

/-- Whether two ranges of bytes meet. -/
def overlaps (a n b m : Nat) : Bool := a < b + m && b < a + n

/-- An ASCII string as bytes. -/
def ascii (t : String) : List Byte := t.toList.map fun c => BitVec.ofNat 8 c.toNat

/-- One hexadecimal digit, upper case. -/
def hexDigit (d : Nat) : Byte := BitVec.ofNat 8 (if d < 10 then 48 + d else 55 + d)

/-- `n` hexadecimal digits of a value, most significant first. -/
def hexDigits (n v : Nat) : List Byte :=
  (List.range n).reverse.map fun i => hexDigit ((v >>> (4 * i)) % 16)

/-- A list cut into pieces of `w`, the last one as long as it comes; the count bounds the pieces. -/
def chunks {α : Type} (w : Nat) : Nat → List α → List (List α)
  | 0, _ => []
  | n + 1, l => if l.isEmpty then [] else l.take w :: chunks w n (l.drop w)

end Sys2Proof.Machine
end

