-- ==== Sys2Proof/Machine/Fp.lean ====
section
/-! DEFINITION. Numbers (05): formats bit for bit, exact arithmetic on decoded values, and the roundings
that the manual names. A decoded value is exact; rounding happens only where a caller asks for it. -/

namespace Sys2Proof.Machine

/-! ### Formats (R142, R236) -/

/-- The formats of the tensor table and the slots. -/
inductive Fmt where
  | fp32 | bf16 | fp16 | e4m3 | e5m2 | mxE4m3 | mxE5m2 | mxE3m2 | mxE2m3 | mxE2m1 | g4e | int32 | uint8
  deriving DecidableEq, Repr

/-- The format of a code (R142). -/
def Fmt.ofCode : Nat → Option Fmt
  | 0 => some .fp32 | 1 => some .bf16 | 2 => some .fp16 | 3 => some .e4m3 | 4 => some .e5m2
  | 5 => some .mxE4m3 | 6 => some .mxE5m2 | 7 => some .mxE3m2 | 8 => some .mxE2m3 | 9 => some .mxE2m1
  | 10 => some .g4e | 11 => some .int32 | 12 => some .uint8
  | _ => none

/-- The code of a format (R142). -/
def Fmt.code : Fmt → Nat
  | .fp32 => 0 | .bf16 => 1 | .fp16 => 2 | .e4m3 => 3 | .e5m2 => 4
  | .mxE4m3 => 5 | .mxE5m2 => 6 | .mxE3m2 => 7 | .mxE2m3 => 8 | .mxE2m1 => 9
  | .g4e => 10 | .int32 => 11 | .uint8 => 12

/-- Exponent bits, fraction bits, bias, the code of the largest finite magnitude, and what stands above
it (R236). The code of a magnitude is its bits without the sign. -/
structure FmtSpec where
  ebits : Nat
  mbits : Nat
  bias : Nat
  maxFinite : Nat
  /-- The code of infinity, when the format has one. -/
  infCode : Option Nat
  /-- The canonical NaN (R244), when the format has one. -/
  nanCode : Option Nat
  deriving DecidableEq, Repr

def fp32Spec : FmtSpec := ⟨8, 23, 127, 0x7F7FFFFF, some 0x7F800000, some 0x7FC00000⟩
def bf16Spec : FmtSpec := ⟨8, 7, 127, 0x7F7F, some 0x7F80, some 0x7FC0⟩
def fp16Spec : FmtSpec := ⟨5, 10, 15, 0x7BFF, some 0x7C00, some 0x7E00⟩
def e4m3Spec : FmtSpec := ⟨4, 3, 7, 0x7E, none, some 0x7F⟩
def e5m2Spec : FmtSpec := ⟨5, 2, 15, 0x7B, some 0x7C, some 0x7E⟩
def e3m2Spec : FmtSpec := ⟨3, 2, 3, 0x1F, none, none⟩
def e2m3Spec : FmtSpec := ⟨2, 3, 1, 0x1F, none, none⟩
def e2m1Spec : FmtSpec := ⟨2, 1, 1, 0x7, none, none⟩

/-- IEEE binary64, in which the scalar block holds its estimates (R397). -/
def fp64Spec : FmtSpec := ⟨11, 52, 1023, 0x7FEFFFFFFFFFFFFF, some 0x7FF0000000000000, some 0x7FF8000000000000⟩

/-- The element format of a floating format; index formats and G4E have none. -/
def Fmt.spec : Fmt → FmtSpec
  | .fp32 => fp32Spec | .bf16 => bf16Spec | .fp16 => fp16Spec
  | .e4m3 | .mxE4m3 => e4m3Spec | .e5m2 | .mxE5m2 => e5m2Spec
  | .mxE3m2 => e3m2Spec | .mxE2m3 => e2m3Spec | .mxE2m1 => e2m1Spec
  | .g4e | .int32 | .uint8 => fp32Spec

def Fmt.isMx : Fmt → Bool
  | .mxE4m3 | .mxE5m2 | .mxE3m2 | .mxE2m3 | .mxE2m1 => true
  | .fp32 | .bf16 | .fp16 | .e4m3 | .e5m2 | .g4e | .int32 | .uint8 => false

/-- Bits of an element. -/
def Fmt.bitsOf : Fmt → Nat
  | .fp32 | .int32 => 32
  | .bf16 | .fp16 => 16
  | .e4m3 | .e5m2 | .mxE4m3 | .mxE5m2 | .uint8 => 8
  | .mxE3m2 | .mxE2m3 => 6
  | .mxE2m1 | .g4e => 4

/-- Bytes of `n` elements. -/
def Fmt.bytesOf (f : Fmt) (n : Nat) : Nat := n * f.bitsOf / 8

/-- Formats of 32 or 16 bits: FP32, BF16 and FP16. -/
def Fmt.wide : Fmt → Bool
  | .fp32 | .bf16 | .fp16 => true
  | .e4m3 | .e5m2 | .mxE4m3 | .mxE5m2 | .mxE3m2 | .mxE2m3 | .mxE2m1 | .g4e | .int32 | .uint8 => false

/-- Any floating format that a vector or BSU operation reads element by element: all but G4E. -/
def Fmt.floating : Fmt → Bool
  | .g4e | .int32 | .uint8 => false
  | .fp32 | .bf16 | .fp16 | .e4m3 | .e5m2 | .mxE4m3 | .mxE5m2 | .mxE3m2 | .mxE2m3 | .mxE2m1 => true

/-- E_max (R236). -/
def Fmt.eMax (f : Fmt) : Int :=
  match f with
  | .fp32 | .bf16 => 127
  | .fp16 | .e5m2 | .mxE5m2 => 15
  | .e4m3 | .mxE4m3 => 8
  | .mxE3m2 => 4
  | .mxE2m3 | .mxE2m1 => 2
  | .g4e | .int32 | .uint8 => 127

/-! ### Values -/

/-- A value: NaN, an infinity, or (−1)^neg × man × 2^exp, exactly. -/
inductive Fp where
  | nan
  | inf (neg : Bool)
  | fin (neg : Bool) (man : Nat) (exp : Int)
  deriving DecidableEq, Repr

def Fp.zero : Fp := .fin false 0 0
def Fp.one : Fp := .fin false 1 0

/-- The integer `n`. -/
def Fp.ofInt (n : Int) : Fp := .fin (decide (n < 0)) n.natAbs 0

/-- 2 to a power. -/
def Fp.pow2 (e : Int) : Fp := .fin false 1 e

def Fp.isNan : Fp → Bool
  | .nan => true
  | .inf _ | .fin .. => false

def Fp.isInf : Fp → Bool
  | .inf _ => true
  | .nan | .fin .. => false

def Fp.nonFinite : Fp → Bool
  | .nan | .inf _ => true
  | .fin .. => false

def Fp.isZero : Fp → Bool
  | .fin _ 0 _ => true
  | .fin _ (_ + 1) _ | .nan | .inf _ => false

def Fp.neg : Fp → Fp
  | .nan => .nan
  | .inf s => .inf !s
  | .fin s m e => .fin (!s) m e

def Fp.abs : Fp → Fp
  | .nan => .nan
  | .inf _ => .inf false
  | .fin _ m e => .fin false m e

/-- Decodes the bits of an element (R236). -/
def FmtSpec.decode (f : FmtSpec) (b : Nat) : Fp :=
  let sign := bit b (f.ebits + f.mbits)
  let mag := b % 2 ^ (f.ebits + f.mbits)
  if mag ≤ f.maxFinite then
    let e := mag / 2 ^ f.mbits
    let m := mag % 2 ^ f.mbits
    let base : Int := 1 - (f.bias : Int) - f.mbits
    if e = 0 then .fin sign m base else .fin sign (2 ^ f.mbits + m) (base + e - 1)
  else if some mag = f.infCode then .inf sign
  else .nan

/-- An element is subnormal in its format (R243). -/
def FmtSpec.subnormal (f : FmtSpec) (b : Nat) : Bool :=
  let mag := b % 2 ^ (f.ebits + f.mbits)
  decide (0 < mag) && decide (mag < 2 ^ f.mbits)

/-! ### Exact arithmetic -/

/-- The signed mantissa over exponent `e`, which is at most the value's own. -/
def signedMan (s : Bool) (m : Nat) (e0 e : Int) : Int :=
  let v : Int := (m * 2 ^ (e0 - e).toNat : Nat)
  if s then -v else v

/-- x + y, exactly; IEEE 754 for signs of zero, infinities and NaNs (R247, R252). -/
def Fp.add : Fp → Fp → Fp
  | .nan, _ => .nan
  | _, .nan => .nan
  | .inf a, .inf b => if a = b then .inf a else .nan
  | .inf a, .fin .. => .inf a
  | .fin .., .inf b => .inf b
  | .fin s m e, .fin t n f =>
    if m = 0 ∧ n = 0 then .fin (s && t) 0 0
    else
      let g := min e f
      let v := signedMan s m e g + signedMan t n f g
      .fin (decide (v < 0)) v.natAbs g

/-- x × y, exactly. -/
def Fp.mul : Fp → Fp → Fp
  | .nan, _ => .nan
  | _, .nan => .nan
  | .inf a, .inf b => .inf (a != b)
  | .inf a, .fin t n _ => if n = 0 then .nan else .inf (a != t)
  | .fin s m _, .inf b => if m = 0 then .nan else .inf (s != b)
  | .fin s m e, .fin t n f => .fin (s != t) (m * n) (e + f)

def Fp.sub (a b : Fp) : Fp := a.add b.neg

/-- a < b for values that are not NaN. -/
def Fp.lt : Fp → Fp → Bool
  | .nan, _ => false
  | _, .nan => false
  | .inf a, .inf b => a && !b
  | .inf a, .fin .. => a
  | .fin .., .inf b => !b
  | .fin s m e, .fin t n f =>
    let g := min e f
    decide (signedMan s m e g < signedMan t n f g)

/-- a and b are the same number (+0 is −0). -/
def Fp.eqv (a b : Fp) : Bool := !a.isNan && !b.isNan && !a.lt b && !b.lt a

/-- floor(log₂ |x|) of a non-zero finite value; 0 otherwise. -/
def Fp.log2 : Fp → Int
  | .fin _ (m + 1) e => ((m + 1).log2 : Int) + e
  | .fin _ 0 _ | .nan | .inf _ => 0

/-- MAX of R253. -/
def Fp.max (a b : Fp) : Fp :=
  if a.isNan || b.isNan then .nan
  else if a.lt b then b
  else if b.lt a then a
  else match a, b with
    | .fin true 0 _, .fin .. => b
    | _, _ => a

/-- MIN of R253. -/
def Fp.min (a b : Fp) : Fp :=
  if a.isNan || b.isNan then .nan
  else if a.lt b then a
  else if b.lt a then b
  else match a, b with
    | .fin false 0 _, .fin .. => b
    | _, _ => a

/-! ### Rounding -/

/-- The code of man × 2^exp on the grid whose quantum exponent is `q`: floor, and the remainder over its
range 2^d. -/
def gridOf (q : Int) (man : Nat) (exp : Int) : Nat × Nat × Nat :=
  if q ≤ exp then (man * 2 ^ (exp - q).toNat, 0, 0)
  else
    let d := (q - exp).toNat
    (man / 2 ^ d, man % 2 ^ d, d)

/-- Exponent of the quantum at the bottom of a format. -/
def FmtSpec.qMin (f : FmtSpec) : Int := 1 - (f.bias : Int) - f.mbits

/-- Exponent of the quantum of the largest finite value's binade. -/
def FmtSpec.qMax (f : FmtSpec) : Int := f.qMin + (f.maxFinite / 2 ^ f.mbits - 1 : Nat)

/-- The code of a count of quanta, with the exponent unbounded above. -/
def FmtSpec.codeOf (f : FmtSpec) (q : Int) (n : Nat) : Nat := (q - f.qMin).toNat * 2 ^ f.mbits + n

/-- The quantum exponent that a magnitude takes, unbounded above. -/
def FmtSpec.quantum (f : FmtSpec) (man : Nat) (exp : Int) : Int :=
  Max.max ((man.log2 : Int) + exp - f.mbits) f.qMin

/-- The code of a magnitude rounded to nearest even with an unbounded exponent (R243). -/
def FmtSpec.rneCode (f : FmtSpec) (man : Nat) (exp : Int) : Nat :=
  if man = 0 then 0
  else
    let q := f.quantum man exp
    let (n, r, d) := gridOf q man exp
    let up := decide (d ≠ 0) && (decide (2 ^ d < 2 * r) || (2 * r == 2 ^ d && n % 2 == 1))
    f.codeOf q (n + bool01 up)

/-- The sign bit over a code. -/
def FmtSpec.withSign (f : FmtSpec) (neg : Bool) (code : Nat) : Nat := code + bool01 neg * 2 ^ (f.ebits + f.mbits)

/-- A converted element with what R243 counts. -/
structure Conv where
  code : Nat
  sat : Bool := false
  underflow : Bool := false
  deriving DecidableEq, Repr

/-- Conversion to nearest even with the table of R243. `flush` says that the destination flushes source
subnormals and saturates: FP8 and MX elements; `sub` that the source was subnormal. -/
def FmtSpec.convert (f : FmtSpec) (flush : Bool) (sub : Bool) (v : Fp) : Conv :=
  match v with
  | .nan => { code := f.nanCode.getD 0 }
  | .inf s =>
    match f.infCode with
    | some c => { code := f.withSign s c }
    | none => { code := f.nanCode.getD 0 }
  | .fin s m e =>
    if flush && sub then { code := f.withSign s 0, underflow := true }
    else
      let c := f.rneCode m e
      if f.maxFinite < c then
        if flush then { code := f.withSign s f.maxFinite, sat := true }
        else { code := f.withSign s (f.infCode.getD f.maxFinite) }
      else { code := f.withSign s c, underflow := c == 0 && m != 0 }

/-- Conversion to an element of a format. -/
def Fmt.convert (f : Fmt) (sub : Bool) (v : Fp) : Conv := f.spec.convert (!f.wide) sub v

/-- round_RNE to FP32, BF16 or FP16, with overflow to infinity. -/
def FmtSpec.rne (f : FmtSpec) (v : Fp) : Nat := (f.convert false false v).code

/-- round_FP32_RNE as a value (R247). -/
def FmtSpec.round (f : FmtSpec) (v : Fp) : Fp := f.decode (f.rne v)

def fp32 (b : BitVec 32) : Fp := fp32Spec.decode b.toNat

def toFp32 (v : Fp) : BitVec 32 := BitVec.ofNat 32 (fp32Spec.rne v)

/-- Stochastic rounding to a 16-bit format with random bits `u` (R257). -/
def FmtSpec.stochastic (f : FmtSpec) (u : Nat) (v : Fp) : Nat :=
  match v with
  | .nan | .inf _ => f.rne v
  | .fin s m e =>
    if m = 0 then f.withSign s 0
    else
      let q := Min.min (f.quantum m e) f.qMax
      let (n, r, d) := gridOf q m e
      let up := decide (d ≠ 0) && decide (u < r * 65536 / 2 ^ d)
      let c := f.codeOf q (n + bool01 up)
      f.withSign s (if f.maxFinite < c then f.infCode.getD f.maxFinite else c)

/-! ### Philox4x32-10 (R258; the generator is named by the manual, its definition PRESUMED) -/

def philoxRound (k0 k1 : BitVec 32) (c : BitVec 32 × BitVec 32 × BitVec 32 × BitVec 32) :
    BitVec 32 × BitVec 32 × BitVec 32 × BitVec 32 :=
  let p0 : BitVec 64 := 0xD2511F53 * c.1.zeroExtend 64
  let p1 : BitVec 64 := 0xCD9E8D57 * c.2.2.1.zeroExtend 64
  ((p1 >>> 32).setWidth 32 ^^^ c.2.1 ^^^ k0, p1.setWidth 32,
    (p0 >>> 32).setWidth 32 ^^^ c.2.2.2 ^^^ k1, p0.setWidth 32)

def philoxRun : Nat → BitVec 32 → BitVec 32 → BitVec 32 × BitVec 32 × BitVec 32 × BitVec 32 →
    BitVec 32 × BitVec 32 × BitVec 32 × BitVec 32
  | 0, _, _, c => c
  | n + 1, k0, k1, c => philoxRun n (k0 + 0x9E3779B9) (k1 + 0xBB67AE85) (philoxRound k0 k1 c)

/-- The four words of the generator for a key and a counter. -/
def philox (k0 k1 c0 c1 c2 c3 : BitVec 32) : List (BitVec 32) :=
  let r := philoxRun 10 k0 k1 (c0, c1, c2, c3)
  [r.1, r.2.1, r.2.2.1, r.2.2.2]

/-- Key inputs of a stochastic rounding (R258). -/
structure RoundKey where
  seed : Nat
  tensor : Nat
  element : Nat
  addend : Nat
  step : Nat
  deriving DecidableEq, Repr

/-- U: bits [15:0] of word 0 (R257, R258). -/
def RoundKey.bits (k : RoundKey) : Nat :=
  let w := BitVec.ofNat 32
  let k1 := w (k.seed >>> 32) ^^^ 1
  let c1 := w (k.element >>> 32 % 256 + k.addend % 2 ^ 24 * 256)
  ((philox (w k.seed) k1 (w k.element) c1 (w k.tensor) (w k.step)).getD 0 0).toNat % 65536

/-! ### Quotients, roots, exponentials: enough bits and a sticky bit for one correct rounding (R253) -/

/-- 128 bits of a quotient of non-zero magnitudes, with a sticky bit. -/
def quotMag (m : Nat) (e : Int) (n : Nat) (f : Int) : Nat × Int :=
  let k := 128 + n.log2
  let q := m * 2 ^ k / n
  let r := m * 2 ^ k % n
  (2 * q + bool01 (r != 0), e - f - k - 1)

/-- a / b, exact or with a sticky bit beneath 128 bits. -/
def Fp.div : Fp → Fp → Fp
  | .nan, _ => .nan
  | _, .nan => .nan
  | .inf _, .inf _ => .nan
  | .inf a, .fin t _ _ => .inf (a != t)
  | .fin s _ _, .inf b => .fin (s != b) 0 0
  | .fin s m e, .fin t n f =>
    if n = 0 then (if m = 0 then .nan else .inf (s != t))
    else if m = 0 then .fin (s != t) 0 0
    else
      let q := quotMag m e n f
      .fin (s != t) q.1 q.2

/-- Bits of a square root, from the top. -/
def sqrtBits (n : Nat) : Nat → Nat → Nat
  | 0, r => r
  | i + 1, r =>
    let t := r + 2 ^ i
    sqrtBits n i (if t * t ≤ n then t else r)

/-- floor(√n). -/
def natSqrt (n : Nat) : Nat := sqrtBits n (n.log2 / 2 + 1) 0

/-- √x of a value that is not negative, exact or with a sticky bit; NaN below zero. -/
def Fp.sqrt : Fp → Fp
  | .nan => .nan
  | .inf true => .nan
  | .inf false => .inf false
  | .fin s m e =>
    if m = 0 then .fin s 0 0
    else if s then .nan
    else
      let k : Nat := 256
      let odd := e % 2 != 0
      let m2 := if odd then 2 * m else m
      let e2 := if odd then e - 1 else e
      let n := m2 * 2 ^ k
      let r := natSqrt n
      .fin false (2 * r + bool01 (r * r != n)) (e2 / 2 - k / 2 - 1)

/-- 1 / x (R253). -/
def Fp.rcp (x : Fp) : Fp := Fp.one.div x

/-- 1 / √x (R253): a negative value gives NaN, ±0 gives ±∞. -/
def Fp.rsqrt : Fp → Fp
  | .nan => .nan
  | .inf true => .nan
  | .inf false => .zero
  | .fin s m e =>
    if m = 0 then .inf s
    else if s then .nan
    else
      let odd := e % 2 != 0
      let m2 := if odd then 2 * m else m
      let e2 := if odd then e - 1 else e
      let k : Nat := 128 + m2.log2
      let r := natSqrt (2 ^ (2 * k) / m2)
      .fin false (2 * r + bool01 (r * r * m2 != 2 ^ (2 * k))) (-(e2 / 2) - k - 1)

/-- Fraction bits of the fixed-point series below. -/
def serP : Nat := 256

/-- Σ z^(2i+1) / (2i+1), with z and the running power as fixed-point numbers. -/
def atanhSum (z2 : Nat) : Nat → Nat → Nat → Nat → Nat
  | 0, _, _, acc => acc
  | n + 1, i, pw, acc => atanhSum z2 n (i + 1) (pw * z2 / 2 ^ serP) (acc + pw / (2 * i + 1))

def atanhFix (z : Nat) : Nat := atanhSum (z * z / 2 ^ serP) 100 0 z 0

/-- ln 2 = 2 atanh(1/3), in fixed point. -/
def ln2Fix : Nat := 2 * atanhFix (2 ^ serP / 3)

/-- Σ rⁿ/n!, in fixed point. -/
def expSum (r : Nat) : Nat → Nat → Nat → Nat → Nat
  | 0, _, _, acc => acc
  | n + 1, i, t, acc => expSum r n (i + 1) (t * r / 2 ^ serP / i) (acc + t)

/-- exp(x). Its value at a non-zero argument is never on a rounding boundary, so a sticky bit stands for
what the 256-bit series leaves out. -/
def Fp.exp : Fp → Fp
  | .nan => .nan
  | .inf true => .zero
  | .inf false => .inf false
  | .fin s m e =>
    if m = 0 then .one
    else if 10 ≤ (m.log2 : Int) + e then (if s then .fin false 1 (-2000) else .fin false 1 2000)
    else
      let mag : Nat := if 0 ≤ e + serP then m * 2 ^ (e + serP).toNat else m / 2 ^ (-(e + serP)).toNat
      let x : Int := if s then -(mag : Int) else mag
      let k := x / (ln2Fix : Int)
      let r := (x - k * ln2Fix).toNat
      .fin false (2 * expSum r 80 1 (2 ^ serP) 0 + 1) (k - serP - 1)

/-- ln(x) (R253). -/
def Fp.ln : Fp → Fp
  | .nan => .nan
  | .inf true => .nan
  | .inf false => .inf false
  | .fin s m e =>
    if m = 0 then .inf true
    else if s then .nan
    else
      let k := (m.log2 : Int) + e
      let f := m * 2 ^ serP / 2 ^ m.log2
      let one := 2 ^ serP
      let v : Int := k * ln2Fix + 2 * (atanhFix ((f - one) * one / (f + one)) : Nat)
      if v = 0 then .zero else .fin (decide (v < 0)) (2 * v.natAbs + 1) (-(serP : Int) - 1)

/-! ### Dot products and sums (R247 to R251) -/

/-- The exact sum of a chunk: zero is +0; NaNs and infinities as R247 says. -/
def chunkSum (products : List Fp) : Fp :=
  let v := products.foldl Fp.add .zero
  if v.isZero then .zero else v

/-- Chunks of four. -/
def fours {α : Type} : Nat → List α → List (List α)
  | 0, _ => []
  | n + 1, l => if l.isEmpty then [] else l.take 4 :: fours n (l.drop 4)

/-- The reference order of R247 over products, one rounding to FP32 a chunk. -/
def dotChunks (init : Fp) (products : List Fp) : Fp :=
  (fours (products.length / 4 + 1) products).foldl (fun acc c => fp32Spec.round (acc.add (chunkSum c))) init

/-- The largest magnitude of R262: NaN, then infinity, then magnitude. -/
def amaxOf (a b : Fp) : Fp := if a.isNan || b.isNan then .nan else if a.abs.lt b.abs then b.abs else a.abs

end Sys2Proof.Machine
end

