-- ==== Sys2Proof/Config.lean ====
section
/-! DEFINITION. What an implementation fixes and the manual does not give: free values, as opaque
constants. Nothing can be proved of a value of one, so a claim holds for every value. -/

namespace Sys2Proof

/-- A fresh 32-bit value where the manual gives a value and does not state it. -/
opaque Config.freeWord : Nat → BitVec 32

/-- A fresh byte of such a value: index of the value, place in it. -/
opaque Config.freeByte : Nat → Nat → BitVec 8

/-- The element codes of an MX block whose scale is 0xFF (R267): a function of the format's code and of the block's
source values, so that they are the same on every run (R276); the last argument is the element's place. -/
opaque Config.mxCode : Nat → List Nat → Nat → Nat

/-- ML-DSA-65 verification (R677): key, context string, message, signature. -/
opaque Config.mldsaVerify : List Byte → List Byte → List Byte → List Byte → Bool

/-- ML-DSA-65 signing by the identity key (R688, R690): context string and message. -/
opaque Config.mldsaSign : List Byte → List Byte → List Byte

/-- The identity public key, derived from a fused seed that never leaves the key engine (R688). -/
opaque Config.identityKey : List Byte

/-- Zorfer's signature of the unit identifier and the public key (R688). -/
opaque Config.identityCertificate : List Byte

/-- The HBM PHY training values of a boot (R716), by boot count. -/
opaque Config.phyTraining : Nat → BitVec 64

end Sys2Proof
end

