-- ==== Sys2Proof/Machine/StateUnits.lean ====
section
/-! DEFINITION. State of the dies, the die-to-die links, their lanes and rings, and the lasers
(01, 19). A default is the value at reset. -/

namespace Sys2Proof.Machine

/-- DIE_STATUS STATE (R48). -/
inductive DieStatus where
  | lit | heldDarkRevision | heldDarkProtocol | leftService | absent | selfTestFailed
  deriving DecidableEq, Repr

/-- The code of a DIE_STATUS STATE (R48). -/
def DieStatus.code : DieStatus → Nat
  | .lit => 0 | .heldDarkRevision => 1 | .heldDarkProtocol => 2 | .leftService => 3
  | .absent => 4 | .selfTestFailed => 5

/-- A die of the identity block (R46 to R50). Type, revision, protocol mask and capability word are
fuses; STATE resets to ABSENT (R48). -/
structure Die where
  dieType : Nat := 1
  major : Nat := 1
  minor : Nat := 0
  protoSupported : BitVec 16 := 1
  cap : BitVec 64 := 0x1FFFFF
  state : DieStatus := .absent
  /-- Stand-alone test mode of R59. -/
  isolated : Bool := false
  /-- What its own memory tests and logic tests showed in that mode (R59). -/
  ownTests : TestResult := .notTested
  deriving DecidableEq, Repr

/-- The lane states of R25. -/
inductive LaneState where
  | active | spare | suspect | retired
  deriving DecidableEq, Repr

/-- The two-bit code of a lane state (R51). -/
def LaneState.code : LaneState → Nat
  | .active => 0 | .spare => 1 | .suspect => 2 | .retired => 3

/-- One microring: heater code, detuning error and tuning state (R19, R22, R752). -/
structure Ring where
  heater : BitVec 16 := 0
  detune : BitVec 16 := 0
  tuning : Tuning := .off
  deriving DecidableEq, Repr

/-- One lane of a link or of a port. -/
structure Lane where
  state : LaneState := .active
  /-- Start of the 60-minute history of R33; empty at each boot (R782). -/
  lastFailedRetrain : Option Nat := none
  /-- The lane is out for a single-lane retrain (R42). -/
  retraining : Bool := false
  /-- When the background retrain of R33 is due. -/
  backgroundDue : Option Nat := none
  /-- Result, stage and time of the last loop-back (R65, R735). -/
  test : TestResult := .notTested
  testStage : LoopStage := .electrical
  testedNs : Nat := 0
  /-- Accumulated active time (R747). -/
  activeNs : Nat := 0
  activeSince : Option Nat := none
  /-- FEC-corrected bits, uncorrectable codewords (R29), and retrains since boot. -/
  fecCorrected : Nat := 0
  fecUncorrectable : Nat := 0
  retrains : Nat := 0
  /-- The five rings of a die-to-die lane in role order (R752); none for a port lane. -/
  rings : List Ring := []
  deriving DecidableEq, Repr

/-- THRESHOLD of an event record (R664). -/
inductive Threshold where
  | none | transient | permanentRate | uncorrectable | lossOfSignal | retrain | rangeLimit
  | selfTest | manual | revision | protocol | idData | flickerWindow | flicker24h
  | correctedRate | transientRate | replayLimit
  deriving DecidableEq, Repr

def Threshold.code : Threshold → Nat
  | .none => 0 | .transient => 1 | .permanentRate => 2 | .uncorrectable => 3 | .lossOfSignal => 4
  | .retrain => 5 | .rangeLimit => 6 | .selfTest => 7 | .manual => 8 | .revision => 9
  | .protocol => 10 | .idData => 11 | .flickerWindow => 12 | .flicker24h => 13
  | .correctedRate => 14 | .transientRate => 15 | .replayLimit => 16

/-- A lane change that waits for the link's next quiesce point (R31, R33, R747). -/
inductive LaneChange where
  | retrain (lane : Nat)
  /-- An ACTIVE lane has left: the point decides between a spare and a narrowing (R35). With it the root of
  the cascade that the detection began, and the threshold of its records. -/
  | vacated (lane : Nat) (root : Option Nat) (threshold : Threshold)
  /-- The width that the far end of a port proposes (R527). -/
  | narrow (width : Nat)
  | rotate (out inn : Nat)
  deriving DecidableEq, Repr

/-- LINK_STATE (R51). -/
inductive LinkState where
  | up | degraded | failed
  deriving DecidableEq, Repr

def LinkState.code : LinkState → Nat
  | .up => 0 | .degraded => 1 | .failed => 2

/-- A die-to-die optical link (R23) or, with no lanes, the copper link of a stack (R46). -/
structure Link where
  lanes : List Lane := []
  /-- ACTIVE_LANES: present width (R51). -/
  width : Nat := 0
  /-- Negotiated protocol version minus one (R51). -/
  proto : Nat := 0
  state : LinkState := .up
  pending : List LaneChange := []
  lastRotation : Option Nat := none
  /-- Payload bytes in both directions, for telemetry (R750). -/
  bytes : Nat := 0
  deriving DecidableEq, Repr

/-- Nominal width, spares, narrowing step and failure limit of link `k` (R23). -/
structure LinkSpec where
  nominal : Nat
  spares : Nat
  step : Nat
  failedBelow : Nat
  deriving DecidableEq, Repr

def linkSpec : Nat → LinkSpec
  | 0 => ⟨40, 4, 4, 16⟩
  | _ => ⟨20, 2, 2, 8⟩

/-- The lanes that link `k` has (R23). -/
def linkLaneCount (k : Nat) : Nat := (linkSpec k).nominal + (linkSpec k).spares

/-- The two die indices at the ends of optical link `k`, lower index first (R23, R46). -/
def linkEnds : Nat → Nat × Nat
  | 0 => (0, 1)
  | 1 => (0, 2)
  | _ => (1, 2)

/-- Laser source states (R745, R752). -/
inductive LaserState where
  | active | standby | retired
  deriving DecidableEq, Repr

def LaserState.code : LaserState → Nat
  | .active => 0 | .standby => 1 | .retired => 2

/-- A laser source (R745, R746, R752). -/
structure Laser where
  state : LaserState := .active
  /-- Drive current in permille of the beginning-of-life value. -/
  drive : Nat := 1000
  /-- Set output and measured output, in 10 µW. -/
  setOutput : Nat := 0
  output : Nat := 0
  temp : BitVec 16 := 0
  /-- Seconds lit; ON_HOURS is this over 3,600. -/
  onSeconds : Nat := 0
  /-- The source is being lowered over 10 ms (R746). -/
  lowering : Bool := false
  deriving DecidableEq, Repr

end Sys2Proof.Machine
end

