-- ==== Sys2Proof/Machine/StateBoot.lean ====
section
/-! DEFINITION. State of the pilot domain, the fuses, the flash, boot, events, telemetry, I3C, tinder
and JTAG (16 to 20). A default is the value at reset. -/

namespace Sys2Proof.Machine

/-- The flash slots of R672. -/
inductive Slot where
  | a | b | r
  deriving DecidableEq, Repr

def Slot.code : Slot → Nat
  | .a => 0 | .b => 1 | .r => 2

/-- STATE of SLOT_INFO (R710). -/
inductive SlotState where
  | empty | invalid | valid | failedBoot
  deriving DecidableEq, Repr

def SlotState.code : SlotState → Nat
  | .empty => 0 | .invalid => 1 | .valid => 2 | .failedBoot => 3

/-- A RANGES entry of a part (R678): the revisions of a die type that the part admits. -/
structure RevRange where
  part : Nat
  dieType : Nat
  minMajor : Nat
  minMinor : Nat
  maxMajor : Nat
  maxMinor : Nat
  deriving DecidableEq, Repr

/-- What the device knows of the bundle in a slot (R676, R678, R710). -/
structure FlashSlot where
  state : SlotState := .empty
  bundleVersion : BitVec 32 := 0
  rollbackIndex : Nat := 0
  signerSlot : Nat := 0
  revokeMask : Nat := 0
  recoveryVersion : Nat := 0
  digest : List Byte := []
  partDigests : List (List Byte) := []
  ranges : List RevRange := []
  /-- R683 checks 1, 3, 4 and 5 hold of the bytes now in the slot. -/
  intact : Bool := false
  deriving DecidableEq, Repr

/-- STAGE_STATE (R708). -/
inductive StageState where
  | idle | staging | staged | refused
  deriving DecidableEq, Repr

def StageState.code : StageState → Nat
  | .idle => 0 | .staging => 1 | .staged => 2 | .refused => 3

/-- Bundle staging and the boot's account of itself (R681 to R683, R708, R709). -/
structure Bundle where
  running : Slot := .a
  reverted : Bool := false
  failedPart : Nat := 0
  stage : StageState := .idle
  target : Slot := .b
  nextIndex : Nat := 0
  blockCount : Nat := 0
  bytes : List Byte := []
  stageStatus : Status := .ok
  failedCheck : Nat := 0
  blocksStaged : Nat := 0
  blockCrcFailures : Nat := 0
  stageRefusals : Nat := 0
  reverts : Nat := 0
  attestations : Nat := 0
  protectionDenials : Nat := 0
  deriving DecidableEq, Repr

/-- The fuse block (R686, R677, R706, R711), apart from the revision and capability words, which
stand with their dies. -/
structure Fuses where
  rollbackCounter : Nat := 0
  /-- Key digests of slots 0 to 3; none is a slot not fused. -/
  keyDigests : List (Option (List Byte)) := [some (List.replicate 32 0), none, none, none]
  keysRevoked : BitVec 4 := 0
  debugBlown : Bool := false
  identitySeed : Bool := true
  unitId : BitVec 128 := 0
  deriving DecidableEq, Repr

/-- SEVERITY of an event record (R664). -/
inductive Severity where
  | info | degraded | belowMinimum | faulted
  deriving DecidableEq, Repr

def Severity.code : Severity → Nat
  | .info => 0 | .degraded => 1 | .belowMinimum => 2 | .faulted => 3

/-- The event codes of R667. -/
inductive EventCode where
  | laneRetired | laneSpared | linkDegraded | linkFailed | portDegraded | portFailed
  | portMiswired | portDown | portRestored
  | arrayRetired | tileRetired | selfTestFailed
  | channelRetired | stackLeftService | stackIdInvalid | scrubLate | thermalHaltEntered
  | sharedPageRetired | beaconPageReplaced | beaconSparesExhausted
  | dieLeftService | dieHeldDark | belowMinimum
  | stepAborted | replicaDiverged | steerModeMismatch | deltaExportFailed | commitCopyRebuilt
  | lamplighterRestart | uncontained | ownerLockout | internalError | faultLogCompacted
  | unitRestorePending
  deriving DecidableEq, Repr

/-- CODE of an event (R667). -/
def EventCode.code : EventCode → Nat
  | .laneRetired => 0x0101 | .laneSpared => 0x0102 | .linkDegraded => 0x0103
  | .linkFailed => 0x0104 | .portDegraded => 0x0105 | .portFailed => 0x0106
  | .portMiswired => 0x0107 | .portDown => 0x0108 | .portRestored => 0x0109
  | .arrayRetired => 0x0201 | .tileRetired => 0x0202 | .selfTestFailed => 0x0203
  | .channelRetired => 0x0301 | .stackLeftService => 0x0302 | .stackIdInvalid => 0x0303
  | .scrubLate => 0x0304 | .thermalHaltEntered => 0x0305 | .sharedPageRetired => 0x0306
  | .beaconPageReplaced => 0x0307 | .beaconSparesExhausted => 0x0308
  | .dieLeftService => 0x0401 | .dieHeldDark => 0x0402 | .belowMinimum => 0x0403
  | .stepAborted => 0x0501 | .replicaDiverged => 0x0502 | .steerModeMismatch => 0x0503
  | .deltaExportFailed => 0x0504 | .commitCopyRebuilt => 0x0505
  | .lamplighterRestart => 0x0601 | .uncontained => 0x0602 | .ownerLockout => 0x0603
  | .internalError => 0x0604 | .faultLogCompacted => 0x0605 | .unitRestorePending => 0x0606

/-- SEVERITY of an event (R667). -/
def EventCode.severity : EventCode → Severity
  | .laneRetired | .laneSpared | .portRestored | .arrayRetired | .scrubLate
  | .beaconPageReplaced | .stepAborted | .steerModeMismatch | .commitCopyRebuilt
  | .faultLogCompacted | .unitRestorePending => .info
  | .belowMinimum => .belowMinimum
  | .lamplighterRestart | .uncontained => .faulted
  | .linkDegraded | .linkFailed | .portDegraded | .portFailed | .portMiswired | .portDown
  | .tileRetired | .selfTestFailed | .channelRetired | .stackLeftService | .stackIdInvalid
  | .thermalHaltEntered | .sharedPageRetired | .beaconSparesExhausted | .dieLeftService
  | .dieHeldDark | .replicaDiverged | .deltaExportFailed | .ownerLockout | .internalError =>
    .degraded

/-- An event record (R664). -/
structure EventRecord where
  seq : Nat
  bootNs : Nat
  bootCount : Nat
  code : EventCode
  headline : Bool := false
  acknowledged : Bool := false
  inFlash : Bool := false
  rootSeq : Nat
  /-- Step running at the event; none reads all ones. -/
  step : Option Nat
  unit : UnitAddr
  /-- The CAPACITY bytes. -/
  capacity : List Byte
  status : Status
  threshold : Threshold
  value : Nat
  deriving DecidableEq, Repr

/-- What a fault-log entry records of its unit (R116, R661, R27). -/
inductive LogKind where
  | retired (threshold : Threshold)
  | restore
  | suspect
  | cleared
  deriving DecidableEq, Repr

/-- An entry of the flash fault log (R662). -/
structure LogEntry where
  unit : UnitAddr
  kind : LogKind
  /-- Its flash append has completed (R671). -/
  inFlash : Bool := false
  /-- A RESTORE entry whose boot has come (R661). -/
  inEffect : Bool := false
  deriving DecidableEq, Repr

/-- A flash append that waits for completion (R671, R748). -/
inductive FlashAppend where
  | log (entry : LogEntry)
  | event (seq : Nat)
  deriving DecidableEq, Repr

/-- Event records and the block of R669, R670. -/
structure Events where
  /-- The SRAM ring, oldest first, at most 4,096 records (R663). -/
  ring : List EventRecord := []
  /-- The next SEQ; continues across boots (R663). -/
  nextSeq : Nat := 0
  /-- ROOT_SEQ of the cascade now being appended (R665). -/
  cascade : Option Nat := none
  flashRingWrapped : Bool := false
  lastSeq : Nat := 0
  lastHeadlineSeq : Nat := 0
  retirements : Nat := 0
  manualRetirements : Nat := 0
  stepsAborted : Nat := 0
  /-- Flash appends not complete, and failures of log appends in a row (R645). -/
  appends : List FlashAppend := []
  appendFailures : Nat := 0
  deriving DecidableEq, Repr

/-- How the boot in progress came about (R728). -/
inductive BootOrigin where
  | powerUp | excursion | reset
  deriving DecidableEq, Repr

/-- BOOT_KIND (R740). -/
inductive BootKind where
  | coldPowerUp | coldReset | warm
  deriving DecidableEq, Repr

def BootKind.code : BootKind → Nat
  | .coldPowerUp => 0 | .coldReset => 1 | .warm => 2

/-- COLD_CAUSE (R740). -/
inductive ColdCause where
  | none | powerUp | railExcursion | activationPending | previousBootIncomplete | warmRecord
  | imageMismatch
  deriving DecidableEq, Repr

def ColdCause.code : ColdCause → Nat
  | .none => 0 | .powerUp => 1 | .railExcursion => 2 | .activationPending => 3
  | .previousBootIncomplete => 4 | .warmRecord => 5 | .imageMismatch => 6

/-- The warm record of the retention store (R716). The PHY training values are a free value. -/
structure WarmRecord where
  slot : Slot
  digest : List Byte
  partDigests : List (List Byte)
  heaters : List (BitVec 16)
  phyTraining : BitVec 64
  deriving DecidableEq, Repr

/-- A boot in progress (R685, R729, R731). -/
structure Boot where
  kind : BootKind
  slot : Slot
  /-- Slots tried before this one. -/
  tried : List Slot
  /-- The part whose start-up check runs, and the parts still to load (R685). -/
  loading : Option Part
  toLoad : List Part
  /-- Every part has passed; the links train next (R729). -/
  partsDone : Bool := false
  recovery : Bool := false
  absentDies : List Nat := []
  deriving DecidableEq, Repr

/-- The pilot domain, the retention store and the board's pins (18, 20). -/
structure Pilot where
  /-- VDD_PILOT within tolerance; the other rails by their RAIL_FAULT bit. -/
  vddPilot : Bool := false
  railsUp : BitVec 8 := 0
  /-- Level of DEV_RESET_N: true is released. -/
  devResetN : Bool := false
  perstAsserted : Bool := false
  wakeLow : Bool := false
  /-- I3C_ADDR1 and I3C_ADDR0 as sampled (R768). -/
  straps : BitVec 2 := 0
  bootKind : BootKind := .coldPowerUp
  coldCause : ColdCause := .none
  /-- RAIL_FAULT (retention store). -/
  railFault : BitVec 8 := 0
  warm : Option WarmRecord := none
  /-- The last boot completed on the main image, and FAULTED was not entered after it. -/
  lastBootOnMain : Bool := false
  faultedSince : Bool := false
  origin : BootOrigin := .powerUp
  boot : Option Boot := none
  wakeAt : Nat := 0
  /-- Snuffer (R736 to R741). -/
  level : Nat := 0
  byPower : Bool := false
  byTemperature : Bool := false
  therm : Bool := false
  /-- Since when P and every compute-die sensor have been below the lowering limits. -/
  calmSince : Option Nat := none
  /-- Since when the level has been 4 with P over L. -/
  overSince : Option Nat := none
  /-- Since when every sensor has been below 100 °C and P below L, for THERM_N. -/
  coolSince : Option Nat := none
  powerMw : Nat := 0
  dieTempMax : Int := 0
  /-- Hottest compute-die sensor, in 1/16 °C, of the last sample. -/
  cdTempMax : Int := 0
  holdNs : Nat := 0
  levelRaises : Nat := 0
  thermAssertions : Nat := 0
  coldBoots : Nat := 0
  warmBoots : Nat := 0
  lastBootNs : Nat := 0
  deriving DecidableEq, Repr

/-- Sums that telemetry records report as differences (R750). -/
structure TeleSums where
  stall : List Nat := List.replicate 8 0
  arrayCycles : Nat := 0
  skippedCycles : Nat := 0
  stackBytes : List Nat := List.replicate 8 0
  bsuBytes : List Nat := List.replicate 8 0
  linkBytes : List Nat := List.replicate 3 0
  portBytes : List Nat := List.replicate 8 0
  eccCorrected : Nat := 0
  fecCorrected : Nat := 0
  flickers : Nat := 0
  transients : Nat := 0
  hostDmaBytes : Nat := 0
  deriving DecidableEq, Repr

/-- Telemetry (R749 to R760). -/
structure Telemetry where
  /-- The ring, oldest first: (SEQ, 512 bytes), at most 2,048. -/
  ring : List (Nat × List Byte) := []
  nextSeq : Nat := 0
  /-- Sampling series since VDD_PILOT came up. -/
  series : Nat := 0
  sampling : Bool := false
  lastSample : Nat := 0
  /-- The interval now open began after sampling started (PARTIAL). -/
  partialInterval : Bool := true
  cursor : Nat := 0
  threshold : Nat := 1536
  /-- Vector 25 has been signalled for the present excess (R754). -/
  signalled : Bool := false
  stepEnded : Bool := false
  eventSeen : Bool := false
  prev : TeleSums := {}
  /-- Channel byte counts at the last sample, for the STACK pages: (external, internal). -/
  prevChannels : List (Nat × Nat) := []
  /-- Per-stack (REFRESH_FORCED, RFM_ISSUED, NARROW_SECTORS, CORRECTED) at the last sample. -/
  prevStacks : List (List Nat) := []
  /-- Per-tile array cycles and stall sums at the last sample, for the TILES pages. -/
  prevTiles : List (List Nat) := []
  /-- Histogram bins: 8 stacks × 16, 128 lanes × 8, 2 dies × 8 causes × 16 (R758). -/
  histTemp : List Nat := List.replicate 128 0
  histBer : List Nat := List.replicate 1024 0
  histStall : List Nat := List.replicate 256 0
  records : Nat := 0
  scrubPasses : Nat := 0
  scrubCorrected : Nat := 0
  phyCalibrations : Nat := 0
  rotations : Nat := 0
  rotationsDeferred : Nat := 0
  laserSwitchovers : Nat := 0
  flashRelocations : Nat := 0
  i3cTransfers : Nat := 0
  deriving DecidableEq, Repr

/-- The I3C target (R755 to R757). -/
structure I3c where
  dynamicAddr : Option (BitVec 7) := none
  ibiEnabled : Bool := true
  /-- Mandatory bytes raised and not yet taken. -/
  ibiPending : List Byte := []
  cursor : Nat := 0
  signalled : Bool := false
  /-- The bytes of the last private read. -/
  reply : List Byte := []
  deriving DecidableEq, Repr

/-- Tinder and the JTAG debug instructions (R700 to R706, R713). -/
structure Tinder where
  unlocked : Bool := false
  broken : Bool := false
  breakSince : Nat := 0
  trace : TraceMode := .off
  tainted : Bool := false
  breakNs : Nat := 0
  traceDropped : Nat := 0
  /-- The 16 KiB output buffer of trace lines with the time up to which it has been sent, and the last
  command's reply. -/
  traceBuffer : List Byte := []
  traceSent : Nat := 0
  reply : List Byte := []
  /-- What the last JTAG debug instruction shifted out, and the cores it has halted. -/
  jtagOut : List Byte := []
  coreHalted : List Nat := []
  deriving DecidableEq, Repr

/-- An ETHERNET_ADDRESSES item (R636, R548). -/
structure EthAddr where
  port : Nat
  pfcPriority : Nat := 3
  dscp : Nat := 0
  vlan : Nat := 0
  ipv4 : BitVec 32 := 0
  ipv6 : BitVec 128 := 0
  deriving DecidableEq, Repr

/-- A CNP_PARAMETERS item (R636, R548). -/
structure CnpParams where
  port : Nat
  alphaGain : BitVec 32 := 0
  recoveryUs : Nat := 0
  minRateGbps : Nat := 0
  deriving DecidableEq, Repr

/-- An EXPORT_QUEUE item (R636, R550). -/
structure ExportQueue where
  queue : Nat
  port : Nat
  remoteQpn : Nat
  remoteAddr : BitVec 64
  remoteKey : BitVec 32
  capacity : Nat
  remoteIp : BitVec 128
  deriving DecidableEq, Repr

/-- The policies of R636, with the defaults of their rules. FP32 values are bit patterns. -/
structure Policy where
  /-- 1 × 10⁻⁷ and 1 × 10⁻⁵ in FP32 (R29). -/
  laneTransientBer : BitVec 32 := 0x33D6BF95
  lanePermanentBer : BitVec 32 := 0x3727C5AC
  laneUncorrectable : Nat := 10
  flickerWindowMin : Nat := 10
  flicker24h : Nat := 8
  stallLimitMs : Nat := 100
  channelUncorrectable : Nat := 2
  channelCorrected : Nat := 100000
  channelTransient : Nat := 64
  thermalOffsets : List Nat := [0, 0, 0]
  interleaveNext : Nat := 2
  steerMode : Nat := 0
  ethernetMode : BitVec 2 := 0
  ethAddrs : List EthAddr := []
  cnp : List CnpParams := []
  exportQueues : List ExportQueue := []
  powerLimitW : Nat := 1500
  deriving DecidableEq, Repr

/-- A host DMA window (R579, R697). -/
structure Window where
  base : Nat
  hostBase : Nat
  size : Nat
  read : Bool
  write : Bool
  deriving DecidableEq, Repr

/-- A region-table entry (R692). -/
structure Region where
  base : Nat := 0
  size : Nat := 0
  space : Nat := 0
  stackMask : Nat := 0
  layout : Nat := 0
  compression : Nat := 0
  rights : BitVec 5 := 0
  lost : Bool := false
  tag : Nat := 0
  deriving DecidableEq, Repr

/-- The protection set-up (R691). A table entry that is none is not VALID. -/
structure Protection where
  regions : List (Option Region) := List.replicate 4096 none
  windows : List Window := []
  keys : List (BitVec 64) := []
  epoch : Nat := 0
  deriving DecidableEq, Repr

/-- The bundle of a fresh device: it admits every revision of each die type. -/
def FlashSlot.atReset : FlashSlot :=
  { state := .valid, intact := true
    ranges := [⟨1, 1, 0, 0, 255, 255⟩, ⟨1, 2, 0, 0, 255, 255⟩, ⟨1, 3, 0, 0, 255, 255⟩] }

/-- The external flash and the log areas (R672, R748). -/
structure Flash where
  slotA : FlashSlot := FlashSlot.atReset
  slotB : FlashSlot := {}
  slotR : FlashSlot := FlashSlot.atReset
  lastGood : Slot := .a
  pendingSlot : Option Slot := none
  ownerDigest : Option (List Byte) := none
  bootCount : Nat := 0
  policy : Policy := {}
  protection : Protection := {}
  faultLog : List LogEntry := []
  /-- The flash event ring, oldest first, at most 1,024 records (R663). -/
  eventRing : List EventRecord := []
  /-- MEM_CONFIG INTERLEAVE as laid out now (R425). -/
  interleave : Nat := 2
  /-- Erase counts of the 256 blocks of the log areas; blocks replaced; spares left (R748). -/
  erases : List Nat := List.replicate 256 0
  retiredBlocks : Nat := 0
  spareBlocks : Nat := 32
  deriving DecidableEq, Repr

end Sys2Proof.Machine
end

