-- ==== Sys2Proof/Machine/StateFabric.lean ====
section
/-! DEFINITION. State of the Torcor ports, Beacon and the FTC units (12, 13, 21). A default is the
value at reset. -/

namespace Sys2Proof.Machine

/-- PORT_STATUS STATE (R571). -/
inductive PortState where
  | down | training | up | degraded | failed | miswired | ethernetUp | ethernetDown
  deriving DecidableEq, Repr

def PortState.code : PortState → Nat
  | .down => 0 | .training => 1 | .up => 2 | .degraded => 3 | .failed => 4 | .miswired => 5
  | .ethernetUp => 6 | .ethernetDown => 7

/-- A flit that waits for acknowledgement (R537), with the answer and the credits that it carried first (R536). -/
structure SentFlit where
  seq : Nat
  kind : Nat
  body : List Byte
  creditVc : Nat := 0
  creditCount : Nat := 0
  ack : Nat := 0
  ackValid : Bool := false
  nak : Bool := false
  deriving DecidableEq, Repr

/-- A port (R528, R536 to R538, R571, R572). -/
structure Port where
  state : PortState := .down
  lanes : List Lane := List.replicate 5 {}
  width : Nat := 0
  /-- Ethernet mode in effect (MODE). -/
  ethernet : Bool := false
  peerRank : Nat := 0
  peerPort : Nat := 0
  pending : List LaneChange := []
  /-- Changes that the far end proposed (R527), and its QUIESCE awaiting the quiesce point (R539). -/
  peerChanges : List LaneChange := []
  quiesceAsked : Bool := false
  /-- Payload bytes sent and received, for telemetry. -/
  bytes : Nat := 0
  /-- Link layer: next SEQ, flits not acknowledged and when the last of them went out, next SEQ expected, ACK to return. -/
  txSeq : Nat := 0
  replay : List SentFlit := []
  lastSent : Nat := 0
  rxSeq : Nat := 0
  ackDue : Bool := false
  nakDue : Bool := false
  /-- Credits held to send, and credits of freed buffer space to return, per VC, in 64-byte units (R538). -/
  txCredits : List Nat := [1024, 1024, 1024, 1024, 64]
  creditsDue : List Nat := [0, 0, 0, 0, 0]
  creditWaitSince : Option Nat := none
  /-- Packets that wait for credits, by the order of R535: control, forwarded, own. -/
  txControl : List Packet := []
  txForward : List Packet := []
  txOwn : List Packet := []
  /-- The exchange of HELLO since the last training or OPEN_SESSION (R529): this end has sent, the far end's has come;
  and a HELLO that came while no session was open, so that this end has not answered it. -/
  helloSent : Bool := false
  helloReceived : Bool := false
  helloOwed : Bool := false
  /-- The port failed by loss of its whole peer (R779). -/
  peerLost : Bool := false
  /-- ETHERNET_DOWN: when training is tried again (R549). -/
  retryAt : Nat := 0
  /-- The reduced sending rate in force after a CNP; none is full rate (R548). -/
  ethRate : Option (BitVec 32) := none
  cnpSent : Nat := 0
  arpAnswered : Nat := 0
  naksSent : Nat := 0
  flitsSent : Nat := 0
  flitsReceived : Nat := 0
  flitCrcErrors : Nat := 0
  replayedFlits : Nat := 0
  fecCorrected : Nat := 0
  fecUncorrectable : Nat := 0
  creditWaitNs : Nat := 0
  packetsForwarded : Nat := 0
  partitionDrops : Nat := 0
  e2eCrcErrors : Nat := 0
  stalePackets : Nat := 0
  ethFramesSent : Nat := 0
  ethFramesReceived : Nat := 0
  ethCnpReceived : Nat := 0
  deriving DecidableEq, Repr

/-- Who issued a collective instance: a tile's COLL, or the update sequence of R384. -/
inductive CollOwner where
  | tile (die pos ctx done : Nat)
  | update
  deriving DecidableEq, Repr

/-- Data of a member that has reached a collective instance (R561): its place in the message, and its bytes
where they wait for the others'. -/
structure CollPiece where
  member : Nat
  offset : Nat
  len : Nat
  last : Bool := false
  bytes : List Byte := []
  deriving DecidableEq, Repr

/-- A collective instance or a PUT in flight (R559 to R561, R545). -/
structure CollInst where
  step : Nat
  entry : Nat
  sequence : Nat
  owner : CollOwner
  issuedAt : Nat
  lastActivity : Nat
  pieces : List CollPiece := []
  /-- Flag words by the rank that sent them, and how many dimensions have been exchanged. -/
  flags : List (Nat × BitVec 64) := []
  stage : Nat := 0
  /-- Segments of a chain reduction to which this member has added its part, and final ones received. -/
  contributed : List Nat := []
  finals : List Nat := []
  /-- MSG_IDs of a PUT's packets not yet acknowledged. -/
  unacked : List Nat := []
  /-- The device's own part is complete and visible (R560). -/
  complete : Bool := false
  /-- A collective of the update (R384): what Lamplighter contributes, what Beacon's buffer has received, and the trailer
  flag words so far (R385). -/
  own : List Byte := []
  result : List Byte := []
  trailer : BitVec 8 := 0
  deriving DecidableEq, Repr

/-- A recorded abort token (R567). -/
structure AbortToken where
  step : Nat
  origin : Nat
  cause : Nat
  entry : Nat
  /-- It has had its effect on this device. -/
  acted : Bool := false
  /-- It marks an abort that this device originated. -/
  own : Bool := false
  deriving DecidableEq, Repr

/-- Beacon (R552 to R574). -/
structure Beacon where
  instances : List CollInst := []
  /-- Packets held for instances not yet issued, with the port they came on, oldest first (R565). -/
  early : List (Nat × Packet) := []
  /-- Sequence numbers of entries issued in this step: (entry, count). -/
  issueCounts : List (Nat × Nat) := []
  nextMsgId : Nat := 0
  tokens : List AbortToken := []
  aborted : Bool := false
  originator : Bool := false
  abortRank : Nat := 0
  abortCause : Nat := 0
  abortStep : Nat := 0
  instancesDone : Nat := 0
  abortsOriginated : Nat := 0
  abortsReceived : Nat := 0
  elementsReduced : Nat := 0
  bytesSent : Nat := 0
  earlyHeld : Nat := 0
  /-- Beacon pages replaced so far, and uncorrectable times by page (R641, R642). -/
  pagesReplaced : List Nat := []
  pageTimes : List (Nat × Nat) := []
  deriving DecidableEq, Repr

/-- The FTC block of a die (R519, R522, R523): units in use and counters. -/
structure Ftc where
  decBusy : Nat := 0
  encBusy : Nat := 0
  /-- Slot keys of streams that wait for a decoder, then for an encoder (R520). -/
  decWaiting : List Nat := []
  encWaiting : List Nat := []
  blocksDecoded : Nat := 0
  rawBlocksDecoded : Nat := 0
  blocksEncoded : Nat := 0
  rawBlocksEncoded : Nat := 0
  encRawBytes : Nat := 0
  encStoredBytes : Nat := 0
  mismatches : Nat := 0
  unitWaitNs : Nat := 0
  tableUse : List Nat := List.replicate 16 0
  deriving DecidableEq, Repr

end Sys2Proof.Machine
end

