-- ==== Sys2Proof/Machine/StateHost.lean ====
section
/-! DEFINITION. State of the host link, its registers, the DMA channels, the mailboxes and
Lamplighter (14, 15). A default is the value at reset. -/

namespace Sys2Proof.Machine

/-- HOST_ERR KIND (R589, R601). -/
inductive HostErrKind where
  | none | unmapped | denied | uncorrectable | retired | halt
  deriving DecidableEq, Repr

def HostErrKind.code : HostErrKind → Nat
  | .none => 0 | .unmapped => 1 | .denied => 2 | .uncorrectable => 3 | .retired => 4 | .halt => 5

/-- CHAN_STATUS STATE (R602). -/
inductive ChanState where
  | disabled | idle | active | halted
  deriving DecidableEq, Repr

def ChanState.code : ChanState → Nat
  | .disabled => 0 | .idle => 1 | .active => 2 | .halted => 3

/-- A DMA descriptor as read from the ring (R592). -/
structure Descriptor where
  src : Nat
  dst : Nat
  length : Nat
  flags : Nat
  reserved : Bool
  deriving DecidableEq, Repr

/-- A descriptor in progress, and how the checks made when it started (R594, R698) came out. -/
structure DmaJob where
  desc : Descriptor
  index : Nat
  /-- The status and cause word the descriptor is bound to end with, when a check failed. -/
  failed : Option (Status × Nat) := none
  /-- Bytes split into requests, and bytes that have landed (R593). -/
  issued : Nat := 0
  moved : Nat := 0
  deriving DecidableEq, Repr

/-- A host DMA channel (R591 to R594, R602). -/
structure DmaChannel where
  ringBase : Nat := 0
  ringLog2 : Nat := 0
  enable : Bool := false
  tail : Nat := 0
  head : Nat := 0
  state : ChanState := .disabled
  lastStatus : Status := .ok
  current : Option DmaJob := none
  /-- The descriptor in flight at a link loss, for ATTACH: ring index and status (R598). -/
  held : Option (Nat × Status) := none
  deriving DecidableEq, Repr

/-- One MSI-X table entry (R585, R590). -/
structure MsixEntry where
  addr : BitVec 64 := 0
  data : BitVec 32 := 0
  control : BitVec 32 := 1
  deriving DecidableEq, Repr

/-- The host link and the host interface registers (R600, R601). -/
structure HostIf where
  speed : Nat := 0
  width : Nat := 0
  flitMode : Bool := false
  /-- The host has trained the link as CXL, and has enabled CXL.cache in the DVSEC (R577). -/
  cxlTrained : Bool := false
  cxlEnabled : Bool := false
  detached : Bool := false
  perstSeen : Bool := false
  retraining : Bool := false
  memwinPage : BitVec 32 := 0
  intStatus : BitVec 27 := 0
  errKind : HostErrKind := .none
  errWrite : Bool := false
  errValid : Bool := false
  errAddr : Nat := 0
  retrains : Nat := 0
  linkLosses : Nat := 0
  windowErrors : Nat := 0
  dmaBytesToDevice : Nat := 0
  dmaBytesToHost : Nat := 0
  msixEnabled : Bool := false
  msix : List MsixEntry := List.replicate 64 {}
  pba : BitVec 64 := 0
  /-- The completion of the last BAR 2 read, and whether it was poisoned (R589). -/
  bar2Data : List Byte := []
  bar2Poisoned : Bool := false
  /-- Host snoops answered, each with RspIHitI (R580). -/
  snoopsAnswered : Nat := 0
  dma : List DmaChannel := List.replicate 8 {}
  deriving DecidableEq, Repr

/-- MBOX_STATE (R611). -/
inductive MboxState where
  | free | submitted | pending | done
  deriving DecidableEq, Repr

def MboxState.code : MboxState → Nat
  | .free => 0 | .submitted => 1 | .pending => 2 | .done => 3

/-- The response header of R609 with the inline result area. -/
structure Response where
  status : Status := .ok
  final : Bool := false
  truncated : Bool := false
  external : Bool := false
  sequence : BitVec 32 := 0
  opcode : Nat := 0
  resultLength : Nat := 0
  eventSeq : Nat := 0
  inline : List Byte := []
  /-- The first 64 bytes of the result, wherever it went: what a held entry keeps (R635). -/
  front : List Byte := []
  deriving DecidableEq, Repr

/-- A held entry of ATTACH (R635). -/
structure HeldEntry where
  opcode : Nat
  status : Status
  sequence : BitVec 32
  resultLength : Nat
  running : Bool
  result : List Byte
  deriving DecidableEq, Repr

/-- A mailbox (R607 to R613). -/
structure Mailbox where
  state : MboxState := .free
  opcode : Nat := 0
  request : Request := {}
  response : Response := {}
  /-- Held for ATTACH since a link loss (R597). -/
  held : Option HeldEntry := none
  deriving DecidableEq, Repr

/-- MAINT_REASON (R634). -/
inductive MaintReason where
  | none | belowMinimum | requested | recoveryImage
  deriving DecidableEq, Repr

def MaintReason.code : MaintReason → Nat
  | .none => 0 | .belowMinimum => 1 | .requested => 2 | .recoveryImage => 3

/-- FAULT_REASON (R634). -/
inductive FaultReason where
  | none | lockstep | watchdog | sramUncorrectable | uncontained
  deriving DecidableEq, Repr

def FaultReason.code : FaultReason → Nat
  | .none => 0 | .lockstep => 1 | .watchdog => 2 | .sramUncorrectable => 3 | .uncontained => 4

/-- Lamplighter (15). -/
structure Lamplighter where
  maintReason : MaintReason := .none
  faultReason : FaultReason := .none
  /-- The SRAM test at boot failed: nothing is served until reset (R730). -/
  dead : Bool := false
  /-- Times of credential failures, newest first, and the lockout of R620. -/
  authFails : List Nat := []
  lockoutUntil : Option Nat := none
  commands : Nat := 0
  commandsRefused : Nat := 0
  authFailures : Nat := 0
  doorbellOverruns : Nat := 0
  restarts : Nat := 0
  /-- DRAIN in progress: its mailbox and whether TARGET is MAINTENANCE (R629). -/
  drain : Option (Nat × Bool) := none
  /-- Host link loss asked for DRAINING (R597). -/
  linkDrain : Bool := false
  /-- OPEN_SESSION waits for HELLO: its mailbox (R628). -/
  helloWait : Option Nat := none
  mailboxes : List Mailbox := List.replicate 16 {}
  deriving DecidableEq, Repr

end Sys2Proof.Machine
end

