-- ==== Sys2Proof/Machine/StateTile.lean ====
section
/-! DEFINITION. State of a tile: arrays, accumulators, wick, contexts, event counters, the vector
and XFER queues, and the stream slots (02, 03, 04, 05). A default is the value at reset. -/

namespace Sys2Proof.Machine

/-- TILE_STATUS STATE (R124). -/
inductive TileState where
  | available | retired | fusedOff | selfTestFailed
  deriving DecidableEq, Repr

def TileState.code : TileState → Nat
  | .available => 0 | .retired => 1 | .fusedOff => 2 | .selfTestFailed => 3

/-- An array descriptor (R159). -/
structure ArrayDesc where
  opa : Nat
  opb : Nat
  opp : Nat
  dst : Nat
  dst2 : Nat
  mask : Nat
  depth : Nat
  rows : Nat
  group : Nat
  deriving DecidableEq, Repr

/-- Accumulator files: 16 elements of a block, keyed by 16 × array + block; an absent block holds
+0 everywhere (R66, R76). -/
abbrev AccFile := List (Nat × List (BitVec 32))

/-- What the checker of an array holds of a block: eight predicted sums and magnitudes, rows then columns, the
chunks of four so far, and whether a cycle's exact comparison has failed (R104 to R107). -/
structure CheckSums where
  predicted : List (BitVec 32) := List.replicate 8 0
  mags : List (BitVec 32) := List.replicate 8 0
  chunks : Nat := 0
  uneven : Bool := false
  deriving DecidableEq, Repr

/-- Where an array operation stands (R109, R113). -/
inductive ArrayPhase where
  | passes | awaitReplay | awaitSpare | finished
  deriving DecidableEq, Repr

/-- An array operation in the queue of R151. -/
structure ArrayOp where
  slot : ArraySlot
  desc : ArrayDesc
  ctx : Nat
  segment : Nat
  bundle : Nat
  /-- The 256-bit row mask (R95), all ones without one; the ranges under its retention lock (R87). -/
  mask : Nat
  locks : List (Nat × Nat) := []
  /-- The next pass to write back; executions begun (R114). -/
  pass : Nat := 0
  executions : Nat := 1
  phase : ArrayPhase := .passes
  /-- Arrays that flickered in the present execution (R111), in order of report. -/
  flickers : List Nat := []
  /-- The first array-cycle has come: the accumulators as they were then (R109), and the C operand of
  INIT LOAD, which the write-back overwrites and a replay needs again. -/
  begun : Bool := false
  snapshot : AccFile := []
  cOperand : List Byte := []
  /-- When an execution that flickered ended (R110). -/
  endedAt : Nat := 0
  /-- Side effects that a flicker discards and completion applies (R109): the amax so far, and whether a
  non-finite value was written. -/
  amaxSeen : Option (BitVec 32) := none
  nonFinite : Bool := false
  /-- Checkers of the dW arrays, by accumulator block: they compare at the end of the operation (R107). -/
  checks : List (Nat × CheckSums) := []
  deriving DecidableEq, Repr

/-- A vector descriptor (R160). -/
structure VecDesc where
  srcA : Nat
  srcB : Nat
  dst : Nat
  length : Nat
  fmtA : Nat
  fmtB : Nat
  fmtD : Nat
  recordAmax : Bool
  countSat : Bool
  scalar : BitVec 32
  key : Nat
  deriving DecidableEq, Repr

/-- The vector operations of R161. -/
inductive VecOpcode where
  | add | sub | mul | fma | axpy | max | min | exp | log | rcp | rsqrt | sum | amax | convert
  | accum | dropout | copy
  deriving DecidableEq, Repr

/-- A vector operation in the queue of R151. -/
structure VecOp where
  op : VecOpcode
  desc : VecDesc
  done : Nat
  ctx : Nat
  segment : Nat
  bundle : Nat
  /-- Read at issue: the first element index and P15 (R259, R334), and the amax of a derived scale (R265). -/
  elem : Nat := 0
  addend : Nat := 0
  amaxIn : BitVec 32 := 0
  deriving DecidableEq, Repr

/-- An XFER (R160, R781). -/
structure Xfer where
  /-- The model's own: names the requests of this XFER. -/
  id : Nat
  src : Nat
  dst : Nat
  length : Nat
  targetTile : Nat
  targetEvent : Nat
  done : Nat
  ctx : Nat
  /-- Bytes split into requests so far, and bytes landed. -/
  issued : Nat := 0
  landed : Nat := 0
  lastLanded : Nat := 0
  issueTime : Nat := 0
  failed : Bool := false
  /-- The request that takes its event over LINK_CC (R169). -/
  event : Option Nat := none
  deriving DecidableEq, Repr

/-- Context states (R172). -/
inductive CtxState where
  | idle | ready | blocked | halted | faulted
  deriving DecidableEq, Repr

def CtxState.code : CtxState → Nat
  | .idle => 0 | .ready => 1 | .blocked => 2 | .halted => 3 | .faulted => 4

/-- What holds a BLOCKED context (R172). -/
inductive BlockReason where
  | none
  | wait (counter threshold : Nat)
  /-- The barrier, and how often it had opened before (R170). -/
  | barrier (id opened : Nat)
  /-- Scopes, and the first request number of a buffered stream that the fence does not wait for. -/
  | fence (scopes upTo : Nat)
  | halt
  | segment (seg : Nat)
  deriving DecidableEq, Repr

/-- A loop register (R172). -/
structure LoopReg where
  count : Nat := 0
  start : Nat := 0
  segment : Nat := 0
  deriving DecidableEq, Repr

/-- NF_STATUS of a context (R279). -/
structure NfStatus where
  nonFinite : Bool := false
  amaxNonFinite : Bool := false
  source : Nat := 0
  segment : Nat := 0
  bundle : Nat := 0
  deriving DecidableEq, Repr

/-- A micro-batch context (R172). -/
structure Context where
  state : CtxState := .idle
  reason : BlockReason := .none
  segment : Nat := 0
  bundle : Nat := 0
  loops : List LoopReg := List.replicate 4 {}
  params : List (BitVec 32) := List.replicate 16 0
  nf : NfStatus := {}
  /-- SAT_COUNT and UNDERFLOW_COUNT (R279), since boot. -/
  satCount : Nat := 0
  underflowCount : Nat := 0
  stalls : List Nat := List.replicate 8 0
  deriving DecidableEq, Repr

/-- Stall causes (R223), as tags of counters (R171). -/
inductive StallCause where
  | stackLate | remoteDieLate | fabricLate | hostLate | eventWait | thermalHold | refreshPause
  | flickerReplay
  deriving DecidableEq, Repr

def StallCause.code : StallCause → Nat
  | .stackLate => 0 | .remoteDieLate => 1 | .fabricLate => 2 | .hostLate => 3 | .eventWait => 4
  | .thermalHold => 5 | .refreshPause => 6 | .flickerReplay => 7

/-- The most recently issued local operation that named a counter (R171). -/
inductive CounterTag where
  | none
  /-- The stream that runs on a slot, and its source tier when it named the counter (R224). -/
  | stream (slot tier : Nat)
  /-- A stream whose slot a later START has taken: its source tier. -/
  | pastStream (tier : Nat)
  | xfer
  | coll
  | array
  | vector
  deriving DecidableEq, Repr

/-- Stream slot states (R193). -/
inductive SlotState4 where
  | unbound | idle | running | error
  deriving DecidableEq, Repr

def SlotState4.code : SlotState4 → Nat
  | .unbound => 0 | .idle => 1 | .running => 2 | .error => 3

/-- Why a RUNNING stream does not issue (R210, R213, R215, R87). -/
inductive StreamWait where
  | none | backPressure | emptyFifo | ftcUnit
  deriving DecidableEq, Repr

/-- A buffer block being filled, oldest first (R209, R210). -/
structure FillBlock where
  index : Nat
  written : Nat := 0
  landed : Nat := 0
  closed : Bool := false
  deriving DecidableEq, Repr

/-- A stream slot of a tile or of a BSU (R193 to R215, R234). -/
structure StreamSlot where
  state : SlotState4 := .unbound
  program : Nat := 0
  pc : Nat := 0
  causeWord : BitVec 32 := 0
  bytesMoved : Nat := 0
  a : List Nat := List.replicate 4 0
  s : List Int := List.replicate 4 0
  l : List Nat := List.replicate 4 0
  /-- Wide enough for a device address: a BSU loads one into Q1 (R481). -/
  q : List (BitVec 64) := List.replicate 4 0
  fifo : List Nat := []
  /-- Completed, unreleased blocks (BLOCKS_HELD), and the blocks now filling. -/
  blocksHeld : Nat := 0
  heldBytes : List Nat := []
  filling : List FillBlock := []
  nextBlock : Nat := 0
  wait : StreamWait := .none
  /-- When that wait began (R231, R523). -/
  waitSince : Nat := 0
  ended : Bool := false
  /-- It ran when a step abort stopped it (R186, R232). -/
  cutOff : Bool := false
  done : Nat := 0
  /-- The context that started it, and the start time on the die's timer. -/
  ctx : Nat := 0
  startTime : Nat := 0
  lastLanded : Nat := 0
  /-- Offset within MOVE still to be split into requests: bytes of the present MOVE issued. -/
  moveDone : Nat := 0
  /-- Blocks released by CONSUME: (time, bytes), newest first (R217). -/
  released : List (Nat × Nat) := []
  /-- Entries taken by INDEX, likewise: the consumer of its index stream. -/
  indexed : List (Nat × Nat) := []
  /-- An FTC unit is held (R213); position in the compressed side, and decoded bytes not yet
  moved (decode) or raw bytes not yet encoded (encode). -/
  ftcUnit : Bool := false
  ftcPos : Nat := 0
  ftcBytes : List Byte := []
  ftcBlocks : Nat := 0
  /-- Bytes of an index stream that do not fill a 32-bit value yet (R215). -/
  partWord : List Byte := []
  /-- The index stream that feeds this slot's FIFO has completed (R215). -/
  indexDone : Bool := false
  /-- FTC_ERROR of the slot (R521): kind, substream, block. -/
  ftcError : Nat × Nat × Nat := (0, 0, 0)
  deriving DecidableEq, Repr

/-- FAULT_INFO and FAULT_PC (R190). -/
structure FaultInfo where
  valid : Bool := false
  cause : Nat := 0
  ctx : Nat := 0
  segment : Nat := 0
  bundle : Nat := 0
  slot : Nat := 0
  deriving DecidableEq, Repr

/-- A segment load of slot 127 (R149): segment, buffer, and the context blocked on it, none for a
prefetch. A tile's loads run one after another. -/
structure SegLoad where
  segment : Nat
  buffer : Nat
  ctx : Option Nat
  /-- The code that has landed, and the bytes split into requests. -/
  code : List Byte := []
  issued : Nat := 0
  deriving DecidableEq, Repr

/-- A tile position (R66, R123). -/
structure Tile where
  state : TileState := .available
  lit : Bool := false
  /-- Lighting has been asked for (R181, R183). -/
  lighting : Bool := false
  /-- A boot has read the log and tested the tile: SPARE_AVAILABLE reads 0 before (R124). -/
  known : Bool := false
  /-- Array a retired, or bit 16 the spare failed (R125). -/
  arrayRetired : BitVec 17 := 0
  /-- The array index that the spare replaces (R113). -/
  spareFor : Option Nat := none
  /-- Logical tile mapped to this position; none reads 0x3F (R124). -/
  logicalId : Option Nat := none
  /-- Times of flickers per array, newest first (R112), and counts since boot (R126). -/
  flickerTimes : List (List Nat) := List.replicate 17 []
  flickerBoot : List Nat := List.replicate 17 0
  arrayCycles : Nat := 0
  skippedCycles : Nat := 0
  replayCycles : Nat := 0
  ramps : Nat := 0
  /-- Gated cell-cycles; the register counts them in units of 1,024. -/
  zeroGated : Nat := 0
  tmCorrected : Nat := 0
  tmUncorrectable : Nat := 0
  /-- Sliding windows of R641: corrected words (time, count) and uncorrectable reads. -/
  tmCorrectedTimes : List (Nat × Nat) := []
  tmUncorrectableTimes : List Nat := []
  acc : AccFile := []
  /-- Blocks held for a later HOLD (R79). -/
  held : List Nat := []
  arrayQueue : List ArrayOp := []
  /-- The next array operation ramps (R101). -/
  rampDue : Bool := true
  /-- The grid runs with the skew of R103; time of its last array-cycle (R101). -/
  skewed : Bool := false
  lastArray : Nat := 0
  /-- Cycles by which the last array of the skew still runs after the first pair's last array-cycle (R103). -/
  tail : Nat := 0
  thermalHold : Bool := false
  /-- When the present hold began (R738). -/
  holdSince : Nat := 0
  /-- Program memory: two segment buffers, each a segment number and its code (R147). -/
  buffers : List (Option (Nat × List Byte)) := [none, none]
  segLoads : List SegLoad := []
  counters : List Nat := List.replicate 256 0
  tags : List CounterTag := List.replicate 256 .none
  contexts : List Context := List.replicate 8 {}
  running : Nat := 0
  switching : Option Nat := none
  /-- Since when the running context stalls (R178), and the episode of one cause so far (R758). -/
  stallSince : Option Nat := none
  episode : Option (StallCause × Nat) := none
  /-- When the tile's last operation ended, or its running context was last free to issue (R180). -/
  activeAt : Nat := 0
  fault : FaultInfo := {}
  bundlesIssued : Nat := 0
  contextSwitches : Nat := 0
  switchCycles : Nat := 0
  issueHoldCycles : Nat := 0
  segmentLoads : Nat := 0
  vectorQueue : List VecOp := []
  xfers : List Xfer := []
  slots : List StreamSlot := List.replicate 128 {}
  g4eMismatch : Nat := 0
  g4eEscapes : Nat := 0
  /-- The model's own: index of the free value that stands for a memory left undefined (R734). -/
  scrambled : Option Nat := none
  deriving DecidableEq, Repr

/-- The reset state of the tile at a position: fuses disable positions 48 and 49 (R67). -/
def Tile.atReset (pos : Nat) : Tile :=
  if pos < 48 then {} else { state := .fusedOff }

end Sys2Proof.Machine
end

