-- ==== Sys2Proof/Machine/StateJob.lean ====
section
/-! DEFINITION. State of the session, the loaded program, the font, the running step, the update,
the commit area and the request pool (03, 04, 06 to 09, 15). A default is the value at reset. -/

namespace Sys2Proof.Machine

/-- The job session of OPEN_SESSION (R628). -/
structure Session where
  jobId : Nat
  seed : Nat
  firstStep : Nat
  rank : Nat
  /-- The 64-byte topology descriptor (R531). -/
  topology : List Byte
  /-- The last step accepted in this session (R402). -/
  lastAccepted : Option Nat := none
  deriving DecidableEq, Repr

/-- A loaded program image (R135 to R143): its header and its sections, each a type, its bytes and
its entry count. -/
structure Program where
  programId : Nat
  requiredFeatures : Nat
  tilesCd0 : Nat
  tilesCd1 : Nat
  contextsUsed : Nat
  modeFlags : Nat
  mbDefault : Nat
  sections : List (Nat × List Byte × Nat)
  deriving DecidableEq, Repr

/-- Where a font instance is (R320): at an offset of a pool, which a region backs, with a size, or absent. -/
inductive FontPlace where
  | empty
  | dropped
  | placed (region offset size : Nat)
  deriving DecidableEq, Repr

/-- The font block of a compute die (R331, R332) and its instances by (entry, context). -/
structure Font where
  placed : Bool := false
  stashFull : Bool := false
  failedEntry : Nat := 0
  failedContext : Nat := 0
  frontUsed : Nat := 0
  mainUsed : Nat := 0
  overflowUsed : Nat := 0
  demand : Nat := 0
  dropped : Nat := 0
  spilled : Nat := 0
  demandHighWater : Nat := 0
  stashFullSteps : Nat := 0
  recomputedSteps : Nat := 0
  instances : List (Nat × Nat × FontPlace) := []
  deriving DecidableEq, Repr

/-- The scalar block (R397). Binary64 values are bit patterns. -/
structure Scalars where
  committedStep : BitVec 64 := 0
  jobSeed : BitVec 64 := 0
  noiseEma : BitVec 64 := 0
  goodSteps : Nat := 0
  nextMb : Nat := 0
  lossExp : Nat := 0
  steerCount : Nat := 0
  updates : Nat := 0
  skips : Nat := 0
  deriving DecidableEq, Repr

/-- KIND of a commit record, in the order of R395. -/
inductive RecordKind where
  | prepared | rolledBack | committed
  deriving DecidableEq, Repr

/-- Step outcomes (R392, R419). -/
inductive StepOutcome where
  | none | update | skip | notCommitted
  deriving DecidableEq, Repr

def StepOutcome.code : StepOutcome → Nat
  | .none => 0 | .update => 1 | .skip => 2 | .notCommitted => 3

/-- A commit record (R396). -/
structure CommitRecord where
  kind : RecordKind
  outcome : StepOutcome
  vote : Nat
  shadowBank : Nat
  step : Nat
  programId : Nat
  jobId : Nat
  scalars : Scalars
  stateDigest : List Byte
  noiseB : Option (BitVec 64)
  steerMode : Nat
  deriving DecidableEq, Repr

/-- The counters of a G4E record (R304). -/
structure G4eCounters where
  g4eId : Nat := 0
  saturated : Nat := 0
  underflow : Nat := 0
  escapesLast : Nat := 0
  guardUp : Nat := 0
  guardDown : Nat := 0
  guardLimited : Nat := 0
  scaleFixups : Nat := 0
  deriving DecidableEq, Repr

/-- What Lamplighter has taken from the commit area, whose two copies are bytes of stacked memory (R395, R398):
the record that counts, the COMMITTED record of the highest step, the bank of the epoch word. `copies` names the
(stack, channel) of each copy. -/
structure CommitArea where
  present : Bool := false
  /-- The record with the highest (STEP, KIND). -/
  top : Option CommitRecord := none
  last : Option CommitRecord := none
  epochStep : Nat := 0
  epochBank : Nat := 0
  programId : Nat := 0
  jobId : Nat := 0
  scalars : Scalars := {}
  stateDigest : List Byte := []
  copies : List (Nat × Nat) := []
  /-- What the G4E records' counters gain if the PREPARED step commits (R303); no part of the area. -/
  gain : List G4eCounters := []
  /-- A copy of the commit or program area waits to be rebuilt (R457). -/
  rebuild : Bool := false
  deriving DecidableEq, Repr

/-- PHASE of SWEEP_STATUS (R419). -/
inductive SweepPhase where
  | idle | stats | sweep | vote | commit | exporting
  deriving DecidableEq, Repr

def SweepPhase.code : SweepPhase → Nat
  | .idle => 0 | .stats => 1 | .sweep => 2 | .vote => 3 | .commit => 4 | .exporting => 5

/-- The sweep block (R419, R420). -/
structure Sweep where
  phase : SweepPhase := .idle
  outcome : StepOutcome := .none
  vote : Nat := 0
  result : Nat := 0
  diverged : Bool := false
  steerMode : Nat := 0
  noiseA : BitVec 64 := 0
  noiseG2 : BitVec 64 := 0
  noiseB : BitVec 64 := BitVec.allOnes 64
  sweepNs : Nat := 0
  exportWaitNs : Nat := 0
  exportBytes : Nat := 0
  rollForwards : Nat := 0
  rollBacks : Nat := 0
  modeMismatches : Nat := 0
  digestComparisons : Nat := 0
  deriving DecidableEq, Repr

/-- An export of a committed step's object (R408 to R412): with the scalar block and the digest after the step. -/
structure Export where
  step : Nat
  kind : StepOutcome
  scalars : Scalars := {}
  digest : List Byte := []
  started : Bool := false
  /-- Bytes of the object (header, table, payload). -/
  object : List Byte := []
  deriving DecidableEq, Repr

/-- The state block (R376, R377). -/
structure StateBlock where
  shardIndex : Nat := 0
  replica : Nat := 0
  laidOut : Bool := false
  shardElements : Nat := 0
  realElements : Nat := 0
  flatBytes : Nat := 0
  factorBytes : Nat := 0
  placedBytes : Nat := 0
  rounds : Nat := 0
  clearTime : Nat := 0
  deriving DecidableEq, Repr

/-- Where a running step stands (R386, R631). -/
inductive StepPhase where
  | opening | lighting | compute | stats | recordStats | sweeping | digest | voting | ended
  deriving DecidableEq, Repr

/-- Why a step ends early: RUN_STEP's status, DETAIL_KIND and DETAIL (R232, R633), the time and
slot key that R232 compares, and the root of its cascade. -/
structure StepAbort where
  status : Status
  detailKind : Nat
  detail : List Byte
  time : Nat
  key : Nat
  root : Nat
  deriving DecidableEq, Repr

/-- Statistics of a parameter record (R386): norm squared, row sums, column sums, as FP32. -/
structure RecordStats where
  nsq : BitVec 32 := 0
  rows : List (BitVec 32) := []
  cols : List (BitVec 32) := []
  deriving DecidableEq, Repr

/-- The running step (R631 to R633). -/
structure RunStep where
  k : Nat
  mb : Nat
  /-- The count that RUN_STEP named. -/
  mbNamed : Nat
  lrFactor : BitVec 32
  /-- The cascade of the latest retirement or link failure in the step: the evaluation of service at its end goes
  on with it (R650, R665). -/
  serviceRoot : Option Nat := none
  mailbox : Nat
  acceptedNs : Nat
  phase : StepPhase := .opening
  /-- Context 0 has issued. -/
  contextsIssued : Bool := false
  stallLimitMs : Nat := 100
  /-- The steering mode of the policy, and the mode that applies on every device (R416). -/
  steerMode : Nat := 0
  modeApplied : Nat := 0
  /-- The row counts of R319; none takes each entry's MAX_ROWS. -/
  rowCounts : Option (List Nat) := none
  abort : Option StepAbort := none
  /-- The COMMITTED record has been written (R399). -/
  committed : Bool := false
  outcome : StepOutcome := .none
  /-- REASON of a skip (R633). -/
  skipReason : Nat := 0
  /-- The device flag of R274 at the end of the compute phase. -/
  nonFinite : Bool := false
  /-- Statistics by parameter record, and norms of weight and scale gradients by G4E record, in plan order. -/
  stats : List RecordStats := []
  g4eNorms : List (BitVec 32 × BitVec 32) := []
  noiseB : Option (BitVec 64) := none
  /-- A sweep has run, and what came of it (R388, R406, R407). -/
  swept : Bool := false
  sweepFinite : Bool := true
  digestOk : Bool := true
  stateDigest : List Byte := []
  /-- The digest of the lowest-ranked member of the replica set, when digests were exchanged. -/
  lowestDigest : Option (List Byte) := none
  vote : Nat := 0
  /-- What the G4E records' counters gain when the step commits (R303). -/
  g4eGain : List G4eCounters := []
  /-- When the last context halted, and how long the statistics pass took (R420, R421). -/
  statsStart : Nat := 0
  statsNs : Nat := 0
  sweepStart : Nat := 0
  exportWaitSince : Option Nat := none
  deriving DecidableEq, Repr

/-- A request in flight (R207, R217). -/
structure Req where
  owner : ReqOwner
  seq : Nat
  instr : Nat
  cls : Nat
  /-- The die on whose timer the deadline stands, and the stamp (R216, R218). -/
  die : Nat
  deadline : BitVec 32
  src : Nat
  dst : Nat
  srcTier : Nat
  dstTier : Nat
  len : Nat
  tee : Option Nat := none
  /-- Shared points still to pass, in order; how many of them, at the end, its tee passes (R214). -/
  points : List Point
  /-- Order in which the queue of its present point received it (R437). -/
  queued : Nat := 0
  teePoints : Nat := 0
  /-- Its bytes go to the stream's encoder (R213). -/
  toEncoder : Bool := false
  /-- Leading bytes of the source that count; the others read as zeros (R323). -/
  live : Option Nat := none
  /-- The bytes read at the source; none until read. -/
  data : Option (List Byte) := none
  /-- The block of the buffer it fills. -/
  block : Option Nat := none
  /-- Held at a BSU slice's footprint or by a forced refresh (R489, R445). -/
  held : Bool := false
  heldSince : Nat := 0
  /-- Its stream ended in error: discarded when it lands (R229). -/
  discarded : Bool := false
  deriving DecidableEq, Repr

/-- A SIGNAL or event increment in flight to a counter (R169). -/
structure SignalMsg where
  fromDie : Nat
  fromPos : Nat
  toDie : Nat
  toPos : Nat
  counter : Nat
  increment : Nat
  /-- The request that takes it over LINK_CC (R219). -/
  passing : Option Nat := none
  deriving DecidableEq, Repr

/-- A barrier's arrivals: the tiles, as (die, position), that have arrived since it last opened
(R170). -/
structure BarrierState where
  id : Nat
  arrived : List (Nat × Nat) := []
  /-- How often it has opened. -/
  opened : Nat := 0
  deriving DecidableEq, Repr

end Sys2Proof.Machine
end

