-- ==== Sys2Proof/Machine/StateStack.lean ====
section
/-! DEFINITION. State of the stacks, their channels and banks, and the bank-side units (10, 11).
A default is the value at reset. -/

namespace Sys2Proof.Machine

/-- Thermal stages (R451, R459). -/
inductive Stage where
  | normal | warn | throttle | halt
  deriving DecidableEq, Repr

def Stage.code : Stage → Nat
  | .normal => 0 | .warn => 1 | .throttle => 2 | .halt => 3

/-- A channel's counters, thresholds' windows and service (R454, R463). -/
structure Channel where
  retired : Bool := false
  corrected : Nat := 0
  transient : Nat := 0
  uncorrectable : Nat := 0
  bytes : Nat := 0
  uncorrectableTimes : List Nat := []
  correctedTimes : List (Nat × Nat) := []
  transientTimes : List Nat := []
  deriving DecidableEq, Repr

/-- A bank's refresh debt (R445). -/
structure Bank where
  debt : Nat := 0
  /-- A forced refresh or refresh management holds it. -/
  held : Bool := false
  /-- The open row, and the activations counted since the last refresh management (R446). -/
  row : Option Nat := none
  activations : Nat := 0
  deriving DecidableEq, Repr

/-- BSU_STATUS STATE (R497). -/
inductive BsuState where
  | dark | idle | running | retired
  deriving DecidableEq, Repr

def BsuState.code : BsuState → Nat
  | .dark => 0 | .idle => 1 | .running => 2 | .retired => 3

/-- BSU duty caps (R486, R500). -/
inductive DutyCap where
  | full | threeQuarters | half | quarter
  deriving DecidableEq, Repr

def DutyCap.code : DutyCap → Nat
  | .full => 0 | .threeQuarters => 1 | .half => 2 | .quarter => 3

/-- Who issued a BSU operation (R468). -/
inductive BsuIssuer where
  | tile (die pos ctx done : Nat)
  | beacon
  | lamplighter
  deriving DecidableEq, Repr

/-- One BSU's part of an operation: its elements, from the next to the end (R469, R488). -/
structure BsuPart where
  stack : Nat
  channel : Nat
  next : Nat
  stop : Nat
  finished : Bool := false
  /-- The partial of a reduction (R477). -/
  acc : Option (BitVec 32) := none
  /-- When the part was through. -/
  doneAt : Nat := 0
  deriving DecidableEq, Repr

/-- A dispatched BSU operation (R469). -/
structure BsuOp where
  id : Nat
  desc : BsuDesc
  issuer : BsuIssuer
  die : Nat
  parts : List BsuPart
  /-- The broadcast scale of CONVERT (R479). -/
  scale : BitVec 32 := 0x3F800000
  /-- The derived scale met a non-finite amax (R266, R476). -/
  badScale : Bool := false
  /-- Largest magnitude written, FP32, under RECORD_AMAX (R475). -/
  amaxSeen : Option (BitVec 32) := none
  failed : Bool := false
  deriving DecidableEq, Repr

/-- Reduced sums that wait for a landing slice (R478): the destination address, the format code of
the gradient copy, tensor, element and addend index of the key, the sum in FP32, and the collective instance
whose round it belongs to. -/
structure Landing where
  addr : Nat
  fmt : Nat
  tensor : Nat
  element : Nat
  addend : Nat
  sum : BitVec 32
  entry : Nat
  sequence : Nat
  deriving DecidableEq, Repr

/-- BSU_NF (R498). -/
structure BsuNf where
  nonFinite : Bool := false
  amaxNonFinite : Bool := false
  source : Nat := 0
  deriving DecidableEq, Repr

/-- What the slice now running is (R485). -/
inductive SliceKind where
  | landing
  | op (id : Nat)
  | exportOut
  deriving DecidableEq, Repr

/-- A bank-side unit (R465, R497 to R499). -/
structure Bsu where
  state : BsuState := .dark
  /-- Lighting has been asked for (R183, R467). -/
  lighting : Bool := false
  paused : Bool := false
  pauseRequested : Bool := false
  /-- Identifiers of the operations that reached it, the running one first (R472). -/
  queue : List Nat := []
  slice : Option SliceKind := none
  /-- Element range of the running slice, and the granules it claims (R489). -/
  sliceElems : Nat × Nat := (0, 0)
  footprint : List Nat := []
  held : Bool := false
  landings : List Landing := []
  /-- XOR_DELTA is under way: slot 7 sends to the encoder, and export slices are pending (R473, R485). -/
  exportPending : Bool := false
  /-- BOP of Lamplighter's operation that it runs, 0x20 to 0x25 (R473); 0 for none. -/
  updateOp : Nat := 0
  slicesSinceExport : Nat := 0
  /-- The duty share of the present window is spent (R486). -/
  dutySpent : Bool := false
  /-- Since when it waits for a pause or its duty window with an operation in progress (R496). -/
  waitSince : Option Nat := none
  /-- Up to when the waits of its STREAM slots are charged (R496). -/
  stallSince : Nat := 0
  sliceStart : Nat := 0
  lastWork : Nat := 0
  nf : BsuNf := {}
  cause : BitVec 32 := 0
  /-- FTC_ERROR of its last failing slot (R521): kind, substream, block. -/
  ftcError : Nat × Nat × Nat := (0, 0, 0)
  slots : List StreamSlot := List.replicate 16 {}
  sramTimes : List Nat := []
  operations : Nat := 0
  slices : Nat := 0
  internalBytes : Nat := 0
  heldRequests : Nat := 0
  holdNs : Nat := 0
  refreshPauses : Nat := 0
  satCount : Nat := 0
  underflowCount : Nat := 0
  ringBytes : Nat := 0
  sramCorrected : Nat := 0
  stalls : List Nat := List.replicate 8 0
  deriving DecidableEq, Repr


/-- A stack (R458 to R463). -/
structure Stack where
  /-- Its own service, apart from its die and MBD (R654). -/
  outOfService : Bool := false
  idInvalid : Bool := false
  stage : Stage := .normal
  hotLayer : Nat := 0
  /-- Identification data: thresholds WARN, THROTTLE, HALT, REFRESH in °C, and the activation
  threshold of R446. -/
  thresh : List Nat := [0, 0, 0, 0]
  activationThreshold : Nat := 0
  threshEffective : List Nat := [0, 0, 0]
  /-- LAYER_TEMP of layers −1 to 15, signed, in 1/16 °C. -/
  layerTemp : List Int := List.replicate 17 0
  hotRefresh : Bool := false
  /-- When the present stage was entered, and since when its fall condition holds (R450). -/
  stageSince : Nat := 0
  calmSince : Option Nat := none
  lastSample : Nat := 0
  scrubLate : Bool := false
  scrubPosition : Nat := 0
  /-- Pseudo-channels whose sector at that position has been visited. -/
  scrubbed : List Nat := []
  scrubStart : Nat := 0
  /-- REDIRECT as (logical pseudo-channel, host); a redirected share without host has none. -/
  redirect : List (Nat × Option Nat) := []
  corrected : Nat := 0
  onDieCorrected : Nat := 0
  transient : Nat := 0
  uncorrectable : Nat := 0
  lastUncorrectable : Option Nat := none
  scrubCorrected : Nat := 0
  scrubCycles : Nat := 0
  refreshPostponed : Nat := 0
  refreshForced : Nat := 0
  rfmIssued : Nat := 0
  narrowSectors : Nat := 0
  rmwWrites : Nat := 0
  warnNs : Nat := 0
  throttleNs : Nat := 0
  haltNs : Nat := 0
  haltEntries : Nat := 0
  selfRefresh : Bool := true
  channels : List Channel := List.replicate 32 {}
  /-- Banks with a debt or a hold, keyed by 64 × pseudo-channel + bank. -/
  banks : List (Nat × Bank) := []
  /-- Pseudo-channels whose last grant opportunity was taken by traffic under a cap (R451). -/
  spent : List Nat := []
  /-- SCRUB_LATE has been raised for the present cycle (R443). -/
  scrubRaised : Bool := false
  /-- The pseudo-channel in PHY calibration with the time its end falls due, and the next one due
  (R744). -/
  calibrating : Option (Nat × Nat) := none
  nextCalibration : Nat := 0
  /-- DUTY_CAP of BSU_STACK (R500). -/
  dutyCap : DutyCap := .full
  bsus : List Bsu := List.replicate 32 {}
  /-- Largest debt in the telemetry interval (R752). -/
  maxDebt : Nat := 0
  deriving DecidableEq, Repr

end Sys2Proof.Machine
end

