-- ==== Sys2Proof/Machine/State.lean ====
section
/-! DEFINITION. The state of the block, its faults and refusals, and the state right after reset.
Each field's default is its reset value; where the spec gives none, the assumption log names the
value. Nothing here is a function: a state can be written out and compared. -/

namespace Sys2Proof.Machine

/-- Why a step stops with a fault. -/
inductive Fault where
  /-- Raised by every meaning whose operand names a unit that the package does not have (a tile
  position of 50 or above, a ninth stack, a mailbox 16). Safe: the hardware has no such unit, so no
  command can name it. -/
  | noSuchUnit
  deriving DecidableEq, Repr

/-- Why a step is refused. -/
inductive Refusal where
  /-- Raised by an arm of `exec` that has no meaning yet. Safe: nothing can be proved of it. -/
  | notModelled (mnemonic : String)
  deriving DecidableEq, Repr

/-- The die entries at reset: CD0, CD1, the IOD, and the MBDs of S0 to S7 (R46, R47). -/
def resetDies : List Die :=
  [({ dieType := 1 } : Die), { dieType := 1 }, { dieType := 2 }] ++ List.replicate 8 { dieType := 3 }

/-- The three optical links (R23), with five rings a lane (R17, R18, R752). -/
def resetLinks : List Link :=
  [44, 22, 22].map fun n =>
    { lanes := List.replicate n { rings := List.replicate 5 {} } }

/-- The twenty laser sources (R745): 2 and 3 are STANDBY. -/
def resetLasers : List Laser :=
  (List.range 20).map fun i =>
    if i = 2 ∨ i = 3 then { state := .standby } else {}

/-- The state of the block. -/
structure State where
  /-- Commands that wait, first in, first out. -/
  pending : List Instr := []
  /-- The device state (R11). -/
  dev : DevState := .dark
  /-- BOOT_NS: nanoseconds since the pilot domain started (R664). -/
  now : Nat := 0
  /-- The model's own: index of the next free value. -/
  freeCount : Nat := 0
  pilot : Pilot := {}
  fuses : Fuses := {}
  flash : Flash := {}
  bundle : Bundle := {}
  events : Events := {}
  tele : Telemetry := {}
  i3c : I3c := {}
  tinder : Tinder := {}
  dies : List Die := resetDies
  /-- FEATURE_FLOOR (R49). -/
  floor : BitVec 64 := 0
  links : List Link := resetLinks
  /-- The copper links of S0 to S7 to their compute dies (R46). -/
  copper : List Link := List.replicate 8 {}
  lasers : List Laser := resetLasers
  ports : List Port := List.replicate 8 {}
  beacon : Beacon := {}
  /-- FTC blocks of CD0, CD1 and the IOD. -/
  ftc : List Ftc := List.replicate 3 {}
  /-- Tile position p of CDc at index 50 c + p. -/
  tiles : List Tile := (List.range 100).map fun i => Tile.atReset (i % 50)
  hbm : List Stack := List.replicate 8 {}
  bsuOps : List BsuOp := []
  nextBsuOp : Nat := 0
  host : HostIf := {}
  lamp : Lamplighter := {}
  session : Option Session := none
  program : Option Program := none
  fonts : List Font := [{}, {}]
  commit : CommitArea := {}
  /-- Where the program copies lie (R146): stack, channel, and the byte of its reserve at which the copy begins. -/
  copyChannels : List (Nat × Nat × Nat) := []
  sweep : Sweep := {}
  /-- Objects to export, oldest first. -/
  exports : List Export := []
  stateBlock : StateBlock := {}
  g4e : List G4eCounters := []
  run : Option RunStep := none
  /-- The BSUs are clearing the gradient copies (R369). -/
  clearing : Bool := false
  clearSince : Nat := 0
  /-- The tiles hold for an abort or a fault: no bundle issues (R185, R186). -/
  stopped : Bool := false
  requests : List Req := []
  nextReq : Nat := 0
  signals : List SignalMsg := []
  barriers : List BarrierState := (List.range 32).map fun i => { id := i }
  /-- Shared-buffer quarters lit (index 4 × die + quarter), and when last accessed (R719). -/
  sharedLit : List Bool := List.replicate 8 false
  sharedAccess : List Nat := List.replicate 8 0
  /-- Retired shared-buffer pages, as (die, page), and uncorrectable times of pages (R641). -/
  sharedRetired : List (Nat × Nat) := []
  sharedTimes : List (Nat × Nat × Nat) := []
  /-- Corrections in shared buffers, Beacon buffers and Lamplighter SRAM: no register counts them apart (R750). -/
  sharedCorrected : Nat := 0
  /-- Shared buffers whose bytes a die's own memory tests have left undefined: the free value under them (R59). -/
  sharedScrambled : List (Option Nat) := [none, none]
  /-- Time at which each die's DEADLINE_TIMER was zero (R216). -/
  timerBase : List Nat := [0, 0]
  /-- Stacked memory, tile memory, shared buffers and the Beacon buffer, by device address. -/
  mem : List Host.Cell := []
  /-- Host memory, by host bus address. -/
  hostMem : List Host.Cell := []
  /-- Device addresses of 32-byte sectors of stacked memory that stay uncorrectable until written
  whole (R441). -/
  badSectors : List Nat := []
  deriving DecidableEq, Repr

/-- The block right after reset: unpowered and DARK, every field at its reset value. -/
def State.reset : State := {}

end Sys2Proof.Machine
end

