-- ==== Sys2Proof/Machine/Mem.lean ====
section
/-! DEFINITION. Memory as one sorted list of (address, byte): no entry holds what an unlisted
address reads as, which is 0 (DESIGN CHOICE, unsafe: the manual gives no power-on contents). -/

namespace Sys2Proof.Machine

/-- What an unlisted address reads as. -/
def Mem.unlisted : Byte := 0

/-- The byte at an address. -/
def Mem.get : List Host.Cell → Nat → Byte
  | [], _ => Mem.unlisted
  | (a, b) :: m, x => if x = a then b else if x < a then Mem.unlisted else Mem.get m x

/-- Removes the entry of an address, if there is one. -/
def Mem.erase : List Host.Cell → Nat → List Host.Cell
  | [], _ => []
  | (a, b) :: m, x => if x = a then m else if x < a then (a, b) :: m else (a, b) :: Mem.erase m x

/-- Puts an entry at its place in the order. -/
def Mem.insert : List Host.Cell → Nat → Byte → List Host.Cell
  | [], x, v => [(x, v)]
  | (a, b) :: m, x, v =>
    if x = a then (x, v) :: m
    else if x < a then (x, v) :: (a, b) :: m
    else (a, b) :: Mem.insert m x v

/-- Writes one byte; writing what an unlisted address reads as removes the entry. -/
def Mem.set (m : List Host.Cell) (x : Nat) (v : Byte) : List Host.Cell :=
  if v = Mem.unlisted then Mem.erase m x else Mem.insert m x v

/-- The canonical form: addresses strictly rising, and no entry equal to the unlisted byte. -/
def Mem.wf : List Host.Cell → Bool
  | [] => true
  | [(_, b)] => b != Mem.unlisted
  | (a, b) :: (a', b') :: m => b != Mem.unlisted && decide (a < a') && Mem.wf ((a', b') :: m)

/-- `n` bytes from an address. -/
def Mem.read (m : List Host.Cell) (x n : Nat) : List Byte :=
  (List.range n).map fun i => Mem.get m (x + i)

/-- Writes bytes from an address upward. -/
def Mem.write (m : List Host.Cell) (x : Nat) : List Byte → List Host.Cell
  | [] => m
  | b :: bs => Mem.write (Mem.set m x b) (x + 1) bs

/-- Writes zeros over `n` bytes: their entries go. -/
def Mem.clear (m : List Host.Cell) (x n : Nat) : List Host.Cell :=
  m.filter fun c => c.1 < x || x + n ≤ c.1

/-- The little-endian value of `n` bytes at an address. -/
def Mem.readNat (m : List Host.Cell) (x n : Nat) : Nat := leNat (Mem.read m x n)

/-- Writes the `n` low bytes of a value, little-endian. -/
def Mem.writeNat (m : List Host.Cell) (x n v : Nat) : List Host.Cell := Mem.write m x (leBytes n v)

end Sys2Proof.Machine
end

