-- ==== Sys2Proof/Machine/Ops.lean ====
section
/-! DEFINITION. Named operations over the state: access to its units, counters, interrupt
signalling, time, and free values. -/

namespace Sys2Proof.Machine

/-! ### Units -/

/-- Index of tile position `p` of compute die `d`. -/
def tileIx (d p : Nat) : Nat := 50 * d + p

/-- Whether a tile position exists (R67). -/
def tileExists (d p : Nat) : Bool := d < 2 && p < 50

def State.tile (s : State) (d p : Nat) : Tile := s.tiles.getD (tileIx d p) {}

def State.modTile (s : State) (d p : Nat) (f : Tile → Tile) : State :=
  { s with tiles := modAt s.tiles (tileIx d p) f }

/-- The same change at every tile position. -/
def State.mapTiles (s : State) (f : Tile → Tile) : State := { s with tiles := s.tiles.map f }

def State.stack (s : State) (st : Nat) : Stack := s.hbm.getD st {}

def State.modStack (s : State) (st : Nat) (f : Stack → Stack) : State :=
  { s with hbm := modAt s.hbm st f }

def State.channel (s : State) (st ch : Nat) : Channel := (s.stack st).channels.getD ch {}

def State.modChannel (s : State) (st ch : Nat) (f : Channel → Channel) : State :=
  s.modStack st fun k => { k with channels := modAt k.channels ch f }

def State.bsu (s : State) (st ch : Nat) : Bsu := (s.stack st).bsus.getD ch {}

def State.modBsu (s : State) (st ch : Nat) (f : Bsu → Bsu) : State :=
  s.modStack st fun k => { k with bsus := modAt k.bsus ch f }

def State.port (s : State) (n : Nat) : Port := s.ports.getD n {}

def State.modPort (s : State) (n : Nat) (f : Port → Port) : State :=
  { s with ports := modAt s.ports n f }

def State.link (s : State) (k : Nat) : Link := s.links.getD k {}

def State.modLink (s : State) (k : Nat) (f : Link → Link) : State :=
  { s with links := modAt s.links k f }

def State.die (s : State) (d : Nat) : Die := s.dies.getD d {}

def State.modDie (s : State) (d : Nat) (f : Die → Die) : State :=
  { s with dies := modAt s.dies d f }

def State.laser (s : State) (i : Nat) : Laser := s.lasers.getD i {}

def State.modLaser (s : State) (i : Nat) (f : Laser → Laser) : State :=
  { s with lasers := modAt s.lasers i f }

def State.mbox (s : State) (n : Nat) : Mailbox := s.lamp.mailboxes.getD n {}

def State.modMbox (s : State) (n : Nat) (f : Mailbox → Mailbox) : State :=
  { s with lamp := { s.lamp with mailboxes := modAt s.lamp.mailboxes n f } }

def State.dmaCh (s : State) (n : Nat) : DmaChannel := s.host.dma.getD n {}

def State.modDma (s : State) (n : Nat) (f : DmaChannel → DmaChannel) : State :=
  { s with host := { s.host with dma := modAt s.host.dma n f } }

def State.modFtc (s : State) (die : Nat) (f : Ftc → Ftc) : State :=
  { s with ftc := modAt s.ftc die f }

def State.font (s : State) (die : Nat) : Font := s.fonts.getD die {}

def State.modFont (s : State) (die : Nat) (f : Font → Font) : State :=
  { s with fonts := modAt s.fonts die f }

/-- The lane that a reference names. -/
def State.lane (s : State) : LaneRef → Lane
  | .die k l => (s.link k).lanes.getD l {}
  | .port n l => (s.port n).lanes.getD l {}

/-- Whether a lane exists (R23, R525). -/
def laneExists : LaneRef → Bool
  | .die k l => k < 3 && l < linkLaneCount k
  | .port n l => n < 8 && l < 5

def State.modLane (s : State) (r : LaneRef) (f : Lane → Lane) : State :=
  match r with
  | .die k l => s.modLink k fun x => { x with lanes := modAt x.lanes l f }
  | .port n l => s.modPort n fun x => { x with lanes := modAt x.lanes l f }

/-! ### Time -/

/-- BOOT_NS is at least `t`: the moment of a timer's row. -/
def State.advanceTo (s : State) (t : Nat) : State := { s with now := max s.now t }

/-- Nanoseconds of the units in which the manual gives windows. -/
def usNs : Nat := 1000
def msNs : Nat := 1000000
def secNs : Nat := 1000000000
def minNs : Nat := 60 * secNs
def hourNs : Nat := 60 * minNs

/-- The DEADLINE_TIMER of a compute die (R216). -/
def State.timer (s : State) (die : Nat) : BitVec 32 :=
  BitVec.ofNat 32 (s.now - s.timerBase.getD die 0)

/-- Times of a sliding window of length `w` that are still in it. -/
def inWindow (now w : Nat) (ts : List Nat) : List Nat := ts.filter fun t => now ≤ t + w

/-- The same for (time, count) entries. -/
def inWindowN (now w : Nat) (ts : List (Nat × Nat)) : List (Nat × Nat) :=
  ts.filter fun t => now ≤ t.1 + w

/-! ### Interrupts -/

/-- Signals MSI-X vector `v` (R590): INT_STATUS always; the pending bit when the vector is masked
or MSI-X is off. -/
def State.signal (s : State) (v : Nat) : State :=
  let h := s.host
  let masked := !h.msixEnabled || (h.msix.getD v {}).control.getLsbD 0
  { s with host :=
    { h with
      intStatus := h.intStatus ||| BitVec.ofNat 27 (1 <<< v)
      pba := if masked then h.pba ||| BitVec.ofNat 64 (1 <<< v) else h.pba } }

/-! ### Free values -/

/-- Advances the index of the next free value. -/
def State.takeFree (s : State) : State := { s with freeCount := s.freeCount + 1 }

/-! ### Lists keyed by a number -/

/-- Value of a key in an association list. -/
def assocGet {α : Type} (d : α) : List (Nat × α) → Nat → α
  | [], _ => d
  | (k, v) :: l, x => if k = x then v else assocGet d l x

/-- Sets a key in an association list, in place or at the end. -/
def assocSet {α : Type} : List (Nat × α) → Nat → α → List (Nat × α)
  | [], x, v => [(x, v)]
  | (k, w) :: l, x, v => if k = x then (k, v) :: l else (k, w) :: assocSet l x v

/-- The last `n` elements. -/
def takeLast {α : Type} (n : Nat) (l : List α) : List α := l.drop (l.length - n)

end Sys2Proof.Machine
end

