-- ==== Sys2Proof/Machine/Service.lean ====
section
/-! DEFINITION. What is in service: available tiles, stacks, dies, ports, and the CAPACITY bytes of
an event record (R118, R648 to R654, R664). -/

namespace Sys2Proof.Machine

/-- A compute die is in service while its DIE_STATUS is LIT (R48, R651). -/
def State.dieInService (s : State) (d : Nat) : Bool := (s.die d).state == .lit

/-- Available tiles of a compute die (R118, R653). -/
def State.availTiles (s : State) (d : Nat) : Nat :=
  if s.dieInService d then
    ((List.range 50).filter fun p => (s.tile d p).state == .available).length
  else 0

/-- The spare of a tile is healthy and not in use (R124). -/
def Tile.spareAvailable (t : Tile) : Bool := t.spareFor.isNone && !t.arrayRetired.getLsbD 16

/-- Grid arrays of a tile that are retired and for which the spare has not been set in place. -/
def Tile.pendingSpare (t : Tile) : List Nat :=
  (List.range 16).filter fun a => t.arrayRetired.getLsbD a && t.spareFor != some a

/-- The compute die of a stack (R14). -/
def stackDie (st : Nat) : Nat := st / 4

/-- Channels of a stack in service. -/
def Stack.channelsIn (k : Stack) : Nat := (k.channels.filter fun c => !c.retired).length

/-- A stack is in service (R654). -/
def State.stackInService (s : State) (st : Nat) : Bool :=
  let k := s.stack st
  s.dieInService (stackDie st) && (s.die (3 + st)).state == .lit && !k.idInvalid &&
    !k.outOfService && 0 < k.channelsIn

/-- Bit s: stack Ss in service. -/
def State.stacksMask (s : State) : Nat := maskOf 8 s.stackInService

/-- Bit c: CDc in service. -/
def State.diesMask (s : State) : Nat := maskOf 2 s.dieInService

/-- PORTS_UP: UP, DEGRADED or ETHERNET_UP (R750). -/
def PortState.isUp : PortState → Bool
  | .up | .degraded | .ethernetUp => true
  | .down | .training | .failed | .miswired | .ethernetDown => false

def State.portsMask (s : State) : Nat := maskOf 8 fun n => (s.port n).state.isUp

/-- Width of an optical link as CAPACITY gives it: 0 when an end is out of service (R664). -/
def State.linkWidthIn (s : State) (k : Nat) : Nat :=
  let e := linkEnds k
  if (e.1 < 2 && !s.dieInService e.1) || (e.2 < 2 && !s.dieInService e.2) then 0
  else (s.link k).width

/-- The eight CAPACITY bytes (R664). -/
def State.capacity (s : State) : List Byte :=
  [s.availTiles 0, s.availTiles 1, s.stacksMask, s.diesMask, s.linkWidthIn 0, s.linkWidthIn 1,
    s.linkWidthIn 2, s.portsMask].map (BitVec.ofNat 8)

/-- The CD–IOD link of a compute die (R23). -/
def dieLink (d : Nat) : Nat := d + 1

/-- A compute die qualifies for service (R648). -/
def State.dieQualifies (s : State) (d : Nat) : Bool :=
  s.dieInService d && (s.link (dieLink d)).state != .failed && 8 ≤ s.availTiles d &&
    (List.range 4).any fun i => s.stackInService (4 * d + i)

/-- The main image runs: a boot has completed on a slot other than R. -/
def State.mainImage (s : State) : Bool := s.bundle.running != .r

/-- The device gives service (R649). The host interface's start-up check is part of the boot. -/
def State.givesService (s : State) : Bool :=
  s.mainImage && (s.dieQualifies 0 || s.dieQualifies 1)

/-- Local stacks of a die in service, for R39. -/
def State.localStacks (s : State) (d : Nat) : Nat :=
  ((List.range 4).filter fun i => s.stackInService (4 * d + i)).length

end Sys2Proof.Machine
end

