-- ==== Sys2Proof/Machine/Map.lean ====
section
/-! DEFINITION. Device addresses (R196, R197, R422 to R433, R456): spaces, the two parts of a stack,
DRAM coordinates, what is reachable, and reads and writes of device memory. -/

namespace Sys2Proof.Machine

/-! ### Spaces and parts -/

/-- The space of a device address (R422). -/
def daSpace (a : Nat) : Nat := a >>> 40

/-- The stack of a stacked-memory address (R423). -/
def daStack (a : Nat) : Nat := bits a 39 37

/-- The stack offset SO (R423). -/
def daSo (a : Nat) : Nat := a % 2 ^ 37

/-- Size in bytes of the interleaved part (R425). -/
def State.ileave (s : State) : Nat := 2 ^ 33 * s.flash.interleave

/-- Slab size Z (R426). -/
def slabZ (i : Nat) : Nat := (2 ^ 37 - i) / 64

/-- Logical pseudo-channel of an interleaved address (R429). -/
def logicalPch (a : Nat) : Nat := bits a 13 8 ^^^ bits a 19 14 ^^^ bits a 25 20

/-- REDIRECT[L]: the physical pseudo-channel, none when the share has no host (R456). -/
def redirectOf : List (Nat × Option Nat) → Nat → Option Nat
  | [], l => some l
  | (k, h) :: r, l => if k = l then h else redirectOf r l

/-- Whether a pseudo-channel hosts a redirected share (R456). -/
def hostsShare (red : List (Nat × Option Nat)) (q : Nat) : Bool := red.any fun e => e.2 == some q

/-- Physical pseudo-channel and PLA of a stack offset (R429, R430). -/
def pchOf (i : Nat) (red : List (Nat × Option Nat)) (so : Nat) : Option (Nat × Nat) :=
  if so < i then
    let l := logicalPch so
    let pla := so / 16384 * 256 + so % 256
    match redirectOf red l with
    | none => none
    | some q => some (q, if q = l then pla else 2 ^ 31 - i / 64 + pla)
  else
    let z := slabZ i
    let q := (so - i) / z
    some (q, i / 64 + (so - i - q * z))

/-- Pseudo-channel and PLA of a stacked-memory address. -/
def State.pch (s : State) (a : Nat) : Option (Nat × Nat) :=
  pchOf s.ileave (s.stack (daStack a)).redirect (daSo a)

/-- CLO of a channel-local address with its channel (R426). -/
def cloOf (i so : Nat) : Nat × Nat :=
  let z := slabZ i
  let c := (so - i) / (2 * z)
  (c, so - i - c * (2 * z))

/-- The device address of a CLO on a channel (R426). -/
def cloAddr (i stack ch clo : Nat) : Nat := stack * 2 ^ 37 + i + ch * (2 * slabZ i) + clo

/-- Bytes of a system reserve (R427). -/
def reserveBytes : Nat := 0x400000

/-! ### DRAM coordinates of a PLA (R431) -/

/-- Byte within the burst, and column: the burst within the open row. -/
def plaByte (pla : Nat) : Nat := bits pla 4 0
def plaCol (pla : Nat) : Nat := bits pla 15 14 * 8 + bits pla 7 5
def plaBg (pla : Nat) : Nat := bits pla 9 8
def plaBa (pla : Nat) : Nat := bits pla 11 10
def plaSid (pla : Nat) : Nat := bits pla 13 12
def plaRow (pla : Nat) : Nat := bits pla 30 16

/-- The bank, 0 to 63, of a PLA: SID, bank group, bank. -/
def plaBank (pla : Nat) : Nat := plaSid pla * 16 + plaBg pla * 4 + plaBa pla

/-- The core-die layer of a channel at a stack identifier (R431). -/
def layerOf (ch sid : Nat) : Nat := 4 * sid + ch / 8

/-! ### Redirection (R455, R456) -/

/-- The REDIRECT that a boot builds from the retired channels, in ascending order. -/
def buildRedirect (retired : List Nat) : List (Nat × Option Nat) :=
  let live := (List.range 32).filter fun c => !retired.contains c
  let hosts := live.map (2 * ·) ++ live.map (2 * · + 1)
  let shares := ((List.range 32).filter fun c => retired.contains c).flatMap fun c =>
    [2 * c, 2 * c + 1]
  shares.mapIdx fun i q => (q, hosts[i]?)

/-- The retired channels of a stack. -/
def Stack.retiredChannels (k : Stack) : List Nat :=
  (List.range 32).filter fun c => (k.channels.getD c {}).retired

/-- Channel-local GiB of a stack at the next boot (step 4 of R455). -/
def nextLocalGib (i : Nat) (retired : List Nat) : Nat :=
  let red := buildRedirect retired
  let hosted := (red.filter fun e => e.2.isSome).length
  ((32 - retired.length) * (2 * slabZ i) - hosted * (i / 64)) / 2 ^ 30

/-! ### Unavailable ranges (R424) -/

/-- Whether an interleaved range holds a granule of logical pseudo-channel `q`: 32 KiB hold an
aligned 16 KiB block, which has every one (R455). -/
def holdsPch (a n q : Nat) : Bool :=
  if 32768 ≤ n then true
  else (List.range (n / 256 + 2)).any fun j =>
    let g := a / 256 * 256 + 256 * j
    decide (g < a + n) && logicalPch g == q

/-- A range of stacked memory by stack and part: interleaved or channel-local. -/
def stackParts (i a n : Nat) : List (Nat × Nat) :=
  (List.range (daStack (a + n - 1) + 1 - daStack a)).flatMap fun j =>
    let b := (daStack a + j) * 2 ^ 37
    [(b, b + i), (b + i, b + 2 ^ 37)].filterMap fun x =>
      let lo := max a x.1
      let hi := min (a + n) x.2
      if lo < hi then some (lo, hi - lo) else none

/-- Whether any byte of a range within one part of a stack is unavailable (R424). -/
def State.unavailable (s : State) (a n : Nat) : Bool :=
  let st := daStack a
  let k := s.stack st
  let i := s.ileave
  let so := daSo a
  !s.stackInService st ||
    if so < i then
      (List.range 64).any fun q =>
        (match redirectOf k.redirect q with
          | none => true
          | some h => (k.channels.getD (h / 2) {}).retired) && holdsPch so n q
    else
      let z := slabZ i
      (List.range 64).any fun q =>
        let base := i + q * z
        ((k.channels.getD (q / 2) {}).retired && overlaps so n base z) ||
          (hostsShare k.redirect q && overlaps so n (base + z - i / 64) (i / 64))

/-! ### Lost regions (R455) -/

/-- Whether an entry covers channel `ch` of stack `st` as step 3 of R455 reckons. -/
def Region.coversChannel (i st ch : Nat) (r : Region) : Bool :=
  if r.space ≠ 0 then false
  else if r.layout = 1 then r.stackMask.testBit st
  else if daStack r.base ≠ st then false
  else
    let so := daSo r.base
    if so < i then holdsPch so r.size (2 * ch) || holdsPch so r.size (2 * ch + 1)
    else
      let z := slabZ i
      overlaps so r.size (i + 2 * ch * z) (2 * z)

/-- The channel-local range of an entry on a channel (R433): its first CLO and its bytes there. -/
def Region.onChannel (i st ch : Nat) (r : Region) : Option (Nat × Nat) :=
  if r.space ≠ 0 then none
  else if r.layout = 1 then if r.stackMask.testBit st then some ((cloOf i (daSo r.base)).2, r.size) else none
  else if daStack r.base ≠ st ∨ daSo r.base < i then none
  else
    let c := i + ch * (2 * slabZ i)
    let lo := max (daSo r.base) c
    let hi := min (daSo r.base + r.size) (c + 2 * slabZ i)
    if lo < hi then some (lo - c, hi - lo) else none

/-- Whether an entry covers a page of a shared buffer (R641). -/
def Region.coversSharedPage (die page : Nat) (r : Region) : Bool :=
  r.space == 9 && overlaps r.base r.size (9 * 2 ^ 40 + die * 2 ^ 32 + page * 4096) 4096

/-- Marks LOST the entries that a retirement reaches, and counts those newly lost. -/
def State.loseRegions (s : State) (p : Region → Bool) : State × Nat :=
  let rs := s.flash.protection.regions
  let hit := fun (e : Option Region) => (e.map fun r => !r.lost && p r).getD false
  let rs' := rs.map fun e => if hit e then e.map fun r => { r with lost := true } else e
  ({ s with flash := { s.flash with protection := { s.flash.protection with regions := rs' } } },
    (rs.filter fun e => (e.map fun r => p r).getD false).length)

/-! ### Tiles and shared buffers by address -/

/-- The position that a logical tile of a die is mapped to (R120). -/
def State.posOf (s : State) (die l : Nat) : Option Nat :=
  (List.range 50).find? fun p => (s.tile die p).logicalId == some l

/-- Die and position of a tile-window address, or none when it is unassigned (R196). -/
def State.windowTile (s : State) (a : Nat) : Option (Nat × Nat) :=
  let die := bits a 32 32
  let t := bits a 29 24
  if bits a 39 33 ≠ 0 ∨ bit a 30 ∨ bits a 23 21 ≠ 0 then none
  else if bit a 31 then
    match s.program with
    | none => none
    | some _ => (s.posOf die t).map fun p => (die, p)
  else if t < 50 ∧ (s.tile die t).state ≠ .fusedOff then some (die, t) else none

/-- Base of the physical window of a tile position. -/
def tileBase (die pos : Nat) : Nat := 8 * 2 ^ 40 + die * 2 ^ 32 + pos * 2 ^ 24

/-- Bytes of tile memory (R121), of a shared buffer (R197), of a Beacon buffer (R552). -/
def tileBytes : Nat := 0x200000
def sharedBytes : Nat := 0x3000000
def beaconBase : Nat := 0xF5040000000
def beaconBytes : Nat := 0x2000000

/-- The first 24 MiB of the Beacon buffer serve programs (R552). -/
def beaconProgramBytes : Nat := 0x1800000

/-- Key under which a byte of device memory is held: stacked memory by its DRAM coordinates (R425:
they survive a change of the interleave), tile windows by position, others by address. -/
def State.phys (s : State) (a : Nat) : Nat :=
  match daSpace a with
  | 0 =>
    match s.pch a with
    | some (q, pla) => daStack a * 2 ^ 37 + q * 2 ^ 31 + pla
    | none => a
  | 8 =>
    match s.windowTile a with
    | some (d, p) => tileBase d p + a % tileBytes
    | none => a
  | _ => a

/-- What stands over the stored bytes of a tile whose memory is undefined (R734): reading and writing
through it, a byte reads as written, and one not yet written reads as a free value. -/
def State.tmMask (s : State) (d p : Nat) (key : Nat) : Byte :=
  match (s.tile d p).scrambled with
  | none => 0
  | some i => Config.freeByte i key

/-- The same for the shared buffer of a die (R59). -/
def State.sharedMask (s : State) (d key : Nat) : Byte :=
  match s.sharedScrambled.getD d none with
  | none => 0
  | some i => Config.freeByte i key

/-- The mask over a key: zero outside tile memory and the shared buffers. -/
def State.maskAt (s : State) (key : Nat) : Byte :=
  if daSpace key = 8 then s.tmMask (bits key 32 32) (bits key 31 24) key
  else if daSpace key = 9 then s.sharedMask (bits key 32 32) key
  else 0

/-- One byte of device memory. -/
def State.byteAt (s : State) (a : Nat) : Byte := Mem.get s.mem (s.phys a) ^^^ s.maskAt (s.phys a)

/-- `n` bytes of device memory. -/
def State.readDev (s : State) (a n : Nat) : List Byte := (List.range n).map fun i => s.byteAt (a + i)

/-- Writes bytes to device memory. A whole sector written clears its failing state (R441). -/
def State.writeDev (s : State) (a : Nat) (bs : List Byte) : State :=
  let m := (bs.zipIdx).foldl
    (fun m e => Mem.set m (s.phys (a + e.2)) (e.1 ^^^ s.maskAt (s.phys (a + e.2)))) s.mem
  let bad :=
    if s.badSectors.isEmpty then [] else
    s.badSectors.filter fun b =>
      !((List.range (bs.length / 32 + 1)).any fun j =>
        let t := roundUp a 32 + 32 * j
        decide (t + 32 ≤ a + bs.length) && s.phys t == b)
  { s with mem := m, badSectors := bad }

/-- The little-endian value of `n` bytes of device memory. -/
def State.devNat (s : State) (a n : Nat) : Nat := leNat (s.readDev a n)

/-- Tile memory of a position by offset. -/
def State.tmRead (s : State) (d p off n : Nat) : List Byte :=
  (List.range n).map fun i =>
    Mem.get s.mem (tileBase d p + off + i) ^^^ s.tmMask d p (tileBase d p + off + i)

def State.tmWrite (s : State) (d p off : Nat) (bs : List Byte) : State :=
  let put := fun (m : List Host.Cell) (e : Byte × Nat) =>
    Mem.set m (tileBase d p + off + e.2) (e.1 ^^^ s.tmMask d p (tileBase d p + off + e.2))
  { s with mem := (bs.zipIdx).foldl put s.mem }

/-- The memory of a tile is left undefined (R734). -/
def State.scramble (s : State) (d p : Nat) : State :=
  let t : State := { s with mem := Mem.clear s.mem (tileBase d p) tileBytes }
  (t.modTile d p fun x => { x with scrambled := some s.freeCount }).takeFree

/-- The shared buffer of a die is left undefined. -/
def State.scrambleShared (s : State) (d : Nat) : State :=
  ({ s with
    mem := Mem.clear s.mem (9 * 2 ^ 40 + d * 2 ^ 32) sharedBytes
    sharedScrambled := modAt s.sharedScrambled d fun _ => some s.freeCount } : State).takeFree

/-! ### Accesses from the IOD (R45) -/

/-- The compute die whose CD–IOD link an access from the IOD to an address passes. -/
def iodDie (a : Nat) : Option Nat :=
  match daSpace a with
  | 0 => some (stackDie (daStack a))
  | 8 | 9 => some (bits a 32 32)
  | _ => none

/-- The descriptor moves bytes to the device. -/
def Descriptor.toDevice (d : Descriptor) : Bool := daSpace d.src == 0xC

/-- The device side of a descriptor, and the compute die behind it. -/
def Descriptor.deviceAddr (d : Descriptor) : Nat := if d.toDevice then d.dst else d.src

def Descriptor.iodDie (d : Descriptor) : Option Nat := Machine.iodDie d.deviceAddr

/-- The parts of a range by the compute die behind them. -/
def State.iodParts (s : State) (a n : Nat) : List (Nat × Nat) := if daSpace a = 0 then stackParts s.ileave a n else [(a, n)]

/-- A link between the IOD and a range has failed. -/
def State.iodCut (s : State) (a n : Nat) : Bool :=
  (s.iodParts a n).any fun p => ((iodDie p.1).map fun d => (s.link (dieLink d)).state == .failed).getD false

/-- A die in stand-alone test mode stands between the IOD and an address, and nothing passes (R59). -/
def State.iodIgnored (s : State) (a : Nat) : Bool :=
  (match iodDie a with
    | some d => (s.die d).isolated || (s.die 2).isolated
    | none => false) ||
    (daSpace a == 0 && (s.die (3 + daStack a)).isolated)

/-- Counts the bytes of an access on the links it passes (R750). -/
def State.countIod (s : State) (a n : Nat) : State :=
  (s.iodParts a n).foldl
    (fun t p => match iodDie p.1 with
      | some d => t.modLink (dieLink d) fun k => { k with bytes := satAdd k.bytes p.2 }
      | none => t) s

/-! ### Reaching an address -/

/-- How an access to device memory comes out before its data moves. -/
inductive Reach where
  | ok | unassigned | retired | halted
  deriving DecidableEq, Repr

/-- Whether `n` bytes from an address in spaces 0, 8, 9 and the Beacon buffer can be reached
(R196, R197, R422, R424, R451). -/
def State.reach (s : State) (a n : Nat) : Reach :=
  match daSpace a with
  | 0 =>
    if 2 ^ 40 < a + n then .unassigned
    else
      let parts := stackParts s.ileave a n
      if parts.any fun p => s.unavailable p.1 p.2 then .retired
      else if parts.any fun p => (s.stack (daStack p.1)).stage == .halt then .halted else .ok
  | 8 =>
    match s.windowTile a with
    | none => .unassigned
    | some (d, p) =>
      if tileBytes < a % 2 ^ 24 + n then .unassigned
      else if (s.tile d p).state ≠ .available ∨ !s.dieInService d then .retired else .ok
  | 9 =>
    let die := bits a 32 32
    let off := a % 2 ^ 32
    if bits a 39 33 ≠ 0 ∨ sharedBytes < off + n then .unassigned
    else if !s.dieInService die ∨
        s.sharedRetired.any (fun e => e.1 == die && overlaps off n (e.2 * 4096) 4096) then .retired
    else .ok
  | _ => if beaconBase ≤ a ∧ a + n ≤ beaconBase + beaconBytes then .ok else .unassigned

/-! ### Region rights (R695) -/

/-- The stacks that an entry lies on. -/
def Region.stacks (r : Region) : List Nat :=
  if r.space ≠ 0 then []
  else if r.layout = 1 then (List.range 8).filter fun st => r.stackMask.testBit st
  else [daStack r.base]

/-- The MBD of a stack is held dark (R52, R56). -/
def State.mbdHeld (s : State) (st : Nat) : Bool :=
  (s.die (3 + st)).state == .heldDarkRevision || (s.die (3 + st)).state == .heldDarkProtocol

/-- The memory of an entry is absent from the region table: an MBD held dark has taken it out (R56). -/
def State.regionAbsent (s : State) (r : Region) : Bool := r.stacks.any s.mbdHeld

/-- Whether an entry covers a byte of device memory. -/
def Region.coversByte (i : Nat) (r : Region) (a : Nat) : Bool :=
  if r.layout = 1 then
    daSpace a == 0 && r.stackMask.testBit (daStack a) && i ≤ daSo a &&
      (let c := cloOf i (daSo a)
       let b := cloOf i (daSo r.base)
       decide (b.2 ≤ c.2) && decide (c.2 < b.2 + r.size))
  else decide (r.base ≤ a) && decide (a < r.base + r.size)

/-- What the region table says of an access. -/
inductive Verdict where
  | allowed | denied | lost
  deriving DecidableEq, Repr

/-- The verdict on `n` bytes from an address, for the right of bit `right`: UNIT_RETIRED for a lost
entry, denial when a byte lies in no entry that grants the right (R694, R695). Entries are whole
4 KiB pages, so one byte of each page and the last byte decide. -/
def State.regionCheck (s : State) (right a n : Nat) : Verdict :=
  let rs := (s.flash.protection.regions.filterMap id).filter fun r => !s.regionAbsent r
  let probes := a :: (List.range (n / 4096 + 1)).map fun j => min (a / 4096 * 4096 + 4096 * (j + 1)) (a + n - 1)
  let verdicts := probes.map fun b =>
    match rs.find? fun r => Region.coversByte s.ileave r b with
    | none => Verdict.denied
    | some r => if r.lost then .lost else if r.rights.getLsbD right then .allowed else .denied
  if verdicts.contains .lost then .lost else if verdicts.contains .denied then .denied else .allowed

end Sys2Proof.Machine
end

