-- ==== Sys2Proof/Machine/Events.lean ====
section
/-! DEFINITION. Event records, cascades and the flash fault log (R658, R662 to R666). -/

namespace Sys2Proof.Machine

/-- KIND of a unit address (R658). -/
def unitKindCode : UnitKind → Nat
  | .none => 0 | .dieLane => 1 | .portLane => 2 | .array => 3 | .tile => 4 | .channel => 5
  | .stack => 6 | .computeDie => 7 | .port => 8 | .link => 9 | .sharedPage => 10
  | .beaconPage => 11 | .bsu => 12 | .device => 13

/-- The unit kind of a code, if there is one. -/
def unitKindOf : Nat → Option UnitKind
  | 0 => some .none | 1 => some .dieLane | 2 => some .portLane | 3 => some .array
  | 4 => some .tile | 5 => some .channel | 6 => some .stack | 7 => some .computeDie
  | 8 => some .port | 9 => some .link | 10 => some .sharedPage | 11 => some .beaconPage
  | 12 => some .bsu | 13 => some .device
  | _ => Option.none

/-- The eight bytes of a unit address (R658). -/
def unitBytes (u : UnitAddr) : List Byte :=
  leBytes 1 (unitKindCode u.kind) ++ leBytes 1 u.die ++ leBytes 1 u.link ++ leBytes 1 0 ++
    leBytes 2 u.index ++ leBytes 1 u.sub ++ leBytes 1 0

/-- The unit address of a lane: the lower-indexed die of its link (R658). -/
def laneUnit : LaneRef → UnitAddr
  | .die k l => { kind := .dieLane, die := (linkEnds k).1, link := k, index := l }
  | .port n l => { kind := .portLane, link := n, index := l }

/-- The unit address of a lane's link or port. -/
def groupUnit : LaneRef → UnitAddr
  | .die k _ => { kind := .link, link := k }
  | .port n _ => { kind := .port, link := n }

def tileUnit (d p : Nat) : UnitAddr := { kind := .tile, die := d, index := p }

def arrayUnit (d p a : Nat) : UnitAddr := { kind := .array, die := d, index := p, sub := a }

def channelUnit (st ch : Nat) : UnitAddr := { kind := .channel, die := st, index := ch }

def stackUnit (st : Nat) : UnitAddr := { kind := .stack, die := st }

def dieUnit (d : Nat) : UnitAddr := { kind := .computeDie, die := d }

def deviceUnit : UnitAddr := { kind := .device }

/-- Records of severity DEGRADED or higher (R663, R666). -/
def EventRecord.grave (r : EventRecord) : Bool := decide (1 ≤ r.code.severity.code)

/-- The last of the records of a cascade with the highest severity (R665): its SEQ. -/
def headlineSeq (ring : List EventRecord) (root : Nat) : Option Nat :=
  let c := ring.filter fun r => r.rootSeq == root
  let top := c.foldl (fun m r => max m r.code.severity.code) 0
  ((c.filter fun r => r.code.severity.code == top).getLast?).map (·.seq)

/-- Marks exactly one record of the cascade HEADLINE, and gives it the device's capacity now. -/
def remark (root : Nat) (h : Option Nat) (capacity : List Byte) (r : EventRecord) : EventRecord :=
  if r.rootSeq = root then
    if some r.seq = h then { r with headline := true, capacity := capacity }
    else { r with headline := false }
  else r

/-- What an event record says beside what the state gives it. -/
structure EventSpec where
  code : EventCode
  unit : UnitAddr := {}
  status : Status := .ok
  threshold : Threshold := .none
  value : Nat := 0

/-- The text of an event record for TRACE (R702): its 64 bytes in hexadecimal, one line. The
manual gives no format of the line. -/
def traceLine (r : EventRecord) : List Byte :=
  ascii "EVENT " ++ hexDigits 16 r.seq ++ ascii " " ++ hexDigits 4 r.code.code ++ [13, 10]

/-- Bytes that the serial port sends in a time: 921,600 baud, ten bits a byte (R700). -/
def serialBytes (ns : Nat) : Nat := ns * 92160 / 1000000000

/-- Adds a line to the 16 KiB trace buffer, from which the port has sent what time allowed, or drops and counts
it (R702). -/
def State.traceOut (s : State) (line : List Byte) : State :=
  let t := s.tinder
  let left := t.traceBuffer.drop (serialBytes (s.now - t.traceSent))
  let full := decide (16384 < left.length + line.length)
  { s with tinder :=
    { t with
      traceSent := s.now
      traceBuffer := if full then left else left ++ line
      traceDropped := if full then satAdd t.traceDropped 1 else t.traceDropped } }

/-- A line of TRACE STEPS: the step, and its status at its end (R702). The manual gives no format of the line. -/
def State.traceStep (s : State) (k : Nat) (status : Option Status) : State :=
  if s.tinder.trace = .steps then
    let what := match status with
      | none => ascii "START"
      | some st => ascii "END " ++ hexDigits 4 (Status.code st)
    s.traceOut (ascii "STEP " ++ hexDigits 16 k ++ ascii " " ++ what ++ [13, 10])
  else s

/-- A ring of at most `n`, oldest overwritten. -/
def pushRing {α : Type} (n : Nat) (l : List α) (x : α) : List α := takeLast n (l ++ [x])

/-- Appends an event record to the cascade now open, opening one when there is none (R663 to R666):
the rings, HEADLINE, vector 24, the in-band interrupt of R757 and the trace. -/
def State.raise (s : State) (e : EventSpec) : State :=
  let seq := s.events.nextSeq
  let root := s.events.cascade.getD seq
  let r : EventRecord :=
    { seq := seq, bootNs := s.now, bootCount := s.flash.bootCount, code := e.code, rootSeq := root,
      step := s.run.map (·.k), unit := e.unit, capacity := s.capacity, status := e.status,
      threshold := e.threshold, value := e.value }
  let ring := pushRing 4096 s.events.ring r
  let h := headlineSeq ring root
  let mark := List.map (remark root h s.capacity)
  let dropped := s.flash.eventRing.length ≥ 1024 &&
    (s.flash.eventRing.head?.map fun o => o.grave && !o.acknowledged).getD false
  let flashRing := if r.grave then pushRing 1024 s.flash.eventRing r else s.flash.eventRing
  let s1 : State :=
    { s with
      events :=
        { s.events with
          ring := mark ring
          nextSeq := seq + 1
          cascade := some root
          lastSeq := seq
          lastHeadlineSeq := h.getD s.events.lastHeadlineSeq
          flashRingWrapped := s.events.flashRingWrapped || (r.grave && dropped)
          appends := if r.grave then s.events.appends ++ [.event seq] else s.events.appends }
      flash := { s.flash with eventRing := mark flashRing }
      tele := { s.tele with eventSeen := true }
      i3c := if r.grave && s.i3c.ibiEnabled then
          { s.i3c with ibiPending := s.i3c.ibiPending ++ [2] } else s.i3c }
  let s2 := s1.signal 24
  if s.tinder.trace = .events then s2.traceOut (traceLine r) else s2

/-- Begins a new cascade: what follows arises from another detection. -/
def State.newCascade (s : State) : State := { s with events := { s.events with cascade := none } }

/-- Takes up a cascade again. -/
def State.inCascade (s : State) (root : Option Nat) : State :=
  { s with events := { s.events with cascade := root } }

/-- ALERT_N is asserted: a record of DEGRADED or higher is not acknowledged (R666, R767). -/
def State.alert (s : State) : Bool :=
  s.dev.lit && (s.events.ring ++ s.flash.eventRing).any fun r => r.grave && !r.acknowledged

/-- The latest log entry of each unit, in order of append (R662). -/
def latestPerUnit : List LogEntry → List LogEntry
  | [] => []
  | e :: l => if l.any (fun x => x.unit == e.unit) then latestPerUnit l else e :: latestPerUnit l

/-- Appends an entry to the flash fault log, compacting a full one first (R662). -/
def State.logAppend (s : State) (unit : UnitAddr) (kind : LogKind) : State :=
  let full := 65536 ≤ s.flash.faultLog.length
  let s1 : State :=
    if full then
      let kept := latestPerUnit s.flash.faultLog
      ({ s with flash := { s.flash with faultLog := kept } } : State).raise
        { code := .faultLogCompacted, value := kept.length }
    else s
  let e : LogEntry := { unit := unit, kind := kind }
  { s1 with
    flash := { s1.flash with faultLog := s1.flash.faultLog ++ [e] }
    events := { s1.events with appends := s1.events.appends ++ [.log e] } }

/-- Counts a retirement by threshold, or by RETIRE_UNIT (R670). -/
def State.countRetirement (s : State) (manual : Bool) : State :=
  if manual then
    { s with events :=
      { s.events with manualRetirements := satAdd s.events.manualRetirements 1 } }
  else { s with events := { s.events with retirements := satAdd s.events.retirements 1 } }

/-- The last entry that the log holds of a unit. -/
def State.lastEntry (s : State) (u : UnitAddr) : Option LogEntry := (s.flash.faultLog.filter fun e => e.unit == u).getLast?

/-- What it records. -/
def State.lastLog (s : State) (u : UnitAddr) : Option LogKind := (s.lastEntry u).map (·.kind)

/-- The Owner's RESTORE of a unit takes effect at the boot now in progress (R661). -/
def State.restoredNow (s : State) (u : UnitAddr) : Bool :=
  ((s.lastEntry u).map fun e => e.kind == .restore && !e.inEffect).getD false

/-- The boot in progress has put every RESTORE into effect. -/
def State.settleRestores (s : State) : State :=
  { s with flash := { s.flash with faultLog := s.flash.faultLog.map fun e => if e.kind = .restore then { e with inEffect := true } else e } }

end Sys2Proof.Machine
end

