-- ==== Sys2Proof/Machine/Hash.lean ====
section
/-! DEFINITION. The published checks and hashes that the manual names: CRC-32C, CRC-64/XZ and
SHAKE256. The manual cites them by name; their definitions are PRESUMED from their standards. -/

namespace Sys2Proof.Machine

/-- `n` steps of a reflected CRC division with a polynomial. -/
def crcShift {w : Nat} (poly : BitVec w) : Nat → BitVec w → BitVec w
  | 0, c => c
  | n + 1, c => crcShift poly n (if c.getLsbD 0 then (c >>> 1) ^^^ poly else c >>> 1)

/-- A reflected CRC over bytes from a register value. -/
def crcRun {w : Nat} (poly : BitVec w) : BitVec w → List Byte → BitVec w
  | c, [] => c
  | c, b :: bs => crcRun poly (crcShift poly 8 (c ^^^ b.zeroExtend w)) bs

/-- CRC-32C (Castagnoli). -/
def crc32c (bs : List Byte) : BitVec 32 :=
  crcRun (0x82F63B78 : BitVec 32) (BitVec.allOnes 32) bs ^^^ BitVec.allOnes 32

/-- CRC-64/XZ. -/
def crc64xz (bs : List Byte) : BitVec 64 :=
  crcRun (0xC96C5795D7870F42 : BitVec 64) (BitVec.allOnes 64) bs ^^^ BitVec.allOnes 64

/-! ### SHAKE256 over Keccak-f[1600]; lane (x, y) stands at index x + 5 y. -/

/-- `n` steps of the shift register that the round constants come from: division by x⁸ + x⁶ + x⁵ + x⁴ + 1. -/
def keccakShift : Nat → Nat → Nat
  | 0, r => r
  | n + 1, r => keccakShift n (if 128 ≤ r then (2 * r) ^^^ 0x171 else 2 * r)

/-- The constant of round `i`: bit 2ʲ − 1 is the register's lowest bit after j + 7i steps. -/
def keccakConst (i : Nat) : BitVec 64 :=
  (List.range 7).foldl
    (fun w j => if keccakShift (j + 7 * i) 1 % 2 = 1 then w ||| (1#64 <<< (2 ^ j - 1)) else w) 0#64

/-- The lanes other than (0, 0) in the order of a walk from (x, y), each with its rotation: the sums of 1 to t. -/
def keccakWalk : Nat → Nat → Nat → Nat → List (Nat × Nat)
  | 0, _, _, _ => []
  | n + 1, x, y, t => (x + 5 * y, t * (t + 1) / 2 % 64) :: keccakWalk n y ((2 * x + 3 * y) % 5) (t + 1)

/-- Rotation of the lane at an index. -/
def keccakTurn (i : Nat) : Nat := (((keccakWalk 24 1 0 1).find? fun e => e.1 == i).map (·.2)).getD 0

/-- One round of Keccak-f[1600]. -/
def keccakRound (a : List (BitVec 64)) (rc : BitVec 64) : List (BitVec 64) :=
  let g (l : List (BitVec 64)) (i : Nat) : BitVec 64 := l.getD i 0
  let c := (List.range 5).map fun x =>
    g a x ^^^ g a (x + 5) ^^^ g a (x + 10) ^^^ g a (x + 15) ^^^ g a (x + 20)
  let d := (List.range 5).map fun x => g c ((x + 4) % 5) ^^^ (g c ((x + 1) % 5)).rotateLeft 1
  let t := (List.range 25).map fun i => g a i ^^^ g d (i % 5)
  -- B[y, 2x + 3y] = rot(A[x, y]); the source of index X + 5 Y is x = X + 3 Y, y = X
  let b := (List.range 25).map fun i =>
    let x := i % 5
    let y := i / 5
    let src := (x + 3 * y) % 5 + 5 * x
    (g t src).rotateLeft (keccakTurn src)
  let e := (List.range 25).map fun i =>
    let x := i % 5
    let y := i / 5
    g b i ^^^ (~~~(g b ((x + 1) % 5 + 5 * y)) &&& g b ((x + 2) % 5 + 5 * y))
  e.set 0 (g e 0 ^^^ rc)

/-- Keccak-f[1600]. -/
def keccakF (a : List (BitVec 64)) : List (BitVec 64) := (List.range 24).foldl (fun s i => keccakRound s (keccakConst i)) a

/-- XORs a 136-byte block into the state. -/
def keccakXor (a : List (BitVec 64)) (block : List Byte) : List (BitVec 64) :=
  (List.range 25).map fun i =>
    if i < 17 then a.getD i 0 ^^^ BitVec.ofNat 64 (field block (8 * i) 8) else a.getD i 0

/-- Absorbs `n` whole blocks. -/
def keccakAbsorb : Nat → List (BitVec 64) → List Byte → List (BitVec 64)
  | 0, a, _ => a
  | n + 1, a, bs => keccakAbsorb n (keccakF (keccakXor a (bs.take 136))) (bs.drop 136)

/-- Squeezes `n` blocks of 136 bytes. -/
def keccakSqueeze : Nat → List (BitVec 64) → List Byte
  | 0, _ => []
  | n + 1, a => ((a.take 17).flatMap fun l => leBytes 8 l.toNat) ++ keccakSqueeze n (keccakF a)

/-- SHAKE256 with `n` bytes of output. -/
def shake256 (msg : List Byte) (n : Nat) : List Byte :=
  let blocks := msg.length / 136 + 1
  let padLen := 136 * blocks - msg.length
  let pad : List Byte :=
    if padLen = 1 then [0x9F] else [0x1F] ++ List.replicate (padLen - 2) 0 ++ [0x80]
  let a := keccakAbsorb blocks (List.replicate 25 0) (msg ++ pad)
  (keccakSqueeze (n / 136 + 1) a).take n

end Sys2Proof.Machine
end

