-- ==== Sys2Proof/Machine/Packets.lean ====
section
/-! DEFINITION. Torcor packets, the topology descriptor, routing and the sender of a port
(R531 to R543). -/

namespace Sys2Proof.Machine

/-! ### Topology (R531, R532) -/

/-- The topology descriptor's fields. -/
structure Topo where
  kind : Nat
  q : Nat
  dx : Nat
  dy : Nat
  dz : Nat
  devices : Nat
  key : Nat
  reservedZero : Bool
  deriving DecidableEq, Repr

def topoOf (b : List Byte) : Topo :=
  { kind := field b 0 1, q := field b 1 1, dx := field b 2 2, dy := field b 4 1, dz := field b 5 1,
    devices := field b 6 2, key := field b 8 8, reservedZero := allZero (slice b 16 48) }

/-- The checks of R531 that need no port mode. -/
def Topo.valid (t : Topo) : Bool :=
  t.reservedZero && 1 ≤ t.devices && t.devices ≤ 16384 &&
  match t.kind with
  | 0 => t.q == 0 && t.dx == 1 && t.dy == 1 && t.dz == 1 && t.devices == 1
  | 1 => 1 ≤ t.q && t.q ≤ 4 && 2 ≤ t.dx && t.dx ≤ 256 && t.dy == 1 && t.dz == 1 &&
      t.devices == t.dx
  | 2 => 1 ≤ t.q && t.q ≤ 2 && 2 ≤ t.dx && t.dx ≤ 16 && 2 ≤ t.dy && t.dy ≤ 16 && t.dz == 1 &&
      t.devices == t.dx * t.dy
  | 3 => t.q == 1 && 2 ≤ t.dx && t.dx ≤ 16 && 2 ≤ t.dy && t.dy ≤ 16 && 2 ≤ t.dz && t.dz ≤ 16 &&
      t.devices == t.dx * t.dy * t.dz
  | 4 => t.q == 0 && t.dx == 1 && t.dy == 1 && t.dz == 1 && t.devices ≤ 9
  | 5 => 1 ≤ t.q && t.q ≤ 8 && t.dx == 1 && t.dy == 1 && t.dz == 1
  | _ => false

/-- A direction of travel: dimension 0, 1 or 2, and whether it is the + direction. -/
structure Dir where
  dim : Nat
  plus : Bool
  deriving DecidableEq, Repr

/-- The directions of a torus or ring with their ports (R532). -/
def Topo.dirs (t : Topo) : List (Dir × List Nat) :=
  match t.kind with
  | 1 => [(⟨0, true⟩, [0, 2, 4, 6].take t.q), (⟨0, false⟩, [1, 3, 5, 7].take t.q)]
  | 2 => [(⟨0, true⟩, [0, 4].take t.q), (⟨0, false⟩, [1, 5].take t.q),
      (⟨1, true⟩, [2, 6].take t.q), (⟨1, false⟩, [3, 7].take t.q)]
  | 3 => [(⟨0, true⟩, [0]), (⟨0, false⟩, [1]), (⟨1, true⟩, [2]), (⟨1, false⟩, [3]),
      (⟨2, true⟩, [4]), (⟨2, false⟩, [5])]
  | _ => []

/-- Size of a dimension. -/
def Topo.size (t : Topo) : Nat → Nat
  | 0 => t.dx
  | 1 => t.dy
  | _ => t.dz

/-- Coordinate of a rank in a dimension (R532). -/
def Topo.coord (t : Topo) (r : Nat) : Nat → Nat
  | 0 => r % t.dx
  | 1 => r / t.dx % t.dy
  | _ => r / (t.dx * t.dy)

/-- The rank one hop from `r` in a direction. -/
def Topo.step (t : Topo) (r : Nat) (d : Dir) : Nat :=
  let n := t.size d.dim
  let c := t.coord r d.dim
  let c' := if d.plus then (c + 1) % n else (c + n - 1) % n
  let unit := if d.dim = 0 then 1 else if d.dim = 1 then t.dx else t.dx * t.dy
  r + c' * unit - c * unit

/-- The Torcor ports that the descriptor assigns (R532). -/
def Topo.ports (t : Topo) (rank : Nat) : List Nat :=
  match t.kind with
  | 4 => (List.range 8).filter fun j => (rank + j + 1) % 9 < t.devices
  | 5 => List.range t.q
  | _ => t.dirs.flatMap (·.2)

/-- The rank and port expected at the far end of a port (R529); none under SWITCHED, where a
switch stands at the far end. -/
def Topo.peer (t : Topo) (rank port : Nat) : Option (Nat × Nat) :=
  match t.kind with
  | 4 =>
    let q := (rank + port + 1) % 9
    some (q, (rank + 9 - q) % 9 - 1)
  | 5 => none
  | _ =>
    (t.dirs.find? fun d => d.2.contains port).bind fun d =>
      let back := t.dirs.find? fun e => e.1 == ⟨d.1.dim, !d.1.plus⟩
      back.map fun b => (t.step rank d.1, b.2.getD (d.2.idxOf port) 0)

/-- Where a packet goes next (R533): the port and the virtual channel, or none for LOCAL. -/
def Topo.nextPort (t : Topo) (cur dst vc sel : Nat) : Option (Nat × Nat) :=
  let base (v : Nat) : Nat := if v < 2 then 0 else 2
  match t.kind with
  | 0 => none
  | 4 => if dst = cur then none else some ((dst + 9 - cur) % 9 - 1, vc)
  | 5 => if dst = cur then none else some (sel % t.q, vc)
  | _ =>
    let dims := if t.kind = 1 then [0] else if t.kind = 2 then [0, 1] else [0, 1, 2]
    let go := fun (acc : Option (Nat × Nat) × Nat) (dim : Nat) =>
      match acc.1 with
      | some _ => acc
      | none =>
        let n := t.size dim
        let c := t.coord cur dim
        let d := (t.coord dst dim + n - c) % n
        if d = 0 then (none, base acc.2)
        else
          let plus := decide (2 * d ≤ n)
          let crosses := if plus then c + 1 = n else c = 0
          let v := if crosses then base acc.2 + 1 else acc.2
          let ports := ((t.dirs.find? fun e => e.1 == ⟨dim, plus⟩).map (·.2)).getD []
          (some (ports.getD (sel % max ports.length 1) 0, v), v)
    (dims.foldl go (none, vc)).1

/-! ### Packet bytes (R540, R541) -/

end Sys2Proof.Machine

namespace Sys2Proof

open Machine

/-- The packet's virtual channel. -/
def Packet.vc (p : Packet) : Nat := p.flags.toNat % 8

def Packet.neighbour (p : Packet) : Bool := p.flags.getLsbD 5

def Packet.ftc (p : Packet) : Bool := p.flags.getLsbD 3

def Packet.last (p : Packet) : Bool := p.flags.getLsbD 4

def Packet.withVc (p : Packet) (vc : Nat) : Packet :=
  { p with flags := (p.flags &&& 0xF8#8) ||| BitVec.ofNat 8 vc }

/-- Header and payload with the given FLAGS, HOPS and E2E_CRC bytes. -/
def Packet.bytesWith (p : Packet) (flags hops crc : Nat) : List Byte :=
  leBytes 1 p.ptype ++ leBytes 1 flags ++ leBytes 2 p.payload.length ++ leBytes 2 p.srcRank ++
  leBytes 2 p.dstRank ++ leBytes 8 p.key.toNat ++ leBytes 4 p.step.toNat ++ leBytes 2 p.entry ++
  leBytes 2 p.sequence ++ leBytes 8 p.address.toNat ++ leBytes 2 p.chainPos ++ leBytes 1 hops ++
  leBytes 1 0 ++ leBytes 4 p.tag.toNat ++ leBytes 4 p.msgId.toNat ++ leBytes 4 crc ++ p.payload

/-- The bytes on the wire. -/
def Packet.bytes (p : Packet) : List Byte := p.bytesWith p.flags.toNat p.hops p.e2eCrc.toNat

/-- The E2E_CRC that the packet should carry: HOPS, VC and the field itself read as zero. -/
def Packet.crcOf (p : Packet) : BitVec 32 :=
  crc32c (p.bytesWith (p.flags.toNat / 8 * 8) 0 0)

/-- The packet with its E2E_CRC in place. -/
def Packet.sealed (p : Packet) : Packet := { p with e2eCrc := p.crcOf }

/-! ### Flits and the sender (R536 to R538) -/

/-- Credits that a packet takes, in 64-byte units (R538). -/
def Packet.credits (p : Packet) : Nat := ceilDiv (48 + p.payload.length) 64

end Sys2Proof

namespace Sys2Proof.Machine

/-- The virtual channel whose credits the next flit returns. -/
def Port.dueVc (pt : Port) : Nat := ((List.range 5).find? fun v => pt.creditsDue.getD v 0 != 0).getD 0

/-- A flit goes out with the next sequence number, the answer that is due and the credits of one channel, and waits in
the replay buffer (R536, R537). -/
def Port.sendFlit (now kind : Nat) (pt : Port) (b : List Byte) : Port :=
  let v := pt.dueVc
  { pt with
    replay := pt.replay ++
      [{ seq := pt.txSeq, kind := kind, body := sliceZ b 0 244, creditVc := v, creditCount := pt.creditsDue.getD v 0
         ack := (pt.rxSeq + 4095) % 4096, ackValid := pt.ackDue, nak := pt.nakDue }]
    txSeq := (pt.txSeq + 1) % 4096
    lastSent := now
    ackDue := false
    nakDue := false
    creditsDue := modAt pt.creditsDue v fun _ => 0
    flitsSent := satAdd pt.flitsSent 1 }

def Port.sendFlits (now kind : Nat) (pt : Port) (bodies : List (List Byte)) : Port := bodies.foldl (Port.sendFlit now kind) pt

/-- Whether the port can start the packet now, behind `queued` bytes of the packet stream: in service, credits for all of
it, and room in the replay buffer. HELLO also goes out while TRAINING or MISWIRED (R529). -/
def Port.canSend (pt : Port) (queued : Nat) (p : Packet) : Bool :=
  let open_ := match pt.state with
    | .up | .degraded => true
    | .training | .miswired => p.ptype == 0x30
    | .down | .failed | .ethernetUp | .ethernetDown => false
  open_ && !pt.quiesceAsked && p.credits ≤ pt.txCredits.getD p.vc 0 &&
    pt.replay.length + ceilDiv (queued + 48 + p.payload.length) 244 ≤ 512

/-- The packet takes its credits. -/
def Port.takeCredits (pt : Port) (p : Packet) : Port :=
  { pt with txCredits := modAt pt.txCredits p.vc (· - p.credits), bytes := pt.bytes + p.payload.length }

/-- Takes queued packets into the packet stream in the order of R535 while the first of each queue can go. A packet of
this device's own has its issue as deadline (R220), so they rank in the order of issue (DEDUCED). -/
def Port.drain : Nat → Port → List Byte → Port × List Byte
  | 0, pt, b => (pt, b)
  | fuel + 1, pt, b =>
    match pt.txControl, pt.txForward, pt.txOwn with
    | p :: r, _, _ =>
      if pt.canSend b.length p then Port.drain fuel (({ pt with txControl := r } : Port).takeCredits p) (b ++ p.bytes)
      else (pt, b)
    | [], p :: r, _ =>
      if pt.canSend b.length p then Port.drain fuel (({ pt with txForward := r } : Port).takeCredits p) (b ++ p.bytes)
      else (pt, b)
    | [], [], p :: r =>
      if pt.canSend b.length p then Port.drain fuel (({ pt with txOwn := r } : Port).takeCredits p) (b ++ p.bytes)
      else (pt, b)
    | [], [], [] => (pt, b)

/-- Counts the wait for credits (CREDIT_WAIT_NS) from its start to its end. -/
def Port.creditClock (now : Nat) (pt : Port) : Port :=
  let waiting := !(pt.txControl.isEmpty && pt.txForward.isEmpty && pt.txOwn.isEmpty)
  match waiting, pt.creditWaitSince with
  | true, none => { pt with creditWaitSince := some now }
  | false, some t =>
    { pt with creditWaitSince := none, creditWaitNs := satAdd pt.creditWaitNs (now - t) }
  | _, _ => pt

/-- Sends what can be sent: the packets follow one another in the flits without gaps. Zeros fill the flit in which the
stream pauses (DESIGN CHOICE, log 117). -/
def Port.pump (now : Nat) (pt : Port) : Port :=
  let (q, b) := Port.drain (pt.txControl.length + pt.txForward.length + pt.txOwn.length) pt []
  Port.creditClock now (q.sendFlits now 1 (chunks 244 b.length b))

/-- Queues a packet behind those of its order (R535) and sends what can be sent. -/
def Port.enqueue (now : Nat) (forwarded : Bool) (pt : Port) (p : Packet) : Port :=
  Port.pump now
    (if p.vc = 4 then { pt with txControl := pt.txControl ++ [p] }
     else if forwarded then { pt with txForward := pt.txForward ++ [p] }
     else { pt with txOwn := pt.txOwn ++ [p] })

/-- Originates or forwards a packet on a port. -/
def State.sendOn (s : State) (port : Nat) (forwarded : Bool) (p : Packet) : State :=
  s.modPort port fun pt => pt.enqueue s.now forwarded p

/-- The session's topology, if a session is open. -/
def State.topo (s : State) : Option Topo := s.session.map fun x => topoOf x.topology

/-- The Torcor ports in use: those that the session's port map names and that run Torcor. -/
def State.torcorPorts (s : State) : List Nat :=
  match s.session with
  | none => []
  | some x => ((topoOf x.topology).ports x.rank).filter fun n => !(s.port n).ethernet

/-- A packet that this device originates: its rank, key and step number. -/
def State.packet (s : State) (ptype vc : Nat) : Packet :=
  match s.session with
  | none => { ptype := ptype, flags := BitVec.ofNat 8 vc }
  | some x =>
    { ptype := ptype, flags := BitVec.ofNat 8 vc, srcRank := x.rank,
      key := BitVec.ofNat 64 (topoOf x.topology).key,
      step := BitVec.ofNat 32 ((s.run.map (·.k)).getD 0) }

/-- Sends a packet towards a rank by R533, or answers false for a packet that is local. -/
def State.route (s : State) (p : Packet) (sel : Nat) : State :=
  match s.session with
  | none => s
  | some x =>
    match (topoOf x.topology).nextPort x.rank p.dstRank p.vc sel with
    | none => s
    | some (port, vc) => s.sendOn port false (p.withVc vc)

end Sys2Proof.Machine
end

