-- ==== Sys2Proof/Machine/Program.lean ====
section
/-! DEFINITION. The tables of a loaded program image and the encoding of a bundle (R135 to R164, R201
to R204): fields as values, with the rules that a bundle shows by itself (R145). -/

namespace Sys2Proof.Machine

/-! ### The loaded program -/

/-- Section types of a program image that the management rules name (R135). -/
def secCollectivePlan : Nat := 0x0009
def secUpdatePlan : Nat := 0x000A

/-- The bytes of a section of an image, when the image has it. -/
def Program.section? (p : Program) (ty : Nat) : Option (List Byte) :=
  (p.sections.find? fun e => e.1 == ty).map fun e => e.2.1

/-- Entry count of a section, 0 when the image has none. -/
def Program.entries (p : Program) (ty : Nat) : Nat :=
  ((p.sections.find? fun e => e.1 == ty).map fun e => e.2.2).getD 0

def Program.hasUpdatePlan (p : Program) : Bool := (p.section? secUpdatePlan).isSome

/-- The program holds a COLLECTIVE_PLAN or an UPDATE_PLAN (R566). -/
def Program.hasPlan (p : Program) : Bool :=
  (p.section? secCollectivePlan).isSome || p.hasUpdatePlan

def State.hasPlan (s : State) : Bool := (s.program.map Program.hasPlan).getD false

def State.hasUpdatePlan (s : State) : Bool := (s.program.map Program.hasUpdatePlan).getD false

/-- Bit of MODE_FLAGS (R137): DETERMINISTIC is bit 0. -/
def State.deterministic (s : State) : Bool := (s.program.map fun p => bit p.modeFlags 0).getD false

/-- The present rank; 0 without a session. -/
def State.rank (s : State) : Nat := (s.session.map (·.rank)).getD 0

/-! ### Sections (R138) -/

def secTileDirectory : Nat := 0x0001
def secSegments : Nat := 0x0002
def secCode : Nat := 0x0003
def secDescriptors : Nat := 0x0004
def secBarriers : Nat := 0x0005
def secTensors : Nat := 0x0006
def secStreams : Nat := 0x0007
def secFontPlan : Nat := 0x0008
def secExperts : Nat := 0x000B

def Program.sec (p : Program) (ty : Nat) : List Byte := (p.section? ty).getD []

/-- Entry `i` of a section whose entries have `n` bytes. -/
def Program.entry (p : Program) (ty n i : Nat) : List Byte := slice (p.sec ty) (n * i) n

/-! ### TILE_DIRECTORY and SEGMENTS (R139, R140) -/

structure TileEntry where
  die : Nat
  logical : Nat
  entrySegment : Nat
  firstSegment : Nat
  segments : Nat
  descs : Nat
  firstDesc : Nat
  deriving DecidableEq, Repr

def tileEntryOf (b : List Byte) : TileEntry :=
  { die := field b 0 1, logical := field b 1 1, entrySegment := field b 2 2, firstSegment := field b 4 4
    segments := field b 8 2, descs := field b 0xA 2, firstDesc := field b 0xC 4 }

def Program.tileEntries (p : Program) : List TileEntry :=
  (List.range (p.entries secTileDirectory)).map fun i => tileEntryOf (p.entry secTileDirectory 16 i)

/-- The declared tile count of a die (R119). -/
def Program.tilesOn (p : Program) (die : Nat) : Nat := if die = 0 then p.tilesCd0 else p.tilesCd1

/-- The directory entry of a logical tile. -/
def Program.tileEntry (p : Program) (die l : Nat) : Option TileEntry :=
  p.tileEntries.find? fun e => e.die == die && e.logical == l

structure SegEntry where
  codeOffset : Nat
  bundles : Nat
  successor : Nat
  deriving DecidableEq, Repr

def segEntryOf (b : List Byte) : SegEntry := { codeOffset := field b 0 4, bundles := field b 4 2, successor := field b 6 2 }

/-- A tile-local segment. -/
def Program.segment (p : Program) (e : TileEntry) (n : Nat) : SegEntry :=
  segEntryOf (p.entry secSegments 16 (e.firstSegment + n))

/-- The bytes of a segment's bundles. -/
def Program.segmentCode (p : Program) (g : SegEntry) : List Byte := slice (p.sec secCode) g.codeOffset (32 * g.bundles)

/-! ### BARRIER_TABLE (R143) -/

structure BarrierEntry where
  id : Nat
  membersCd0 : Nat
  membersCd1 : Nat
  deriving DecidableEq, Repr

def barrierEntryOf (b : List Byte) : BarrierEntry := { id := field b 0 1, membersCd0 := field b 8 8, membersCd1 := field b 16 8 }

def Program.barriers (p : Program) : List BarrierEntry :=
  (List.range (p.entries secBarriers)).map fun i => barrierEntryOf (p.entry secBarriers 24 i)

def BarrierEntry.member (e : BarrierEntry) (die l : Nat) : Bool := bit (if die = 0 then e.membersCd0 else e.membersCd1) l

/-! ### TENSOR_TABLE (R141) -/

structure Tensor where
  id : Nat
  kind : Nat
  fmt : Nat
  layout : Nat
  compression : Nat
  space : Nat
  mask : Nat
  g4eGroup : Nat
  sideCap : Nat
  rank : Nat
  dims : List Nat
  base : Nat
  size : Nat
  region : Nat
  flags : Nat
  reservedZero : Bool
  deriving DecidableEq, Repr

def tensorOf (b : List Byte) : Tensor :=
  { id := field b 0 4, kind := field b 4 1, fmt := field b 5 1, layout := field b 6 1, compression := field b 7 1
    space := field b 8 1, mask := field b 9 1, g4eGroup := field b 0xA 1, sideCap := field b 0xB 1, rank := field b 0xC 1
    dims := (List.range 4).map fun i => field b (0x10 + 4 * i) 4
    base := field b 0x20 8, size := field b 0x28 8, region := field b 0x30 2, flags := field b 0x32 2
    reservedZero := field b 0xD 3 == 0 && allZero (slice b 0x34 12) }

def Program.tensorAt (p : Program) (i : Nat) : Tensor := tensorOf (p.entry secTensors 64 i)

def Program.tensors (p : Program) : List Tensor := (List.range (p.entries secTensors)).map p.tensorAt

/-- The tensor of an identifier. -/
def Program.tensor (p : Program) (id : Nat) : Option Tensor := p.tensors.find? fun t => t.id == id

/-- Elements of a tensor. -/
def Tensor.elements (t : Tensor) : Nat := t.dims.foldl (· * ·) 1

def kindMaster : Nat := 3
def kindMoment : Nat := 4
def kindShard : Nat := 5
def layoutSlab : Nat := 3

/-- The number of elements of a G4E group (R282). -/
def groupSize : Nat → Nat
  | 1 => 32
  | 2 => 64
  | 3 => 128
  | _ => 0

/-! ### Stream programs (R201 to R204) -/

structure StreamHead where
  count : Nat
  srcTier : Nat
  dstTier : Nat
  srcTensor : Nat
  dstTensor : Nat
  buffering : Nat
  ringBlocks : Nat
  cls : Nat
  flags : Nat
  blockSize : Nat
  bufBase : Nat
  blockEvent : Nat
  indexSlot : Nat
  rateHint : Nat
  deadlineNs : Nat
  indexLimit : Nat
  fifoTarget : Nat
  reservedZero : Bool
  deriving DecidableEq, Repr

def streamHeadOf (b : List Byte) : StreamHead :=
  { count := field b 0 2, srcTier := field b 2 1, dstTier := field b 3 1, srcTensor := field b 4 4, dstTensor := field b 8 4
    buffering := field b 0xC 1, ringBlocks := field b 0xD 1, cls := field b 0xE 1, flags := field b 0xF 1
    blockSize := field b 0x10 4, bufBase := field b 0x14 4, blockEvent := field b 0x18 1, indexSlot := field b 0x19 1
    rateHint := field b 0x1A 2, deadlineNs := field b 0x1C 4, indexLimit := field b 0x20 4, fifoTarget := field b 0x24 1
    reservedZero := allZero (slice b 0x25 11) }

def StreamHead.decodeFtc (h : StreamHead) : Bool := bit h.flags 0
def StreamHead.encodeFtc (h : StreamHead) : Bool := bit h.flags 1
def StreamHead.tee (h : StreamHead) : Bool := bit h.flags 2
def StreamHead.teeTranspose (h : StreamHead) : Bool := bit h.flags 3
def StreamHead.buffered (h : StreamHead) : Bool := h.buffering != 0

/-- The absent tensor of a stream side: tile memory. -/
def noTensor : Nat := 0xFFFFFFFF

/-- Byte offset of stream program `i`, and its header. -/
def Program.streamOffset (p : Program) (i : Nat) : Nat := field (p.sec secStreams) (4 * i) 4

def Program.streamHead (p : Program) (i : Nat) : StreamHead := streamHeadOf (slice (p.sec secStreams) (p.streamOffset i) 48)

/-- A stream instruction (R203). -/
structure StreamInstr where
  op : Nat
  ra : Nat
  rb : Nat
  lp : Nat
  reserved : Nat
  imm : Nat
  deriving DecidableEq, Repr

def streamInstrOf (w : Nat) : StreamInstr :=
  { op := bits w 5 0, ra := bits w 7 6, rb := bits w 9 8, lp := bits w 11 10, reserved := bits w 15 12, imm := bits w 63 16 }

def Program.streamInstr (p : Program) (i pc : Nat) : StreamInstr :=
  streamInstrOf (field (p.sec secStreams) (p.streamOffset i + 48 + 8 * pc) 8)

def opEnd : Nat := 0
def opSeta : Nat := 1
def opSets : Nat := 2
def opAdds : Nat := 3
def opAddq : Nat := 4
def opLoop : Nat := 5
def opLoopq : Nat := 6
def opEndloop : Nat := 7
def opMove : Nat := 8
def opIndex : Nat := 9

/-! ### Bundles (R150 to R164) -/

/-- The array slot's operation, none for NOP. -/
def arraySlotOf (w : Nat) : Option ArraySlot :=
  let op := bits w 3 0
  if op = 1 ∨ op = 2 then
    some
      { pair := op == 2, fmtA := bits w 7 4, fmtB := bits w 11 8
        fmtOut := match bits w 13 12 with
          | 0 => .fp32
          | 1 => .bf16
          | 2 => .fp16
          | _ => .none
        init := match bits w 15 14 with
          | 0 => .zero
          | 1 => .load
          | _ => .hold
        amax := bit w 16, maskEn := bit w 17, transA := bit w 18, transB := bit w 19, dxOnly := bit w 20, oddSrc := bit w 21
        accBlock := bits w 25 22, desc := bits w 35 26, done := bits w 43 36, fmtP := bits w 47 44 }
  else none

/-- An operand format of R71: any floating format of 16 bits or less, and G4E for B. -/
def operandFmt (g4eOk : Bool) (c : Nat) : Bool := decide (1 ≤ c) && (decide (c ≤ 9) || (g4eOk && c == 10))

/-- FMT_P (R157). -/
def portFmt (c : Nat) : Bool := decide (1 ≤ c) && decide (c ≤ 4)

/-- A format that has transposed reads (R83). -/
def transposable (c : Nat) : Bool := decide (c ≤ 4)

/-- The rules on the fields of an array operation (R157). -/
def arrayFieldsOk (a : ArraySlot) : Bool :=
  operandFmt false a.fmtA && operandFmt true a.fmtB && decide (a.accBlock < 16) && decide (a.desc < 1024) && decide (a.done < 256) &&
    if a.pair then portFmt a.fmtP && !a.transA && !a.transB && (a.dxOnly || !a.oddSrc)
    else
      a.fmtP == 0 && !a.dxOnly && !a.oddSrc && (!a.transA || transposable a.fmtA) && (!a.transB || transposable a.fmtB)

/-- The rules on the array slot's bits (R145, R157). -/
def arraySlotOk (w : Nat) : Bool :=
  bits w 63 48 == 0 && bits w 15 14 != 3 &&
  match arraySlotOf w with
  | some a => arrayFieldsOk a
  | none => bits w 3 0 == 0

/-- VOP, DESC and DONE_EVENT of the vector slot (R161). -/
structure VecSlot where
  vop : Nat
  desc : Nat
  done : Nat
  deriving DecidableEq, Repr

def vecSlotOf (w : Nat) : VecSlot := { vop := bits w 5 0, desc := bits w 15 6, done := bits w 23 16 }

def vecSlotOk (w : Nat) : Bool := decide (bits w 5 0 ≤ 0x11) && bits w 47 24 == 0

/-- The operation of a VOP, none for NOP. -/
def vecOpcodeOf : Nat → Option VecOpcode
  | 1 => some .add | 2 => some .sub | 3 => some .mul | 4 => some .fma | 5 => some .axpy | 6 => some .max | 7 => some .min
  | 8 => some .exp | 9 => some .log | 10 => some .rcp | 11 => some .rsqrt | 12 => some .sum | 13 => some .amax
  | 14 => some .convert | 15 => some .accum | 16 => some .dropout | 17 => some .copy
  | _ => none

/-- A stream slot's fields (R162). -/
structure StreamOp where
  sop : Nat
  slot : Nat
  arg : Nat
  done : Nat
  deriving DecidableEq, Repr

def streamOpOf (w : Nat) : StreamOp := { sop := bits w 3 0, slot := bits w 10 4, arg := bits w 22 11, done := bits w 30 23 }

def streamOpOk (w : Nat) : Bool :=
  let o := streamOpOf w
  !bit w 31 && (o.sop == 0 || o.slot != 127) &&
  match o.sop with
  | 0 => o.arg == 0
  | 1 => true
  | 2 => decide (o.arg < 16)
  | 3 => o.arg != 0
  | 4 => o.arg == 0
  | _ => false

/-- The control operations (R164). -/
inductive ControlOp where
  | nop
  | wait (counter threshold : Nat) (consume : Bool)
  | signal (counter scope target increment : Nat)
  | yieldOp
  | barrier (id : Nat)
  | xfer (desc done : Nat)
  | coll (entry done : Nat)
  | fence (scopes : Nat)
  | halt
  deriving DecidableEq, Repr

def controlOf (w : Nat) : ControlOp :=
  match bits w 3 0 with
  | 1 => .wait (bits w 11 4) (bits w 27 12) (bit w 28)
  | 2 => .signal (bits w 11 4) (bits w 13 12) (bits w 19 14) (bits w 35 20)
  | 3 => .yieldOp
  | 4 => .barrier (bits w 8 4)
  | 5 => .xfer (bits w 13 4) (bits w 21 14)
  | 6 => .coll (bits w 15 4) (bits w 23 16)
  | 7 => .fence (bits w 8 4)
  | 8 => .halt
  | _ => .nop

/-- The opcode is listed, and every bit that the table does not assign is zero. -/
def controlOk (w : Nat) : Bool :=
  match bits w 3 0 with
  | 0 => w == 0
  | 1 => bits w 47 29 == 0
  | 2 => bits w 47 36 == 0 && decide (bits w 13 12 ≤ 2) && bits w 35 20 != 0
  | 3 => bits w 47 4 == 0
  | 4 => bits w 47 9 == 0
  | 5 => bits w 47 22 == 0
  | 6 => bits w 47 24 == 0
  | 7 => bits w 47 9 == 0
  | 8 => bits w 47 4 == 0
  | _ => false

/-- The sequencing field (R153). -/
structure SeqField where
  seq : Nat
  reg : Nat
  imm : Nat
  hintClass : Nat
  hintTarget : Nat
  deriving DecidableEq, Repr

def seqOf (w : Nat) : SeqField :=
  { seq := bits w 3 0, reg := bits w 7 4, imm := bits w 19 8, hintClass := bits w 21 20, hintTarget := bits w 31 22 }

/-- The rules of R153 for the sequencing field. Bits of IMM and REG that an operation does not use may be anything: the
spec reserves only REG [7:6] of loop operations and HINT_TARGET without a hint (DESIGN CHOICE, log 97). -/
def seqOk (w : Nat) : Bool :=
  let f := seqOf w
  decide (f.seq ≤ 8) && (f.hintClass != 0 || f.hintTarget == 0) &&
    (!(f.seq == 1 || f.seq == 2 || f.seq == 3) || decide (f.reg < 4))

/-- A bundle of 256 bits (R150). -/
structure BundleOps where
  array : Option ArraySlot
  vector : VecSlot
  stream0 : StreamOp
  stream1 : StreamOp
  control : ControlOp
  seq : SeqField
  deriving DecidableEq, Repr

def bundleOf (w : Nat) : BundleOps :=
  { array := arraySlotOf (bits w 63 0), vector := vecSlotOf (bits w 111 64), stream0 := streamOpOf (bits w 143 112)
    stream1 := streamOpOf (bits w 175 144), control := controlOf (bits w 223 176), seq := seqOf (bits w 255 224) }

/-- The rules that a bundle shows by itself (R145). -/
def bundleOk (w : Nat) : Bool :=
  arraySlotOk (bits w 63 0) && vecSlotOk (bits w 111 64) && streamOpOk (bits w 143 112) && streamOpOk (bits w 175 144) &&
    controlOk (bits w 223 176) && seqOk (bits w 255 224) &&
    (bits w 115 112 == 0 || bits w 147 144 == 0 || bits w 122 116 != bits w 154 148)

end Sys2Proof.Machine
end

