-- ==== Sys2Proof/Machine/Operands.lean ====
section
/-! DEFINITION. Operands in tile memory: block layout (R81, R159, R239), MX scale planes (R237, R240), G4E
operand images (R283 to R292), and array and vector descriptors with their checks (R159, R160, R161). -/

namespace Sys2Proof.Machine

/-- Reading tile memory: offset and length. -/
abbrev TmRead := Nat → Nat → List Byte

/-- The format of a code that a check has accepted. -/
def fmtOf (c : Nat) : Fmt := (Fmt.ofCode c).getD .fp32

/-! ### Blocks of 4 × 4 elements -/

/-- Bytes of a block (R81). -/
def Fmt.block (f : Fmt) : Nat := f.bytesOf 16

/-- The code of element `e` of block `blk`. -/
def blockCode (rd : TmRead) (f : Fmt) (base blk e : Nat) : Nat :=
  leNat (rd (base + f.block * blk) f.block) >>> (f.bitsOf * e) % 2 ^ f.bitsOf

/-- The first 32-byte boundary after `n` elements: where an MX scale plane starts (R240). -/
def scalePlane (f : Fmt) (base n : Nat) : Nat := roundUp (base + ceilDiv (n * f.bitsOf) 8) 32

/-- A value under the E8M0 scale byte at an offset (R237). -/
def mxScaled (rd : TmRead) (off : Nat) (v : Fp) : Fp :=
  let x := leNat (rd off 1)
  if x = 255 then .nan else v.mul (.pow2 ((x : Int) - 127))

/-- Element (i, k) of an operand A, or of dY, with `rows` rows and depth `K`: row-group major with K-minor
blocks, or with the axes exchanged (R159). -/
def elemA (rd : TmRead) (f : Fmt) (base rows K : Nat) (trans : Bool) (i k : Nat) : Fp :=
  let v := f.spec.decode <|
    if trans then blockCode rd f base (k / 4 * (rows / 4) + i / 4) (4 * (k % 4) + i % 4)
    else blockCode rd f base (i / 4 * (K / 4) + k / 4) (4 * (i % 4) + k % 4)
  if f.isMx then mxScaled rd (scalePlane f base (rows * K) + 4 * (i / 4 * (K / 32) + k / 32) + i % 4) v else v

/-- Element (k, c) of an operand B, or of Wᵀ, with `cols` columns and depth `K`: column-block major with
K-minor blocks, or with the axes exchanged (R159, R240). -/
def elemB (rd : TmRead) (f : Fmt) (base cols K : Nat) (trans : Bool) (k c : Nat) : Fp :=
  let v := f.spec.decode <|
    if trans then blockCode rd f base (k / 4 * (cols / 4) + c / 4) (4 * (c % 4) + k % 4)
    else blockCode rd f base (c / 4 * (K / 4) + k / 4) (4 * (k % 4) + c % 4)
  if f.isMx then mxScaled rd (scalePlane f base (cols * K) + 4 * (c / 4 * (K / 32) + k / 32) + c % 4) v else v

/-- Element (input, token) of the private port of pair `j`: Xᵀ or Zᵀ by transposed read (R88). -/
def elemPort (rd : TmRead) (f : Fmt) (base j input token : Nat) : Fp :=
  f.spec.decode (blockCode rd f base (token / 4 * 2 + j) (4 * (token % 4) + input))

/-! ### G4E operand images (R290 to R293) -/

/-- The image header at OPB − 0x20. -/
structure G4eHeader where
  capacity : Nat
  kind : Nat
  slicePos : Nat
  reservedZero : Bool
  deriving DecidableEq, Repr

def g4eHeader (rd : TmRead) (opb : Nat) : G4eHeader :=
  let b := rd (opb - 0x20) 0x20
  { capacity := field b 0 1, kind := field b 1 1, slicePos := field b 2 2, reservedZero := allZero (b.drop 4) }

/-- Where an element's code, scale and first side slot lie, and its position in the group. -/
structure G4ePlace where
  block : Nat
  elem : Nat
  scaleOff : Nat
  slotOff : Nat
  pos : Nat
  deriving DecidableEq, Repr

/-- Element (input i, output o) of a FORWARD image (R288, R291). -/
def g4eForwardPlace (K g cap i o : Nat) : G4ePlace :=
  let ix := o / 4 * 4 * (K / g) + 4 * (i / g) + o % 4
  { block := o / 4 * (K / 4) + i / 4, elem := 4 * (i % 4) + o % 4, scaleOff := 8 * K + 2 * ix
    slotOff := 8 * K + 32 * K / g + 4 * (ix * cap), pos := i % g }

/-- Element (input i, output o) of a PAIR image of `O` outputs (R292). -/
def g4ePairPlace (O cap slicePos i o : Nat) : G4ePlace :=
  { block := i / 4 * (O / 4) + o / 4, elem := 4 * (o % 4) + i % 4, scaleOff := 4 * O + 2 * o
    slotOff := 6 * O + 4 * (o * cap), pos := slicePos + i }

/-- A decoded element, and whether it was an escape with or without its entry (R286, R305). -/
structure G4eElem where
  value : Fp
  escape : Bool := false
  mismatch : Bool := false
  deriving DecidableEq, Repr

/-- The lowest valid side slot whose POS matches (R285). -/
def g4eEntry (slots : List Nat) (pos : Nat) : Option Nat :=
  (slots.find? fun w => bit w 23 && bits w 22 16 == pos).map fun w => bits w 15 0

/-- The value of a code (R283, R286). -/
def g4eValue (code scale : Nat) (slots : List Nat) (pos : Nat) : G4eElem :=
  if code = 0 then { value := .zero }
  else if code = 8 then
    match g4eEntry slots pos with
    | some v => { value := bf16Spec.decode v, escape := true }
    | none => { value := .nan, mismatch := true }
  else { value := (Fp.fin (bit code 3) (code % 8) 0).mul (bf16Spec.decode scale) }

def g4eElem (rd : TmRead) (opb cap : Nat) (p : G4ePlace) : G4eElem :=
  let slots := (List.range cap).map fun t => leNat (rd (opb + p.slotOff + 4 * t) 4)
  g4eValue (blockCode rd .g4e opb p.block p.elem) (leNat (rd (opb + p.scaleOff) 2)) slots p.pos

/-- Bytes of an image (R291, R292). -/
def g4eBytes (pair : Bool) (depth g cap : Nat) : Nat :=
  if pair then 6 * depth + 4 * cap * depth else 8 * depth + 32 * depth / g + 64 * cap * depth / g

/-- Offset of a descriptor (R158). -/
def descOffset (i : Nat) : Nat := 0x1F8000 + 32 * i

/-! ### Array descriptors (R159) -/

def arrayDescOf (b : List Byte) : ArrayDesc :=
  { opa := field b 0 4, opb := field b 4 4, opp := field b 8 4, dst := field b 0xC 4, dst2 := field b 0x10 4
    mask := field b 0x14 4, depth := field b 0x18 4, rows := field b 0x1C 2, group := field b 0x1E 1 }

/-- The format of C: FMT_OUT, or FP32 with NONE (R76). -/
def outFmt : FmtOut → Fmt
  | .fp32 | .none => .fp32
  | .bf16 => .bf16
  | .fp16 => .fp16

/-- The odd arrays of a backward pair operation are fed (R93). -/
def oddFed (a : ArraySlot) : Bool := a.pair && (!a.dxOnly || a.oddSrc)

/-- The operation touches DST: it loads C, or writes back. -/
def usesDst (a : ArraySlot) : Bool := a.init == .load || a.fmtOut != .none

/-- Columns of operand B, and of C. -/
def colsOf (a : ArraySlot) : Nat := if a.pair then 8 else 16

/-- One past the last byte of an operand of `n` elements, scale plane included. -/
def operandEnd (f : Fmt) (base n : Nat) : Nat := if f.isMx then scalePlane f base n + n / 32 else base + f.bytesOf n

/-- An operand is aligned to its block size and lies in tile memory. -/
def operandFits (f : Fmt) (base n : Nat) : Bool := base % f.block == 0 && decide (operandEnd f base n ≤ tileBytes)

/-- DEPTH and ROWS meet R74 or R89, and R292. MX needs whole 32-element blocks in either mode. -/
def arrayShapeOk (a : ArraySlot) (d : ArrayDesc) : Bool :=
  let mx := (fmtOf a.fmtA).isMx || (fmtOf a.fmtB).isMx
  let g := groupSize d.group
  d.rows % 4 == 0 && decide (4 ≤ d.rows) && decide (d.rows ≤ 256) && d.depth % 4 == 0 && decide (4 ≤ d.depth) &&
    decide (d.depth ≤ if a.pair then 64 else 65536) && (!mx || d.depth % 32 == 0) &&
    (a.fmtB != 10 || (if a.pair then d.depth % 16 == 0 else d.depth % g == 0))

/-- The checks of R159 that need no byte of tile memory beyond the descriptor. -/
def arrayDescOk (a : ArraySlot) (b : List Byte) : Bool :=
  let d := arrayDescOf b
  let fa := fmtOf a.fmtA
  let fb := fmtOf a.fmtB
  let c := outFmt a.fmtOut
  field b 0x1F 1 == 0 && [d.opa, d.opb, d.opp, d.dst, d.dst2, d.mask].all (fun x => decide (x < 2 ^ 21)) &&
    d.mask % 32 == 0 && (if a.fmtB = 10 then decide (1 ≤ d.group) && decide (d.group ≤ 3) else d.group == 0) &&
    (a.pair || (d.opp == 0 && d.dst2 == 0)) && arrayShapeOk a d &&
    operandFits fa d.opa (d.rows * d.depth) && operandFits fb d.opb (colsOf a * d.depth) &&
    (a.fmtB != 10 || decide (0x20 ≤ d.opb)) && (!usesDst a || operandFits c d.dst (d.rows * colsOf a)) &&
    (!oddFed a || operandFits (fmtOf a.fmtP) d.opp (d.rows * 8)) &&
    (!(oddFed a && a.fmtOut != .none) || operandFits c d.dst2 (8 * d.depth))

/-- The image header and extent of a G4E operand (R290 to R292). -/
def g4eImageOk (rd : TmRead) (a : ArraySlot) (d : ArrayDesc) : Bool :=
  let h := g4eHeader rd d.opb
  let g := groupSize d.group
  a.fmtB != 10 ||
    (h.reservedZero && decide (h.capacity ≤ 8) && h.kind == (if a.pair then 2 else 1) &&
      (if a.pair then h.slicePos % 8 == 0 && decide (h.slicePos < g) else h.slicePos == 0) &&
      decide (d.opb + g4eBytes a.pair d.depth g h.capacity ≤ tileBytes))

/-- Element (k, c) of operand B of an operation, with what the decoder counts. -/
def operandB (rd : TmRead) (a : ArraySlot) (d : ArrayDesc) (k c : Nat) : G4eElem :=
  if a.fmtB = 10 then
    let h := g4eHeader rd d.opb
    let p := if a.pair then g4ePairPlace d.depth h.capacity h.slicePos c k
      else g4eForwardPlace d.depth (groupSize d.group) h.capacity k c
    g4eElem rd d.opb h.capacity p
  else { value := elemB rd (fmtOf a.fmtB) d.opb (colsOf a) d.depth a.transB k c }

/-- Element (i, k) of operand A. -/
def operandA (rd : TmRead) (a : ArraySlot) (d : ArrayDesc) (i k : Nat) : Fp :=
  elemA rd (fmtOf a.fmtA) d.opa d.rows d.depth a.transA i k

/-- The ranges under the retention lock of an operation (R87, R290): its input operands and C. -/
def retained (rd : TmRead) (a : ArraySlot) (d : ArrayDesc) : List (Nat × Nat) :=
  let span := fun (f : Fmt) (base n : Nat) => (base, operandEnd f base n - base)
  let opb :=
    if a.fmtB = 10 then
      (d.opb - 0x20, 0x20 + g4eBytes a.pair d.depth (groupSize d.group) (g4eHeader rd d.opb).capacity)
    else span (fmtOf a.fmtB) d.opb (colsOf a * d.depth)
  [span (fmtOf a.fmtA) d.opa (d.rows * d.depth), opb] ++
    (if oddFed a then [span (fmtOf a.fmtP) d.opp (d.rows * 8)] else []) ++
    (if usesDst a then [span (outFmt a.fmtOut) d.dst (d.rows * colsOf a)] else [])

/-! ### Vector operands: elements in storage order -/

/-- The code of element `i`. -/
def flatCode (rd : TmRead) (f : Fmt) (base i : Nat) : Nat :=
  let lo := f.bitsOf * i
  leNat (rd (base + lo / 8) 4) >>> (lo % 8) % 2 ^ f.bitsOf

/-- The scale byte of element `i` of an MX operand in block layout: eight blocks of one row group are a K block of 32
for each of their four rows (R81, R240). -/
def mxScaleAt (i : Nat) : Nat := 4 * (i / 128) + i % 16 / 4

/-- Scale bytes of `n` elements. -/
def mxScales (n : Nat) : Nat := 4 * (n / 128) + min 4 (ceilDiv (n % 128) 4)

/-- The elements, of `n`, under scale byte `k`. -/
def mxMembers (n k : Nat) : List Nat :=
  ((List.range 32).map fun t => 128 * (k / 4) + 16 * (t / 4) + 4 * (k % 4) + t % 4).filter (· < n)

/-- The place of element `i` among those of its scale byte. -/
def mxPlace (i : Nat) : Nat := 4 * (i % 128 / 16) + i % 4

/-- The value of element `i` of `n` in storage order; an MX operand has its scale plane after it (R240). -/
def flatElem (rd : TmRead) (f : Fmt) (base n i : Nat) : Fp :=
  let v := f.spec.decode (flatCode rd f base i)
  if f.isMx then mxScaled rd (scalePlane f base n + mxScaleAt i) v else v

/-- Bytes that `n` elements span, the last byte whole. -/
def flatBytes (f : Fmt) (n : Nat) : Nat := ceilDiv (n * f.bitsOf) 8

/-- One past the last byte of a vector operand. -/
def flatEnd (f : Fmt) (base n : Nat) : Nat :=
  if f.isMx then scalePlane f base n + mxScales n else base + flatBytes f n

/-- Alignment of a vector operand to its format: its element's bytes, one for elements of a byte or less (DESIGN
CHOICE, log 95). -/
def flatAlign (f : Fmt) : Nat := max 1 (f.bitsOf / 8)

def flatFits (f : Fmt) (base n : Nat) : Bool := base % flatAlign f == 0 && decide (flatEnd f base n ≤ tileBytes)

/-! ### Vector descriptors (R160, R161) -/

def vecDescOf (b : List Byte) : VecDesc :=
  { srcA := field b 0 4, srcB := field b 4 4, dst := field b 8 4, length := field b 0xC 4, fmtA := field b 0x10 1
    fmtB := field b 0x11 1, fmtD := field b 0x12 1, recordAmax := bit (field b 0x13 1) 0, countSat := bit (field b 0x13 1) 1
    scalar := BitVec.ofNat 32 (field b 0x14 4), key := field b 0x18 4 }

/-- FP32, BF16 or FP16 by code. -/
def wideCode (c : Nat) : Bool := decide (c ≤ 2)

/-- Any floating format but G4E by code. -/
def floatCode (c : Nat) : Bool := decide (c ≤ 9)

def VecOpcode.readsB : VecOpcode → Bool
  | .add | .sub | .mul | .fma | .axpy | .max | .min => true
  | .exp | .log | .rcp | .rsqrt | .sum | .amax | .convert | .accum | .dropout | .copy => false

/-- D is an operand as well. -/
def VecOpcode.readsD : VecOpcode → Bool
  | .fma | .accum => true
  | .add | .sub | .mul | .axpy | .max | .min | .exp | .log | .rcp | .rsqrt | .sum | .amax | .convert | .dropout
  | .copy => false

/-- The formats of the operation's row. -/
def VecOpcode.formatsOk (o : VecOpcode) (a d : Nat) : Bool :=
  match o with
  | .add | .sub | .mul | .fma | .axpy | .max | .min | .exp | .log | .rcp | .rsqrt | .dropout => wideCode a && wideCode d
  | .sum | .amax => floatCode a && d == 0
  | .convert => wideCode a && floatCode d && d != 0
  | .accum => decide (a ≤ 1) && wideCode d
  | .copy => floatCode a && floatCode d

/-- A CONVERT that takes a derived scale (R265). -/
def VecDesc.derived (d : VecDesc) (o : VecOpcode) : Bool := o == .convert && d.scalar.toNat % 2 ^ 31 == 0

/-- Elements that the operation writes. -/
def VecDesc.written (d : VecDesc) (o : VecOpcode) : Nat :=
  match o with
  | .sum | .amax => 1
  | .add | .sub | .mul | .fma | .axpy | .max | .min | .exp | .log | .rcp | .rsqrt | .convert | .accum | .dropout
  | .copy => d.length

/-- SCALAR lies in [0, 1) (R335). -/
def dropScalarOk (x : BitVec 32) : Bool :=
  match fp32 x with
  | .nan | .inf _ => false
  | .fin s m e => m == 0 || (!s && (Fp.fin s m e).lt .one)

/-- The checks of R160 on a vector descriptor. -/
def vecDescOk (o : VecOpcode) (b : List Byte) : Bool :=
  let d := vecDescOf b
  decide (1 ≤ d.length) && decide (d.length ≤ 262144) && decide (field b 0x13 1 < 4) && field b 0x1C 4 == 0 &&
    o.formatsOk d.fmtA d.fmtD && flatFits (fmtOf d.fmtA) d.srcA d.length && flatFits (fmtOf d.fmtD) d.dst (d.written o) &&
    (if o.readsB then wideCode d.fmtB && flatFits (fmtOf d.fmtB) d.srcB d.length
      else d.fmtB == 0 &&
        if d.derived o then d.srcB % 8 == 0 && decide (d.srcB + 8 ≤ tileBytes) else d.srcB == 0) &&
    (o != .dropout || dropScalarOk d.scalar)

/-! ### XFER descriptors (R160) -/

structure XferDesc where
  src : Nat
  dst : Nat
  length : Nat
  targetTile : Nat
  targetEvent : Nat
  deriving DecidableEq, Repr

def xferDescOf (b : List Byte) : XferDesc :=
  { src := field b 0 8, dst := field b 8 8, length := field b 0x10 4, targetTile := field b 0x14 1
    targetEvent := field b 0x15 1 }

/-- The compute die on which a whole range of a tile window, a shared buffer or stacked memory lies, none
for any other space or when it leaves that space. -/
def rangeDie (a n : Nat) : Option Nat :=
  let last := a + n - 1
  match daSpace a with
  | 0 => if daSpace last = 0 ∧ bit a 39 = bit last 39 then some (bool01 (bit a 39)) else none
  | 8 =>
    if bits a 43 24 = bits last 43 24 ∧ bits a 39 33 = 0 ∧ !bit a 30 ∧ a % 2 ^ 24 + n ≤ tileBytes then
      some (bits a 32 32)
    else none
  | 9 => if bits a 39 33 = 0 ∧ a % 2 ^ 32 + n ≤ sharedBytes then some (bits a 32 32) else none
  | _ => none

/-- The checks of R160 on an XFER descriptor of a tile of `die`; `other` is the other die's tile count. -/
def xferDescOk (die other : Nat) (b : List Byte) : Bool :=
  let d := xferDescOf b
  decide (d.src < 2 ^ 44) && decide (d.dst < 2 ^ 44) && d.length != 0 && d.length % 256 == 0 &&
    decide (d.length ≤ 2 ^ 24) && rangeDie d.src d.length == some die && rangeDie d.dst d.length == some (1 - die) &&
    decide (d.targetTile < other) && field b 0x16 2 == 0 && allZero (slice b 0x18 8)

end Sys2Proof.Machine
end

