-- ==== Sys2Proof/Machine/Checksum.lean ====
section
/-! DEFINITION. The checksum row and column of an array, the magnitude lane, and the comparator (R104 to R108, R294):
what they predict of a block, and when a difference is a flicker. -/

namespace Sys2Proof.Machine

/-! ### Upsets: what the environment does to the arithmetic -/

/-- What strikes the block at a grid position: the sites that an upset can flip, by position and accumulator block. -/
abbrev Hits := Nat → Nat → List (UpsetSite × BitVec 32)

def noHits : Hits := fun _ _ => []

/-- The flips of one element of an accumulated block. -/
def elementFlip (l : List (UpsetSite × BitVec 32)) (e : Nat) : BitVec 32 :=
  l.foldl (fun w x => if x.1 = .element e then w ^^^ x.2 else w) 0

/-- The flips of one predicted sum. -/
def lineFlip (l : List (UpsetSite × BitVec 32)) (line : Nat) : BitVec 32 :=
  l.foldl (fun w x => if x.1 = .predicted line then w ^^^ x.2 else w) 0

/-- The flips of the sum of chunk `c` on its way to element `e`. -/
def chunkFlip (l : List (UpsetSite × BitVec 32)) (c e : Nat) : BitVec 32 :=
  l.foldl (fun w x => if x.1 = .chunk c e then w ^^^ x.2 else w) 0

/-- A chunk sum as it reaches the accumulator: exact, unless an upset flips its FP32 word. -/
def struck (v : Fp) (w : BitVec 32) : Fp := if w = 0 then v else fp32 (toFp32 v ^^^ w)

/-! ### One block of cells -/

/-- The products of an element: a masked row's cells give +0 (R98). -/
def cellProducts (live : Nat → Bool) (as bs : List (List Fp)) (e : Nat) : List Fp :=
  let a := as.getD (e / 4) []
  if live (e / 4) then List.zipWith Fp.mul a (bs.getD (e % 4) []) else a.map fun _ => Fp.zero

/-- The exact chunk sums of an element (R246, R247). -/
def cellChunks (live : Nat → Bool) (as bs : List (List Fp)) (e : Nat) : List Fp :=
  let l := cellProducts live as bs e
  (fours (l.length / 4 + 1) l).map chunkSum

/-- The sixteen dot products of four rows and four columns (R247), with the flips that strike them. -/
def cellBlock (live : Nat → Bool) (as bs : List (List Fp)) (init : List Fp) (hits : List (UpsetSite × BitVec 32)) :
    List (BitVec 32) :=
  (List.range 16).map fun e =>
    let sums := (cellChunks live as bs e).mapIdx fun c v => struck v (chunkFlip hits c e)
    toFp32 (sums.foldl (fun acc v => fp32Spec.round (acc.add v)) (init.getD e .zero)) ^^^ elementFlip hits e

/-! ### Predictions (R104) -/

/-- Rounds a magnitude up to FP32. -/
def roundUpFp32 (v : Fp) : BitVec 32 :=
  match v with
  | .nan | .inf _ => toFp32 v
  | .fin _ m e =>
    let q := fp32Spec.quantum m e
    let (n, r, _) := gridOf q m e
    let c := fp32Spec.codeOf q (n + bool01 (r != 0))
    BitVec.ofNat 32 (if fp32Spec.maxFinite < c then 0x7F800000 else c)

/-- The elements of a line: rows are lines 0 to 3, columns lines 4 to 7. A column counts its live rows only. -/
def lineElements (live : Nat → Bool) (line : Nat) : List Nat :=
  if line < 4 then (List.range 4).map (4 * line + ·)
  else ((List.range 4).filter live).map fun r => 4 * r + (line - 4)

/-- The exact sum of vectors, element by element. -/
def sumVectors (l : List (List Fp)) : List Fp :=
  match l with
  | [] => []
  | a :: r => r.foldl (List.zipWith Fp.add) a

/-- The two vectors whose dot product a line predicts: A·(B·1) for a row, (1ᵀA)·B over live rows for a column. -/
def lineVectors (live : Nat → Bool) (as bs : List (List Fp)) (line : Nat) : List Fp × List Fp :=
  if line < 4 then (as.getD line [], sumVectors bs)
  else (sumVectors (((List.range 4).filter live).map fun r => as.getD r []), bs.getD (line - 4) [])

/-- The exact sum of some values. -/
def exactSum (l : List Fp) : Fp := l.foldl Fp.add .zero

/-- What a block's checker holds before its first chunk: the sums of the initial contents, and of their magnitudes
(DEDUCED: the sums that the comparator forms contain them). -/
def CheckSums.start (live : Nat → Bool) (init : List Fp) : CheckSums :=
  let line := fun i => (lineElements live i).map fun e => init.getD e .zero
  { predicted := (List.range 8).map fun i => toFp32 (exactSum (line i))
    mags := (List.range 8).map fun i => roundUpFp32 (exactSum ((line i).map Fp.abs)) }

/-- Adds the chunks of one pass: each predicted sum in FP32, one rounding a chunk, and to M the magnitudes of the
chunk sums of the line's elements, rounded upward (R104). -/
def CheckSums.feed (x : CheckSums) (live : Nat → Bool) (as bs : List (List Fp)) (hits : List (UpsetSite × BitVec 32)) :
    CheckSums :=
  let chunks := (List.range 16).map (cellChunks live as bs)
  let n := ((as.headD []).length + 3) / 4
  { predicted := x.predicted.mapIdx fun i p =>
      let v := lineVectors live as bs i
      toFp32 (dotChunks (fp32 p) (List.zipWith Fp.mul v.1 v.2)) ^^^ lineFlip hits i
    mags := x.mags.mapIdx fun i m =>
      (List.range n).foldl
        (fun w c => roundUpFp32 ((fp32 w).add (exactSum ((lineElements live i).map fun e => ((chunks.getD e []).getD c .zero).abs)))) m
    chunks := x.chunks + n
    uneven := x.uneven }

/-! ### The exact check of 4-bit operands (R106) -/

/-- An array-cycle's row or column sums of chunk sums differ from the exact sums of its products. Chunk sums are
exact, so they differ by what upsets have added. -/
def cycleDiffers (live : Nat → Bool) (as bs : List (List Fp)) (perCycle : Nat) (hits : List (UpsetSite × BitVec 32)) : Bool :=
  let hit := (hits.filterMap fun x => match x.1 with
    | .chunk c _ => some (c / perCycle)
    | .element _ | .predicted _ => none).eraseDups
  hit.any fun cycle =>
    (List.range 8).any fun i =>
      let line := lineElements live i
      let diff := line.flatMap fun e =>
        (List.range perCycle).map fun j =>
          let c := perCycle * cycle + j
          let v := (cellChunks live as bs e).getD c .zero
          (struck v (chunkFlip hits c e)).sub v
      !(exactSum diff).nonFinite && !(exactSum diff).isZero

/-! ### The comparator (R105, R108) -/

/-- A format whose products stay above the FP32 subnormals: FP16, FP8 E4M3 and FP8 E5M2. -/
def noFloor : Fmt → Bool
  | .fp16 | .e4m3 | .e5m2 => true
  | .fp32 | .bf16 | .mxE4m3 | .mxE5m2 | .mxE3m2 | .mxE2m3 | .mxE2m1 | .g4e | .int32 | .uint8 => false

/-- The tolerance of R105: (2n + 8) × 2⁻²⁴ × M, and n × 2⁻¹⁴⁹ where the formats have a floor. -/
def tolerance (fa fb : Fmt) (n : Nat) (m : BitVec 32) : Fp :=
  ((Fp.fin false (2 * n + 8) (-24)).mul (fp32 m)).add (if noFloor fa && noFloor fb then .zero else .fin false n (-149))

/-- The block differs from its predictions: some line by more than the tolerance, or some cycle at all. Where a
predicted sum, an accumulated sum or M is not finite nothing is compared. The rows compared are the live ones. -/
def CheckSums.flickers (x : CheckSums) (fa fb : Fmt) (live : Nat → Bool) (block : List (BitVec 32)) : Bool :=
  let lines := (List.range 8).filter fun i => decide (4 ≤ i) || live i
  let sum := fun i => exactSum ((lineElements live i).map fun e => fp32 (block.getD e 0))
  let open' := lines.any fun i =>
    (fp32 (x.predicted.getD i 0)).nonFinite || (sum i).nonFinite || (fp32 (x.mags.getD i 0)).nonFinite
  !open' &&
    (x.uneven || lines.any fun i =>
      (tolerance fa fb x.chunks (x.mags.getD i 0)).lt ((fp32 (x.predicted.getD i 0)).sub (sum i)).abs)

end Sys2Proof.Machine
end

