-- ==== Sys2Proof/Machine/Stalls.lean ====
section
/-! DEFINITION. Contexts, retention locks, and the accounting of stalls (R87, R171, R178, R223 to R226). -/

namespace Sys2Proof.Machine

/-! ### Slots and contexts of a tile -/

/-- The header of the stream program bound to a slot. -/
def State.slotHead (s : State) (x : StreamSlot) : StreamHead :=
  match s.program with
  | some p => p.streamHead x.program
  | none => streamHeadOf []

def Tile.slot (t : Tile) (n : Nat) : StreamSlot := t.slots.getD n {}

def Tile.ctx (t : Tile) (n : Nat) : Context := t.contexts.getD n {}

def Tile.modCtx (t : Tile) (n : Nat) (f : Context → Context) : Tile := { t with contexts := modAt t.contexts n f }

def State.modCtx (s : State) (d p n : Nat) (f : Context → Context) : State := s.modTile d p fun t => t.modCtx n f

/-- The running context. -/
def Tile.current (t : Tile) : Context := t.ctx t.running

/-- Cycles of the 1.5 GHz arithmetic clock in a number of nanoseconds (R68). -/
def cyclesIn (ns : Nat) : Nat := ns * 3 / 2

/-- Nanoseconds of a number of cycles, rounded up. -/
def nsOfCycles (n : Nat) : Nat := ceilDiv (2 * n) 3

/-! ### Retention locks (R87) -/

/-- A range of tile memory is under the lock of a queued array operation. -/
def Tile.locked (t : Tile) (off n : Nat) : Bool := t.arrayQueue.any fun o => o.locks.any fun l => overlaps l.1 l.2 off n

/-- A range of device addresses is under a lock. -/
def State.lockedDev (s : State) (a n : Nat) : Bool :=
  daSpace a == 8 &&
    match s.windowTile a with
    | some (d, p) => (s.tile d p).locked (a % tileBytes) n
    | none => false

/-! ### Stalls (R178, R223 to R226) -/

/-- The cause that a tier maps to (R224). -/
def tierCause : Nat → StallCause
  | 3 => .stackLate
  | 4 => .remoteDieLate
  | 5 => .fabricLate
  | 6 => .hostLate
  | _ => .eventWait

/-- The tier that R171 calls a stream's source tier (R224). -/
def StreamHead.causeTier (h : StreamHead) : Nat := if h.srcTier ≤ 2 then h.dstTier else h.srcTier

/-- A bank that a stacked-memory address reaches is held by a forced refresh or by refresh management
(R445). -/
def State.bankHeld (s : State) (a : Nat) : Bool :=
  daSpace a == 0 &&
    match s.pch a with
    | some (q, pla) => (assocGet {} (s.stack (daStack a)).banks (64 * q + plaBank pla)).held
    | none => false

/-- The place of a request that its next point serves: the source until it has been read, then the destination, and
last the tee. -/
def Req.endAt (q : Req) : Nat :=
  if q.data.isNone then q.src else if decide (q.points.length ≤ q.teePoints) && q.teePoints != 0 then q.tee.getD q.dst else q.dst

/-- A retention lock covers a place where a request writes: its destination or its tee (R87, R214). -/
def State.lockedReq (s : State) (q : Req) : Bool :=
  s.lockedDev q.dst q.len || (q.tee.map fun a => s.lockedDev a q.len).getD false

/-- The cause of a wait on data of the stream of a slot, whose own tier is `tier` (R225, step 2). -/
def State.streamCause (s : State) (d p n tier : Nat) : StallCause :=
  let t := s.tile d p
  let x := t.slot n
  let late :=
    if x.state = .running ∧ x.wait = .emptyFifo then
      tierCause (s.slotHead (t.slot (s.slotHead x).indexSlot)).causeTier
    else tierCause tier
  match s.requests.find? fun r => r.owner == .tileSlot d p n with
  | some r =>
    if r.points.isEmpty && s.lockedReq r then .eventWait
    else if !r.points.isEmpty && s.bankHeld r.endAt then .refreshPause
    else late
  | none => late

/-- An operation is in replay: its first execution has ended, and it has not completed (R110). -/
def ArrayOp.inReplay (o : ArrayOp) : Bool := decide (1 < o.executions) || o.phase == .awaitReplay

/-- The array operation that last named a counter is in replay. -/
def Tile.inReplay (t : Tile) (counter : Nat) : Bool :=
  ((t.arrayQueue.reverse.find? fun o => o.slot.done == counter).map (·.inReplay)).getD false

/-- The cause of the running context's stall; none for a cycle that R110 charges (R226). -/
def State.stallCause (s : State) (d p : Nat) : Option StallCause :=
  let t := s.tile d p
  match t.current.reason with
  | .segment _ => some .stackLate
  | .wait c _ =>
    match t.tags.getD c .none with
    | .none | .vector => some .eventWait
    | .stream n tier => some (s.streamCause d p n tier)
    | .pastStream tier => some (tierCause tier)
    | .xfer => some .remoteDieLate
    | .coll => some .fabricLate
    | .array => if t.inReplay c then none else some .eventWait
  | .none | .barrier .. | .fence .. | .halt => some .eventWait

/-- Bin of a stall episode (R758). -/
def stallBin (n : Nat) : Nat := if n < 16 then 0 else min (n.log2 - 3) 15

/-- Adds stall cycles to a counter of a context. -/
def State.countStall (s : State) (d p ctx : Nat) (c : StallCause) (cycles : Nat) : State :=
  s.modCtx d p ctx fun x => { x with stalls := modAt x.stalls c.code (· + cycles) }

/-- An episode of a cause goes into the histogram of R758. -/
def State.binStall (s : State) (d : Nat) (c : StallCause) (cycles : Nat) : State :=
  if cycles = 0 then s
  else { s with tele := { s.tele with histStall := modAt s.tele.histStall (128 * d + 16 * c.code + stallBin cycles) (satAdd · 1) } }

/-- Charges stall cycles to a context, as one episode. -/
def State.addStall (s : State) (d p ctx : Nat) (c : StallCause) (cycles : Nat) : State :=
  (s.countStall d p ctx c cycles).binStall d c cycles

/-- The tile's present episode ends. -/
def State.endEpisode (s : State) (d p : Nat) : State :=
  match (s.tile d p).episode with
  | some (c, n) => (s.binStall d c n).modTile d p fun t => { t with episode := none }
  | none => s

/-- Cycles of one cause go on: they lengthen its episode, or end that of another cause. -/
def State.goOnStall (s : State) (d p : Nat) (c : StallCause) (cycles : Nat) : State :=
  let s1 := s.countStall d p (s.tile d p).running c cycles
  match (s.tile d p).episode with
  | some (e, n) =>
    if e = c then s1.modTile d p fun t => { t with episode := some (c, n + cycles) }
    else (s1.endEpisode d p).modTile d p fun t => { t with episode := some (c, cycles) }
  | none => s1.modTile d p fun t => { t with episode := some (c, cycles) }

/-- Charges the running context's stall up to now. -/
def State.chargeStall (s : State) (d p : Nat) : State :=
  match (s.tile d p).stallSince with
  | none => s
  | some t0 =>
    let cycles := cyclesIn (s.now - t0)
    let s1 :=
      if cycles = 0 then s
      else
        match s.stallCause d p with
        | some c => s.goOnStall d p c cycles
        | none => s.endEpisode d p
    s1.modTile d p fun t => { t with stallSince := some s.now }

/-- Charges it, and ends it. -/
def State.endStall (s : State) (d p : Nat) : State :=
  ((s.chargeStall d p).endEpisode d p).modTile d p fun t => { t with stallSince := none }

/-- Charges every tile's stall up to now: a hold by refresh begins or ends. -/
def State.chargeAll (s : State) : State :=
  (List.range 100).foldl (fun t i => t.chargeStall (i / 50) (i % 50)) s

/-! ### Stalls of a BSU's STREAM slots (R227, R496) -/

/-- The tier cause of a BSU that only its streams keep at work: of its lowest slot whose stream waits on its source. -/
def State.bsuStreamCause (s : State) (st ch : Nat) : Option StallCause :=
  let b := s.bsu st ch
  if b.slice.isSome || b.paused || b.dutySpent || b.updateOp != 0 then none
  else
    ((b.slots.drop 8).find? fun x => x.state == .running && x.wait != .backPressure).map fun x =>
      tierCause (s.slotHead x).causeTier

/-- Charges it up to now. -/
def State.chargeBsu (s : State) (st ch : Nat) : State :=
  let cause := s.bsuStreamCause st ch
  s.modBsu st ch fun b =>
    { b with
      stalls := match cause with
        | some c => modAt b.stalls c.code (satAdd · (s.now - b.stallSince))
        | none => b.stalls
      stallSince := s.now }

/-- Charges every tile's stall, and ends it, and charges every BSU's: the step stops. -/
def State.endStalls (s : State) : State :=
  let t := (List.range 100).foldl (fun t i => t.endStall (i / 50) (i % 50)) s
  (List.range 256).foldl (fun u i => u.chargeBsu (i / 32) (i % 32)) t

end Sys2Proof.Machine
end

