-- ==== Sys2Proof/Machine/Abort.lean ====
section
/-! DEFINITION. Taking a step abort: the one operation by which a running step ends early (R186,
R229, R232, R566, R567, R633). -/

namespace Sys2Proof.Machine

/-- Why a step aborts: RUN_STEP's status, the DETAIL_KIND and DETAIL of R633, the slot key that
R232 compares, and the collective plan entry concerned (0xFFF when none). -/
structure AbortCause where
  status : Status
  kind : Nat := 0
  detail : List Byte := []
  key : Nat := 0
  entry : Nat := 0xFFF

/-- DETAIL of kind 1 (R633): unit, die, position, slot, cause word. -/
def streamDetail (isBsu : Bool) (die pos slot cause : Nat) : List Byte :=
  leBytes 1 (bool01 isBsu) ++ leBytes 1 die ++ leBytes 1 pos ++ leBytes 1 slot ++ leBytes 4 cause

/-- Cause words of R228. -/
def causeWord (reason instr tier : Nat) (dst : Bool) : Nat :=
  reason % 65536 + instr % 32 * 2 ^ 16 + tier % 8 * 2 ^ 21 + bool01 dst * 2 ^ 24

/-- The cause word of a transfer that was in flight on a failed link (R228). The failing side is the one beyond
the link: the source when it is remote, else the destination (DEDUCED). -/
def Req.linkCause (r : Req) : Nat :=
  let remote := decide (4 ≤ r.srcTier)
  causeWord 0x8008 r.instr (if remote then r.srcTier else r.dstTier) (!remote)

/-- DETAIL of kind 3: originating rank, cause, entry. -/
def originDetail (rank cause entry : Nat) : List Byte :=
  leBytes 2 rank ++ leBytes 2 cause ++ leBytes 2 entry

/-- DETAIL of kind 7: port, peer rank, entry, reason. -/
def fabricDetail (port peer entry reason : Nat) : List Byte :=
  leBytes 1 port ++ leBytes 1 0 ++ leBytes 2 peer ++ leBytes 2 entry ++ leBytes 2 reason

/-- DETAIL of kind 9: the event record that explains the fault, and its code. -/
def eventDetail (seq code : Nat) : List Byte := leBytes 8 seq ++ leBytes 2 code

/-- A stream that a step abort discards. -/
def StreamSlot.cut (x : StreamSlot) : StreamSlot :=
  if x.state = .running then { x with state := .idle, wait := .none, cutOff := true } else x

/-- Work of a tile that a step abort discards (R185, R186). ERROR slots keep their registers (R234);
a RUNNING one has its stream discarded. -/
def Tile.discardWork (t : Tile) : Tile :=
  { t with
    arrayQueue := []
    vectorQueue := []
    xfers := []
    segLoads := []
    switching := none
    slots := t.slots.map StreamSlot.cut }

/-- Work of a BSU that a step abort stops (R495). -/
def Bsu.discardWork (b : Bsu) : Bsu :=
  { b with
    queue := []
    slice := none
    footprint := []
    held := false
    waitSince := none
    paused := false
    landings := []
    updateOp := 0
    state := if b.state = .running then .idle else b.state
    slots := b.slots.map StreamSlot.cut }

/-- A BSU is done with Lamplighter's operation. -/
def Bsu.leaveUpdate (now : Nat) (b : Bsu) : Bsu :=
  if b.updateOp = 0 then b
  else
    { b with
      updateOp := 0
      lastWork := now
      state := if b.state = .running && b.queue.isEmpty && b.slice.isNone then .idle else b.state }

/-! ### The object of an export under way (R409, R473) -/

/-- Slots 7 of a stack's BSUs that hold an encoder. -/
def Stack.encoders (k : Stack) : Nat := (k.bsus.filter fun b => (b.slots.getD 7 {}).ftcUnit).length

/-- A BSU has no part in an export any more. -/
def Bsu.leaveExport (b : Bsu) : Bsu := { b with exportPending := false, slots := modAt b.slots 7 fun _ => {} }

/-- The BSUs' slots 7, and the encoder that the object has or waits for, are free again (R520). -/
def State.releaseExport (s : State) : State :=
  let held := fun (die : Nat) => ((s.hbm.drop (4 * die)).take 4 |>.map Stack.encoders).sum
  { s with
    hbm := s.hbm.map fun k => { k with bsus := k.bsus.map Bsu.leaveExport }
    ftc := s.ftc.mapIdx fun die f =>
      { f with encBusy := f.encBusy - held die, encWaiting := f.encWaiting.filter fun k => k < 12800 || k % 16 != 7 } }

/-- The oldest object is through, or is given up. -/
def State.popExport (s : State) : State :=
  let t := s.releaseExport
  { t with exports := t.exports.tail }

/-- An interruption: the object restarts from its first byte (R405, R409). -/
def State.cutExports (s : State) : State :=
  let t := s.releaseExport
  { t with exports := t.exports.map fun e => { e with started := false, object := [] } }

/-- Requests that belong to a step: all but those of host DMA. -/
def Req.ofStep (r : Req) : Bool :=
  match r.owner with
  | .dma _ => false
  | .tileSlot .. | .bsuSlot .. | .xfer .. | .beacon _ | .event => true

/-- Stops every tile and BSU of the step and ends every collective instance (R186, R567). A stall counts up to
then (R178). -/
def State.stopWork (s : State) : State :=
  let t := s.endStalls.cutExports
  { t with
    stopped := true
    tiles := t.tiles.map Tile.discardWork
    hbm := t.hbm.map fun k => { k with bsus := k.bsus.map Bsu.discardWork }
    bsuOps := []
    signals := []
    barriers := t.barriers.map fun b => { b with arrived := [] }
    requests := t.requests.filter fun r => !r.ofStep
    ftc := t.ftc.map fun f => { f with decBusy := 0, encBusy := 0, decWaiting := [], encWaiting := [] }
    beacon := { t.beacon with instances := [] } }

/-- The ABORT packet of R542 for step `k`. -/
def State.abortPacket (s : State) (k origin cause entry : Nat) : Packet :=
  let p := s.packet 0x20 4
  { p with
    flags := 0x24#8
    step := BitVec.ofNat 32 k
    address := BitVec.ofNat 64 (origin % 16384 + cause % 65536 * 2 ^ 16 + entry % 65536 * 2 ^ 32) }.sealed

/-- Sends an ABORT on every Torcor port in use but one. -/
def State.sendAborts (s : State) (k origin cause entry : Nat) (except : Option Nat) : State :=
  (s.torcorPorts.filter fun n => some n != except).foldl
    (fun t n => t.sendOn n false (t.abortPacket k origin cause entry)) s

/-- Originates the abort of step `k` on the fabric (R566). -/
def State.originateAbort (s : State) (k cause entry : Nat) : State :=
  let b := s.beacon
  let t : State :=
    { s with beacon :=
      { b with
        originator := true
        abortRank := s.rank
        abortCause := cause
        abortStep := k
        tokens := b.tokens ++ [{ step := k, origin := s.rank, cause := cause, entry := entry, acted := true, own := true }]
        abortsOriginated := satAdd b.abortsOriginated 1 } }
  t.sendAborts k s.rank cause entry none

/-- Whether a new cause takes the place of the one recorded (R232, R567). -/
def replaces (now : Nat) (originator : Bool) (old : StepAbort) (c : AbortCause) : Bool :=
  (c.status == .collectiveAborted && old.status != .collectiveAborted && !originator) ||
    (c.status == .streamError && old.status == .streamError && now / 1000 == old.time / 1000 && decide (c.key < old.key))

/-- Aborts the running step. `origin` is the rank whose abort it is: this device's own, or the one
that a token names. Nothing happens outside a step, or after the COMMITTED record (R399). -/
def State.abortBy (s : State) (c : AbortCause) (origin : Nat) : State :=
  match s.run with
  | none => s
  | some r =>
    if r.committed then s
    else
      match r.abort with
      | some old =>
        if replaces s.now s.beacon.originator old c then
          { s with run := some { r with
              abort := some { old with
                status := c.status, detailKind := c.kind, detail := c.detail, key := c.key } } }
        else s
      | none =>
        let t := s.stopWork.raise { code := .stepAborted, unit := deviceUnit, status := c.status, value := origin }
        let a : StepAbort :=
          { status := c.status, detailKind := c.kind, detail := c.detail, time := s.now,
            key := c.key, root := (t.events.cascade).getD 0 }
        { t with
          run := some { r with abort := some a }
          events := { t.events with stepsAborted := satAdd t.events.stepsAborted 1 } }

/-- Aborts the running step for a cause of this device's own: originates the fabric abort when the
program holds a plan (R566). -/
def State.abortStep (s : State) (c : AbortCause) : State :=
  let fresh := (s.run.map fun r => r.abort.isNone && !r.committed).getD false
  let t := s.abortBy c s.rank
  if fresh && s.hasPlan then
    t.originateAbort ((s.run.map (·.k)).getD 0) c.status.code c.entry
  else t

/-- A step that no abort has ended and whose COMMITTED record is not written. -/
def State.stepOpen (s : State) : Bool :=
  (s.run.map fun r => r.abort.isNone && !r.committed).getD false

/-- Slot key of a request's owner (R194, R220). -/
def slotKey : ReqOwner → Nat
  | .tileSlot d p n => d * 6400 + p * 128 + n
  | .bsuSlot st ch n => 12800 + st * 512 + ch * 16 + n
  | .xfer d p _ => 16896 + 64 * d + p
  | .dma n => 17024 + n
  | .event => 17032
  | .beacon _ => 17033

/-- DETAIL and slot key of a request that ended with a cause word (R633, R781). -/
def ownerDetail (o : ReqOwner) (cause : Nat) : List Byte :=
  match o with
  | .tileSlot d p n => streamDetail false d p n cause
  | .bsuSlot st ch n => streamDetail true (st / 4) (32 * st + ch) n cause
  | .xfer d p _ => streamDetail false d p 0xFF cause
  | .dma _ | .beacon _ | .event => streamDetail false 0 0 0xFF cause

/-- A request or stream of the step ended in error: STREAM_ERROR, or the status of its own, with
DETAIL of kind 1 (R232). -/
def State.abortStream (s : State) (st : Status) (isBsu : Bool) (die pos slot cause key : Nat) : State :=
  s.abortStep { status := st, kind := 1, detail := streamDetail isBsu die pos slot cause, key := key }

end Sys2Proof.Machine
end

