-- ==== Sys2Proof/Machine/StreamError.lean ====
section
/-! DEFINITION. Stream slots of tiles and BSUs, and how a stream or an XFER ends in error (R192 to R194,
R228, R229, R781). -/

namespace Sys2Proof.Machine

/-- The slot exists (R192). -/
def refExists : StreamRef → Bool
  | .tile d p n => tileExists d p && decide (n < 128)
  | .bsu st ch n => decide (st < 8) && decide (ch < 32) && decide (n < 16)

def refOwner : StreamRef → ReqOwner
  | .tile d p n => .tileSlot d p n
  | .bsu st ch n => .bsuSlot st ch n

/-- The compute die that owns a slot (R195). -/
def refDie : StreamRef → Nat
  | .tile d _ _ => d
  | .bsu st _ _ => stackDie st

/-- The slot key (R194). -/
def refKey (r : StreamRef) : Nat := slotKey (refOwner r)

def State.slotAt (s : State) : StreamRef → StreamSlot
  | .tile d p n => (s.tile d p).slot n
  | .bsu st ch n => (s.bsu st ch).slots.getD n {}

def State.modSlot (s : State) (r : StreamRef) (f : StreamSlot → StreamSlot) : State :=
  match r with
  | .tile d p n => s.modTile d p fun t => { t with slots := modAt t.slots n f }
  | .bsu st ch n => s.modBsu st ch fun b => { b with slots := modAt b.slots n f }

/-- The slot of an owner, if it is one. -/
def ownerRef : ReqOwner → Option StreamRef
  | .tileSlot d p n => some (.tile d p n)
  | .bsuSlot st ch n => some (.bsu st ch n)
  | .xfer .. | .dma _ | .beacon _ | .event => none

/-- What the refill slot 127 of a tile runs (R148, R149): from the die's stacks into program memory, no program of
the image. -/
def refillHead : StreamHead := { streamHeadOf [] with srcTier := 3, dstTier := 0 }

/-- The header of a slot's stream. -/
def State.headOf (s : State) (r : StreamRef) : StreamHead :=
  match r with
  | .tile _ _ n => if n = 127 then refillHead else s.slotHead (s.slotAt r)
  | .bsu .. => s.slotHead (s.slotAt r)

/-- The data stream that an index stream feeds (R215). -/
def State.dataSlot (s : State) (r : StreamRef) : Option StreamRef :=
  match r with
  | .tile d p _ =>
    let h := s.headOf r
    if h.dstTier = 7 then some (.tile d p h.fifoTarget) else none
  | .bsu .. => none

/-- A RUNNING slot goes to ERROR with its cause word, and so does one that the stop of this moment has cut off. -/
def StreamSlot.fail (cause : Nat) (x : StreamSlot) : StreamSlot :=
  if x.state = .running || x.cutOff then { x with state := .error, wait := .none, causeWord := BitVec.ofNat 32 cause } else x

/-- The cause word of a BSU's stream is its BSU_CAUSE too (R494). -/
def State.noteBsuCause (s : State) (r : StreamRef) (cause : Nat) : State :=
  match r with
  | .tile .. => s
  | .bsu st ch _ => s.modBsu st ch fun b => { b with cause := BitVec.ofNat 32 cause }

/-- The owners that fail with one: an index stream takes its data stream with it (R215). -/
def State.failingWith (s : State) (o : ReqOwner) : List ReqOwner :=
  match (ownerRef o).bind s.dataSlot with
  | some x => [o, refOwner x]
  | none => [o]

/-- The slot of an owner enters ERROR, and what it has in flight is discarded (R229). -/
def State.markError (s : State) (o : ReqOwner) (cause : Nat) : State :=
  let s1 :=
    match ownerRef o with
    | none => s
    | some r => (s.modSlot r (·.fail cause)).noteBsuCause r cause
  { s1 with requests := s1.requests.map fun q => if q.owner = o then { q with discarded := true } else q }

/-- The failure that is reported among some of one moment: the one with the lowest slot key (R232). -/
def lowestKey : List (ReqOwner × Nat) → Option (ReqOwner × Nat)
  | [] => none
  | x :: l => some (l.foldl (fun b y => if slotKey y.1 < slotKey b.1 then y else b) x)

/-- Streams and XFERs end in error together (R229): each slot enters ERROR, and the step aborts with
STREAM_ERROR for the one that R232 reports. -/
def State.endAllInError (s : State) (l : List (ReqOwner × Nat)) : State :=
  let all := l.flatMap fun e => (s.failingWith e.1).map fun o => (o, e.2)
  let t := all.foldl (fun t e => t.markError e.1 e.2) s
  match lowestKey all with
  | none => t
  | some e => t.abortStep { status := .streamError, kind := 1, detail := ownerDetail e.1 e.2, key := slotKey e.1 }

/-- One stream or XFER ends in error. -/
def State.endInError (s : State) (o : ReqOwner) (cause : Nat) : State := s.endAllInError [(o, cause)]

/-- The same as the root of a cascade of its own. -/
def State.streamFails (s : State) (o : ReqOwner) (reason instr tier : Nat) (dst : Bool) : State :=
  s.newCascade.endInError o (causeWord reason instr tier dst)

end Sys2Proof.Machine
end

