-- ==== Sys2Proof/Machine/Retire.lean ====
section
/-! DEFINITION. Minimum service and the retirement of tiles, arrays, channels, shared-buffer and Beacon
pages, by threshold, by self-test or by the Owner (R112 to R116, R455, R641, R648 to R654, R660). -/

namespace Sys2Proof.Machine

/-! ### Minimum service -/

/-- A compute die leaves service: its tiles go dark and its stacks go into self-refresh (R40, R651). -/
def State.dieLeaves (s : State) (d reason : Nat) : State :=
  let s1 := s.modDie d fun x => { x with state := .leftService }
  let s2 : State :=
    { s1 with
      tiles := s1.tiles.mapIdx fun i t => if i / 50 = d then { t with lit := false } else t
      hbm := s1.hbm.mapIdx fun i k => if stackDie i = d then { k with selfRefresh := true } else k
      sharedLit := s1.sharedLit.mapIdx fun i b => b && i / 4 != d }
  s2.raise { code := .dieLeftService, unit := dieUnit d, value := reason }

/-- Why a die does not qualify: LINK, TILES or STACKS (R648, R667). -/
def State.disqualified (s : State) (d : Nat) : Nat :=
  if (s.link (dieLink d)).state = .failed then 0 else if s.availTiles d < 8 then 1 else 2

/-- Takes a die out that is in service and does not qualify (R651). -/
def State.checkDie (s : State) (d : Nat) : State :=
  if s.dieInService d && !s.dieQualifies d then s.dieLeaves d (s.disqualified d) else s

/-- The die that R39 takes out: the other one keeps more tiles, else more stacks, else is CD0. -/
def State.dieToDrop (s : State) : Nat :=
  if s.availTiles 1 < s.availTiles 0 then 1
  else if s.availTiles 0 < s.availTiles 1 then 0
  else if s.localStacks 0 < s.localStacks 1 then 0 else 1

/-- Applies R39 when LINK_CC has failed and both dies qualify. -/
def State.checkLinkCc (s : State) : State :=
  if (s.link 0).state = .failed && s.dieQualifies 0 && s.dieQualifies 1 then s.dieLeaves s.dieToDrop 3
  else s

/-- Enters MAINTENANCE below minimum service (R652). A device in FAULTED stays there, and one on the
recovery image is in MAINTENANCE already (R687). -/
def State.checkDevice (s : State) : State :=
  if s.givesService || !s.mainImage then s
  else
    match s.dev with
    | .ready | .running | .draining =>
      ({ s with dev := .maintenance, lamp := { s.lamp with maintReason := .belowMinimum } } : State).raise
        { code := .belowMinimum, unit := deviceUnit }
    | .maintenance =>
      if s.lamp.maintReason = .belowMinimum then s
      else ({ s with lamp := { s.lamp with maintReason := .belowMinimum } } : State).raise
        { code := .belowMinimum, unit := deviceUnit }
    | .dark | .pilot | .booting | .faulted => s

/-- The minimum-service evaluation of R648 to R652. -/
def State.applyService (s : State) : State := ((s.checkDie 0).checkDie 1).checkLinkCc.checkDevice

/-- The evaluation at once outside a step; inside one it waits for the step's end, and its records join the cascade
of the latest detection (R650, R665). -/
def State.serviceNow (s : State) : State :=
  match s.run, s.dev with
  | none, .booting => s
  | none, _ => s.applyService
  | some _, _ => { s with run := s.run.map fun r => { r with serviceRoot := s.events.cascade } }

/-! ### Tiles and arrays -/

/-- The lowest RUNNING slot of a tile, for DETAIL; 0 without one. -/
def Tile.firstRunning (t : Tile) : Nat := (t.slots.findIdx? fun x => x.state == .running).getD 0

/-- The cause word of what ends with a retired unit. -/
def retiredCause : Nat := causeWord Status.unitRetired.code 0 0 false

/-- A retired tile: its running streams have ended in error, its other work is discarded, and it is dark (R115). -/
def Tile.retire (t : Tile) : Tile :=
  { ({ t with slots := t.slots.map (StreamSlot.fail retiredCause) } : Tile).discardWork with state := .retired, lit := false }

/-- Retires a tile (R114 to R116, R641). -/
def State.retireTile (s : State) (d p : Nat) (th : Threshold) : State :=
  let t := s.tile d p
  if t.state ≠ .available then s
  else
    let slot := t.firstRunning
    let s1 := s.modTile d p Tile.retire
    let s2 := (s1.logAppend (tileUnit d p) (.retired th)).countRetirement (th == .manual)
    let s3 := s2.raise { code := .tileRetired, unit := tileUnit d p, threshold := th, value := s2.availTiles d }
    let s4 := s3.abortStep
      { status := .unitRetired, kind := 1
        detail := streamDetail false d p slot retiredCause }
    s4.serviceNow

/-- Whether the retirement of array `a` retires the whole tile (R114). -/
def Tile.arrayTakesTile (t : Tile) (a : Nat) : Bool :=
  if a = 16 then t.spareFor.isSome || !t.pendingSpare.isEmpty
  else t.spareFor.isSome || t.arrayRetired.getLsbD 16 || !t.pendingSpare.isEmpty

/-- A healthy spare that is not in use takes the lowest-numbered array that waits for it (R114). -/
def Tile.spareToLowest (t : Tile) : Tile := if t.spareAvailable then { t with spareFor := t.pendingSpare.head? } else t

/-- Retires an array (R112 to R114): the log entry, and the substitution or the whole tile. The
substitution itself takes place at the end of the operation; with none in progress it is immediate. -/
def State.retireArray (s : State) (d p a : Nat) (th : Threshold) : State :=
  let t := s.tile d p
  if t.arrayRetired.getLsbD a || t.state ≠ .available then s
  else
    let whole := t.arrayTakesTile a
    let s1 := s.modTile d p fun x => { x with arrayRetired := x.arrayRetired ||| BitVec.ofNat 17 (1 <<< a) }
    let s2 := (s1.logAppend (arrayUnit d p a) (.retired th)).countRetirement (th == .manual)
    if whole then (s2.modTile d p Tile.spareToLowest).retireTile d p th
    else
      let s3 := s2.raise { code := .arrayRetired, unit := arrayUnit d p a, threshold := th, value := a }
      if a = 16 then s3
      else
        s3.modTile d p fun x =>
          match x.arrayQueue with
          | [] => { x with spareFor := some a }
          | _ :: _ => x

/-! ### Histories of errors (R641, R454)

Each error is counted here; the retirement that a history calls for is a row of its own. -/

/-- A tile-memory word was corrected. -/
def State.tmCorrectedWord (s : State) (d p : Nat) : State :=
  s.modTile d p fun t =>
    { t with
      tmCorrected := satAdd t.tmCorrected 1
      tmCorrectedTimes := (s.now, 1) :: inWindowN s.now hourNs t.tmCorrectedTimes }

/-- A tile-memory read failed its retry. -/
def State.tmFailedRead (s : State) (d p : Nat) : State :=
  s.modTile d p fun t =>
    { t with
      tmUncorrectable := satAdd t.tmUncorrectable 1
      tmUncorrectableTimes := s.now :: inWindow s.now hourNs t.tmUncorrectableTimes }

/-! ### Stacks and channels -/

/-- A stack leaves service for a reason other than its die (R654). -/
def State.stackLeaves (s : State) (st : Nat) : State :=
  (s.modStack st fun k => { k with outOfService := true, selfRefresh := true }).raise
    { code := .stackLeftService, unit := stackUnit st }

/-- Whether a request in flight touches a channel. -/
def State.reqOnChannel (s : State) (st ch : Nat) (r : Req) : Bool :=
  let hit := fun a => daSpace a == 0 && daStack a == st && ((s.pch a).map fun q => q.1 / 2 == ch).getD false
  hit r.src || hit r.dst

/-- Channel-local GiB of a stack after the next boot (step 4 of R455): with the interleave then in force, and with the
channels that a RESTORE returns to service. -/
def State.capacityAfterBoot (s : State) (st : Nat) : Nat :=
  nextLocalGib (2 ^ 33 * s.flash.policy.interleaveNext)
    ((s.stack st).retiredChannels.filter fun c => s.lastLog (channelUnit st c) != some .restore)

/-- Retires a channel with its BSU (R455). -/
def State.retireChannel (s : State) (st ch : Nat) (th : Threshold) : State :=
  if (s.channel st ch).retired then s
  else
    let i := s.ileave
    let s1 := (s.modChannel st ch fun c => { c with retired := true }).modBsu st ch fun b =>
      { b.discardWork with state := .retired }
    let (s2, lost) := s1.loseRegions (Region.coversChannel i st ch)
    let s3 := (s2.logAppend (channelUnit st ch) (.retired th)).countRetirement (th == .manual)
    let gib := s3.capacityAfterBoot st
    let s4 := s3.raise
      { code := .channelRetired, unit := channelUnit st ch, threshold := th, value := lost % 65536 + gib * 65536 }
    let s5 : State :=
      if s4.commit.copies.contains (st, ch) || (s4.copyChannels.any fun c => c.1 == st && c.2.1 == ch) then { s4 with commit := { s4.commit with rebuild := true } } else s4
    let s6 := if (s5.stack st).channelsIn = 0 && !(s5.stack st).outOfService then s5.stackLeaves st else s5
    let s7 := s6.abortStep
      { status := .unitRetired, kind := 1
        detail := streamDetail true (stackDie st) (32 * st % 256 + ch) 0
          (causeWord Status.unitRetired.code 0 3 false) }
    s7.serviceNow

/-- An uncorrectable event of a channel (R440, R442, R454). -/
def State.channelUncorrectable (s : State) (st ch addr : Nat) : State :=
  let s1 := s.modStack st fun k =>
    { k with uncorrectable := satAdd k.uncorrectable 1, lastUncorrectable := some addr }
  s1.modChannel st ch fun c =>
    if c.retired then c
    else { c with
      uncorrectable := satAdd c.uncorrectable 1
      uncorrectableTimes := s.now :: inWindow s.now hourNs c.uncorrectableTimes }

/-- A corrected burst of a channel (R440, R454). -/
def State.channelCorrected (s : State) (st ch : Nat) : State :=
  let s1 := s.modStack st fun k => { k with corrected := satAdd k.corrected 1 }
  s1.modChannel st ch fun c =>
    if c.retired then c
    else { c with
      corrected := satAdd c.corrected 1
      correctedTimes := (s.now, 1) :: inWindowN s.now hourNs c.correctedTimes }

/-- A read that decoded on retry (R440, R454). -/
def State.channelTransient (s : State) (st ch : Nat) : State :=
  let s1 := s.modStack st fun k => { k with transient := satAdd k.transient 1 }
  s1.modChannel st ch fun c =>
    if c.retired then c
    else { c with
      transient := satAdd c.transient 1
      transientTimes := s.now :: inWindow s.now hourNs c.transientTimes }

/-- An uncorrectable word of a BSU's SRAM (R494, R641). -/
def State.bsuSramEvent (s : State) (st ch : Nat) : State :=
  s.modBsu st ch fun b => { b with sramTimes := s.now :: inWindow s.now hourNs b.sramTimes }

/-! ### Shared-buffer and Beacon pages -/

/-- Retires a shared-buffer page (R641). -/
def State.retireSharedPage (s : State) (die page : Nat) (th : Threshold) : State :=
  if s.sharedRetired.contains (die, page) then s
  else
    let u : UnitAddr := { kind := .sharedPage, die := die, index := page }
    let (s1, lost) :=
      ({ s with sharedRetired := s.sharedRetired ++ [(die, page)] } : State).loseRegions
        (Region.coversSharedPage die page)
    let s2 := (s1.logAppend u (.retired th)).countRetirement (th == .manual)
    (s2.raise { code := .sharedPageRetired, unit := u, threshold := th, value := lost }).serviceNow

/-- Uncorrectable event of a shared-buffer page. -/
def State.sharedPageEvent (s : State) (die page : Nat) : State :=
  { s with sharedTimes := (s.now, die, page) :: s.sharedTimes.filter fun t => decide (s.now ≤ t.1 + hourNs) }

/-- Replaces a Beacon buffer page from the early-arrival reserve, up to 256 pages (R641, R642). -/
def State.replaceBeaconPage (s : State) (page : Nat) (th : Threshold) : State :=
  let u : UnitAddr := { kind := .beaconPage, index := page }
  if s.beacon.pagesReplaced.length < 256 then
    let s1 : State := { s with beacon := { s.beacon with pagesReplaced := s.beacon.pagesReplaced ++ [page] } }
    let s2 := (s1.logAppend u (.retired th)).countRetirement (th == .manual)
    s2.raise { code := .beaconPageReplaced, unit := u, threshold := th, value := s2.beacon.pagesReplaced.length }
  else s.raise { code := .beaconSparesExhausted, unit := u, threshold := th }

/-- Uncorrectable event of a Beacon buffer page. -/
def State.beaconPageEvent (s : State) (page : Nat) : State :=
  let times := (s.now, page) :: s.beacon.pageTimes.filter fun t => decide (s.now ≤ t.1 + hourNs)
  { s with beacon := { s.beacon with pageTimes := times } }

end Sys2Proof.Machine
end

