-- ==== Sys2Proof/Machine/Links.lean ====
section
/-! DEFINITION. Lanes of die-to-die links and of Torcor ports: thresholds, sparing, narrowing, quiesce
points, rings and rotation (R19 to R42, R525 to R528, R747). -/

namespace Sys2Proof.Machine

/-! ### A link or a port, as the owner of lanes -/

/-- The lanes of the link or port that a reference names. -/
def State.groupLanes (s : State) : LaneRef → List Lane
  | .die k _ => (s.link k).lanes
  | .port n _ => (s.port n).lanes

def State.groupPending (s : State) : LaneRef → List LaneChange
  | .die k _ => (s.link k).pending
  | .port n _ => (s.port n).pending

def State.setPending (s : State) (r : LaneRef) (c : List LaneChange) : State :=
  match r with
  | .die k _ => s.modLink k fun x => { x with pending := c }
  | .port n _ => s.modPort n fun x => { x with pending := c }

/-- Nominal width, spares, step and failure limit (R23, R526). -/
def groupSpec : LaneRef → LinkSpec
  | .die k _ => linkSpec k
  | .port _ _ => ⟨4, 1, 1, 2⟩

/-- The lane number of a reference, and the same group with another lane. -/
def laneOf : LaneRef → Nat
  | .die _ l => l
  | .port _ l => l

def withLane : LaneRef → Nat → LaneRef
  | .die k _, l => .die k l
  | .port n _, l => .port n l

/-- Lanes of a group in a state, ascending. -/
def lanesIn (ls : List Lane) (st : LaneState) : List Nat :=
  (List.range ls.length).filter fun i => (ls.getD i {}).state == st

/-- A lane that has left waits for the quiesce point. -/
def LaneChange.isVacated : LaneChange → Bool
  | .vacated .. => true
  | .retrain .. | .narrow .. | .rotate .. => false

/-- A rotation of spares, which a failure displaces (R35). -/
def LaneChange.isRotation : LaneChange → Bool
  | .rotate .. => true
  | .retrain .. | .narrow .. | .vacated .. => false

/-- The lane by which changes at one quiesce point are ordered (R35); the far end's narrowing comes last. -/
def LaneChange.order : LaneChange → Nat
  | .retrain l => l
  | .vacated l _ _ => l
  | .rotate o _ => o
  | .narrow _ => 1000

/-- Inserts a change behind those of lower or equal lanes. -/
def insertChange (c : LaneChange) : List LaneChange → List LaneChange
  | [] => [c]
  | x :: l => if c.order < x.order then c :: x :: l else x :: insertChange c l

def State.addPending (s : State) (r : LaneRef) (c : LaneChange) : State :=
  s.setPending r (insertChange c (s.groupPending r))

/-- Width of a link or port. -/
def State.groupWidth (s : State) : LaneRef → Nat
  | .die k _ => (s.link k).width
  | .port n _ => (s.port n).width

/-! ### Lane states with their active time (R747) -/

/-- A lane enters a state; its active time is kept. -/
def Lane.enter (now : Nat) (st : LaneState) (l : Lane) : Lane :=
  let spent := match l.activeSince with
    | some t => now - t
    | none => 0
  { l with
    state := st
    activeNs := l.activeNs + spent
    activeSince := if st = .active then some now else none }

/-! ### Failure of a link or a port -/

/-- Whether a request still has to pass an optical link. -/
def Req.onLink (k : Nat) (r : Req) : Bool :=
  r.points.any fun p =>
    match p with
    | .linkCc _ => k == 0
    | .linkCi d _ => k == dieLink d
    | .tilePort .. | .diePort .. | .pseudoChannel .. | .beaconPort | .hostOut => false

/-- A descriptor in progress that crosses a failed link is bound to end with STREAM_ERROR (R37). -/
def DmaChannel.failOn (k : Nat) (c : DmaChannel) : DmaChannel :=
  match c.current with
  | some job =>
    if job.failed.isNone && (job.desc.iodDie.map dieLink) == some k then
      { c with current := some { job with failed := some (.streamError, causeWord 0x8008 0 0 job.desc.toDevice) } }
    else c
  | none => c

/-- The cause of a step's abort when no transfer of its own was on the failed link: the lower-indexed end of the
link, and no slot (DESIGN CHOICE: R37 aborts the step, and R633 gives STREAM_ERROR only this layout). -/
def linkAbort (k : Nat) : AbortCause :=
  { status := .streamError, kind := 1, key := slotKey (.beacon 0)
    detail := streamDetail false (linkEnds k).1 0 0xFF (causeWord 0x8008 0 0 false) }

/-- A link fails during a step: every transfer in flight on it ends with STREAM_ERROR, and the step aborts
(R37). -/
def State.failInFlight (s : State) (k : Nat) : State :=
  if s.stepOpen then
    let hit := (s.requests.filter fun r => r.onLink k && r.ofStep).map fun r => (r.owner, r.linkCause)
    let dma := s.host.dma.map (DmaChannel.failOn k)
    let bound := fun (n : Nat) => ((((dma.getD n {}).current).bind (·.failed)).map fun _ => true).getD false
    let t : State :=
      { s with
        host := { s.host with dma := dma }
        requests := s.requests.filter fun r => !(match r.owner with | .dma n => bound n | _ => false) }
    if hit.isEmpty then t.abortStep (linkAbort k) else t.endAllInError hit
  else s

/-- Declares a die-to-die link FAILED (R28, R37). -/
def State.failLink (s : State) (k : Nat) (th : Threshold) : State :=
  let s1 := s.modLink k fun x => { x with state := .failed, width := 0, pending := [] }
  let s2 := s1.raise { code := .linkFailed, unit := { kind := .link, link := k }, threshold := th }
  (s2.failInFlight k).serviceNow

/-- Declares a port FAILED (R528): what waits in it is lost, and a running instance aborts (R566). -/
def State.failPort (s : State) (n : Nat) (th : Threshold) : State :=
  let used := s.torcorPorts.contains n
  let peer := (s.port n).peerRank
  let s1 := s.modPort n fun x =>
    { x with
      state := .failed, width := 0, pending := [], peerChanges := [], quiesceAsked := false
      replay := [], txControl := [], txForward := [], txOwn := [] }
  let s2 := s1.raise { code := .portFailed, unit := { kind := .port, link := n }, threshold := th, value := peer }
  match s2.beacon.instances, used with
  | i :: _, true =>
    s2.abortStep { status := .fabricAbort, kind := 7, detail := fabricDetail n peer i.entry 2, entry := i.entry }
  | _, _ => s2

def State.failGroup (s : State) (r : LaneRef) (th : Threshold) : State :=
  match r with
  | .die k _ => s.failLink k th
  | .port n _ => s.failPort n th

/-! ### Control messages of a port (R527, R539) -/

/-- Message codes of CONTROL flits (PRESUMED: the manual gives no numbers). -/
def msgLaneChange : Nat := 1
def msgRetrainRequest : Nat := 2
def msgQuiesce : Nat := 3

/-- Sends a control message on a port. -/
def State.sendControl (s : State) (n code lane width : Nat) : State :=
  s.modPort n fun pt => pt.sendFlits s.now 2 [leBytes 1 code ++ leBytes 1 lane ++ leBytes 1 width]

/-- Tells the far end of a port of a lane change; die-to-die links need no message. -/
def State.tellPeer (s : State) (r : LaneRef) (code width : Nat) : State :=
  match r with
  | .die .. => s
  | .port n l => s.sendControl n code l width

/-! ### The procedure of R33 -/

inductive LaneCause where
  | transient | retrainFailed | permanent
  deriving DecidableEq, Repr

/-- The width that a group can keep: its healthy lanes in whole narrowing steps, up to its present width. -/
def keptWidth (r : LaneRef) (healthy width : Nat) : Nat := min width (healthy / (groupSpec r).step * (groupSpec r).step)

/-- A lane has left the active set. Below the failure limit the group fails at once; else a spare takes the
lane's place or the group narrows, as the quiesce point decides for all lanes that have left before it (R33,
R35). -/
def State.vacate (s : State) (r : LaneRef) (root : Option Nat) (th : Threshold) : State :=
  let ls := s.groupLanes r
  let healthy := (lanesIn ls .active).length + (lanesIn ls .spare).length
  let width := keptWidth r healthy (s.groupWidth r)
  if width < (groupSpec r).failedBelow then s.failGroup r th
  else (s.addPending r (.vacated (laneOf r) root th)).tellPeer r msgLaneChange width

/-- SUSPECT after a first failed retrain: history, log entry and background retrain in 60 s. -/
def State.suspectLane (s : State) (r : LaneRef) : State :=
  (s.modLane r fun l =>
    { l.enter s.now .suspect with
      retraining := false, lastFailedRetrain := some s.now, backgroundDue := some (s.now + minNs) }).logAppend
    (laneUnit r) .suspect

/-- RETIRED for good, with its log entry. -/
def State.retireLaneQuietly (s : State) (r : LaneRef) (th : Threshold) : State :=
  let s1 := s.modLane r fun l => { l.enter s.now .retired with retraining := false, backgroundDue := none }
  (s1.logAppend (laneUnit r) (.retired th)).countRetirement (th == .manual)

/-- The record of a retired lane. -/
def State.raiseRetired (s : State) (r : LaneRef) (th : Threshold) : State :=
  s.raise { code := .laneRetired, unit := laneUnit r, threshold := th, value := (lanesIn (s.groupLanes r) .spare).length }

/-- RETIRED for good: log entry and LANE_RETIRED. -/
def State.retireLaneState (s : State) (r : LaneRef) (th : Threshold) : State :=
  (s.retireLaneQuietly r th).raiseRetired r th

/-- Takes a lane permanently out, with what follows when it was ACTIVE. -/
def State.retireLane (s : State) (r : LaneRef) (th : Threshold) : State :=
  let wasActive := (s.lane r).state == .active
  let s1 := s.retireLaneState r th
  if wasActive then s1.vacate r s1.events.cascade th else s1

/-- A failed retrain within 60 min of the last retires the lane; otherwise it becomes SUSPECT. -/
def State.failedRetrain (s : State) (r : LaneRef) (th : Threshold) : State :=
  let l := s.lane r
  let again := match l.lastFailedRetrain with
    | some t => decide (s.now ≤ t + hourNs)
    | none => false
  if again then s.retireLane r th
  else
    let s1 := s.suspectLane r
    if l.state = .active then s1.vacate r none th else s1

/-- The procedure handle_lane of R33. -/
def State.handleLane (s : State) (r : LaneRef) (c : LaneCause) (th : Threshold) : State :=
  let l := s.lane r
  if l.state = .retired then s
  else
    match c with
    | .transient =>
      if l.state = .active ∧ !(s.groupPending r).contains (.retrain (laneOf r)) then
        (s.addPending r (.retrain (laneOf r))).tellPeer r msgRetrainRequest (s.groupWidth r)
      else s
    | .retrainFailed => s.failedRetrain r th
    | .permanent => s.retireLane r th

/-! ### Quiesce points (R31, R35) -/

def State.setWidth (s : State) (r : LaneRef) (w : Nat) : State :=
  match r with
  | .die k _ => s.modLink k fun x => { x with width := w, state := if w < (linkSpec k).nominal then .degraded else .up }
  | .port n _ => s.modPort n fun x => { x with width := w, state := if w < 4 then .degraded else .up }

/-- The record of a narrowing. -/
def narrowEvent (r : LaneRef) (w : Nat) (th : Threshold) : EventSpec :=
  { code := match r with | .die .. => .linkDegraded | .port .. => .portDegraded
    unit := groupUnit r, threshold := th, value := w }

/-- Sets the width: the ACTIVE lanes above the lowest `w` become SPARE. -/
def State.narrowTo (s : State) (r : LaneRef) (w : Nat) : State :=
  let drop := (lanesIn (s.groupLanes r) .active).drop w
  (drop.foldl (fun t l => t.modLane (withLane r l) (Lane.enter s.now .spare)) s).setWidth r w

/-- The gap that a lane has left: the lowest-numbered SPARE lane fills it, or the group narrows. An earlier
narrowing at the same point may have left no gap (R35). -/
def State.fillGap (s : State) (r : LaneRef) (l : Nat) (root : Option Nat) (th : Threshold) : State :=
  let active := (lanesIn (s.groupLanes r) .active).length
  if s.groupWidth r ≤ active then s
  else
    match lanesIn (s.groupLanes r) .spare with
    | [] =>
      let w := keptWidth r active (s.groupWidth r)
      if w < (groupSpec r).failedBelow then (s.inCascade root).failGroup r th
      else ((s.narrowTo r w).inCascade root).raise (narrowEvent r w th)
    | sp :: _ =>
      let t := s.modLane (withLane r sp) (Lane.enter s.now .active)
      (t.inCascade root).raise
        { code := .laneSpared, unit := laneUnit (withLane r l), threshold := th
          value := (lanesIn (t.groupLanes r) .spare).length }

/-- The link or port carries nothing any more. -/
def State.groupFailed (s : State) : LaneRef → Bool
  | .die k _ => (s.link k).state == .failed
  | .port n _ => (s.port n).state == .failed

/-- Applies one change; a link or port that an earlier one made FAILED takes none. -/
def State.applyChange (s : State) (r : LaneRef) (c : LaneChange) : State :=
  if s.groupFailed r then s
  else
  match c with
  | .retrain l =>
    if (s.lane (withLane r l)).state = .active then
      s.modLane (withLane r l) fun x => { x with retraining := true, retrains := x.retrains + 1 }
    else s
  | .vacated l root th => s.fillGap r l root th
  | .narrow w => if w < s.groupWidth r then ((s.narrowTo r w).inCascade none).raise (narrowEvent r w .none) else s
  | .rotate out inn =>
    if (s.lane (withLane r out)).state = .active ∧ (s.lane (withLane r inn)).state = .spare then
      let t := (s.modLane (withLane r out) (Lane.enter s.now .spare)).modLane (withLane r inn) (Lane.enter s.now .active)
      { t with tele := { t.tele with rotations := satAdd t.tele.rotations 1 } }
    else s

/-- Applies every change that waits, in ascending lane order; on a port the proposals of the end with
the lower rank come first (R527). While a retrain is under way nothing is applied: what has arisen waits for
the point after it. A rotation waits for a point with no other change (R35). -/
def State.quiesceGroup (s : State) (r : LaneRef) : State :=
  if (s.groupLanes r).any (·.retraining) then s
  else
  match r with
  | .die k _ =>
    let (rotations, changes) := (s.link k).pending.partition LaneChange.isRotation
    let (now, later) := if changes.isEmpty then (rotations, []) else (changes, rotations)
    (now.foldl (fun t c => t.applyChange r c) (s.setPending r later)).inCascade none
  | .port n _ =>
    let pt := s.port n
    let cs := if pt.peerRank < s.rank then pt.peerChanges ++ pt.pending else pt.pending ++ pt.peerChanges
    let s1 := s.modPort n fun x => { x with pending := [], peerChanges := [], quiesceAsked := false }
    ((cs.foldl (fun t c => t.applyChange r c) s1).inCascade none).modPort n (Port.pump s.now)

/-! ### Meanings -/

/-- A link or port carries traffic and its lanes are watched. -/
def State.watched (s : State) : LaneRef → Bool
  | .die k _ => s.dev.lit && (s.link k).state != .failed && 0 < (s.link k).width
  | .port n _ => s.dev.lit && ((s.port n).state == .up || (s.port n).state == .degraded)

/-- The loop-back ring of a lane, by its role (R752). -/
def loopRole : Nat := 4

/-- What a ring reports (R18, R19, R21): RANGE_LIMIT from 98 % of full range on, and a loop-back ring stays
detuned outside a loop-back test. -/
def ringReport (role : Nat) (heater : BitVec 16) (tuning : Tuning) : Tuning :=
  if 65535 * 98 ≤ heater.toNat * 100 ∨ tuning = .rangeLimit then .rangeLimit
  else if role = loopRole then .off else tuning

/-- RING_TUNING_TICK (R19, R21): the loop of a lit die stores its codes. RANGE_LIMIT is a permanent crossing. -/
def execRingTuningTick (link lane role : Nat) (heater detune : BitVec 16) (tuning : Tuning) (s : State) :
    Host.Outcome State Fault Refusal :=
  if link < 3 ∧ lane < linkLaneCount link ∧ role < 5 then
    if s.dev.lit then
      let r := LaneRef.die link lane
      let now := ringReport role heater tuning
      let s1 := s.modLane r fun l =>
        { l with rings := modAt l.rings role fun _ => { heater := heater, detune := detune, tuning := now } }
      if now = .rangeLimit then .next ((s1.newCascade.handleLane r .permanent .rangeLimit).inCascade none)
      else .next s1
    else .next s
  else .fault .noSuchUnit

/-- RING_OUT_OF_LOCK (R20): a transient crossing while the lane is ACTIVE. -/
def execRingOutOfLock (link lane role : Nat) (s : State) : Host.Outcome State Fault Refusal :=
  if link < 3 ∧ lane < linkLaneCount link ∧ role < 5 then
    if s.watched (.die link lane) then
      .next ((s.newCascade.handleLane (.die link lane) .transient .transient).inCascade none)
    else .next s
  else .fault .noSuchUnit

/-- Index of a lane in the order of the SELF_TEST result (R735, R758). -/
def laneIndex : LaneRef → Nat
  | .die 0 l => l
  | .die k l => 22 + 22 * k + l
  | .port n l => 88 + 5 * n + l

/-- Histogram bin of a 1 s window, by decade of the bit-error rate (R758). -/
def berBin (errors : Nat) : Nat :=
  ((List.range 7).filter fun i => decide (400000000000 ≤ errors * 10 ^ (12 - i))).length

/-- Counts of a lane's receiver over the window. -/
def State.countFec (s : State) (r : LaneRef) (bitErrors codewords : Nat) : State :=
  let s1 := s.modLane r fun l =>
    { l with fecCorrected := l.fecCorrected + bitErrors, fecUncorrectable := l.fecUncorrectable + codewords }
  let s2 : State :=
    { s1 with tele := { s1.tele with
        histBer := modAt s1.tele.histBer (8 * laneIndex r + berBin bitErrors) fun n => satAdd n 1 } }
  match r with
  | .die .. => s2
  | .port n _ => s2.modPort n fun p =>
    { p with fecCorrected := satAdd p.fecCorrected bitErrors, fecUncorrectable := satAdd p.fecUncorrectable codewords }

/-- LANE_THRESHOLD_CROSSING (R29): the sliding 1 s window of one lane, permanent before transient. -/
def execLaneThresholdCrossing (lane : LaneRef) (bitErrors codewords : Nat) (s : State) :
    Host.Outcome State Fault Refusal :=
  if laneExists lane then
    if s.watched lane then
      let p := s.flash.policy
      let s1 := (s.countFec lane bitErrors codewords).newCascade
      if berAbove p.lanePermanentBer bitErrors then
        .next ((s1.handleLane lane .permanent .permanentRate).inCascade none)
      else if p.laneUncorrectable < codewords then
        .next ((s1.handleLane lane .permanent .uncorrectable).inCascade none)
      else if berAbove p.laneTransientBer bitErrors then
        .next ((s1.handleLane lane .transient .transient).inCascade none)
      else .next (s1.inCascade none)
    else .next s
  else .fault .noSuchUnit

/-- LANE_LOSS_OF_SIGNAL (R30): a failed retrain. -/
def execLaneLossOfSignal (lane : LaneRef) (s : State) : Host.Outcome State Fault Refusal :=
  if laneExists lane then
    if s.watched lane then
      .next ((s.newCascade.handleLane lane .retrainFailed .lossOfSignal).inCascade none)
    else .next s
  else .fault .noSuchUnit

/-- QUIESCE_POINT (R31, R35): every change that waits takes effect. -/
def execQuiescePoint (link : LaneRef) (s : State) : Host.Outcome State Fault Refusal :=
  if laneExists link then
    if s.watched link then .next (s.quiesceGroup link) else .next s
  else .fault .noSuchUnit

/-- LANE_RETRAIN_COMPLETE (R33): the lane stays ACTIVE, or its retrain has failed. -/
def execLaneRetrainComplete (lane : LaneRef) (passed : Bool) (s : State) : Host.Outcome State Fault Refusal :=
  if laneExists lane then
    if (s.lane lane).retraining then
      let s1 := s.modLane lane fun l => { l with retraining := false }
      if passed then .next s1
      else .next ((s1.newCascade.handleLane lane .retrainFailed .retrain).inCascade none)
    else .next s
  else .fault .noSuchUnit

/-- BACKGROUND_RETRAIN (R33): a SUSPECT lane passes and becomes SPARE, or fails again. -/
def execBackgroundRetrain (lane : LaneRef) (passed : Bool) (s : State) : Host.Outcome State Fault Refusal :=
  if laneExists lane then
    match (s.lane lane).state, (s.lane lane).backgroundDue with
    | .suspect, some due =>
      let s0 := s.advanceTo due
      let s1 := s0.modLane lane fun l => { l with backgroundDue := none, retrains := l.retrains + 1 }
      if passed then
        .next ((s1.modLane lane (Lane.enter s1.now .spare)).logAppend (laneUnit lane) .cleared)
      else .next ((s1.newCascade.handleLane lane .retrainFailed .retrain).inCascade none)
    | _, _ => .next s
  else .fault .noSuchUnit

/-- Active time of a lane up to now. -/
def Lane.activeTime (now : Nat) (l : Lane) : Nat :=
  l.activeNs + (match l.activeSince with | some t => now - t | none => 0)

/-- The lane of a list for which a measure is best, the lowest number first. -/
def bestLane (better : Nat → Nat → Bool) (f : Nat → Nat) : List Nat → Option Nat
  | [] => none
  | l :: ls => some (ls.foldl (fun b x => if better (f x) (f b) then x else b) l)

/-- SPARE_LANE_ROTATION (R747): at most once in 24 h, in READY or MAINTENANCE, deferred while an event
is pending on the link. The swap waits for the quiesce point. -/
def execSpareLaneRotation (link : Nat) (s : State) : Host.Outcome State Fault Refusal :=
  if link < 3 then
    let x := s.link link
    let s0 := match x.lastRotation with
      | some t => s.advanceTo (t + 24 * hourNs)
      | none => s
    if !(s.dev == .ready || s.dev == .maintenance) || x.state == .failed then .next s
    else if !x.pending.isEmpty || x.lanes.any (·.retraining) then
      .next { s with tele := { s.tele with rotationsDeferred := satAdd s.tele.rotationsDeferred 1 } }
    else
      let time := fun i => (x.lanes.getD i {}).activeTime s0.now
      match bestLane (fun a b => decide (b < a)) time (lanesIn x.lanes .active),
        bestLane (fun a b => decide (a < b)) time (lanesIn x.lanes .spare) with
      | some out, some inn =>
        .next ((s0.modLink link fun l => { l with lastRotation := some s0.now }).addPending (.die link 0) (.rotate out inn))
      | _, _ => .next s
  else .fault .noSuchUnit

end Sys2Proof.Machine
end

