-- ==== Sys2Proof/Machine/Records.lean ====
section
/-! DEFINITION. The records that Lamplighter forms: the state record of R634, event records (R664) and
telemetry records (R750 to R752), as bytes. -/

namespace Sys2Proof.Machine

/-! ### The state record -/

/-- COMMITTED_STEP; 0 without a commit area. -/
def State.committedStep (s : State) : Nat := s.commit.scalars.committedStep.toNat

/-- The record that counts, when it is PREPARED. -/
def State.prepared (s : State) : Option CommitRecord := s.commit.top.filter fun r => r.kind == .prepared

/-- A step is in doubt (R404). -/
def State.inDoubt (s : State) : Bool := s.prepared.isSome

/-- The last COMMITTED record is that of an UPDATE which is not yet flipped to (R405). -/
def State.flipPending (s : State) : Bool :=
  (s.commit.last.map fun r => r.outcome == .update && r.step != s.commit.epochStep).getD false

/-- FLAGS of the state record. -/
def State.stateFlags (s : State) : Nat :=
  maskOf 8 fun i =>
    match i with
    | 0 => s.host.detached
    | 1 => s.program.isSome
    | 2 => s.session.isSome
    | 3 => s.inDoubt
    | 4 => s.flipPending
    | 5 => !s.exports.isEmpty
    | 6 => s.sweep.diverged
    | _ => s.flash.ownerDigest.isSome

/-- All ones of 64 bits when there is no step running. -/
def State.currentStep (s : State) : Nat := (s.run.map (·.k)).getD ones64

/-- The 64-byte state record (R634). Before Lamplighter runs, in BOOTING, what is not yet known is
zero already. -/
def State.stateRecord (s : State) : List Byte :=
  leBytes 1 (DevState.code s.dev) ++ leBytes 1 s.stateFlags ++ leBytes 1 s.sweep.steerMode ++
  leBytes 1 s.commit.scalars.lossExp ++ leBytes 1 (s.availTiles 0) ++ leBytes 1 (s.availTiles 1) ++
  leBytes 1 s.stacksMask ++ leBytes 1 s.diesMask ++
  leBytes 8 ((s.program.map (·.programId)).getD 0) ++ leBytes 8 s.committedStep ++
  leBytes 8 s.currentStep ++ leBytes 8 ((s.session.map (·.jobId)).getD 0) ++
  leBytes 2 s.rank ++ leBytes 2 s.commit.scalars.nextMb ++ leBytes 1 s.bundle.running.code ++
  leBytes 1 (bool01 (s.bundle.running == .r)) ++ leBytes 1 s.lamp.maintReason.code ++ leBytes 1 0 ++
  leBytes 8 s.events.lastSeq ++ leBytes 2 s.lamp.faultReason.code ++ zeros 6

/-! ### Event records -/

/-- The 64 bytes of an event record (R664). -/
def EventRecord.bytes (r : EventRecord) : List Byte :=
  leBytes 8 r.seq ++ leBytes 8 r.bootNs ++ leBytes 4 r.bootCount ++ leBytes 2 r.code.code ++
  leBytes 1 r.code.severity.code ++
  leBytes 1 (bool01 r.headline + 2 * bool01 r.acknowledged + 4 * bool01 r.inFlash) ++
  leBytes 8 r.rootSeq ++ leBytes 8 (r.step.getD ones64) ++ unitBytes r.unit ++ r.capacity ++
  leBytes 2 (Status.code r.status) ++ leBytes 1 r.threshold.code ++ leBytes 1 0 ++ leBytes 4 r.value

/-! ### Temperatures and tables for telemetry -/

/-- Hottest governing temperature of a stack (R448): layers −1 to 14 govern. -/
def Stack.hottest (k : Stack) : Int :=
  (k.layerTemp.take 16).foldl (fun a t => if a < t then t else a) (k.layerTemp.headD 0)

/-- Wear in permille of 100,000 erases (R748). -/
def State.wear (s : State) : Nat := (s.flash.erases.foldl max 0) / 100

/-- STANDBY die-to-die sources (R759). -/
def State.laserSpares (s : State) : Nat :=
  ((s.lasers.take 4).filter fun l => l.state == .standby).length

/-- Saturation to `n` bytes. -/
def satTo (n v : Nat) : Nat := min v (256 ^ n - 1)

/-- Two's complement bytes of a signed value. -/
def leInt (n : Nat) (v : Int) : List Byte := leBytes n (twos (8 * n) v)

/-- The sums that records report as differences. -/
def State.teleSums (s : State) : TeleSums :=
  { stall := (List.range 8).map fun k =>
      (s.tiles.map fun t => (t.contexts.map fun c => c.stalls.getD k 0).sum).sum
    arrayCycles := (s.tiles.map (·.arrayCycles)).sum
    skippedCycles := (s.tiles.map (·.skippedCycles)).sum
    stackBytes := s.hbm.map fun k => (k.channels.map (·.bytes)).sum
    bsuBytes := s.hbm.map fun k => (k.bsus.map (·.internalBytes)).sum
    linkBytes := s.links.map (·.bytes)
    portBytes := s.ports.map (·.bytes)
    eccCorrected := (s.hbm.map fun k => k.corrected + (k.bsus.map (·.sramCorrected)).sum).sum +
      (s.tiles.map (·.tmCorrected)).sum + s.sharedCorrected
    fecCorrected := (s.links.map fun k => (k.lanes.map (·.fecCorrected)).sum).sum + (s.ports.map (·.fecCorrected)).sum
    flickers := (s.tiles.map fun t => t.flickerBoot.sum).sum
    transients := (s.hbm.map (·.transient)).sum + (s.links.map fun k => (k.lanes.map (·.retrains)).sum).sum +
      (s.ports.map fun p => (p.lanes.map (·.retrains)).sum).sum
    hostDmaBytes := s.host.dmaBytesToDevice + s.host.dmaBytesToHost }

def diffs (a b : List Nat) : List Nat := a.mapIdx fun i x => x - b.getD i 0

/-! ### Detail pages (R751, R752) -/

def pageKind (i : Nat) : Nat := if i < 15 then 0 else if i = 15 then 1 else if i < 24 then 2 else if i < 26 then 3 else 4

/-- Rings in order of link, lane, role: their RING_ID and state. -/
def State.rings (s : State) : List (Nat × Ring) :=
  (s.links.zipIdx).flatMap fun k => (k.1.lanes.zipIdx).flatMap fun l => (l.1.rings.zipIdx).map fun r =>
    (k.2 * 2 ^ 14 + l.2 * 2 ^ 8 + r.2, r.1)

def tuningCode : Tuning → Nat
  | .locked => 0 | .seeking => 1 | .rangeLimit => 2 | .off => 3

def ringEntry (e : Nat × Ring) : List Byte :=
  leBytes 2 e.1 ++ leBytes 2 e.2.heater.toNat ++ leBytes 2 e.2.detune.toNat ++ leBytes 1 (tuningCode e.2.tuning) ++ leBytes 1 0

/-- Its entry when a die at an end of its link is out of service: the fields read zero (R751). -/
def State.ringBytes (s : State) (e : Nat × Ring) : List Byte :=
  let ends := linkEnds (e.1 / 2 ^ 14)
  if (ends.1 < 2 && !s.dieInService ends.1) || (ends.2 < 2 && !s.dieInService ends.2) then leBytes 2 e.1 ++ zeros 6 else ringEntry e

def State.ringsPage (s : State) (i : Nat) : List Byte :=
  let es := (s.rings.drop (31 * i)).take 31
  leBytes 1 es.length ++ zeros 3 ++ es.flatMap s.ringBytes

def laserEntry (l : Laser) (n : Nat) : List Byte :=
  leBytes 1 n ++ leBytes 1 l.state.code ++ leBytes 2 l.drive ++ leBytes 2 l.output ++ leBytes 2 l.temp.toNat ++
    leBytes 4 (l.onSeconds / 3600)

def State.lasersPage (s : State) : List Byte :=
  zeros 4 ++ (s.lasers.zipIdx).flatMap fun e => laserEntry e.1 e.2

def State.stackPage (s : State) (st : Nat) : List Byte :=
  if s.stackInService st then
    let k := s.stack st
    let p := s.tele.prevStacks.getD st []
    let chan := (List.range 32).flatMap fun c =>
      let q := s.tele.prevChannels.getD (32 * st + c) (0, 0)
      leBytes 2 (satTo 2 (((k.channels.getD c {}).bytes - q.1) * 1000 / 96000000)) ++
      leBytes 2 (satTo 2 (((k.bsus.getD c {}).internalBytes - q.2) * 1000 / 192000000))
    leBytes 1 st ++ leBytes 1 k.stage.code ++ leBytes 1 k.maxDebt ++ leBytes 1 0 ++
    k.layerTemp.flatMap (leInt 2) ++ zeros 2 ++ chan ++
    leBytes 2 (satTo 2 (k.refreshForced - p.getD 0 0)) ++ leBytes 2 (satTo 2 (k.rfmIssued - p.getD 1 0)) ++
    leBytes 4 (satTo 4 (k.narrowSectors - p.getD 2 0)) ++ leBytes 4 (satTo 4 (k.corrected - p.getD 3 0))
  else leBytes 1 st

/-- Stall sums of a tile over its contexts, by cause. -/
def Tile.stallSums (t : Tile) : List Nat := (List.range 8).map fun k => (t.contexts.map fun c => c.stalls.getD k 0).sum

/-- The cause with the most cycles, or 0xFF when none has any. -/
def topStall (l : List Nat) : Nat :=
  let m := l.foldl max 0
  if m = 0 then 0xFF else l.idxOf m

def State.tilesPage (s : State) (d : Nat) : List Byte :=
  if s.dieInService d then
    leBytes 1 d ++ zeros 3 ++ (List.range 50).flatMap fun p =>
      let t := s.tile d p
      let q := s.tele.prevTiles.getD (tileIx d p) []
      leBytes 2 (satTo 2 ((t.arrayCycles - q.getD 0 0) * 1000 / 1500000)) ++
      leBytes 1 (t.state.code + 4 * bool01 t.lit) ++ leBytes 1 (topStall (diffs t.stallSums (q.drop 1)))
  else leBytes 1 d

def State.miscPage (s : State) : List Byte :=
  leBytes 4 (s.flash.erases.foldl max 0) ++ leBytes 4 (s.flash.erases.sum / 256) ++ leBytes 2 s.flash.spareBlocks ++
  leBytes 2 s.flash.retiredBlocks ++ leBytes 2 s.wear ++ zeros 2 ++
  leBytes 8 s.committedStep ++ leBytes 8 s.sweep.noiseA.toNat ++ leBytes 8 s.sweep.noiseG2.toNat ++
  leBytes 8 s.sweep.noiseB.toNat ++ leBytes 8 s.commit.scalars.noiseEma.toNat ++ leBytes 2 s.commit.scalars.nextMb ++
  leBytes 1 s.sweep.steerMode ++ leBytes 1 s.commit.scalars.lossExp ++ zeros 4 ++
  leBytes 8 s.commit.scalars.updates ++ leBytes 8 s.commit.scalars.skips

def State.page (s : State) (i : Nat) : List Byte :=
  if i < 15 then s.ringsPage i
  else if i = 15 then s.lasersPage
  else if i < 24 then s.stackPage (i - 16)
  else if i < 26 then s.tilesPage (i - 24)
  else s.miscPage

/-! ### The telemetry record (R750) -/

/-- A stack's field reads zero when it is out of service. -/
def State.perStack (s : State) (f : Stack → Nat) : List Nat :=
  (List.range 8).map fun st => if s.stackInService st then f (s.stack st) else 0

def State.telemetryBody (s : State) (seq boot meanPower : Nat) : List Byte :=
  let c := s.teleSums
  let p := s.tele.prev
  let dif := fun (a b w : Nat) => leBytes w (satTo w (a - b))
  let flags := maskOf 4 fun i => match i with
    | 0 => s.tele.stepEnded
    | 1 => s.tele.eventSeen
    | 2 => s.tele.partialInterval
    | _ => s.laserSpares == 0 || decide (900 ≤ s.wear)
  let pack := fun (l : List Nat) => (l.zipIdx.map fun e => e.1 * 4 ^ e.2).sum
  leBytes 8 seq ++ leBytes 8 boot ++ leBytes 8 s.currentStep ++ leBytes 1 (DevState.code s.dev) ++ leBytes 1 s.pilot.level ++
  leBytes 1 (pageKind (seq % 27)) ++ leBytes 1 (seq % 27) ++ leBytes 1 flags ++ zeros 3 ++
  leBytes 4 meanPower ++ leInt 2 s.pilot.dieTempMax ++ zeros 2 ++
  (List.range 8).flatMap (fun st => leInt 2 (if s.stackInService st then (s.stack st).hottest else 0)) ++
  leBytes 2 (pack (s.perStack (·.stage.code))) ++
  leBytes 1 (maskOf 8 fun st => s.stackInService st && (s.stack st).hotRefresh) ++ leBytes 1 s.stacksMask ++
  leBytes 1 (s.availTiles 0) ++ leBytes 1 (s.availTiles 1) ++ leBytes 1 s.portsMask ++ zeros 1 ++
  [0, 1, 2].flatMap (fun k => leBytes 1 (s.linkWidthIn k)) ++ leBytes 2 (pack (s.perStack (·.dutyCap.code))) ++ zeros 3 ++
  (diffs c.stall p.stall).flatMap (fun v => leBytes 4 (satTo 4 v)) ++
  dif c.arrayCycles p.arrayCycles 4 ++ dif c.skippedCycles p.skippedCycles 4 ++
  (diffs c.stackBytes p.stackBytes).flatMap (fun v => leBytes 4 (satTo 4 v)) ++
  (diffs c.bsuBytes p.bsuBytes).flatMap (fun v => leBytes 4 (satTo 4 (v / 256))) ++
  (diffs c.linkBytes p.linkBytes).flatMap (fun v => leBytes 4 (satTo 4 (v / 256))) ++ zeros 4 ++
  (diffs c.portBytes p.portBytes).flatMap (fun v => leBytes 4 (satTo 4 (v / 256))) ++
  dif c.eccCorrected p.eccCorrected 4 ++ dif c.fecCorrected p.fecCorrected 4 ++ dif c.flickers p.flickers 2 ++
  dif c.transients p.transients 2 ++ leBytes 4 (satTo 4 ((c.hostDmaBytes - p.hostDmaBytes) / 256)) ++
  leBytes 4 s.events.lastSeq ++ leBytes 4 s.flash.bootCount ++ leBytes 4 s.tele.series ++ zeros 4 ++
  sliceZ (s.page (seq % 27)) 0 252

/-- The 512 bytes of a record, CHECK included. -/
def State.telemetryRecord (s : State) (seq boot meanPower : Nat) : List Byte :=
  let b := s.telemetryBody seq boot meanPower
  b ++ leBytes 4 (crc32c b).toNat

end Sys2Proof.Machine
end

