-- ==== Sys2Proof/Machine/Faults.lean ====
section
/-! DEFINITION. Rows of 16 and 15 on faults: FAULTED, flash appends, retirements reached by threshold
(R605, R606, R641 to R646, R671). -/

namespace Sys2Proof.Machine

/-! ### FAULTED -/

/-- Every command in progress ends without a response (R605). -/
def Mailbox.drop (m : Mailbox) : Mailbox := { m with state := .free, held := none }

/-- The running step is gone: no RUN_STEP response will be written. -/
def State.dropStep (s : State) : State := { s with run := none, stopped := true }

/-- Unloads the program: no tile is mapped and no font is planned (R332, R625). -/
def State.unloadProgram (s : State) : State :=
  { s with
    program := none
    fonts := [{}, {}]
    tiles := s.tiles.map fun t => { t with logicalId := none } }

/-- Minimum service at the end of the step that entering FAULTED has ended (R650). -/
def State.serviceAfter (s : State) (r : Option RunStep) : State :=
  match r with
  | some x => (s.inCascade x.serviceRoot).applyService
  | none => s

/-- Enters FAULTED: the step aborts with INTERNAL, commands end without a response, the program is
unloaded, and the event is raised (R605, R625, R646). -/
def State.enterFaulted (s : State) (reason : FaultReason) (code : EventCode) : State :=
  let s0 := s.newCascade.abortStep { status := .internal, kind := 9 }
  let s1 := s0.dropStep
  let s2 : State :=
    { s1.unloadProgram with
      dev := .faulted
      pilot := { s1.pilot with faultedSince := true, boot := none }
      lamp := { s1.lamp with
        faultReason := reason, maintReason := .none, drain := none, linkDrain := false, helloWait := none
        mailboxes := s1.lamp.mailboxes.map Mailbox.drop } }
  ((s2.raise { code := code, unit := deviceUnit, value := reason.code }).serviceAfter s0.run).inCascade none

/-- Lamplighter restarts (R605): a new telemetry series begins (R749). -/
def State.lampRestart (s : State) (cause : RestartCause) : State :=
  let reason := match cause with
    | .lockstep => FaultReason.lockstep
    | .watchdog => .watchdog
    | .sramUncorrectable => .sramUncorrectable
  let t : State := { s with
    lamp := { s.lamp with restarts := satAdd s.lamp.restarts 1 }
    tele := { s.tele with
      series := s.tele.series + 1, nextSeq := 0, ring := [], cursor := 0, threshold := 1536, signalled := false
      partialInterval := true, lastSample := s.now }
    i3c := { s.i3c with cursor := 0, signalled := false } }
  t.enterFaulted reason .lamplighterRestart

/-- LAMPLIGHTER_RESTART (R605). -/
def execLamplighterRestart (cause : RestartCause) (s : State) : Host.Outcome State Fault Refusal :=
  if s.dev.lit && !s.lamp.dead then .next (s.lampRestart cause) else .next s

/-- UNCONTAINED (R645): the causes other than a restart. -/
def execUncontained (_cause : UncontainedCause) (s : State) : Host.Outcome State Fault Refusal :=
  if s.dev.lit && !s.lamp.dead then .next (s.enterFaulted .uncontained .uncontained) else .next s

/-! ### Flash appends (R671, R748) -/

def FlashAppend.isLog : FlashAppend → Bool
  | .log _ => true
  | .event _ => false

/-- The append that the flash controller serves next: fault-log entries first (R748). -/
def nextAppend (l : List FlashAppend) : Option FlashAppend :=
  match l.find? FlashAppend.isLog with
  | some a => some a
  | none => l.head?

/-- Sets IN_FLASH of the first log entry equal to one given. -/
def markLogged (e : LogEntry) : List LogEntry → List LogEntry
  | [] => []
  | x :: l => if x = e then { x with inFlash := true } :: l else x :: markLogged e l

def markInFlash (seq : Nat) (r : EventRecord) : EventRecord := if r.seq = seq then { r with inFlash := true } else r

/-- An append has completed. -/
def State.appended (s : State) (a : FlashAppend) : State :=
  let ev := { s.events with appends := s.events.appends.erase a, appendFailures := 0 }
  match a with
  | .log e => { s with events := ev, flash := { s.flash with faultLog := markLogged e s.flash.faultLog } }
  | .event q =>
    { s with
      events := { ev with ring := ev.ring.map (markInFlash q), appendFailures := s.events.appendFailures }
      flash := { s.flash with eventRing := s.flash.eventRing.map (markInFlash q) } }

/-- A fault-log append has failed: the third in a row is UNCONTAINED (R645). -/
def State.logAppendFailed (s : State) : State :=
  let n := s.events.appendFailures + 1
  if n < 3 then { s with events := { s.events with appendFailures := n } }
  else
    ({ s with events := { s.events with appendFailures := 0 } } : State).enterFaulted .uncontained .uncontained

/-- FLASH_APPEND_COMPLETE (R671). -/
def execFlashAppendComplete (ok : Bool) (s : State) : Host.Outcome State Fault Refusal :=
  match nextAppend s.events.appends with
  | none => .next s
  | some a =>
    if ok then .next (s.appended a)
    else if a.isLog && s.dev.lit then .next s.logAppendFailed
    else .next s

/-! ### Retirements by threshold as rows of their own -/

/-- Whether the flicker history of an array reaches a threshold, and which (R112). When it reaches both, FLICKER_24H
is recorded (DESIGN CHOICE, log 94: the rule does not say which). -/
def State.flickerThreshold (s : State) (d p a : Nat) : Option Threshold :=
  let ts := (s.tile d p).flickerTimes.getD a []
  if s.flash.policy.flicker24h < (inWindow s.now (24 * hourNs) ts).length then some .flicker24h
  else if 2 ≤ (inWindow s.now (s.flash.policy.flickerWindowMin * minNs) ts).length then some .flickerWindow
  else none

/-- ARRAY_RETIRED (R112, R113): an array whose flicker history reaches a threshold. -/
def execArrayRetired (d p a : Nat) (s : State) : Host.Outcome State Fault Refusal :=
  if tileExists d p && decide (a < 17) then
    match s.flickerThreshold d p a with
    | some th => .next ((s.newCascade.retireArray d p a th).inCascade none)
    | none => .next s
  else .fault .noSuchUnit

/-- TILE_RETIRED (R114, R641): a tile that has reached a threshold of its memory. -/
def execTileRetired (d p : Nat) (s : State) : Host.Outcome State Fault Refusal :=
  if tileExists d p then
    let t := s.tile d p
    if 2 ≤ (inWindow s.now hourNs t.tmUncorrectableTimes).length then
      .next ((s.newCascade.retireTile d p .uncorrectable).inCascade none)
    else if 1000 < ((inWindowN s.now hourNs t.tmCorrectedTimes).map (·.2)).sum then
      .next ((s.newCascade.retireTile d p .correctedRate).inCascade none)
    else if (t.arrayQueue.head?.map fun o => decide (3 ≤ o.executions) && !o.flickers.isEmpty).getD false then
      .next ((s.newCascade.retireTile d p .replayLimit).inCascade none)
    else .next s
  else .fault .noSuchUnit

/-- SHARED_PAGE_RETIRED (R641): a page with 2 uncorrectable events in 60 min. -/
def execSharedPageRetired (die page : Nat) (s : State) : Host.Outcome State Fault Refusal :=
  if die < 2 ∧ page < 12288 then
    if 2 ≤ (s.sharedTimes.filter fun t => t.2.1 == die && t.2.2 == page && decide (s.now ≤ t.1 + hourNs)).length then
      .next ((s.newCascade.retireSharedPage die page .uncorrectable).inCascade none)
    else .next s
  else .fault .noSuchUnit

/-- BEACON_PAGE_REPLACED (R641, R642). -/
def execBeaconPageReplaced (page : Nat) (s : State) : Host.Outcome State Fault Refusal :=
  if page < 8192 then
    if 2 ≤ (s.beacon.pageTimes.filter fun t => t.2 == page && decide (s.now ≤ t.1 + hourNs)).length then
      let t : State := { s with beacon := { s.beacon with pageTimes := s.beacon.pageTimes.filter fun t => t.2 != page } }
      .next ((t.newCascade.replaceBeaconPage page .uncorrectable).inCascade none)
    else .next s
  else .fault .noSuchUnit

/-- CHANNEL_RETIRED (R454, R455): the channel reaches the threshold named, 1 uncorrectable events, 2
corrected bursts, 3 transient reads, 4 its BSU's SRAM (R641). -/
def execChannelRetired (st ch threshold : Nat) (s : State) : Host.Outcome State Fault Refusal :=
  if st < 8 ∧ ch < 32 then
    let c := s.channel st ch
    let p := s.flash.policy
    let th : Option Threshold := match threshold with
      | 1 => if p.channelUncorrectable ≤ (inWindow s.now hourNs c.uncorrectableTimes).length then some .uncorrectable else none
      | 2 => if p.channelCorrected < ((inWindowN s.now hourNs c.correctedTimes).map (·.2)).sum then some .correctedRate else none
      | 3 => if p.channelTransient < (inWindow s.now hourNs c.transientTimes).length then some .transientRate else none
      | 4 => if 2 ≤ (inWindow s.now hourNs (s.bsu st ch).sramTimes).length then some .uncorrectable else none
      | _ => none
    match th with
    | some t => .next ((s.newCascade.retireChannel st ch t).inCascade none)
    | none => .next s
  else .fault .noSuchUnit

end Sys2Proof.Machine
end

