-- ==== Sys2Proof/Machine/Flags.lean ====
section
/-! DEFINITION. Flags and counts that arithmetic leaves: NF_STATUS, amax cells, SAT_COUNT and
UNDERFLOW_COUNT (R261 to R263, R271 to R280). -/

namespace Sys2Proof.Machine

/-- SOURCE of NF_STATUS (R280). -/
def nfArray : Nat := 1
def nfVector : Nat := 2
def nfConvert : Nat := 3
def nfDerived : Nat := 4

/-- Sets NONFINITE; the first setting of the step is recorded (R280). -/
def NfStatus.set (f : NfStatus) (source seg bundle : Nat) : NfStatus :=
  if f.nonFinite then f else { f with nonFinite := true, source := source, segment := seg, bundle := bundle }

/-- What an operation that ends has to say of its elements. -/
structure Outcome where
  nonFinite : Bool := false
  source : Nat := 0
  amaxNonFinite : Bool := false
  sat : Nat := 0
  underflow : Nat := 0
  deriving DecidableEq, Repr

/-- A context after an operation of a bundle has ended: a derived scale's non-finite amax first, then the
elements (R266, R271, R272). -/
def Context.note (c : Context) (o : Outcome) (seg bundle : Nat) : Context :=
  let f1 := if o.amaxNonFinite then { c.nf.set nfDerived seg bundle with amaxNonFinite := true } else c.nf
  { c with
    nf := if o.nonFinite then f1.set o.source seg bundle else f1
    satCount := satAdd c.satCount o.sat
    underflowCount := satAdd c.underflowCount o.underflow }

/-- Offset of the amax cell of a context (R261). -/
def amaxCell (ctx : Nat) : Nat := 0x1F7FE0 + 4 * ctx

/-- The largest magnitude of R262 as kept in a cell. -/
def amaxWord (a b : BitVec 32) : BitVec 32 := toFp32 (amaxOf (fp32 a) (fp32 b))

/-- Updates the amax cell of a context to max(cell, amax) (R262, R263). -/
def State.noteAmax (s : State) (d p ctx : Nat) (m : Option (BitVec 32)) : State :=
  match m with
  | none => s
  | some x =>
    let old := BitVec.ofNat 32 (leNat (s.tmRead d p (amaxCell ctx) 4))
    s.tmWrite d p (amaxCell ctx) (leBytes 4 (amaxWord old x).toNat)

end Sys2Proof.Machine
end

