-- ==== Sys2Proof/Machine/Access.lean ====
section
/-! DEFINITION. Accesses to memory by any agent: host windows (R579), error protection on a read (R86,
R440, R441, R641), counters, and the reads and writes themselves. -/

namespace Sys2Proof.Machine

/-! ### Host memory (R579) -/

/-- The window that holds a space 0xC address. -/
def State.windowOf (s : State) (a : Nat) : Option Window :=
  s.flash.protection.windows.find? fun w => decide (w.base ≤ a) && decide (a < w.base + w.size)

/-- The host bus address of a byte, when its window grants the right. -/
def State.hostByte (s : State) (write : Bool) (a : Nat) : Option Nat :=
  match s.windowOf a with
  | some w => if (if write then w.write else w.read) then some (w.hostBase + (a - w.base)) else none
  | none => none

/-- Every byte of an access passes its window. -/
def State.hostAllowed (s : State) (write : Bool) (a n : Nat) : Bool :=
  (List.range n).all fun i => (s.hostByte write (a + i)).isSome

/-- `n` bytes of host memory by device address, or none when any byte is denied. -/
def State.hostRead (s : State) (a n : Nat) : Option (List Byte) :=
  if s.hostAllowed false a n then
    some ((List.range n).map fun i => Mem.get s.hostMem ((s.hostByte false (a + i)).getD 0))
  else none

/-- Writes host memory by device address; the caller has checked the windows. -/
def State.hostWrite (s : State) (a : Nat) (bs : List Byte) : State :=
  let put := fun (m : List Host.Cell) (e : Byte × Nat) =>
    match s.hostByte true (a + e.2) with
    | some h => Mem.set m h e.1
    | none => m
  { s with hostMem := (bs.zipIdx).foldl put s.hostMem }

/-! ### Counters of an access -/

/-- The 256-byte pieces of a range, as (address, length): no piece crosses a granule (R207). -/
def granules (a n : Nat) : List (Nat × Nat) :=
  (List.range (n / 256 + 2)).filterMap fun j =>
    let lo := max a (a / 256 * 256 + 256 * j)
    let hi := min (a + n) (a / 256 * 256 + 256 * (j + 1))
    if lo < hi then some (lo, hi - lo) else none

/-- A request takes the narrow-access path: shorter than 256 bytes or not aligned to them (R207). -/
def isNarrow (a n : Nat) : Bool := n % 256 != 0 || a % 256 != 0

/-- 32-byte sectors that a range touches (R436). -/
def sectorsOf (a n : Nat) : Nat := if n = 0 then 0 else (a + n - 1) / 32 - a / 32 + 1

/-- A write covers some sector only in part, and so is a read-modify-write (R436). -/
def partialSectors (a n : Nat) : Nat :=
  bool01 (a % 32 != 0) + bool01 ((a + n) % 32 != 0 && ((a + n) / 32 != a / 32 || a % 32 == 0))

/-- The bank of a pseudo-channel. -/
def State.bank (s : State) (st pch bank : Nat) : Bank := assocGet {} (s.stack st).banks (64 * pch + bank)

/-- A list keyed by a number with one value changed; a value as at reset is not listed. -/
def bankSet (l : List (Nat × Bank)) (k : Nat) (b : Bank) : List (Nat × Bank) :=
  let rest := l.filter fun e => e.1 != k
  if b = {} then rest else rest ++ [(k, b)]

def State.setBank (s : State) (st pch bank : Nat) (b : Bank) : State :=
  s.modStack st fun k => { k with banks := bankSet k.banks (64 * pch + bank) b }

/-- A granule of a row is accessed: a row that is not open is activated (R446). A row stays open until its bank opens
another or is refreshed (DESIGN CHOICE, log 114: the spec gives no row policy). -/
def Bank.opened (row : Nat) (b : Bank) : Bank :=
  if b.row = some row then b else { b with row := some row, activations := b.activations + 1 }

def State.activate (s : State) (a : Nat) : State :=
  match s.pch a with
  | some (q, pla) => s.setBank (daStack a) q (plaBank pla) ((s.bank (daStack a) q (plaBank pla)).opened (plaRow pla))
  | none => s

/-- Counts the external bytes of an access to stacked memory, its activations, its narrow sectors and its
read-modify-writes (R446, R462, R463). -/
def State.countStack (s : State) (write : Bool) (a n : Nat) : State :=
  (granules a n).foldl
    (fun t g =>
      let st := daStack g.1
      let t0 := t.activate g.1
      let t1 := match t0.pch g.1 with
        | some (q, _) => t0.modChannel st (q / 2) fun c => if c.retired then c else { c with bytes := satAdd c.bytes g.2 }
        | none => t0
      if isNarrow g.1 g.2 then
        t1.modStack st fun k =>
          { k with
            narrowSectors := satAdd k.narrowSectors (sectorsOf g.1 g.2)
            rmwWrites := satAdd k.rmwWrites (if write then partialSectors g.1 g.2 else 0) }
      else t1)
    s

/-- An access lights what it reaches (R181, R196, R719): a tile's clock domain, or a shared-buffer quarter. A tile that
the program does not use is lit too (DESIGN CHOICE, log 99). -/
def State.lightFor (s : State) (a : Nat) : State :=
  match daSpace a with
  | 8 =>
    match s.windowTile a with
    | some (d, p) => s.modTile d p fun t =>
      if t.state = .available && !t.lit then { t with lit := true, rampDue := true, activeAt := s.now } else t
    | none => s
  | 9 =>
    let q := 4 * bits a 32 32 + a % 2 ^ 32 / 0xC00000
    { s with sharedLit := modAt s.sharedLit q fun _ => true, sharedAccess := modAt s.sharedAccess q fun _ => s.now }
  | _ => s

/-! ### Error protection -/

/-- A sector of a range is already failing (R441). -/
def State.failing (s : State) (a n : Nat) : Bool :=
  if s.badSectors.isEmpty then false
  else (List.range (sectorsOf a n)).any fun j => s.badSectors.contains (s.phys (a / 32 * 32 + 32 * j))

/-- What befell one unit of an access. -/
def eccAt (ecc : Ecc) (j : Nat) : List EccOutcome := (ecc.filter fun e => e.1 == j).map (·.2)

/-- The channel of a stacked-memory address. -/
def State.channelAt (s : State) (a : Nat) : Nat := ((s.pch a).map fun q => q.1 / 2).getD 0

/-- A sector fails its retry: it is failing from now on (R440, R441). -/
def State.sectorLost (s : State) (a : Nat) : State :=
  let t : State := if s.badSectors.contains (s.phys a) then s else { s with badSectors := s.phys a :: s.badSectors }
  t.channelUncorrectable (daStack a) (s.channelAt a) a

/-- One burst of stacked memory is read (R439, R440); whether it is lost. -/
def State.eccBurst (s : State) (a : Nat) (o : EccOutcome) : State × Bool :=
  match o with
  | .onDie => (s.modStack (daStack a) fun k => { k with onDieCorrected := satAdd k.onDieCorrected 1 }, false)
  | .corrected => (s.channelCorrected (daStack a) (s.channelAt a), false)
  | .retried => (s.channelTransient (daStack a) (s.channelAt a), false)
  | .uncorrectable => (s.sectorLost a, true)

/-- A sector is read under what befell it; a failing one is lost again (R441). -/
def State.eccSector (s : State) (a : Nat) (os : List EccOutcome) : State × Bool :=
  if s.failing a 32 then (s.sectorLost a, true)
  else os.foldl (fun x o => if x.2 then x else x.1.eccBurst a o) (s, false)

/-- Sectors of an access, by number, are read in order up to the first that is lost. -/
def State.eccSectors (s : State) (a : Nat) (js : List Nat) (ecc : Ecc) : State × Bool :=
  if ecc.isEmpty && s.badSectors.isEmpty then (s, false)
  else js.foldl (fun x j => if x.2 then x else x.1.eccSector (a / 32 * 32 + 32 * j) (eccAt ecc j)) (s, false)

/-- One word of an SRAM is read (R86, R641). -/
def State.eccWord (s : State) (a : Nat) (o : EccOutcome) : State × Bool :=
  match daSpace a, o with
  | _, .onDie | _, .retried => (s, false)
  | 8, .corrected =>
    match s.windowTile a with
    | some (d, p) => (s.tmCorrectedWord d p, false)
    | none => (s, false)
  | 8, .uncorrectable =>
    match s.windowTile a with
    | some (d, p) => (s.tmFailedRead d p, true)
    | none => (s, false)
  | 9, .corrected => ({ s with sharedCorrected := s.sharedCorrected + 1 }, false)
  | 9, .uncorrectable => (s.sharedPageEvent (bits a 32 32) (a % 2 ^ 32 / 4096), true)
  | _, .corrected => (s, false)
  | _, .uncorrectable => (s.beaconPageEvent ((a - beaconBase) / 4096), true)

/-- Notes how a read of memory came out, and answers whether it failed (R86, R440, R641). -/
def State.eccRead (s : State) (a n : Nat) (ecc : Ecc) : State × Bool :=
  if daSpace a = 0 then s.eccSectors a (List.range (sectorsOf a n)) ecc
  else
    ecc.foldl (fun x e =>
      let w := a / 4 * 4 + 4 * e.1
      if x.2 || decide (a + n ≤ w) then x else x.1.eccWord w e.2) (s, false)

/-! ### How an access ends -/

/-- Why an access moves no byte, or its read failed. -/
inductive Denial where
  | unassigned | protection | retired | halted | memory | hostLost
  deriving DecidableEq, Repr

/-- The reason that a stream's cause word carries (R228). -/
def Denial.reason : Denial → Nat
  | .unassigned => 0x8002
  | .protection => 0x8006
  | .retired => Status.unitRetired.code
  | .halted => Status.thermalHalt.code
  | .memory => Status.memoryError.code
  | .hostLost => Status.hostLinkLost.code

/-- The check that every access of an agent class meets, in order: the region table where the class is
checked (`right` is the bit of RIGHTS), the window of host memory, and whether the bytes can be reached. -/
def State.checkAccess (s : State) (right : Option Nat) (write : Bool) (a n : Nat) : Option Denial :=
  if daSpace a = 0xC then
    if s.host.detached ∨ s.host.speed = 0 then some .hostLost
    else
      match right.map fun b => s.regionCheck b a n with
      | some .denied => some .protection
      | some .lost => some .retired
      | some .allowed | none => if s.hostAllowed write a n then none else some .protection
  else
    match s.reach a n with
    | .unassigned => some .unassigned
    | r =>
      match right.map fun b => s.regionCheck b a n with
      | some .denied => some .protection
      | some .lost => some .retired
      | some .allowed | none =>
        match r with
        | .retired => some .retired
        | .halted => some .halted
        | .ok | .unassigned => none

/-- The same for an access from the IOD (R45): a CD–IOD link that has failed in a step has taken its side out, as
the die's leaving service will (DEDUCED from R37, R38). -/
def State.checkIod (s : State) (right : Option Nat) (write : Bool) (a n : Nat) : Option Denial :=
  match s.checkAccess right write a n with
  | some e => some e
  | none => if s.iodCut a n then some .retired else none

/-- Counts a denial by the region table or a window (R712). -/
def State.countDenial (s : State) (d : Denial) : State :=
  if d = .protection then
    { s with bundle := { s.bundle with protectionDenials := satAdd s.bundle.protectionDenials 1 } }
  else s

/-- Reads that have passed the check: counters, lighting, error protection, then the bytes. -/
def State.serveRead (s : State) (a n : Nat) (ecc : Ecc) : State × Except Denial (List Byte) :=
  if daSpace a = 0xC then
    match s.hostRead a n with
    | some b => (s, .ok b)
    | none => (s, .error .protection)
  else
    let s1 := s.lightFor a
    let s2 := if daSpace a = 0 then s1.countStack false a n else s1
    let (s3, failed) := s2.eccRead a n ecc
    if failed then (s3, .error .memory) else (s3, .ok (s.readDev a n))

/-- A read and a write of the IOD, with the bytes that their link carries. -/
def State.readIod (s : State) (a n : Nat) (ecc : Ecc) : State × Except Denial (List Byte) := (s.countIod a n).serveRead a n ecc

/-- The sectors, by number, that a write covers only in part and so must read (R436). -/
def rmwSectors (a n : Nat) : List Nat :=
  (List.range (sectorsOf a n)).filter fun j =>
    decide (a / 32 * 32 + 32 * j < a) || decide (a + n < a / 32 * 32 + 32 * j + 32)

/-- The reads of a write's read-modify-writes; whether one is lost, which leaves its sector as it is (R441). -/
def State.rmwReads (s : State) (a n : Nat) (ecc : Ecc) : State × Bool :=
  if daSpace a = 0 then s.eccSectors a (rmwSectors a n) ecc else (s, false)

/-- Writes that have passed the check, under what befalls the sectors that they must read. -/
def State.serveWrite (s : State) (a : Nat) (bs : List Byte) (ecc : Ecc := []) : State × Option Denial :=
  if daSpace a = 0xC then (s.hostWrite a bs, none)
  else
    match s.rmwReads a bs.length ecc with
    | (t, true) => (t, some .memory)
    | (t, false) =>
      let s1 := t.lightFor a
      let s2 := if daSpace a = 0 then s1.countStack true a bs.length else s1
      (s2.writeDev a bs, none)

end Sys2Proof.Machine
end

