-- ==== Sys2Proof/Machine/Reserve.lean ====
section
/-! DEFINITION. The system reserves (R146, R395, R427): where the commit area and the program areas lie, and the
program copies as the bytes that they are. -/

namespace Sys2Proof.Machine

/-! ### The commit area's places (R395) -/

/-- The lowest-numbered channel in service of a stack. -/
def Stack.firstChannel (k : Stack) : Nat := (k.channels.findIdx? fun c => !c.retired).getD 0

def State.healthyOn (s : State) (d : Nat) : List Nat := (List.range 8).filter fun st => stackDie st == d && s.stackInService st

/-- The two places of the commit area: of the lowest healthy stack of each die, or of the two lowest of the
one die in service. -/
def State.commitPlaces (s : State) : List (Nat × Nat) :=
  let n := if s.dieInService 0 && s.dieInService 1 then 1 else 2
  ([0, 1].flatMap fun d => if s.dieInService d then (s.healthyOn d).take n else []).map fun st => (st, (s.stack st).firstChannel)

def commitBytes : Nat := 0x10000

/-- The device address of a byte of a channel's reserve. -/
def State.reserveAddr (s : State) (st ch k : Nat) : Nat := cloAddr s.ileave st ch k

/-! ### The program copy of a die (R146) -/

/-- A part of a copy: the section, and the offset and length within it. -/
abbrev CopyPart := Nat × Nat × Nat

/-- What the tiles of a die use, shared parts once: segment entries, code, descriptors. The order within the copy is
the model's (DESIGN CHOICE, log 110). -/
def Program.copyParts (g : Program) (die : Nat) : List CopyPart :=
  let es := g.tileEntries.filter fun e => e.die == die
  let segs := (es.flatMap fun e => (List.range e.segments).map fun n => e.firstSegment + n).eraseDups
  let code := fun (i : Nat) =>
    let x := segEntryOf (g.entry secSegments 16 i)
    (secCode, x.codeOffset, 32 * x.bundles)
  let descs := (es.flatMap fun e => (List.range e.descs).map fun n => e.firstDesc + n).eraseDups
  (segs.map fun i => (secSegments, 16 * i, 16)) ++ (segs.map code).eraseDups ++ descs.map fun i => (secDescriptors, 32 * i, 32)

def Program.copyBytes (g : Program) (die : Nat) : Nat := ((g.copyParts die).map (·.2.2)).sum

/-- The bytes of the copy. -/
def Program.copyImage (g : Program) (die : Nat) : List Byte :=
  (g.copyParts die).flatMap fun x => slice (g.sec x.1) x.2.1 x.2.2

/-- Where a part lies in the copy. -/
def Program.partOffset (g : Program) (die : Nat) (x : CopyPart) : Nat :=
  (((g.copyParts die).takeWhile fun y => y != x).map (·.2.2)).sum

/-- Bytes of a die's program area. -/
def State.copyRoom (s : State) (die : Nat) : Nat :=
  let channels := ((s.healthyOn die).map fun st => (s.stack st).channelsIn).sum
  reserveBytes * channels - commitBytes * (s.commitPlaces.filter fun c => stackDie c.1 == die).length

/-- The channels of a die that its copy fills, in ascending stack and then ascending channel, each with the byte of
its reserve at which the copy begins there, after any commit area. -/
def State.copyPlaces (s : State) (g : Program) (die : Nat) : List (Nat × Nat × Nat) :=
  if g.tilesOn die = 0 then []
  else
    let all := (s.healthyOn die).flatMap fun st =>
      ((List.range 32).filter fun ch => !(s.channel st ch).retired).map fun ch =>
        (st, ch, if s.commitPlaces.contains (st, ch) then commitBytes else 0)
    let commits := (s.commitPlaces.filter fun c => stackDie c.1 == die).length
    all.take (ceilDiv (g.copyBytes die + commitBytes * commits) reserveBytes)

def State.copiesFit (s : State) (g : Program) : Bool :=
  [0, 1].all fun d => g.tilesOn d == 0 || decide (g.copyBytes d ≤ s.copyRoom d)

/-- The address of byte `k` of an area that lies in some channels' reserves. -/
def State.areaAddr (s : State) : List (Nat × Nat × Nat) → Nat → Nat
  | [], k => k
  | (st, ch, first) :: l, k =>
    if k < reserveBytes - first then s.reserveAddr st ch (first + k) else s.areaAddr l (k - (reserveBytes - first))

/-- The address of byte `k` of a die's program copy. -/
def State.programAddr (s : State) (die k : Nat) : Nat := s.areaAddr (s.copyChannels.filter fun c => stackDie c.1 == die) k

/-- Pieces of a die's program copy, granule by granule. -/
def State.copyPieces (s : State) (die : Nat) : Nat → Nat → Nat → List (Nat × Nat)
  | 0, _, _ => []
  | f + 1, k, n =>
    if n = 0 then []
    else
      let a := s.programAddr die k
      let m := min n (256 - a % 256)
      (a, m) :: s.copyPieces die f (k + m) (n - m)

/-- Lamplighter writes the copy of a die. -/
def State.writeCopy (s : State) (g : Program) (die : Nat) : State :=
  let b := g.copyImage die
  (s.copyPieces die (b.length / 256 + 2) 0 b.length).foldl
    (fun (x : State × List Byte) p => ((x.1.countStack true p.1 p.2).writeDev p.1 (x.2.take p.2), x.2.drop p.2)) (s, b) |>.1

/-- Both copies. -/
def State.writeCopies (s : State) (g : Program) : State :=
  let t : State := { s with copyChannels := s.copyPlaces g 0 ++ s.copyPlaces g 1 }
  (t.writeCopy g 0).writeCopy g 1

end Sys2Proof.Machine
end

