-- ==== Sys2Proof/Machine/Plan.lean ====
section
/-! DEFINITION. The tables that a program carries beside its code: the update plan with its state header,
parameter records and G4E records (R296, R345, R347, R379, R381), and the font plan (R315, R316). -/

namespace Sys2Proof.Machine

/-! ### UPDATE_PLAN -/

/-- The state header (R345). -/
structure StateHeader where
  shardGroup : Nat
  replicas : Nat
  gradMode : Nat
  momentKind : Nat
  momentFormat : Nat
  initLossExp : Nat
  split : Nat
  stackMask : Nat
  regionCd0 : Nat
  regionCd1 : Nat
  vectorElements : Nat
  shardElements : Nat
  recordCount : Nat
  bankOffset : Nat
  reservedZero : Bool
  deriving DecidableEq, Repr

def stateHeaderOf (b : List Byte) : StateHeader :=
  { shardGroup := field b 0 2, replicas := field b 2 2, gradMode := field b 4 1, momentKind := field b 5 1
    momentFormat := field b 6 1, initLossExp := field b 7 1, split := field b 8 1, stackMask := field b 9 1
    regionCd0 := field b 0xA 2, regionCd1 := field b 0xC 2, vectorElements := field b 0x10 8
    shardElements := field b 0x18 8, recordCount := field b 0x20 4, bankOffset := field b 0x28 8
    reservedZero := field b 0xE 2 == 0 && field b 0x24 4 == 0 && allZero (slice b 0x30 16) }

/-- The plan header (R379). -/
structure PlanHeader where
  g4eCount : Nat
  deltaSink : Nat
  growthInterval : Nat
  digestInterval : Nat
  beta1 : BitVec 32
  beta2 : BitVec 32
  eps : BitVec 32
  epsFactor : BitVec 32
  g4eLr : BitVec 32
  g4eScaleLr : BitVec 32
  g4eClip : BitVec 32
  steerGain : BitVec 32
  permittedMb : List Nat
  steerInterval : Nat
  deltaTarget : Nat
  state : StateHeader
  reservedZero : Bool
  deriving DecidableEq, Repr

def planHeaderOf (b : List Byte) : PlanHeader :=
  let w := fun o => BitVec.ofNat 32 (field b o 4)
  { g4eCount := field b 0 2, deltaSink := field b 2 1, growthInterval := field b 4 2, digestInterval := field b 6 2
    beta1 := w 0x08, beta2 := w 0x0C, eps := w 0x10, epsFactor := w 0x14, g4eLr := w 0x18, g4eScaleLr := w 0x1C
    g4eClip := w 0x20, steerGain := w 0x24, permittedMb := (List.range 8).map fun i => field b (0x28 + 2 * i) 2
    steerInterval := field b 0x38 2, deltaTarget := field b 0x3A 2, state := stateHeaderOf (slice b 0x40 64)
    reservedZero := field b 3 1 == 0 && field b 0x3C 4 == 0 }

def Program.plan (p : Program) : Option PlanHeader := (p.section? secUpdatePlan).map planHeaderOf

/-- A parameter record (R347) with its optimiser fields (R381). -/
structure ParamRecord where
  param : Nat
  placed : Bool
  placement : Nat
  elements : Nat
  flatOffset : Nat
  master : Nat
  moment : Nat
  grad : Nat
  factor : Nat
  rule : Nat
  flags : Nat
  lr : BitVec 32
  decay : BitVec 32
  clip : BitVec 32
  reservedZero : Bool
  deriving DecidableEq, Repr

def paramRecordOf (b : List Byte) : ParamRecord :=
  { param := field b 0 4, placed := field b 4 1 == 1, placement := field b 4 1, elements := field b 8 8
    flatOffset := field b 0x10 8, master := field b 0x18 4, moment := field b 0x1C 4, grad := field b 0x20 4
    factor := field b 0x24 4, rule := field b 0x30 1, flags := field b 0x31 1, lr := BitVec.ofNat 32 (field b 0x34 4)
    decay := BitVec.ofNat 32 (field b 0x38 4), clip := BitVec.ofNat 32 (field b 0x3C 4)
    reservedZero := allZero (slice b 5 3) && field b 0x28 8 == 0 && field b 0x32 2 == 0 }

/-- The parameter records, in plan order. -/
def Program.records (p : Program) : List ParamRecord :=
  match p.section? secUpdatePlan with
  | none => []
  | some b => (List.range (planHeaderOf b).state.recordCount).map fun i => paramRecordOf (slice b (128 + 64 * i) 64)

/-- A G4E record (R296). -/
structure G4eRecord where
  tensor : Nat
  transposed : Nat
  weightMaster : Nat
  scaleMaster : Nat
  weightGrad : Nat
  scaleGrad : Nat
  mode : Nat
  flags : Nat
  underflowLimit : Nat
  satLimit : Nat
  reservedZero : Bool
  deriving DecidableEq, Repr

def g4eRecordOf (b : List Byte) : G4eRecord :=
  { tensor := field b 0 4, transposed := field b 4 4, weightMaster := field b 8 4, scaleMaster := field b 0xC 4
    weightGrad := field b 0x10 4, scaleGrad := field b 0x14 4, mode := field b 0x18 1, flags := field b 0x19 1
    underflowLimit := field b 0x1A 2, satLimit := field b 0x1C 2, reservedZero := field b 0x1E 2 == 0 }

def Program.g4eRecords (p : Program) : List G4eRecord :=
  match p.section? secUpdatePlan with
  | none => []
  | some b =>
    let h := planHeaderOf b
    (List.range h.g4eCount).map fun i => g4eRecordOf (slice b (128 + 64 * h.state.recordCount + 32 * i) 32)

/-- The banked tensors of the plan (R349). -/
def Program.banked (p : Program) : List Nat :=
  (p.records.flatMap fun r => if r.placed then [r.param, r.master, r.moment, r.factor] else []) ++
    (p.g4eRecords.flatMap fun r => [r.tensor, r.transposed, r.weightMaster, r.scaleMaster])

/-- What a read of a tensor adds to its addresses in a bank (R349, R358). -/
def Program.bankShift (p : Program) (id bank : Nat) : Nat :=
  if bank = 1 ∧ id ≠ noTensor ∧ p.banked.contains id then (p.plan.map fun h => h.state.bankOffset).getD 0 else 0

/-! ### FONT_PLAN -/

/-- The header of the font plan (R315); the regions of a pool by die. -/
structure FontHeader where
  lengthTensor : Nat
  entries : Nat
  front : List Nat
  main : List Nat
  overflow : List Nat
  reservedZero : Bool
  deriving DecidableEq, Repr

def fontHeaderOf (b : List Byte) : FontHeader :=
  { lengthTensor := field b 0 4, entries := field b 4 2, front := [field b 8 2, field b 0xE 2]
    main := [field b 0xA 2, field b 0x10 2], overflow := [field b 0xC 2, field b 0x12 2]
    reservedZero := field b 6 2 == 0 && allZero (slice b 0x14 12) }

/-- A font plan entry (R316). -/
structure FontEntry where
  tensor : Nat
  die : Nat
  cls : Nat
  place : Nat
  fixedBytes : Nat
  rowBytes : Nat
  maxRows : Nat
  layer : Nat
  reservedZero : Bool
  deriving DecidableEq, Repr

def fontEntryOf (b : List Byte) : FontEntry :=
  { tensor := field b 0 4, die := field b 4 1, cls := field b 5 1, place := field b 6 1, fixedBytes := field b 8 4
    rowBytes := field b 0xC 4, maxRows := field b 0x10 4, layer := field b 0x14 4
    reservedZero := field b 7 1 == 0 && field b 0x18 8 == 0 }

def Program.fontHeader (p : Program) : Option FontHeader := (p.section? secFontPlan).map fontHeaderOf

def Program.fontEntries (p : Program) : List FontEntry :=
  match p.section? secFontPlan with
  | none => []
  | some b => (List.range (fontHeaderOf b).entries).map fun i => fontEntryOf (slice b (32 + 32 * i) 32)

/-- The plan index of a font tensor (R317). -/
def Program.fontIndex (p : Program) (id : Nat) : Option Nat := p.fontEntries.findIdx? fun e => e.tensor == id

end Sys2Proof.Machine
end

