-- ==== Sys2Proof/Machine/StreamAddr.lean ====
section
/-! DEFINITION. Where the addresses of a stream go: tiers, tensor bounds, banks and font instances (R195,
R198, R199, R322, R349, R432), and the points that a request passes (R219). -/

namespace Sys2Proof.Machine

/-! ### Tiers (R195) -/

def tierTile : Nat := 0
def tierSameDie : Nat := 1
def tierShared : Nat := 2
def tierStack : Nat := 3
def tierRemote : Nat := 4
def tierBeacon : Nat := 5
def tierHost : Nat := 6
def tierIndex : Nat := 7

/-- The tier of a device address, reckoned from a compute die; 8 when it lies in none. -/
def addrTier (die a : Nat) : Nat :=
  match daSpace a with
  | 0 => if stackDie (daStack a) = die then tierStack else tierRemote
  | 8 => if bits a 32 32 = die then tierSameDie else tierRemote
  | 9 => if bits a 32 32 = die then tierShared else tierRemote
  | 0xC => tierHost
  | _ => if beaconBase ≤ a ∧ a < beaconBase + beaconBytes then tierBeacon else 8

/-! ### Reasons (R228) -/

def rsOutOfTensor : Nat := 0x8001
def rsTier : Nat := 0x8002
def rsIndexRange : Nat := 0x8003
def rsIndexExhausted : Nat := 0x8004
def rsConsume : Nat := 0x8005
def rsNoProgress : Nat := 0x8007
def rsTee : Nat := 0x8009

/-- The statuses and stream reasons that a cause word can carry. -/
def reasonOk (r : Nat) : Bool :=
  (decide (0x8001 ≤ r) && decide (r ≤ 0x8009)) ||
    [Status.memoryError, .compressedSizeMismatch, .hostLinkLost, .fabricAbort, .thermalHalt, .unitRetired].any fun x =>
      x.code == r

/-! ### Requests of an owner (R207, R208) -/

/-- The requests of an owner in flight, oldest first. -/
def State.inFlight (s : State) (o : ReqOwner) : List Req := s.requests.filter fun q => q.owner == o

/-- The most requests that a slot keeps outstanding (R208). -/
def maxOutstanding : Nat := 32

/-- Bytes up to the next 256-byte boundary. -/
def toGranule (a : Nat) : Nat := 256 - a % 256

/-- The owner is a tile's refill slot (R148). -/
def refills : ReqOwner → Bool
  | .tileSlot _ _ n => n == 127
  | .bsuSlot .. | .xfer .. | .dma _ | .beacon _ | .event => false

/-- A request joins those in flight. -/
def State.addReq (s : State) (q : Req) : State :=
  { s with requests := s.requests ++ [{ q with queued := s.nextReq }], nextReq := s.nextReq + 1 }

/-! ### Tensors by byte -/

/-- The stacks of a mask, ascending. -/
def maskStacks (m : Nat) : List Nat := (List.range 8).filter fun i => bit m i

/-- Bytes of a slice of a CHANNEL_SLAB tensor (R432). -/
def Tensor.sliceBytes (t : Tensor) : Nat := t.size / (32 * (maskStacks t.mask).length)

/-- The device address of byte `k` of a tensor, in bank 0. -/
def State.tensorByte (s : State) (t : Tensor) (k : Nat) : Nat :=
  if t.layout = layoutSlab then
    let i := s.ileave
    let sl := t.sliceBytes
    let n := k / sl
    cloAddr i ((maskStacks t.mask).getD (n / 32) 0) (n % 32) ((cloOf i (daSo t.base)).2 + k % sl)
  else t.base + k

/-- A range of addresses lies in one slice of a CHANNEL_SLAB tensor (R199, R432). -/
def State.inSlab (s : State) (t : Tensor) (a n : Nat) : Bool :=
  let i := s.ileave
  let c := cloOf i (daSo a)
  let b := cloOf i (daSo t.base)
  daSpace a == 0 && bit t.mask (daStack a) && decide (i ≤ daSo a) && decide (b.2 ≤ c.2) &&
    decide (c.2 + n ≤ b.2 + t.sliceBytes)

/-- Bytes of a tensor, in the bank that adds `shift` to its addresses. -/
def State.tensorBytes (s : State) (t : Tensor) (shift k n : Nat) : List Byte :=
  (List.range n).map fun i => s.byteAt (s.tensorByte t (k + i) + shift)

/-- Writes bytes of a tensor. -/
def State.writeTensor (s : State) (t : Tensor) (shift k : Nat) (bs : List Byte) : State :=
  (bs.zipIdx).foldl (fun x e => x.writeDev (x.tensorByte t (k + e.2) + shift) [e.1]) s

/-! ### A side of a request -/

/-- An address in a space that the map does not assign: the place of discarded writes and zero reads (the
model's own). -/
def noPlace : Nat := 0xE * 2 ^ 40

/-- Where a side of a request goes, and the tier for arbitration and stalls. -/
structure Side where
  addr : Nat
  tier : Nat
  /-- Bytes from its start beyond which a read gives zeros (R323); none for no such bound. -/
  live : Option Nat := none
  deriving DecidableEq, Repr

/-- The font instance of an entry for a context. -/
def State.fontPlace (s : State) (die e ctx : Nat) : FontPlace :=
  ((((s.font die).instances.find? fun i => i.1 == e && i.2.1 == ctx).map fun i => i.2.2)).getD .empty

/-- Pieces of a compressed tensor's bytes, as (address, length): none crosses a granule or the end of a slice. -/
def State.ftcPieces (s : State) (t : Tensor) : Nat → Nat → Nat → List (Nat × Nat)
  | 0, _, _ => []
  | k + 1, pos, n =>
    if n = 0 then []
    else
      let a := s.tensorByte t pos
      let m := min n (min (256 - a % 256) (if t.layout = layoutSlab then t.sliceBytes - pos % t.sliceBytes else n))
      if m = 0 then [] else (a, m) :: s.ftcPieces t k (pos + m) (n - m)

/-- The side of tile memory, of a tile window or of a Beacon buffer, which names no tensor. -/
def sideOfMemory (r : StreamRef) (tier a n : Nat) : Except Nat Side :=
  if tier = tierTile then
    match r with
    | .tile d p _ => if a + n ≤ tileBytes then .ok { addr := tileBase d p + a, tier := tierTile } else .error rsOutOfTensor
    | .bsu .. => .error rsTier
  else if addrTier (refDie r) a ≠ tier then .error rsTier
  else if tier = tierBeacon then
    if a + n ≤ beaconBase + beaconProgramBytes then .ok { addr := a, tier := tier } else .error rsOutOfTensor
  else if daSpace a = 8 ∧ a % 2 ^ 24 + n ≤ tileBytes then .ok { addr := a, tier := tier }
  else .error rsOutOfTensor

/-- The device address of an offset of a region: a CHANNEL_SLAB one goes on from channel to channel (R432,
R692). -/
def Region.byteAddr (i : Nat) (r : Region) (off : Nat) : Nat :=
  if r.layout = 1 then
    let n := off / max r.size 1
    cloAddr i ((maskStacks r.stackMask).getD (n / 32) 0) (n % 32) ((cloOf i (daSo r.base)).2 + off % max r.size 1)
  else r.base + off

/-- The device address of an offset of a font pool. -/
def State.poolAddr (s : State) (region off : Nat) : Nat :=
  ((s.flash.protection.regions.getD region none).map fun r => r.byteAddr s.ileave off).getD noPlace

/-- The rows that a context has stashed for its micro-batch (R318, R319, R323). The context's P0 holds the micro-batch's number:
it starts so and goes on by CONTEXTS_USED (DEDUCED from R173, log 113). Where P0 holds none of the context's own, the
rows of the instance count. -/
def State.stashedRows (s : State) (r : StreamRef) (ctx : Nat) (e : FontEntry) : Nat :=
  match s.run.bind (·.rowCounts), s.program, r with
  | some l, some g, .tile d p _ =>
    let m := (((s.tile d p).ctx ctx).params.getD 0 0).toNat
    if m % max g.contextsUsed 1 = ctx ∧ m < l.length then l.getD m e.maxRows else e.maxRows
  | _, _, _ => e.maxRows

/-- The side of the font tensor of entry `i` (R322). What lies beyond the stashed rows reads as zeros. -/
def State.sideOfFont (s : State) (r : StreamRef) (ctx i size : Nat) (e : FontEntry) (read : Bool) (a n : Nat) : Except Nat Side :=
  if size < a + n then .error rsOutOfTensor
  else
    match s.fontPlace (refDie r) i ctx with
    | .placed region off len =>
      let b := s.poolAddr region (off + a)
      let stop := e.fixedBytes + e.rowBytes * s.stashedRows r ctx e
      if a + n ≤ len then .ok { addr := b, tier := addrTier (refDie r) b, live := if read && decide (stop < a + n) then some (stop - a) else none }
      else .ok { addr := noPlace, tier := tierStack }
    | .empty | .dropped => .ok { addr := noPlace, tier := tierStack }

/-- Where `n` bytes from an address of one side of a stream go, or the reason why they do not. -/
def State.side (s : State) (r : StreamRef) (ctx tensor tier : Nat) (read : Bool) (a n : Nat) : Except Nat Side :=
  if tensor = noTensor then sideOfMemory r tier a n
  else
    match s.program with
    | none => .error rsOutOfTensor
    | some g =>
      match g.tensor tensor, g.fontIndex tensor with
      | none, _ => .error rsOutOfTensor
      | some t, some i => s.sideOfFont r ctx i t.size (g.fontEntries.getD i (fontEntryOf [])) read a n
      | some t, none =>
        if addrTier (refDie r) a ≠ tier then .error rsTier
        else if if t.layout = layoutSlab then !s.inSlab t a n else decide (a < t.base) || decide (t.base + t.size < a + n) then
          .error rsOutOfTensor
        else .ok { addr := a + (if read then g.bankShift tensor s.commit.epochBank else 0), tier := tier }

/-! ### The points of a request (R219) -/

/-- The die on which an address lies: 0, 1, or 2 for the IOD. -/
def placeDie (a : Nat) : Nat :=
  match daSpace a with
  | 0 => stackDie (daStack a)
  | 8 | 9 => bits a 32 32
  | _ => 2

/-- The memory's own point. -/
def State.memPoint (s : State) (a : Nat) : List Point :=
  match daSpace a with
  | 0 =>
    match s.pch a with
    | some (q, _) => [.pseudoChannel (daStack a) q]
    | none => []
  | 8 =>
    match s.windowTile a with
    | some (d, p) => [.tilePort d p]
    | none => []
  | 9 => []
  | 0xC => [.hostOut]
  | _ => if beaconBase ≤ a ∧ a < beaconBase + beaconBytes then [.beaconPort] else []

/-- The links between two dies. -/
def crossing (a b : Nat) : List Point :=
  if a = b then []
  else if a < 2 ∧ b < 2 then [.linkCc a]
  else if a < 2 then [.linkCi a true]
  else [.linkCi b false]

/-- The fabric port of a destination on its die: a tile's position, 50 and up for the quarters of the shared
buffer, 54 and up for the stacks, 63 for what goes nowhere (numbers of the model's own). -/
def State.fabricPort (s : State) (a : Nat) : Nat :=
  match daSpace a with
  | 0 => 54 + daStack a % 4
  | 8 => ((s.windowTile a).map (·.2)).getD 63
  | 9 => 50 + a % 2 ^ 32 / 0xC00000
  | _ => 63

/-- The die of a place, reckoned for a slot or unit of `die`. -/
def sideDie (die a : Nat) : Nat := if a = noPlace then die else placeDie a

/-- The points that bytes pass from die `a` to a destination. -/
def State.pointsTo (s : State) (die a dst : Nat) : List Point :=
  let b := sideDie die dst
  crossing a b ++ (if b < 2 then [.diePort b (s.fabricPort dst)] else []) ++ s.memPoint dst

/-- The points that the tee's copy of a request's bytes passes (R214). -/
def State.pointsTee (s : State) (die src : Nat) (tee : Option Nat) : List Point :=
  (tee.map fun a => s.pointsTo die (sideDie die src) a).getD []

/-- The points of a request from source to destination, for a slot or unit of `die`. -/
def State.pointsOf (s : State) (die src dst : Nat) : List Point := s.memPoint src ++ s.pointsTo die (sideDie die src) dst

/-- The right that the program agent class needs in the region table: for tensors' spaces, and none for tile
windows and Beacon buffers, which no region covers. -/
def programRight (write : Bool) (a : Nat) : Option Nat :=
  if daSpace a = 0 ∨ daSpace a = 9 ∨ daSpace a = 0xC then some (if write then 3 else 2) else none

/-! ### Dark memories (R181, R720) -/

/-- An address lies in a dark tile or a dark quarter. -/
def State.darkAt (s : State) (a : Nat) : Bool :=
  match daSpace a with
  | 8 =>
    match s.windowTile a with
    | some (d, p) => (s.tile d p).state == .available && !(s.tile d p).lit
    | none => false
  | 9 => !s.sharedLit.getD (4 * bits a 32 32 + a % 2 ^ 32 / 0xC00000) false
  | _ => false

end Sys2Proof.Machine
end

