-- ==== Sys2Proof/Machine/Wick.lean ====
section
/-! DEFINITION. Wick between bundles: which tiles run, counters and their tags, program faults, stalls,
context selection and switches, segments, and lighting (R147 to R149, R165 to R186, R223 to R226). -/

namespace Sys2Proof.Machine

/-! ### Tiles and contexts in a step -/

/-- A tile that the loaded program uses, in service (R120). -/
def State.usedTile (s : State) (d p : Nat) : Bool :=
  s.program.isSome && (s.tile d p).logicalId.isSome && (s.tile d p).state == .available && s.dieInService d

def State.contextsUsed (s : State) : Nat := (s.program.map (·.contextsUsed)).getD 0

/-- The compute phase of a step that nothing has ended: context 0 has issued (R179, R631). -/
def State.computing (s : State) : Bool :=
  s.stepOpen && !s.stopped && (s.run.map fun r => r.contextsIssued && r.phase == .compute).getD false

/-- A tile that runs: used, lit, not held by Snuffer (R738) and not in a BREAK (R703). -/
def State.tileRuns (s : State) (d p : Nat) : Bool :=
  s.computing && s.usedTile d p && (s.tile d p).lit && !(s.tile d p).thermalHold && !s.tinder.broken

/-- A bundle, or one slot of it, can issue on the tile now: nothing issues until a spare that is due has been put in
place (R113). -/
def State.canIssue (s : State) (d p : Nat) : Bool :=
  s.tileRuns d p && (s.tile d p).switching.isNone && (s.tile d p).current.state == .ready && (s.tile d p).pendingSpare.isEmpty

/-! ### Context selection (R174 to R177) -/

/-- WAIT and BARRIER are yield points; FENCE, HALT and a segment load are none (R174). -/
def BlockReason.yields : BlockReason → Bool
  | .wait .. | .barrier .. => true
  | .none | .fence .. | .halt | .segment _ => false

/-- A blocked context whose condition is met becomes READY; one whose segment is still loading waits for
that. -/
def State.wakeCtx (s : State) (t : Tile) (n : Nat) (c : Context) : Context :=
  let met : Bool := match c.reason with
    | .wait k th => decide (th ≤ t.counters.getD k 0)
    | .barrier id opened => decide (opened < (s.barriers.getD id { id := id }).opened)
    | .none | .fence .. | .halt | .segment _ => false
  if c.state = .blocked ∧ met then
    if t.segLoads.any fun l => l.ctx == some n then { c with reason := .segment c.segment }
    else { c with state := .ready, reason := .none }
  else c

/-- The lowest-numbered READY context. -/
def Tile.lowestReady (t : Tile) : Option Nat := t.contexts.findIdx? fun c => c.state == .ready

/-- Begins a switch (R176). -/
def State.switchTo (s : State) (d p m : Nat) : State :=
  (s.endStall d p).modTile d p fun t =>
    { t with switching := some m, contextSwitches := satAdd t.contextSwitches 1, switchCycles := satAdd t.switchCycles 16 }

/-- Applies conditions that are now met, and resumes or switches where R174 says so. -/
def State.settle (s : State) (d p : Nat) : State :=
  let t := s.tile d p
  if !s.tileRuns d p || t.switching.isSome then s
  else
    let woken := t.contexts.mapIdx (s.wakeCtx t)
    let t1 := { t with contexts := woken }
    let put := fun (x : State) => x.modTile d p fun y => { y with contexts := y.contexts.mapIdx (s.wakeCtx t) }
    match t.current.state with
    | .ready => put s
    | .blocked =>
      if t.current.reason.yields then
        match t1.lowestReady with
        | none => put s
        | some m =>
          if m = t.running ∨ (!t.held.isEmpty ∧ t1.current.state = .ready) then put (s.endStall d p)
          else if t.held.isEmpty then put (s.switchTo d p m) else put s
      else put s
    | .halted | .faulted | .idle =>
      match t1.lowestReady with
      | some m => if t.held.isEmpty then put (s.switchTo d p m) else put s
      | none => put s

/-- The running context blocks; its stall begins now. -/
def State.blockOn (s : State) (d p : Nat) (r : BlockReason) : State :=
  (s.modTile d p fun t =>
    { t.modCtx t.running fun c => { c with state := .blocked, reason := r } with
      stallSince := some s.now, activeAt := s.now }).settle d p

/-- An operation of a tile ends now (R180). -/
def State.opEnded (s : State) (d p : Nat) : State := s.modTile d p fun t => { t with activeAt := s.now }

/-- A fence, a halt or a segment load of a context is over. A context that is free again but whose segment is
still loading waits for that. -/
def State.unblock (s : State) (d p n : Nat) (st : CtxState) : State :=
  let s1 := if (s.tile d p).running = n then s.endStall d p else s
  let loading := st == .ready && (s.tile d p).segLoads.any fun l => l.ctx == some n
  let s2 := s1.modTile d p fun t =>
    let u := t.modCtx n fun c =>
      if loading then { c with state := .blocked, reason := .segment c.segment } else { c with state := st, reason := .none }
    if loading && t.running == n then { u with stallSince := some s.now } else u
  s2.settle d p

/-- YIELD: the lowest-numbered READY context other than the running one (R174, R177). -/
def State.yieldNow (s : State) (d p : Nat) : State :=
  let t := s.tile d p
  if t.switching.isSome || !t.held.isEmpty then s
  else
    match (List.range 8).find? fun n => n != t.running && (t.ctx n).state == .ready with
    | some m => s.switchTo d p m
    | none => s

/-! ### Program faults (R184, R185, R190) -/

def pfSlotUnbound : Nat := 1
def pfSlotRunning : Nat := 2
def pfCounterOverflow : Nat := 3
def pfBadDescriptor : Nat := 4
def pfLoopZero : Nat := 5
def pfLoopSegment : Nat := 6
def pfSegmentRange : Nat := 7
def pfSegmentConflict : Nat := 8
def pfBarrierReentry : Nat := 9
def pfLoopRange : Nat := 10

/-- FAULT_INFO and FAULT_PC of a context that faults (R190), and its state. -/
def State.recordFault (s : State) (d p n cause slot : Nat) : State :=
  (s.endStall d p).modTile d p fun x =>
    let c := x.ctx n
    { x.modCtx n fun y => { y with state := .faulted, reason := .none } with
      fault := { valid := true, cause := cause, ctx := n, segment := c.segment, bundle := c.bundle, slot := slot } }

/-- DETAIL of kind 4 (R633): die, logical tile, context, cause, segment, bundle. -/
def Tile.faultDetail (t : Tile) (d n cause : Nat) : List Byte :=
  let c := t.ctx n
  leBytes 1 d ++ leBytes 1 (t.logicalId.getD 0x3F) ++ leBytes 1 n ++ leBytes 1 cause ++ leBytes 2 c.segment ++ leBytes 2 c.bundle

/-- The place of a context in the order of R185: die, logical tile, context. -/
def Tile.faultOrder (t : Tile) (d n : Nat) : Nat := 512 * d + 8 * t.logicalId.getD 0x3F + n

/-- Faults that stand in FAULT_INFO, by their places in the order of R185. -/
def State.faultOrders (s : State) : List Nat :=
  (List.range 100).filterMap fun i =>
    let t := s.tile (i / 50) (i % 50)
    if t.fault.valid then some (t.faultOrder (i / 50) t.fault.ctx) else none

/-- A tile faults in the moment in which another has stopped the step: the first in the order of R185 is recorded,
and the other context is FAULTED all the same. -/
def State.secondFault (s : State) (d p n cause slot : Nat) : State :=
  let t := s.tile d p
  if s.faultOrders.all fun o => decide (t.faultOrder d n < o) then
    let s1 : State := { s with tiles := s.tiles.map fun x => { x with fault := {} } }
    let s2 := s1.recordFault d p n cause slot
    { s2 with run := s2.run.map fun r => { r with abort := r.abort.map fun a => { a with detail := t.faultDetail d n cause } } }
  else s.modCtx d p n fun y => { y with state := .faulted, reason := .none }

/-- The step has stopped in this moment for a program fault. -/
def State.faultedNow (s : State) : Bool :=
  ((s.run.bind (·.abort)).map fun a => a.status == .programRejected && a.time == s.now).getD false

/-- A program fault of a context (R185). -/
def State.progFault (s : State) (d p n cause slot : Nat) : State :=
  let t := s.tile d p
  if s.faultedNow then s.secondFault d p n cause slot
  else if !s.stepOpen || s.stopped then s
  else
    (s.recordFault d p n cause slot).newCascade.abortStep
      { status := .programRejected, kind := 4, detail := t.faultDetail d n cause }

/-! ### Lighting (R180, R181, R183) -/

/-- Asks for a dark tile to be lit. -/
def State.askLight (s : State) (d p : Nat) : State :=
  s.modTile d p fun t => if t.state = .available && !t.lit && s.dieInService d then { t with lighting := true } else t

/-! ### Event counters (R165 to R171) -/

/-- An increment reaches a counter of a used tile. Events of an aborted step go nowhere (R186). -/
def State.bump (s : State) (d p counter inc : Nat) : State :=
  let t := s.tile d p
  let v := t.counters.getD counter 0 + inc
  if !s.usedTile d p then s
  else if s.faultedNow && decide (0xFFFF < v) then s.progFault d p t.running pfCounterOverflow 0
  else if !s.stepOpen || s.stopped then s
  else
    if 0xFFFF < v then s.progFault d p t.running pfCounterOverflow 0
    else ((s.modTile d p fun x => { x with counters := modAt x.counters counter fun _ => v }).askLight d p).settle d p

/-- An operation names a counter (R171). -/
def State.tag (s : State) (d p counter : Nat) (g : CounterTag) : State :=
  s.modTile d p fun t => { t with tags := modAt t.tags counter fun _ => g }

/-! ### Cross-die events (R169, R219, R220) -/

/-- An event waits at LINK_CC with its time of issue as deadline; what depends on it keeps its number. -/
def State.sendEvent (s : State) (d : Nat) (f : Nat → State → State) : State :=
  f s.nextReq <| s.addReq
    { owner := .event, seq := s.nextReq, instr := 0, cls := 0, die := d, deadline := s.timer d, src := noPlace, dst := noPlace
      srcTier := tierTile, dstTier := tierRemote, len := 0, points := [.linkCc d], data := some [] }

/-- An event is still on its way over the link. -/
def State.eventPassing (s : State) (n : Option Nat) : Bool :=
  s.requests.any fun q => q.owner == .event && some q.seq == n

/-! ### Segments (R147 to R149, R155) -/

/-- The directory entry of a used tile. -/
def State.entryOf (s : State) (d p : Nat) : Option TileEntry :=
  match s.program, (s.tile d p).logicalId with
  | some g, some l => g.tileEntry d l
  | _, _ => none

/-- A tile-local segment. -/
def State.segmentOf (s : State) (d p n : Nat) : SegEntry :=
  match s.program, s.entryOf d p with
  | some g, some e => g.segment e n
  | _, _ => segEntryOf []

/-- Where the code of a tile-local segment lies in the program copy of the die, and its bytes (R146). -/
def State.codePlace (s : State) (d p n : Nat) : Nat × Nat :=
  match s.program with
  | some g =>
    let x := s.segmentOf d p n
    (g.partOffset d (secCode, x.codeOffset, 32 * x.bundles), 32 * x.bundles)
  | none => (0, 0)

/-- The pieces of that code in the stacks. -/
def State.codePieces (s : State) (d p n : Nat) : List (Nat × Nat) :=
  let x := s.codePlace d p n
  s.copyPieces d (x.2 / 256 + 2) x.1 x.2

/-- The segment that a buffer holds or is being loaded with. -/
def Tile.bufferSeg (t : Tile) (b : Nat) : Option Nat :=
  match (t.segLoads.filter fun l => l.buffer == b).getLast? with
  | some l => some l.segment
  | none => (t.buffers.getD b none).map (·.1)

/-- A segment is resident: its code is in a buffer. -/
def Tile.resident (t : Tile) (g : Nat) : Bool := t.buffers.any fun b => (b.map (·.1)) == some g

/-- Segments pinned by contexts that are neither HALTED nor IDLE; `but` names one context to leave out. -/
def Tile.pinned (t : Tile) (but : Option Nat) : List Nat :=
  (List.range 8).filterMap fun n =>
    let c := t.ctx n
    if some n = but then none
    else match c.state with
      | .halted | .idle => none
      | .ready | .blocked | .faulted => some c.segment

/-- Requests for the code of the tile's oldest segment load, as many as may be outstanding; a refill's deadline is the
time of its issue (R149, R207, R217). -/
def State.refillSplit (s : State) (d p : Nat) : Nat → State
  | 0 => s
  | k + 1 =>
    match (s.tile d p).segLoads with
    | [] => s
    | l :: rest =>
      let x := s.codePlace d p l.segment
      let o := ReqOwner.tileSlot d p 127
      if x.2 ≤ l.issued ∨ maxOutstanding ≤ (s.inFlight o).length then s
      else
        let a := s.programAddr d (x.1 + l.issued)
        let n := min (x.2 - l.issued) (toGranule a)
        let q : Req :=
          { owner := o, seq := s.nextReq, instr := 0, cls := 0, die := d, deadline := s.timer d, src := a, dst := noPlace
            srcTier := tierStack, dstTier := tierTile, len := n, points := s.memPoint a ++ [.diePort d p] }
        ((s.addReq q).modTile d p fun t => { t with segLoads := { l with issued := l.issued + n } :: rest }).refillSplit d p k

/-- Slot 127 starts on the tile's oldest segment load, when it is idle (R148). -/
def State.refill (s : State) (d p : Nat) : State :=
  let t := s.tile d p
  if t.segLoads.isEmpty || (t.slot 127).state == .running then s
  else
    (s.modSlot (.tile d p 127) fun x =>
      { x with
        state := .running, bytesMoved := 0, ctx := 8, startTime := (s.timer d).toNat, lastLanded := s.now, cutOff := false }).refillSplit
      d p maxOutstanding

/-- The buffer takes a load. -/
def State.startLoad (s : State) (d p g b : Nat) (ctx : Option Nat) : State :=
  (s.modTile d p fun t =>
    { t with
      segLoads := t.segLoads ++ [{ segment := g, buffer := b, ctx := ctx }]
      buffers := modAt t.buffers b fun _ => none }).refill d p

/-- Prefetch of the successor of segment `g`, which buffer `b` holds (R149, step 3). -/
def State.prefetch (s : State) (d p g b : Nat) : State :=
  let t := s.tile d p
  let succ := (s.segmentOf d p g).successor
  let o := 1 - b
  let free : Bool := match t.bufferSeg o with
    | some x => !(t.pinned none).contains x
    | none => true
  if succ ≠ 0xFFFF ∧ t.bufferSeg 0 ≠ some succ ∧ t.bufferSeg 1 ≠ some succ ∧ free then
    s.startLoad d p succ o none
  else s

/-- The running context waits for its segment; one that its bundle's control operation already holds keeps
that reason first. -/
def State.blockSegment (s : State) (d p g : Nat) : State :=
  if (s.tile d p).current.state = .ready then s.blockOn d p (.segment g) else s

/-- SEGMENT transfer of the running context to segment `g` (R149). -/
def State.segmentTo (s : State) (d p g : Nat) : State :=
  let t := s.tile d p
  let n := t.running
  let left := t.current.segment
  let enter := fun (x : State) => x.modCtx d p n fun c => { c with segment := g, bundle := 0 }
  if t.bufferSeg 0 = some g ∨ t.bufferSeg 1 = some g then
    let b := bool01 (t.bufferSeg 0 != some g)
    if t.resident g then (enter s).prefetch d p g b
    else
      -- a load of the segment is under way: the context waits for it
      (((enter s).modTile d p fun x =>
        { x with segLoads := x.segLoads.map fun l => if l.segment = g then { l with ctx := some n } else l })).blockSegment d p g
  else
    let pins := t.pinned (some n)
    let ok := fun b => match t.bufferSeg b with
      | some x => !pins.contains x
      | none => true
    match [0, 1].filter ok with
    | [] => s.progFault d p n pfSegmentConflict 0
    | b :: rest =>
      let pick := if t.bufferSeg b = some left then rest.headD b else b
      ((enter s).startLoad d p g pick (some n)).blockSegment d p g

/-- The running context goes on at a bundle of its segment; past the last one is a fault (R155). -/
def State.gotoBundle (s : State) (d p b : Nat) : State :=
  let t := s.tile d p
  if b < (s.segmentOf d p t.current.segment).bundles then s.modCtx d p t.running fun c => { c with bundle := b }
  else s.progFault d p t.running pfSegmentRange 0

/-- The bundle at the running context's program counter, when its segment is resident. -/
def State.fetchBundle (s : State) (d p : Nat) : Option Nat :=
  let t := s.tile d p
  let c := t.current
  match t.buffers.find? fun b => (b.map (·.1)) == some c.segment with
  | some (some (_, code)) => some (leNat (slice code (32 * c.bundle) 32))
  | _ => none

/-! ### Operations in flight (R164, R180) -/

/-- Streams of a tile that a context started and that run. -/
def Tile.runningStreams (t : Tile) (n : Nat) : Bool := t.slots.any fun x => x.state == .running && x.ctx == n

/-- A COLL of a context has not completed. -/
def State.collInFlight (s : State) (d p n : Nat) : Bool :=
  (s.beacon.instances.any fun i => match i.owner with
    | .tile dd pp c _ => dd == d && pp == p && c == n && !i.complete
    | .update => false) ||
  s.bsuOps.any fun o => match o.issuer with
    | .tile dd pp c _ => dd == d && pp == p && c == n
    | .beacon | .lamplighter => false

/-- Every operation that a context has issued has completed (R164). -/
def State.ctxQuiet (s : State) (d p n : Nat) : Bool :=
  let t := s.tile d p
  !(t.arrayQueue.any fun o => o.ctx == n) && !(t.vectorQueue.any fun o => o.ctx == n) &&
    !(t.xfers.any fun o => o.ctx == n) && !t.runningStreams n && !s.collInFlight d p n

/-- A memory error of an operation that reads tile memory: the step aborts, the tile stays (R86). -/
def State.tmAbort (s : State) (d p : Nat) : State :=
  s.newCascade.abortStep
    { status := .memoryError, kind := 1, detail := streamDetail false d p 0 (causeWord Status.memoryError.code 0 0 false) }

/-- What befell a word that an operation reads of its tile's memory; true when it is lost (R86). -/
def State.tmWord (s : State) (d p : Nat) (o : EccOutcome) : State × Bool :=
  match o with
  | .onDie | .retried => (s, false)
  | .corrected => (s.tmCorrectedWord d p, false)
  | .uncorrectable => (s.tmFailedRead d p, true)

/-- An operation's reads of tile memory; true when one is lost, which aborts the step (R86). -/
def State.tmEcc (s : State) (d p : Nat) (ecc : Ecc) : State × Bool :=
  let x := ecc.foldl (fun x e => if x.2 then x else x.1.tmWord d p e.2) (s, false)
  if x.2 then (x.1.tmAbort d p, true) else x

end Sys2Proof.Machine
end

