-- ==== Sys2Proof/Machine/Array.lean ====
section
/-! DEFINITION. Array operations: MATMUL and PAIR_BACKWARD, passes and write-back, masks, ramps,
flickers, replay and the spare (R69 to R115, R246 to R250). -/

namespace Sys2Proof.Machine

/-! ### Shape of an operation -/

/-- Row groups with a live row, ascending (R95, R96). -/
def liveGroups (mask rows : Nat) : List Nat := (List.range (rows / 4)).filter fun g => bits mask (4 * g + 3) (4 * g) != 0

def ArrayOp.groups (o : ArrayOp) : List Nat := liveGroups o.mask o.desc.rows

/-- Passes of the operation (R96). -/
def ArrayOp.passes (o : ArrayOp) : Nat := ceilDiv o.groups.length 4

/-- Passes that it would take without a mask (R99). -/
def ArrayOp.fullPasses (o : ArrayOp) : Nat := ceilDiv (o.desc.rows / 4) 4

/-- K step of a format (R70). -/
def kStepOf (f : Fmt) : Nat := if f.bitsOf = 16 then 4 else if f.bitsOf = 4 then 16 else 8

/-- Cycles of a pass (R129). -/
def ArrayOp.cycles (o : ArrayOp) : Nat :=
  if o.slot.pair then o.desc.depth / 4
  else ceilDiv o.desc.depth (min (kStepOf (fmtOf o.slot.fmtA)) (kStepOf (fmtOf o.slot.fmtB)))

/-- The row groups that a pass feeds, as (grid row, group) (R75, R90). -/
def ArrayOp.fed (o : ArrayOp) (p : Nat) : List (Nat × Nat) :=
  let gs := o.groups
  let q := ceilDiv gs.length 4
  (List.range 4).filterMap fun r =>
    let i := if o.slot.pair then r * q + p else 4 * p + r
    if i < gs.length ∧ (!o.slot.pair ∨ p < q) then some (r, gs.getD i 0) else none

/-- Row `i` of operand A is live. -/
def ArrayOp.live (o : ArrayOp) (i : Nat) : Bool := bit o.mask i

/-! ### One block of cells -/

/-- A block's contents; one that no operation of the step has used holds +0 (R76). -/
def accGet (acc : AccFile) (key : Nat) : List (BitVec 32) := assocGet (List.replicate 16 0) acc key

/-- A cell is gated: an operand is zero and the other is finite (R100). -/
def gatedCell (a b : Fp) : Bool := (a.isZero && !b.nonFinite) || (b.isZero && !a.nonFinite)

/-- Cell-cycles gated in such a block. -/
def gatedIn (live : Nat → Bool) (as bs : List (List Fp)) : Nat :=
  ((List.range 16).map fun e =>
    let a := as.getD (e / 4) []
    if live (e / 4) then ((List.zipWith gatedCell a (bs.getD (e % 4) [])).filter id).length else a.length).sum

/-! ### What a pass leaves -/

structure PassOut where
  acc : AccFile
  held : List Nat
  writes : List (Nat × List Byte) := []
  amax : Option (BitVec 32) := none
  nonFinite : Bool := false
  gated : Nat := 0
  escapes : Nat := 0
  mismatches : Nat := 0
  /-- Checkers of the dW arrays by accumulator block, and the grid positions that flickered. -/
  checks : List (Nat × CheckSums) := []
  flickers : List Nat := []
  deriving DecidableEq, Repr

/-- The largest magnitude so far. -/
def maxSeen (m : Option (BitVec 32)) (v : Fp) : Option (BitVec 32) := some (toFp32 (amaxOf (fp32 (m.getD 0)) v))

/-- Write-back of one block: conversion, amax, and the rows that the mask keeps (R77, R97, R262, R272). -/
def PassOut.writeBlock (x : PassOut) (f : Fmt) (off : Nat) (vals : List (BitVec 32)) (live : Nat → Bool) : PassOut :=
  (List.range 4).foldl
    (fun y i =>
      if live i then
        let codes := ((vals.drop (4 * i)).take 4).map fun v => f.spec.rne (fp32 v)
        let seen := codes.map f.spec.decode
        { y with
          writes := y.writes ++ [(off + f.bytesOf (4 * i), codes.flatMap (leBytes (f.bitsOf / 8)))]
          amax := seen.foldl maxSeen y.amax
          nonFinite := y.nonFinite || seen.any Fp.nonFinite }
      else y)
    x

/-- An accumulator block takes new contents, and is held when the operation does not write back. -/
def PassOut.setBlock (x : PassOut) (hold : Bool) (key : Nat) (vals : List (BitVec 32)) : PassOut :=
  { x with
    acc := assocSet x.acc key vals
    held := if hold then (if x.held.contains key then x.held else x.held ++ [key]) else x.held.filter (· != key) }

/-- How a block starts a pass (R76). -/
def ArrayOp.initial (o : ArrayOp) (acc : AccFile) (key idx : Nat) : List Fp :=
  match o.slot.init with
  | .zero => List.replicate 16 .zero
  | .hold => (accGet acc key).map fp32
  | .load =>
    let f := outFmt o.slot.fmtOut
    (List.range 16).map fun e => f.spec.decode (blockCode (fun off n => slice o.cOperand off n) f 0 idx e)

/-- The comparison of a block at a grid position: a flicker is noted (R105, R111). -/
def PassOut.compare (x : PassOut) (pos : Nat) (c : CheckSums) (fa fb : Fmt) (live : Nat → Bool) (vals : List (BitVec 32)) : PassOut :=
  if c.flickers fa fb live vals then { x with flickers := if x.flickers.contains pos then x.flickers else x.flickers ++ [pos] } else x

/-- Chunks of an array-cycle when both operands are 4-bit formats, and the comparison of each is exact (R70, R106). -/
def exactChunks (a : ArraySlot) : Nat :=
  if (fmtOf a.fmtA).bitsOf = 4 ∧ (fmtOf a.fmtB).bitsOf = 4 then if a.pair then 1 else 4 else 0

/-- The checker of an output block over one pass (R104, R106). -/
def ArrayOp.checker (o : ArrayOp) (live : Nat → Bool) (as bs : List (List Fp)) (init : List Fp)
    (hits : List (UpsetSite × BitVec 32)) : CheckSums :=
  let c := (CheckSums.start live init).feed live as bs hits
  let per := exactChunks o.slot
  { c with uneven := per != 0 && cycleDiffers live as bs per hits }

/-- One output block: accumulate, compare, and write back unless FMT_OUT is NONE (R77). -/
def PassOut.block (x : PassOut) (h : Hits) (o : ArrayOp) (array idx group : Nat) (as bs : List (List Fp)) (pad : Nat) : PassOut :=
  let key := 16 * array + o.slot.accBlock
  let live := fun i => o.live (4 * group + i)
  let init := o.initial x.acc key idx
  let hits := h array o.slot.accBlock
  let vals := cellBlock live as bs init hits
  let hold := o.slot.fmtOut == .none
  let y := (x.setBlock hold key vals).compare array (o.checker live as bs init hits) (fmtOf o.slot.fmtA) (fmtOf o.slot.fmtB) live vals
  let z := { y with gated := y.gated + gatedIn live as bs + 16 * pad }
  let f := outFmt o.slot.fmtOut
  if hold then z else z.writeBlock f (o.desc.dst + f.block * idx) vals live

/-- Rows of operand A of a group over the whole depth. -/
def ArrayOp.rowsA (o : ArrayOp) (rd : TmRead) (g : Nat) : List (List Fp) :=
  (List.range 4).map fun i => (List.range o.desc.depth).map fun k => operandA rd o.slot o.desc (4 * g + i) k

/-- Columns of operand B with what the decoder counts. -/
def ArrayOp.colsB (o : ArrayOp) (rd : TmRead) : List (List G4eElem) :=
  (List.range (colsOf o.slot)).map fun c => (List.range o.desc.depth).map fun k => operandB rd o.slot o.desc k c

def countElems (p : G4eElem → Bool) (l : List (List G4eElem)) : Nat := (l.map fun c => (c.filter p).length).sum

/-- A forward pass (R75, R247). -/
def forwardPass (rd : TmRead) (h : Hits) (o : ArrayOp) (p : Nat) (x : PassOut) : PassOut :=
  let bs := o.colsB rd
  let vals := bs.map fun c => c.map (·.value)
  let k := o.desc.depth
  let pad := o.cycles * min (kStepOf (fmtOf o.slot.fmtA)) (kStepOf (fmtOf o.slot.fmtB)) - k
  let y := { x with
    escapes := x.escapes + countElems (·.escape) bs, mismatches := x.mismatches + countElems (·.mismatch) bs }
  (o.fed p).foldl
    (fun y rg =>
      let as := o.rowsA rd rg.2
      (List.range 4).foldl (fun z c => z.block h o (4 * rg.1 + c) (4 * rg.2 + c) rg.2 as ((vals.drop (4 * c)).take 4) pad) y)
    y

/-- dW += Xᵀ·dY of one odd array over its present group, for every output block (R88, R91). The blocks are held for
a later HOLD only when FMT_OUT is NONE (R79). -/
def dwStep (rd : TmRead) (h : Hits) (o : ArrayOp) (p r g j : Nat) (dy : List (List Fp)) (x : PassOut) : PassOut :=
  let token := fun t v => if o.live (4 * g + t) then v else Fp.zero
  let xs := (List.range 4).map fun i => (List.range 4).map fun t => token t (elemPort rd (fmtOf o.slot.fmtP) o.desc.opp j i (4 * g + t))
  (List.range (o.desc.depth / 4)).foldl
    (fun y ob =>
      let key := 16 * (4 * r + 2 * j + 1) + ob
      let ys := (List.range 4).map fun c => (List.range 4).map fun t => token t ((dy.getD t []).getD (4 * ob + c) .zero)
      let init := if p = 0 ∧ o.slot.init ≠ .hold then List.replicate 16 Fp.zero else (accGet y.acc key).map fp32
      let all := fun (_ : Nat) => true
      let hits := h (4 * r + 2 * j + 1) ob
      let z := y.setBlock (o.slot.fmtOut == .none) key (cellBlock all xs ys init hits)
      let c := if p = 0 then CheckSums.start all init else assocGet (CheckSums.start all init) y.checks key
      { z with
        gated := z.gated + gatedIn all xs ys
        checks := assocSet z.checks key (c.feed all xs ys hits) })
    x

/-- A backward pass (R88 to R91). -/
def backwardPass (rd : TmRead) (h : Hits) (o : ArrayOp) (p : Nat) (x : PassOut) : PassOut :=
  let bs := o.colsB rd
  let vals := bs.map fun c => c.map (·.value)
  let y := { x with
    escapes := x.escapes + countElems (·.escape) bs, mismatches := x.mismatches + countElems (·.mismatch) bs }
  (o.fed p).foldl
    (fun y rg =>
      let dy := o.rowsA rd rg.2
      [0, 1].foldl
        (fun z j =>
          let w := z.block h o (4 * rg.1 + 2 * j) (2 * rg.2 + j) rg.2 dy ((vals.drop (4 * j)).take 4) 0
          if oddFed o.slot then dwStep rd h o p rg.1 rg.2 j dy w else w)
        y)
    y

/-- The comparison of the dW arrays at the end of the operation, over the token chunks that each has accumulated
(R107). Their operands are X or Z, and dY. -/
def compareDw (o : ArrayOp) (x : PassOut) : PassOut :=
  if !oddFed o.slot then x
  else
    x.checks.foldl
      (fun y e => y.compare (e.1 / 16) e.2 (fmtOf o.slot.fmtP) (fmtOf o.slot.fmtA) (fun _ => true) (accGet y.acc e.1)) x

/-- The combination of R249. -/
def combine : List (BitVec 32) → BitVec 32
  | [] => 0
  | a :: l => l.foldl (fun r x => toFp32 ((fp32 r).add (fp32 x))) a

/-- The end of a backward operation: dW of each output block, combined over the fed grid rows (R91, R250). -/
def writeDw (o : ArrayOp) (x : PassOut) : PassOut :=
  if !oddFed o.slot || o.slot.fmtOut == .none then x
  else
    let rows := (o.fed 0).map (·.1)
    let f := outFmt o.slot.fmtOut
    (List.range (o.desc.depth / 4)).foldl
      (fun y ob =>
        [0, 1].foldl
          (fun z j =>
            let parts := rows.map fun r => accGet z.acc (16 * (4 * r + 2 * j + 1) + ob)
            let vals := (List.range 16).map fun e => combine (parts.map fun b => b.getD e 0)
            let freed := { z with held := z.held.filter fun k => !(rows.map fun r => 16 * (4 * r + 2 * j + 1) + ob).contains k }
            freed.writeBlock f (o.desc.dst2 + f.block * (2 * ob + j)) vals fun _ => true)
          y)
      x

/-- Pass `p` of an operation, with the operation's end when it is the last. -/
def runPass (rd : TmRead) (h : Hits) (o : ArrayOp) (p : Nat) (x : PassOut) : PassOut :=
  if o.slot.pair then
    let y := backwardPass rd h o p x
    if p + 1 = o.passes then writeDw o (compareDw o y) else y
  else forwardPass rd h o p x

/-! ### Issue -/

/-- An array operation issues (R151, R158, R159). The row mask is read once, here (DESIGN CHOICE, log 93: R95 says
where it lies and not when it is read, and R87 does not lock it). -/
def State.issueArray (s : State) (d p : Nat) (a : ArraySlot) (ecc : Ecc) : State :=
  let rd := s.tmRead d p
  let b := rd (descOffset a.desc) 32
  let desc := arrayDescOf b
  let t := s.tile d p
  if !arrayDescOk a b || !g4eImageOk rd a desc then s.progFault d p t.running pfBadDescriptor 0
  else
    let (s1, failed) := s.tmEcc d p ecc
    if failed then s1
    else
      let c := t.current
      let mask := if a.maskEn then leNat (rd desc.mask 32) else 2 ^ 256 - 1
      let o : ArrayOp :=
        { slot := a, desc := desc, ctx := t.running, segment := c.segment, bundle := c.bundle, mask := mask
          locks := retained rd a desc }
      let o := if o.groups.isEmpty then { o with phase := .finished } else o
      (s1.modTile d p fun x => { x with arrayQueue := x.arrayQueue ++ [o] }).tag d p a.done .array

/-- An issue hold of one cycle (R151). -/
def State.issueHold (s : State) (d p : Nat) : State :=
  s.modTile d p fun t => { t with issueHoldCycles := satAdd t.issueHoldCycles 1 }

def Tile.arrayFull (t : Tile) : Bool := decide (2 ≤ t.arrayQueue.length)

/-- The array slot of the running context's bundle, as a command of its own. -/
def State.arrayRow (s : State) (d p : Nat) (a : ArraySlot) (ecc : Ecc) : State :=
  if !s.canIssue d p || !arrayFieldsOk a then s
  else if (s.tile d p).arrayFull then s.issueHold d p
  else s.issueArray d p a ecc

/-- ARRAY_NOP (R157). -/
def execArrayNop (d p : Nat) (s : State) : Host.Outcome State Fault Refusal :=
  if tileExists d p then .next s else .fault .noSuchUnit

/-- MATMUL (R74, R157). -/
def execMatmul (d p : Nat) (slot : ArraySlot) (ecc : Ecc) (s : State) : Host.Outcome State Fault Refusal :=
  if tileExists d p then .next (if slot.pair then s else s.arrayRow d p slot ecc) else .fault .noSuchUnit

/-- PAIR_BACKWARD (R88, R157). -/
def execPairBackward (d p : Nat) (slot : ArraySlot) (ecc : Ecc) (s : State) : Host.Outcome State Fault Refusal :=
  if tileExists d p then .next (if slot.pair then s.arrayRow d p slot ecc else s) else .fault .noSuchUnit

/-! ### Passes -/

/-- The grid runs: Snuffer holds it at an array-cycle boundary (R738). -/
def State.gridRuns (s : State) (d p : Nat) : Bool :=
  s.computing && s.usedTile d p && (s.tile d p).lit && !(s.tile d p).thermalHold

/-- Idle cycles between the last array-cycle of the tile and the first of the pass that now ends: that pass has
taken its own cycles (R101). -/
def Tile.idleCycles (t : Tile) (now : Nat) (o : ArrayOp) : Nat := cyclesIn (now - t.lastArray) - o.cycles

/-- Cycles by which the last array that a pass feeds runs behind the first pair (R102, R103): row r starts at steps
2r and 2r + 1. -/
def ArrayOp.lag (o : ArrayOp) : Nat := 4 * (2 * ((o.fed o.pass).map (·.1)).foldl max 0 + 1)

/-- ARRAY_CYCLES of a pass: its own cycles, with what the skew adds at its end and what was left of the pass before
(R103, R127). Answers the count and the new tail. -/
def Tile.passCycles (t : Tile) (now : Nat) (o : ArrayOp) : Nat × Nat :=
  let gap := if o.pass = 0 then t.idleCycles now o else 0
  let tail := max (if t.skewed then o.lag else 0) (t.tail - gap - o.cycles)
  (o.cycles + tail + min gap t.tail - t.tail, tail)

/-- The first array-cycle of an operation: the snapshot of R109, the C operand, and the ramp of R101. -/
def State.beginOp (s : State) (d p : Nat) : State :=
  let t := s.tile d p
  match t.arrayQueue with
  | [] => s
  | o :: rest =>
    if o.begun then s
    else
      let f := outFmt o.slot.fmtOut
      let c := if o.slot.init = .load then s.tmRead d p o.desc.dst (f.bytesOf (o.desc.rows * colsOf o.slot)) else []
      let ramp := t.rampDue || decide (64 ≤ t.idleCycles s.now o)
      s.modTile d p fun x =>
        { x with
          arrayQueue := { o with begun := true, snapshot := x.acc, cOperand := c } :: rest
          rampDue := false
          skewed := x.skewed || ramp
          ramps := satAdd x.ramps (bool01 ramp) }

/-- Charges flickers to their arrays (R111, R112). -/
def Tile.noteFlickers (t : Tile) (now : Nat) (l : List Nat) : Tile :=
  l.foldl
    (fun x a => { x with
      flickerTimes := modAt x.flickerTimes a fun ts => now :: inWindow now (24 * hourNs) ts
      flickerBoot := modAt x.flickerBoot a (· + 1) })
    t

/-- The array that works at a grid position (R69). -/
def Tile.arrayAt (t : Tile) (pos : Nat) : Nat := if t.spareFor = some pos then 16 else pos

/-- What upsets strike at each grid position: those of the array that works there. -/
def Tile.hits (t : Tile) (l : List Upset) : Hits := fun pos block =>
  (l.filter fun u => u.array == t.arrayAt pos && u.block == block).map fun u => (u.site, u.flip)

/-- The operation after the pass that `x` came from. -/
def ArrayOp.afterPass (o : ArrayOp) (x : PassOut) (flickers : List Nat) (spareDue : Bool) (now : Nat) : ArrayOp :=
  let fl := o.flickers ++ flickers
  let last := o.pass + 1 = o.passes
  { o with
    pass := o.pass + 1
    flickers := fl
    amaxSeen := x.amax
    checks := x.checks
    nonFinite := o.nonFinite || x.nonFinite
    phase := if last then (if fl.isEmpty && !spareDue then .finished else .awaitReplay) else .passes
    endedAt := if last then now else o.endedAt }

/-- One pass of the head of the array queue, under the upsets that strike it, with the flickers that its comparisons
find (R77, R105). Blocks that are no longer held let a context switch that waits take place (R79). -/
def State.passWriteBack (s : State) (d p : Nat) (upsets : List Upset) : State :=
  let s1 := s.beginOp d p
  let t := s1.tile d p
  match t.arrayQueue with
  | [] => s
  | o :: rest =>
    let x := runPass (s1.tmRead d p) (t.hits upsets) o o.pass { acc := t.acc, held := t.held, amax := o.amaxSeen, checks := o.checks }
    let fl := x.flickers.map t.arrayAt
    let s2 := x.writes.foldl (fun y w => y.tmWrite d p w.1 w.2) s1
    let o1 := o.afterPass x fl (!t.pendingSpare.isEmpty) s.now
    let run := t.passCycles s.now o
    let s3 := (if o1.phase = .awaitReplay then s2.chargeStall d p else s2).modTile d p fun y =>
      { y.noteFlickers s.now fl with
        arrayQueue := o1 :: rest
        acc := x.acc
        held := x.held
        lastArray := s.now
        tail := run.2
        arrayCycles := satAdd y.arrayCycles run.1
        zeroGated := y.zeroGated + x.gated
        g4eEscapes := satAdd y.g4eEscapes x.escapes
        g4eMismatch := satAdd y.g4eMismatch x.mismatches }
    if x.held.isEmpty && !t.held.isEmpty then s3.settle d p else s3

/-- ARRAY_PASS_WRITE_BACK (R77): a pass of the executing operation ends. -/
def execArrayPassWriteBack (d p : Nat) (upsets : List Upset) (s : State) : Host.Outcome State Fault Refusal :=
  if tileExists d p then
    match (s.tile d p).arrayQueue with
    | [] => .next s
    | o :: _ => .next (if s.gridRuns d p && o.phase == .passes then s.passWriteBack d p upsets else s)
  else .fault .noSuchUnit

/-! ### Completion, replay, spare -/

/-- Cycles of an execution from its first array-cycle to its last write-back (R103, R109, R129). -/
def ArrayOp.span (o : ArrayOp) (skewed : Bool) : Nat := o.passes * o.cycles + 6 + (if skewed then 28 else 0)

/-- An operation completes: amax cell, flag, SKIPPED_CYCLES, lock released, DONE_EVENT (R78, R99, R263). -/
def State.arrayDone (s : State) (d p : Nat) (o : ArrayOp) : State :=
  let s1 := s.chargeStall d p
  let s2 := if o.slot.amax then s1.noteAmax d p o.ctx o.amaxSeen else s1
  let s3 := s2.modTile d p fun t =>
    let t1 := t.modCtx o.ctx fun c => c.note { nonFinite := o.nonFinite, source := nfArray } o.segment o.bundle
    { t1 with
      arrayQueue := t1.arrayQueue.drop 1
      activeAt := s.now
      skippedCycles := satAdd t1.skippedCycles ((o.fullPasses - o.passes) * o.cycles)
      spareFor := if t1.spareFor.isNone then t1.pendingSpare.head? else t1.spareFor }
  s3.bump d p o.slot.done 1

/-- ARRAY_OP_COMPLETE (R78). -/
def execArrayOpComplete (d p : Nat) (s : State) : Host.Outcome State Fault Refusal :=
  if tileExists d p then
    match (s.tile d p).arrayQueue with
    | [] => .next s
    | o :: _ => .next (if s.gridRuns d p && o.phase == .finished then s.arrayDone d p o else s)
  else .fault .noSuchUnit

/-- A flickered array of the operation has reached a threshold and is not yet retired: its retirement
comes first. -/
def State.retirementDue (s : State) (d p : Nat) (o : ArrayOp) : Bool :=
  o.flickers.any fun a => !(s.tile d p).arrayRetired.getLsbD a && (s.flickerThreshold d p a).isSome

/-- The operation restarts from its snapshot (R109, R110). -/
def State.replay (s : State) (d p : Nat) (o : ArrayOp) : State :=
  let s1 := s.chargeStall d p
  let t := s1.tile d p
  let cycles := 40 + o.span t.skewed
  let o1 : ArrayOp :=
    { o with
      pass := 0, executions := o.executions + 1, phase := .passes, flickers := [], amaxSeen := none
      nonFinite := false, checks := [] }
  (s1.addStall d p o.ctx .flickerReplay cycles).modTile d p fun x =>
    { x with
      arrayQueue := o1 :: x.arrayQueue.drop 1
      acc := o.snapshot
      replayCycles := satAdd x.replayCycles cycles }

/-- FLICKER_REPLAY (R109): the third execution's flicker is no replay but the tile's retirement (R114). -/
def execFlickerReplay (d p : Nat) (s : State) : Host.Outcome State Fault Refusal :=
  if tileExists d p then
    let t := s.tile d p
    match t.arrayQueue with
    | [] => .next s
    | o :: _ =>
      let due := o.phase == .awaitReplay && (decide (o.executions < 3) || o.flickers.isEmpty) && t.pendingSpare.isEmpty &&
        !s.retirementDue d p o
      .next (if s.gridRuns d p && due then s.replay d p o else s)
  else .fault .noSuchUnit

/-- SPARE_SUBSTITUTION_COMPLETE (R113): the time that it took counts under FLICKER_REPLAY (R110). -/
def execSpareSubstitutionComplete (d p : Nat) (s : State) : Host.Outcome State Fault Refusal :=
  if tileExists d p then
    let t := s.tile d p
    match t.arrayQueue, t.pendingSpare with
    | o :: rest, a :: _ =>
      if s.gridRuns d p && o.phase == .awaitReplay && t.spareAvailable then
        let cycles := cyclesIn (s.now - o.endedAt)
        let s1 := (s.chargeStall d p).addStall d p o.ctx .flickerReplay cycles
        .next (s1.modTile d p fun x =>
          { x with
            spareFor := some a
            arrayQueue := { o with endedAt := s.now } :: rest
            replayCycles := satAdd x.replayCycles cycles })
      else .next s
    | _, _ => .next s
  else .fault .noSuchUnit

end Sys2Proof.Machine
end

