-- ==== Sys2Proof/Machine/Background.lean ====
section
/-! DEFINITION. Background work and telemetry sampling: SRAM scrub, PHY calibration, lasers, flash wear
and the 1 ms record (R743 to R760). -/

namespace Sys2Proof.Machine

/-! ### Telemetry (R749 to R758) -/

/-- The next multiple of a period after a time. -/
def nextTick (period t : Nat) : Nat := (t / period + 1) * period

/-- Temperature bin of R758, of a value in 1/16 °C. -/
def tempBin (t : Int) : Nat :=
  if t < 40 * 16 then 0
  else if 110 * 16 ≤ t then 15
  else ((t.toNat - 35 * 16) / 80)

/-- The record counts a millisecond in the bin of each stack in service. -/
def State.countTemps (s : State) : List Nat :=
  (List.range 8).foldl
    (fun h st => if s.stackInService st then modAt h (16 * st + tempBin (s.stack st).hottest) fun n => satAdd n 1 else h)
    s.tele.histTemp

/-- Vector 25, once for each excess over the threshold (R754). -/
def State.teleInterrupt (s : State) : State :=
  if !s.tele.signalled && decide (s.tele.threshold < s.tele.nextSeq - s.tele.cursor) then
    ({ s with tele := { s.tele with signalled := true } } : State).signal 25
  else s

/-- The in-band interrupt for the I3C cursor (R757). -/
def State.i3cInterrupt (s : State) : State :=
  if !s.i3c.signalled && s.i3c.ibiEnabled && decide (s.tele.threshold < s.tele.nextSeq - s.i3c.cursor) then
    { s with i3c := { s.i3c with signalled := true, ibiPending := s.i3c.ibiPending ++ [1] } }
  else s

/-- Closes the interval that ends at `tick` and appends its record. -/
def State.closeInterval (s : State) (tick meanPower : Nat) : State :=
  let t := s.tele
  let seq := t.nextSeq
  { s with
    tele := { t with
      ring := pushRing 2048 t.ring (seq, s.telemetryRecord seq tick meanPower)
      nextSeq := seq + 1
      lastSample := tick
      partialInterval := false
      stepEnded := false
      eventSeen := false
      prev := s.teleSums
      prevChannels := s.hbm.flatMap fun k => (List.range 32).map fun c =>
        ((k.channels.getD c {}).bytes, (k.bsus.getD c {}).internalBytes)
      prevStacks := s.hbm.map fun k => [k.refreshForced, k.rfmIssued, k.narrowSectors, k.corrected]
      prevTiles := s.tiles.map fun x => x.arrayCycles :: x.stallSums
      histTemp := s.countTemps
      records := satAdd t.records 1 }
    hbm := s.hbm.map fun k => { k with maxDebt := 0 } }

/-- TELEMETRY_SAMPLE (R749): the end of a 1 ms interval of BOOT_NS. -/
def execTelemetrySample (meanPowerMw : Nat) (s : State) : Host.Outcome State Fault Refusal :=
  if s.dev.lit && s.tele.sampling then
    let tick := nextTick msNs s.tele.lastSample
    .next (((s.advanceTo tick).closeInterval tick meanPowerMw).teleInterrupt.i3cInterrupt)
  else .next s

/-! ### Lasers (R745, R746) -/

/-- Output more than 1 dB below the set point: output ten times over, 1 dB is a factor of ten. -/
def oneDbBelow (output set : Nat) : Bool := decide (output ^ 10 * 10 < set ^ 10)

/-- The other source of a combiner; for die-to-die sources the ACTIVE one besides. -/
def State.laserPartner (s : State) (i : Nat) : Option Nat :=
  if i < 4 then (List.range 4).find? fun j => j != i && (s.laser j).state == .active
  else some (if i % 2 = 0 then i + 1 else i - 1)

/-- The lowest-numbered STANDBY die-to-die source. -/
def State.standby (s : State) : Option Nat := (List.range 4).find? fun j => (s.laser j).state == .standby

def State.countSwitchover (s : State) : State :=
  { s with tele := { s.tele with laserSwitchovers := satAdd s.tele.laserSwitchovers 1 } }

/-- A worn source is replaced by a STANDBY one and becomes STANDBY (step 1 of R746). -/
def State.replaceLaser (s : State) (i : Nat) : State :=
  if i < 4 then
    match s.standby with
    | some j =>
      let w := s.laser i
      ((s.modLaser j fun l => { l with state := .active, setOutput := w.setOutput }).modLaser i fun l =>
        { l with state := .standby, setOutput := 0, lowering := true }).countSwitchover
    | none => s
  else s

/-- A source is RETIRED: its partner carries the full output, until a STANDBY source, where there is
one, takes the retired one's place (steps 2 and 3 of R746). -/
def State.retireLaser (s : State) (i : Nat) : State :=
  let w := s.laser i
  let partner := s.laserPartner i
  let spare := if i < 4 then s.standby else none
  let s1 := s.modLaser i fun l => { l with state := .retired, setOutput := 0 }
  match spare with
  | some j => (s1.modLaser j fun l => { l with state := .active, setOutput := w.setOutput }).countSwitchover
  | none =>
    match partner with
    | some j => s1.modLaser j fun l => if l.state = .active then { l with setOutput := 2 * w.setOutput } else l
    | none => s1

/-- LASER_TRACKING (R746): the 1 s sample of one source. -/
def execLaserTracking (source drive output : Nat) (temp : BitVec 16) (s : State) : Host.Outcome State Fault Refusal :=
  if source < 20 then
    if s.dev.lit then
      let s1 := s.modLaser source fun l =>
        { l with
          drive := drive, output := output, temp := temp, lowering := false
          setOutput := if l.setOutput = 0 && l.state == .active then output else l.setOutput
          onSeconds := if l.state = .active then l.onSeconds + 1 else l.onSeconds }
      let l := s1.laser source
      if l.state ≠ .active then .next s1
      else if 1400 ≤ drive then .next (s1.retireLaser source)
      else if 1250 ≤ drive || oneDbBelow output l.setOutput then .next (s1.replaceLaser source)
      else .next s1
    else .next s
  else .fault .noSuchUnit

/-- LASER_OUTPUT_DROP (R746): more than 3 dB within 1 ms. -/
def execLaserOutputDrop (source output : Nat) (s : State) : Host.Outcome State Fault Refusal :=
  if source < 20 then
    if s.dev.lit && (s.laser source).state == .active then
      .next ((s.modLaser source fun l => { l with output := output }).retireLaser source)
    else .next s
  else .fault .noSuchUnit

/-! ### Flash wear (R748) -/

/-- A block is erased; one that fails the erase gives its place to a spare, while there is one (R748). -/
def Flash.eraseBlock (f : Flash) (block : Nat) (ok : Bool) : Flash :=
  if ok || f.spareBlocks == 0 then { f with erases := modAt f.erases block (· + 1) }
  else { f with erases := modAt f.erases block fun _ => 0, spareBlocks := f.spareBlocks - 1, retiredBlocks := f.retiredBlocks + 1 }

/-- FLASH_RELOCATION (R748): a block worn 1,000 erases beyond the mean, with the controller idle. -/
def execFlashRelocation (block : Nat) (eraseOk : Bool) (s : State) : Host.Outcome State Fault Refusal :=
  if block < 256 then
    let e := s.flash.erases
    if s.dev.lit && s.events.appends.isEmpty && decide (e.sum + 1000 * 256 < e.getD block 0 * 256) then
      .next { s with
        flash := s.flash.eraseBlock block eraseOk
        tele := { s.tele with flashRelocations := satAdd s.tele.flashRelocations 1 } }
    else .next s
  else .fault .noSuchUnit

/-! ### On-chip scrub (R743) -/

/-- Whether the memory of a scrubbed word exists, and whether its domain is lit. -/
def sramExists : SramRef → Bool
  | .tileMemory d p => tileExists d p
  | .sharedBuffer die page => decide (die < 2) && decide (page < 12288)
  | .bsuSram st ch => decide (st < 8) && decide (ch < 32)
  | .beaconBuffer page => decide (page < 8192)
  | .lamplighter => true

def State.sramLit (s : State) : SramRef → Bool
  | .tileMemory d p => (s.tile d p).lit
  | .sharedBuffer die page => s.sharedLit.getD (4 * die + page / 3072) false
  | .bsuSram st ch => (s.bsu st ch).state == .idle || (s.bsu st ch).state == .running
  | .beaconBuffer _ | .lamplighter => s.dev.lit

/-- A word was corrected and written back. -/
def State.scrubCorrectedWord (s : State) (w : SramRef) : State :=
  let s1 : State := { s with tele := { s.tele with scrubCorrected := satAdd s.tele.scrubCorrected 1 } }
  match w with
  | .tileMemory d p => s1.tmCorrectedWord d p
  | .sharedBuffer .. => { s1 with sharedCorrected := s1.sharedCorrected + 1 }
  | .bsuSram st ch => s1.modBsu st ch fun b => { b with sramCorrected := satAdd b.sramCorrected 1 }
  | .beaconBuffer _ | .lamplighter => { s1 with sharedCorrected := s1.sharedCorrected + 1 }

/-- An uncorrectable word counts one uncorrectable event of its unit; Lamplighter restarts (R605). -/
def State.scrubFailedWord (s : State) (w : SramRef) : State :=
  match w with
  | .tileMemory d p => s.tmFailedRead d p
  | .sharedBuffer die page => s.sharedPageEvent die page
  | .bsuSram st ch => s.bsuSramEvent st ch
  | .beaconBuffer page => s.beaconPageEvent page
  | .lamplighter => s.lampRestart .sramUncorrectable

/-- SRAM_SCRUB_WORD (R743). -/
def execSramScrubWord (word : SramRef) (ecc : Option EccOutcome) (passDone : Bool) (s : State) :
    Host.Outcome State Fault Refusal :=
  if sramExists word then
    if s.sramLit word then
      let s1 : State :=
        if passDone then { s with tele := { s.tele with scrubPasses := satAdd s.tele.scrubPasses 1 } } else s
      match ecc with
      | none | some .onDie | some .retried => .next s1
      | some .corrected => .next (s1.scrubCorrectedWord word)
      | some .uncorrectable => .next (s1.scrubFailedWord word)
    else .next s
  else .fault .noSuchUnit

/-! ### PHY calibration (R744) -/

/-- PHY_CALIBRATION (R744): holds one pseudo-channel for up to 200 ns, one of a stack at a time (R742); none runs in
HALT. -/
def execPhyCalibration (st pch : Nat) (s : State) : Host.Outcome State Fault Refusal :=
  if st < 8 ∧ pch < 64 then
    if s.dev.lit && s.stackInService st && (s.stack st).stage != .halt then
      let t := s.advanceTo (((s.stack st).calibrating.map (·.2)).getD 0)
      .next ((({ t with tele := { t.tele with phyCalibrations := satAdd t.tele.phyCalibrations 1 } } : State)).modStack st
        fun k => { k with calibrating := some (pch, t.now + 200), nextCalibration := (pch + 1) % 64 })
    else .next s
  else .fault .noSuchUnit

end Sys2Proof.Machine
end

