-- ==== Sys2Proof/Machine/FtcCodec.lean ====
section
/-! DEFINITION. Fixed-table compression as a code (R502 to R513, R517): tables, sub-streams, blocks. -/

namespace Sys2Proof.Machine

/-! ### Tables (R507) -/

/-- How a unit's bytes map to head symbols and tail bytes. -/
inductive FtcMap where
  | byte | top16 | top32 | pair8 | xor32 | xor16
  deriving DecidableEq, Repr

structure FtcTable where
  map : FtcMap
  centre : Nat
  k : Nat
  deriving DecidableEq, Repr

def ftcTable : Nat → FtcTable
  | 0x0 => ⟨.byte, 0x00, 0⟩ | 0x1 => ⟨.byte, 0x00, 1⟩ | 0x2 => ⟨.byte, 0x00, 2⟩
  | 0x3 => ⟨.top16, 0x78, 1⟩ | 0x4 => ⟨.top16, 0x78, 2⟩ | 0x5 => ⟨.top16, 0x70, 1⟩
  | 0x6 => ⟨.top16, 0x7E, 1⟩ | 0x7 => ⟨.top16, 0x70, 1⟩
  | 0x8 => ⟨.top32, 0x78, 1⟩ | 0x9 => ⟨.top32, 0x70, 1⟩ | 0xA => ⟨.top32, 0x7E, 1⟩
  | 0xB => ⟨.pair8, 0x66, 1⟩
  | 0xC => ⟨.xor32, 0x00, 0⟩ | 0xD => ⟨.xor32, 0x00, 1⟩
  | 0xE => ⟨.xor16, 0x00, 0⟩ | _ => ⟨.xor16, 0x00, 1⟩

/-- Unit width W. -/
def FtcMap.width : FtcMap → Nat
  | .byte => 1
  | .top16 | .pair8 | .xor16 => 2
  | .top32 | .xor32 => 4

/-- Head symbols H. -/
def FtcMap.heads : FtcMap → Nat
  | .xor32 => 2
  | .byte | .top16 | .top32 | .pair8 | .xor16 => 1

def rotl1 (x : Nat) : Nat := (2 * x + x / 128) % 256
def rotr1 (x : Nat) : Nat := x / 2 + x % 2 * 128
def rotn (x : Nat) : Nat := (2 * x + x / 8) % 16
def rotnInv (x : Nat) : Nat := x / 2 + x % 2 * 8

/-- Head symbols and tail bytes of a unit. -/
def FtcMap.split (m : FtcMap) (u : List Nat) : List Nat × List Nat :=
  let b := fun i => u.getD i 0
  match m with
  | .byte => ([b 0], [])
  | .top16 => ([rotl1 (b 1)], [b 0])
  | .top32 => ([rotl1 (b 3)], [b 0, b 1, b 2])
  | .pair8 => ([rotn (b 1 / 16) * 16 + rotn (b 0 / 16)], [b 1 % 16 * 16 + b 0 % 16])
  | .xor32 => ([b 3, b 2], [b 0, b 1])
  | .xor16 => ([b 1], [b 0])

/-- The bytes of a unit. -/
def FtcMap.join (m : FtcMap) (heads tail : List Nat) : List Nat :=
  let h := fun i => heads.getD i 0
  let t := fun i => tail.getD i 0
  match m with
  | .byte => [h 0]
  | .top16 => [t 0, rotr1 (h 0)]
  | .top32 => [t 0, t 1, t 2, rotr1 (h 0)]
  | .pair8 => [rotnInv (h 0 % 16) * 16 + t 0 % 16, rotnInv (h 0 / 16) * 16 + t 0 / 16]
  | .xor32 => [t 0, t 1, h 1, h 0]
  | .xor16 => [t 0, h 0]

/-! ### Codes (R508, R509) -/

/-- `n` bits of a value, most significant first. -/
def bitsMsb (n v : Nat) : List Bool := (List.range n).reverse.map fun i => v.testBit i

def ofBitsMsb (l : List Bool) : Nat := l.foldl (fun v b => 2 * v + bool01 b) 0

/-- The code of a head symbol. -/
def ftcEncode (t : FtcTable) (h : Nat) : List Bool :=
  let x := (h + 256 - t.centre + 128) % 256
  let rank := if 128 ≤ x then 2 * (x - 128) else 2 * (128 - x) - 1
  let v := rank + 2 ^ t.k
  let n := v.log2 + 1
  List.replicate (n - t.k - 1) false ++ bitsMsb n v

/-- Kinds of COMPRESSED_SIZE_MISMATCH (R517). -/
def ftcBadTag : Nat := 1
def ftcRawSize : Nat := 2
def ftcCompSize : Nat := 3
def ftcOverrun : Nat := 4
def ftcOverlong : Nat := 5
def ftcBadCode : Nat := 6
def ftcTruncated : Nat := 7

/-- Reads one code: its rank, and what is left. `z` zeros have been read. -/
def ftcRank (k : Nat) : Nat → List Bool → Except Nat (Nat × List Bool)
  | _, [] => .error ftcOverrun
  | z, false :: r => if 8 - k < z + 1 then .error ftcBadCode else ftcRank k (z + 1) r
  | z, true :: r =>
    if r.length < z + k then .error ftcOverrun
    else
      let rank := 2 ^ (z + k) + ofBitsMsb (r.take (z + k)) - 2 ^ k
      if 255 < rank then .error ftcBadCode else .ok (rank, r.drop (z + k))

/-- The symbol of a rank. -/
def ftcSymbol (centre rank : Nat) : Nat :=
  if rank % 2 = 0 then (centre + rank / 2) % 256 else (centre + 256 - (rank + 1) / 2) % 256

/-- Reads `n` symbols. -/
def ftcSymbols (t : FtcTable) : Nat → List Bool → Except Nat (List Nat × List Bool)
  | 0, l => .ok ([], l)
  | n + 1, l =>
    match ftcRank t.k 0 l with
    | .error e => .error e
    | .ok (r, l1) =>
      match ftcSymbols t n l1 with
      | .error e => .error e
      | .ok (s, l2) => .ok (ftcSymbol t.centre r :: s, l2)

/-! ### Sub-streams (R510, R511) -/

/-- Bits of the head plane as bytes, bit 0 first, padded with zeros. -/
def planeBytes : Nat → List Bool → List Byte
  | 0, _ => []
  | n + 1, l =>
    if l.isEmpty then []
    else BitVec.ofNat 8 (ofBitsMsb (List.replicate (8 - (l.take 8).length) false ++ (l.take 8).reverse)) :: planeBytes n (l.drop 8)

def planeBits (bs : List Byte) : List Bool := bs.flatMap fun b => (List.range 8).map fun i => b.toNat.testBit i

/-- First unit of a sub-stream. -/
def subStart (i units : Nat) : Nat := i * units / 8

def ftcSubEncode (t : FtcTable) (units : List (List Nat)) : List Byte :=
  let parts := units.map t.map.split
  let heads := parts.flatMap fun p => p.1.flatMap (ftcEncode t)
  (parts.flatMap (·.2)).map (BitVec.ofNat 8) ++ planeBytes (heads.length / 8 + 1) heads

/-- Decodes a sub-stream of `n` units. -/
def ftcSubDecode (t : FtcTable) (n : Nat) (bs : List Byte) : Except Nat (List Byte) :=
  let w := t.map.width - t.map.heads
  if bs.length < n * w then .error ftcOverrun
  else
    match ftcSymbols t (n * t.map.heads) (planeBits (bs.drop (n * w))) with
    | .error e => .error e
    | .ok (hs, rest) =>
      if 8 ≤ rest.length ∨ rest.any id then .error ftcOverlong
      else
        let tails := (bs.take (n * w)).map BitVec.toNat
        .ok (((List.range n).flatMap fun u =>
          t.map.join ((hs.drop (u * t.map.heads)).take t.map.heads) ((tails.drop (u * w)).take w)).map (BitVec.ofNat 8))

/-! ### Blocks (R502 to R505, R512, R513) -/

/-- A block with its header, padded to 32 bytes. -/
def ftcPack (control rawSize : Nat) (subs : List Nat) (payload : List Byte) : List Byte :=
  let h := leBytes 1 0xF7 ++ leBytes 1 control ++ leBytes 2 rawSize ++ leBytes 2 payload.length ++ zeros 2 ++
    subs.flatMap (leBytes 2) ++ zeros 8
  h ++ payload ++ zeros (roundUp payload.length 32 - payload.length)

/-- The eight sub-streams of raw bytes under a table. -/
def ftcSubs (i : Nat) (raw : List Byte) : List (List Byte) :=
  let t := ftcTable i
  let us := chunks t.map.width (raw.length + 1) (raw.map BitVec.toNat)
  (List.range 8).map fun j =>
    ftcSubEncode t ((us.drop (subStart j us.length)).take (subStart (j + 1) us.length - subStart j us.length))

/-- The table with the smallest payload, ties to the lower, with its sub-streams. -/
def ftcBest (raw : List Byte) : Nat × List (List Byte) :=
  let size := fun (s : List (List Byte)) => (s.map List.length).sum
  (List.range 16).foldl
    (fun best i => let s := ftcSubs i raw; if i ≠ 0 ∧ size s < size best.2 then (i, s) else best) (0, ftcSubs 0 raw)

/-- An encoded block. -/
structure FtcBlock where
  bytes : List Byte
  /-- The table used, none for a raw block. -/
  table : Option Nat
  deriving DecidableEq, Repr

/-- Encodes one block of raw bytes (R513). -/
def ftcEncodeBlock (last : Bool) (raw : List Byte) : FtcBlock :=
  let (i, subs) := ftcBest raw
  let payload := subs.flatMap id
  if payload.length < raw.length then
    { bytes := ftcPack (i + 32 * bool01 last) raw.length (subs.map List.length) payload, table := some i }
  else { bytes := ftcPack (16 + 32 * bool01 last) raw.length (List.replicate 8 0) raw, table := none }

/-- The blocks of a whole stream of raw bytes. -/
def ftcEncodeAll (raw : List Byte) : List FtcBlock :=
  let cs := chunks 4096 (raw.length / 4096 + 1) raw
  cs.mapIdx fun i c => ftcEncodeBlock (i + 1 == cs.length) c

/-- A decoded block: raw bytes, stored bytes, whether it is the LAST one and a raw one. -/
structure FtcDecoded where
  raw : List Byte
  stored : Nat
  last : Bool
  isRaw : Bool
  deriving DecidableEq, Repr

/-- Decodes the sub-streams in order; the first failure with its sub-stream. -/
def ftcDecodeSubs (t : FtcTable) (units : Nat) (sizes : List Nat) : Nat → List Byte → Except (Nat × Nat) (List Byte)
  | 0, _ => .ok []
  | n + 1, bs =>
    let j := 7 - n
    match ftcSubDecode t (subStart (j + 1) units - subStart j units) (bs.take (sizes.getD j 0)) with
    | .error e => .error (e, j)
    | .ok r =>
      match ftcDecodeSubs t units sizes n (bs.drop (sizes.getD j 0)) with
      | .error e => .error e
      | .ok rest => .ok (r ++ rest)

/-- Checks and decodes the block at the front of the bytes that remain of a tensor (R517). -/
def ftcDecodeBlock (bs : List Byte) : Except (Nat × Nat) FtcDecoded :=
  let comp := field bs 4 2
  if bs.length < 32 ∨ bs.length < 32 + roundUp comp 32 then .error (ftcTruncated, 0)
  else
    let control := field bs 1 1
    let raw := field bs 2 2
    let subs := (List.range 8).map fun i => field bs (8 + 2 * i) 2
    let isRaw := bit control 4
    let last := bit control 5
    let payload := slice bs 32 comp
    if field bs 0 1 ≠ 0xF7 ∨ 64 ≤ control ∨ field bs 6 2 ≠ 0 ∨ field bs 0x18 8 ≠ 0 then .error (ftcBadTag, 0)
    else if raw % 32 ≠ 0 ∨ raw < 32 ∨ 4096 < raw ∨ (!last ∧ raw ≠ 4096) then .error (ftcRawSize, 0)
    else if isRaw then
      if control % 16 = 0 ∧ subs.all (· == 0) ∧ comp = raw then
        .ok { raw := payload, stored := 32 + roundUp comp 32, last := last, isRaw := true }
      else .error (ftcCompSize, 0)
    else if comp ≠ subs.sum ∨ raw ≤ comp then .error (ftcCompSize, 0)
    else
      let t := ftcTable (control % 16)
      match ftcDecodeSubs t (raw / t.map.width) subs 8 payload with
      | .error e => .error e
      | .ok r => .ok { raw := r, stored := 32 + roundUp comp 32, last := last, isRaw := false }

end Sys2Proof.Machine
end

