-- ==== Sys2Proof/Machine/Streams.lean ====
section
/-! DEFINITION. Streams: the slot operations of a bundle, the stream instructions, requests and their
deadlines, buffers, index FIFOs and FTC streams (R162, R204 to R217, R513 to R520). -/

namespace Sys2Proof.Machine

/-! ### The state of a stream -/

def State.outstanding (s : State) (r : StreamRef) : List Req := s.inFlight (refOwner r)

/-- The instruction at a stream's program counter. -/
def State.streamInstr (s : State) (r : StreamRef) : StreamInstr :=
  let x := s.slotAt r
  match s.program with
  | some g => g.streamInstr x.program x.pc
  | none => streamInstrOf 0

/-- A stream executes instructions: RUNNING, holding its FTC unit, and not past END. -/
def State.streamActs (s : State) (r : StreamRef) : Bool :=
  let x := s.slotAt r
  s.stepOpen && !s.stopped && x.state == .running && x.wait != .ftcUnit && !x.ended

/-- The stream ends in error at its present instruction. -/
def State.streamFail (s : State) (r : StreamRef) (reason tier : Nat) (dst : Bool) : State :=
  s.streamFails (refOwner r) reason (s.slotAt r).pc tier dst

/-- What a wait of the slot's tile or BSU is charged to may change now: its stall is charged so far (R225, R496). -/
def State.chargeOwner (s : State) (o : ReqOwner) : State :=
  match o with
  | .tileSlot d p _ => s.chargeStall d p
  | .bsuSlot st ch _ => s.chargeBsu st ch
  | .xfer .. | .dma _ | .beacon _ | .event => s

/-- The stream waits; the wait has a beginning. -/
def State.streamWaits (s : State) (r : StreamRef) (w : StreamWait) : State :=
  (s.chargeOwner (refOwner r)).modSlot r fun x => if x.wait = w then x else { x with wait := w, waitSince := s.now }

/-- The stream waits no longer. Time under back-pressure does not count against STALL_LIMIT (R231). -/
def StreamSlot.resume (now : Nat) (x : StreamSlot) : StreamSlot :=
  { x with
    wait := .none
    lastLanded := if x.wait = .backPressure then x.lastLanded + (now - max x.waitSince x.lastLanded) else x.lastLanded }

/-! ### FTC units (R213, R519, R520) -/

def ftcUnits (die : Nat) (enc : Bool) : Nat := if enc || decide (die = 2) then 32 else 64

def Ftc.busy (f : Ftc) (enc : Bool) : Nat := if enc then f.encBusy else f.decBusy

def Ftc.waiting (f : Ftc) (enc : Bool) : List Nat := if enc then f.encWaiting else f.decWaiting

def Ftc.setBusy (f : Ftc) (enc : Bool) (n : Nat) : Ftc := if enc then { f with encBusy := n } else { f with decBusy := n }

def Ftc.setWaiting (f : Ftc) (enc : Bool) (l : List Nat) : Ftc := if enc then { f with encWaiting := l } else { f with decWaiting := l }

def StreamHead.ftc (h : StreamHead) : Bool := h.decodeFtc || h.encodeFtc

/-- A slot takes a unit of its die, or waits for one. -/
def State.takeUnit (s : State) (r : StreamRef) (enc : Bool) : State :=
  let die := refDie r
  let f := s.ftc.getD die {}
  if f.busy enc < ftcUnits die enc then
    (s.modFtc die fun f => f.setBusy enc (f.busy enc + 1)).modSlot r fun x => { x with ftcUnit := true }
  else (s.modFtc die fun f => f.setWaiting enc (f.waiting enc ++ [refKey r])).streamWaits r .ftcUnit

/-- A stream does so at START. -/
def State.takeFtc (s : State) (r : StreamRef) (h : StreamHead) : State := if h.ftc then s.takeUnit r h.encodeFtc else s

/-- It gives the unit back at its end. -/
def State.freeFtc (s : State) (r : StreamRef) (h : StreamHead) : State :=
  if (s.slotAt r).ftcUnit then
    (s.modFtc (refDie r) fun f => f.setBusy h.encodeFtc (f.busy h.encodeFtc - 1)).modSlot r fun x => { x with ftcUnit := false }
  else s

/-- The slot of a slot key (R194). -/
def keyRef (k : Nat) : StreamRef :=
  if k < 12800 then .tile (k / 6400) (k % 6400 / 128) (k % 128)
  else .bsu ((k - 12800) / 512) ((k - 12800) % 512 / 16) ((k - 12800) % 16)

def minOf : List Nat → Option Nat
  | [] => none
  | a :: l => some (l.foldl min a)

/-- FTC_UNIT_GRANT (R520): a free unit goes to the waiting stream with the lowest slot key. -/
def State.ftcGrant (s : State) (die : Nat) (enc : Bool) : State :=
  let f := s.ftc.getD die {}
  match minOf (f.waiting enc) with
  | none => s
  | some k =>
    if f.busy enc < ftcUnits die enc then
      let r := keyRef k
      let waited := s.now - (s.slotAt r).waitSince
      (s.modFtc die fun g =>
        { (g.setBusy enc (g.busy enc + 1)).setWaiting enc ((g.waiting enc).erase k) with unitWaitNs := satAdd g.unitWaitNs waited }).modSlot r
        fun x => { x with ftcUnit := true, wait := .none }
    else s

def execFtcUnitGrant (die : Nat) (encoder : Bool) (s : State) : Host.Outcome State Fault Refusal :=
  if die < 3 then .next (s.ftcGrant die encoder) else .fault .noSuchUnit

/-! ### Slot operations (R162, R163, R206, R211) -/

/-- A slot as START leaves it, with the Q registers from the parameters that it names. What an index stream has
delivered to it, and that one's completion, stay (R215). -/
def StreamSlot.started (x : StreamSlot) (now time ctx done : Nat) (q : List (BitVec 64)) : StreamSlot :=
  { program := x.program, ftcError := x.ftcError, fifo := x.fifo, indexDone := x.indexDone
    state := .running, q := q, done := done, ctx := ctx, startTime := time, lastLanded := now, waitSince := now }

/-- An index stream that starts has not completed for its data stream. -/
def State.clearIndexDone (s : State) (r : StreamRef) : State :=
  match s.dataSlot r with
  | some x => s.modSlot x fun y => { y with indexDone := false }
  | none => s

/-- Starts a slot that is bound and idle. -/
def State.startSlot (s : State) (r : StreamRef) (ctx done : Nat) (q : List (BitVec 64)) : State :=
  let s1 := s.modSlot r fun x => x.started s.now (s.timer (refDie r)).toNat ctx done q
  (s1.clearIndexDone r).takeFtc r (s1.headOf r)

/-- The Q registers that START loads (R206). -/
def startQ (c : Context) (arg : Nat) : List (BitVec 64) :=
  (List.range 4).map fun i => (c.params.getD ((arg % 16 + i) % 16) 0).zeroExtend 64

/-- BIND. Blocks that a bound and idle slot still holds stay held (DESIGN CHOICE, log 96). -/
def State.opBind (s : State) (d p n prog : Nat) : State :=
  let t := s.tile d p
  match (t.slot n).state with
  | .unbound | .idle => s.modSlot (.tile d p n) fun x => { x with state := .idle, program := prog }
  | .running => s.progFault d p t.running pfSlotRunning n
  | .error => s

/-- Counters that an earlier stream of a slot named keep its tier (R171). -/
def State.pastTags (s : State) (d p n : Nat) : State :=
  let past := fun (g : CounterTag) =>
    match g with
    | .stream k tier => if k = n then .pastStream tier else g
    | .none | .pastStream _ | .xfer | .coll | .array | .vector => g
  s.modTile d p fun t => { t with tags := t.tags.map past }

/-- The tier of a side of a stream: that of the instance's pool in place of STACK_LOCAL on a font side (R322). -/
def State.sideTier (s : State) (r : StreamRef) (tensor tier : Nat) : Nat :=
  match s.program.bind fun g => g.fontIndex tensor with
  | none => tier
  | some e =>
    match s.fontPlace (refDie r) e (s.slotAt r).ctx with
    | .placed region off _ => addrTier (refDie r) (s.poolAddr region off)
    | .empty | .dropped => tier

/-- The tier that R171 calls a stream's source tier (R224, R322). -/
def State.causeTierOf (s : State) (r : StreamRef) : Nat :=
  let h := s.headOf r
  if h.srcTier ≤ 2 then s.sideTier r h.dstTensor h.dstTier else s.sideTier r h.srcTensor h.srcTier

def State.opStart (s : State) (d p n arg done : Nat) : State :=
  let t := s.tile d p
  let r := StreamRef.tile d p n
  match (t.slot n).state with
  | .unbound => s.progFault d p t.running pfSlotUnbound n
  | .running => s.progFault d p t.running pfSlotRunning n
  | .error => s
  | .idle =>
    let s1 := s.startSlot r t.running done (startQ t.current arg)
    let h := s1.headOf r
    let g := CounterTag.stream n (s1.causeTierOf r)
    let s2 := (s1.pastTags d p n).tag d p done g
    if h.buffered then s2.tag d p h.blockEvent g else s2

/-- CONSUME (R211). The bytes released feed the rate of R217. -/
def State.opConsume (s : State) (d p n blocks : Nat) : State :=
  let t := s.tile d p
  let r := StreamRef.tile d p n
  let x := t.slot n
  match x.state with
  | .unbound => s.progFault d p t.running pfSlotUnbound n
  | .error => s
  | .idle | .running =>
    if x.blocksHeld < blocks then
      if x.state = .running then s.streamFail r rsConsume tierTile true
      else
        -- the stream has ended: its slot enters ERROR all the same
        (s.modSlot r fun y => { y with state := .running }).streamFail r rsConsume tierTile true
    else
      s.modSlot r fun y =>
        { y with
          blocksHeld := y.blocksHeld - blocks
          heldBytes := y.heldBytes.drop blocks
          released := (s.now, (y.heldBytes.take blocks).sum) :: inWindowN s.now 8000 y.released }

def State.opUnbind (s : State) (d p n : Nat) : State :=
  let t := s.tile d p
  match (t.slot n).state with
  | .unbound => s.progFault d p t.running pfSlotUnbound n
  | .running => s.progFault d p t.running pfSlotRunning n
  | .error => s
  | .idle => s.modSlot (.tile d p n) fun x => { x with state := .unbound }

/-- A stream slot's operation of the running context's bundle. -/
def State.streamSlotOp (s : State) (d p : Nat) (o : StreamOp) : State :=
  match o.sop with
  | 1 => s.opBind d p o.slot o.arg
  | 2 => s.opStart d p o.slot o.arg o.done
  | 3 => s.opConsume d p o.slot o.arg
  | 4 => s.opUnbind d p o.slot
  | _ => s

/-- A slot that a program can name (R148, R192). -/
def slotNamed (n : Nat) : Bool := decide (n < 127)

/-- STREAM_SLOT_NOP (R162). -/
def execStreamSlotNop (d p : Nat) (s : State) : Host.Outcome State Fault Refusal :=
  if tileExists d p then .next s else .fault .noSuchUnit

/-- BIND (R162). The program's index is one that check 4 of R144 lets through. -/
def execBind (d p slot prog : Nat) (s : State) : Host.Outcome State Fault Refusal :=
  if tileExists d p then
    let there := decide (prog < ((s.program.map fun g => g.entries secStreams).getD 0))
    .next (if s.canIssue d p && slotNamed slot && there then s.opBind d p slot prog else s)
  else .fault .noSuchUnit

/-- START (R206). -/
def execStart (d p slot arg done : Nat) (s : State) : Host.Outcome State Fault Refusal :=
  if tileExists d p then
    .next (if s.canIssue d p && slotNamed slot && decide (arg < 16) && decide (done < 256) then s.opStart d p slot arg done else s)
  else .fault .noSuchUnit

/-- CONSUME (R211). -/
def execConsume (d p slot blocks : Nat) (s : State) : Host.Outcome State Fault Refusal :=
  if tileExists d p then
    .next (if s.canIssue d p && slotNamed slot && decide (1 ≤ blocks) && decide (blocks < 4096) then s.opConsume d p slot blocks else s)
  else .fault .noSuchUnit

/-- UNBIND (R162). -/
def execUnbind (d p slot : Nat) (s : State) : Host.Outcome State Fault Refusal :=
  if tileExists d p then .next (if s.canIssue d p && slotNamed slot then s.opUnbind d p slot else s)
  else .fault .noSuchUnit

/-! ### Deadlines (R216, R217) -/

/-- Bytes that a stream has ahead of its consumer: completed blocks and requests in flight; for an index
stream, its FIFO. -/
def State.fill (s : State) (r : StreamRef) : Nat :=
  let flying := ((s.outstanding r).map (·.len)).sum
  match s.dataSlot r with
  | some x => 4 * (s.slotAt x).fifo.length + flying
  | none => (s.slotAt r).heldBytes.sum + flying

/-- Bytes that its consumer took in the last 8 µs: by CONSUME, or from its FIFO by INDEX (R217). -/
def State.drained (s : State) (r : StreamRef) : Nat :=
  let taken := match s.dataSlot r with
    | some x => (s.slotAt x).indexed
    | none => (s.slotAt r).released
  ((inWindowN s.now 8000 taken).map (·.2)).sum

/-- The deadline of a request that a stream issues now, on its die's timer. -/
def State.stamp (s : State) (r : StreamRef) (h : StreamHead) : BitVec 32 :=
  let x := s.slotAt r
  if !h.buffered && h.dstTier != tierIndex then
    BitVec.ofNat 32 (x.startTime + (if h.deadlineNs % 2 ^ 24 = 0 then 16777215 else h.deadlineNs % 2 ^ 24))
  else
    let rate8 := max (s.drained r) (h.rateHint * 128)
    let d := if rate8 = 0 then 16777215 else min (s.fill r * 8000 / rate8) 16777215
    s.timer (refDie r) + BitVec.ofNat 32 d

/-! ### Buffers and FIFOs (R209, R210, R215) -/

/-- The slot with an open block to write to; none when every block is filled and none released. -/
def StreamSlot.openBlock (h : StreamHead) (x : StreamSlot) : Option (StreamSlot × FillBlock) :=
  match x.filling.getLast? with
  | some b =>
    if b.closed then
      if x.blocksHeld + x.filling.length < h.ringBlocks then
        let n : FillBlock := { index := x.nextBlock }
        some ({ x with filling := x.filling ++ [n], nextBlock := (x.nextBlock + 1) % h.ringBlocks }, n)
      else none
    else some (x, b)
  | none =>
    if x.blocksHeld < h.ringBlocks then
      let n : FillBlock := { index := x.nextBlock }
      some ({ x with filling := [n], nextBlock := (x.nextBlock + 1) % h.ringBlocks }, n)
    else none

/-- Bytes are written into the open block. -/
def StreamSlot.fillOpen (h : StreamHead) (x : StreamSlot) (n : Nat) : StreamSlot :=
  match x.filling.getLast? with
  | none => x
  | some b =>
    let w := b.written + n
    { x with filling := x.filling.dropLast ++ [{ b with written := w, closed := b.closed || decide (h.blockSize ≤ w) }] }

/-- Entries of the FIFO that an index stream's requests in flight will take, and its free entries. -/
def State.fifoRoom (s : State) (r x : StreamRef) : Nat :=
  256 - ((s.slotAt x).fifo.length + ceilDiv (((s.outstanding r).map (·.len)).sum + (s.slotAt r).partWord.length) 4)

/-! ### Pieces of a MOVE (R204, R207) -/

/-- A request about to be issued. -/
structure Piece where
  src : Side
  dst : Side
  len : Nat
  tee : Option Nat := none
  data : Option (List Byte) := none
  block : Option Nat := none
  toEncoder : Bool := false
  deriving DecidableEq, Repr

/-- What a MOVE comes to next: a piece with the slot as it is then, a wait, or an error with the tier and
side that it blames. -/
inductive Next where
  | piece (x : StreamSlot) (q : Piece)
  | wait (w : StreamWait)
  | fail (reason tier : Nat) (dst : Bool)

def mask44 (a : Nat) : Nat := a % 2 ^ 44

/-- A stream sets one of the tee flags. -/
def StreamHead.tees (h : StreamHead) : Bool := h.tee || h.teeTranspose

/-- The block size of the tensor that a TEE_TRANSPOSE stream moves (R214); 1 without one. -/
def State.teeBlock (s : State) (h : StreamHead) : Nat :=
  if h.teeTranspose then
    match s.program.bind fun g => g.tensor (if h.srcTensor = noTensor then h.dstTensor else h.srcTensor) with
    | some t => (fmtOf t.fmt).block
    | none => 1
  else 1

/-- The parts of a MOVE that its instruction fixes. -/
structure MoveArgs where
  total : Nat
  toBuffer : Bool
  src : Nat
  dst : Nat
  tee : Nat
  deriving DecidableEq, Repr

def moveArgs (i : StreamInstr) (x : StreamSlot) : MoveArgs :=
  { total := i.imm % 2 ^ 24, toBuffer := bit i.imm 24
    src := mask44 (x.a.getD i.ra 0 + x.moveDone), dst := mask44 (x.a.getD i.rb 0 + x.moveDone)
    tee := mask44 (x.a.getD 3 0 + x.moveDone) }

/-- The destination of the next piece: the slot, the address in the destination's terms, the most bytes that
may go there, and the block; or a wait. -/
def State.moveTarget (s : State) (r : StreamRef) (h : StreamHead) (m : MoveArgs) (x : StreamSlot) :
    Except StreamWait (StreamSlot × Nat × Nat × Option Nat) :=
  if h.encodeFtc then .ok (x, noPlace, 256, none)
  else if h.buffered then
    match x.openBlock h with
    | none => .error .backPressure
    | some (y, b) =>
      let a := h.bufBase % 2 ^ 21 + h.blockSize * b.index + b.written
      .ok (y, a, min (toGranule a) (h.blockSize - b.written), some b.index)
  else
    match s.dataSlot r with
    | some t =>
      let n := min (m.total - x.moveDone) (if h.decodeFtc then 256 else toGranule m.src)
      if s.fifoRoom r t < ceilDiv n 4 then .error .backPressure else .ok (x, noPlace, 256, none)
    | none => .ok (x, m.dst, toGranule m.dst, none)

/-- The destination side of a piece. -/
def State.moveDst (s : State) (r : StreamRef) (h : StreamHead) (x : StreamSlot) (a n : Nat) : Except Nat Side :=
  if h.dstTier = tierIndex ∨ h.encodeFtc then .ok { addr := noPlace, tier := h.dstTier } else s.side r x.ctx h.dstTensor h.dstTier false a n

/-- The next piece of a MOVE whose source is read as requests are granted, or whose bytes a decoder has
already delivered, up to byte `stop` of the MOVE. -/
def State.nextPiece (s : State) (r : StreamRef) (h : StreamHead) (i : StreamInstr) (x : StreamSlot) (stop : Nat) : Next :=
  let m := moveArgs i x
  match s.moveTarget r h m x with
  | .error w => .wait w
  | .ok (y, a, room, block) =>
    let n := min (min (stop - x.moveDone) room) (if h.decodeFtc then 256 else toGranule m.src)
    let tb := s.teeBlock h
    if h.teeTranspose && x.moveDone == 0 && !h.decodeFtc && m.src % tb != 0 then .fail rsTee h.srcTier false
    else if h.teeTranspose && x.moveDone == 0 && (a % tb != 0 || m.tee % tb != 0) then .fail rsTee h.dstTier true
    else
      let src := if h.decodeFtc then .ok { addr := noPlace, tier := h.srcTier } else s.side r x.ctx h.srcTensor h.srcTier true m.src n
      match src with
      | .error e => .fail e h.srcTier false
      | .ok sa =>
        match s.moveDst r h x a n with
        | .error e => .fail e h.dstTier true
        | .ok da =>
          let tee := if h.tees then (s.side r x.ctx h.dstTensor h.dstTier false m.tee n).map some else .ok none
          match tee with
          | .error e => .fail e h.dstTier true
          | .ok t =>
            let bytes := if h.decodeFtc then some (x.ftcBytes.take n) else if sa.addr = noPlace then some (zeros n) else none
            let z := { (if h.buffered && !h.encodeFtc then y.fillOpen h n else y) with
              moveDone := x.moveDone + n
              ftcBytes := if h.decodeFtc then x.ftcBytes.drop n else x.ftcBytes }
            .piece z
              { src := sa, dst := da, len := n, tee := t.map (·.addr), data := bytes, block := block, toEncoder := h.encodeFtc }

/-- Stream data addressed to a dark tile asks for it to be lit (R181). -/
def State.askAt (s : State) (a : Nat) : State :=
  if daSpace a = 8 then
    match s.windowTile a with
    | some (d, p) => s.askLight d p
    | none => s
  else s

/-- Issues a request (R207, R217). -/
def State.issue (s : State) (r : StreamRef) (h : StreamHead) (instr : Nat) (q : Piece) : State :=
  let die := refDie r
  let tee := s.pointsTee die q.src.addr q.tee
  let t : Req :=
    { owner := refOwner r, seq := s.nextReq, instr := instr, cls := h.cls, die := die, deadline := s.stamp r h
      src := q.src.addr, live := q.src.live, dst := q.dst.addr, srcTier := q.src.tier, dstTier := q.dst.tier, len := q.len, tee := q.tee
      points := s.pointsOf die q.src.addr q.dst.addr ++ tee, teePoints := tee.length, data := q.data, block := q.block
      toEncoder := q.toEncoder }
  ((s.addReq t).askAt q.src.addr).askAt q.dst.addr

/-! ### FTC streams -/

/-- The compressed side of a stream: its tensor. -/
def State.ftcTensor (s : State) (h : StreamHead) : Option Tensor :=
  s.program.bind fun g => g.tensor (if h.decodeFtc then h.srcTensor else h.dstTensor)

/-- Bytes that a decoder may look at: what is left of the tensor's SIZE. -/
def State.ftcSource (s : State) (t : Tensor) (pos : Nat) : List Byte := s.tensorBytes t 0 pos (min (t.size - pos) 0x10040)

/-- The decoder checks and delivers one block more (R515, R517). A LAST block leaves nothing of the tensor. -/
def StreamSlot.decoded (x : StreamSlot) (size : Nat) (b : FtcDecoded) : StreamSlot :=
  { x with
    ftcBytes := x.ftcBytes ++ b.raw
    ftcPos := if b.last then size else x.ftcPos + b.stored
    ftcBlocks := x.ftcBlocks + 1 }

/-- Why a decoder stops: a read of the compressed side fails, for a reason of R228, or a block does, with its kind
and sub-stream. -/
inductive FtcStop where
  | failed (reason : Nat)
  | mismatch (kind sub : Nat)
  deriving DecidableEq, Repr

/-- A decoder reads pieces of the compressed side: the tier (R198), the access, then error protection. -/
def State.ftcRead (s : State) (die tier : Nat) : List (Nat × Nat) → State × Option Nat
  | [] => (s, none)
  | (a, n) :: l =>
    if addrTier die a ≠ tier then (s, some rsTier)
    else
      match s.checkAccess (programRight false a) false a n with
      | some e => (s.countDenial e, some e.reason)
      | none =>
        match s.eccRead a n [] with
        | (s1, true) => (s1, some Denial.memory.reason)
        | (s1, false) => s1.ftcRead die tier l

/-- Bytes that a decoder has read are counted on their stacks. -/
def State.countPieces (s : State) (l : List (Nat × Nat)) : State :=
  l.foldl (fun x p => if daSpace p.1 = 0 then x.countStack false p.1 p.2 else x) s

/-- The pieces of `n` stored bytes. -/
def State.ftcAt (s : State) (t : Tensor) (pos n : Nat) : List (Nat × Nat) := s.ftcPieces t (n + 1) pos n

/-- Decodes until `n` raw bytes are there, or something stops it. -/
def State.decodeTo (s : State) (r : StreamRef) (h : StreamHead) (t : Tensor) (n : Nat) : Nat → State × Option FtcStop
  | 0 => (s, none)
  | k + 1 =>
    let x := s.slotAt r
    let left := t.size - x.ftcPos
    if n ≤ x.ftcBytes.length then (s, none)
    else
      match s.ftcRead (refDie r) h.srcTier (s.ftcAt t x.ftcPos (min left 32)) with
      | (s0, some e) => (s0, some (.failed e))
      | (s0, none) =>
        match ftcDecodeBlock (s0.ftcSource t x.ftcPos) with
        | .error e => (s0, some (.mismatch e.1 e.2))
        | .ok b =>
          let pieces := s0.ftcAt t x.ftcPos b.stored
          match s0.ftcRead (refDie r) h.srcTier pieces with
          | (s1, some e) => (s1, some (.failed e))
          | (s1, none) =>
            let s2 := (s1.countPieces pieces).modFtc (refDie r) fun f =>
              { f with
                blocksDecoded := satAdd f.blocksDecoded 1
                rawBlocksDecoded := satAdd f.rawBlocksDecoded (bool01 b.isRaw) }
            (s2.modSlot r fun y => y.decoded t.size b).decodeTo r h t n k

/-- The bytes that a request carries reach their places. -/
def State.place (s : State) (h : StreamHead) (q : Req) (data : List Byte) (ecc : Ecc) : State × Option Denial :=
  let put := fun (x : State) (a : Nat) (bs : List Byte) =>
    if a = noPlace then (x, none)
    else
      match x.checkAccess (programRight true a) true a bs.length with
      | some e => (x.countDenial e, some e)
      | none => x.serveWrite a bs ecc
  match put s q.dst data with
  | (s1, some e) => (s1, some e)
  | (s1, none) =>
    match q.tee with
    | none => (s1, none)
    | some a => put s1 a (if h.teeTranspose then transposeBlocks (s.teeBlock h) data else data)
where
  /-- Each 4 × 4 block transposed (R214). -/
  transposeBlocks (block : Nat) (bs : List Byte) : List Byte :=
    let e := block / 16
    (List.range bs.length).map fun i =>
      let j := i % block / e
      bs.getD (i / block * block + (4 * (j % 4) + j / 4) * e + i % e) 0

/-- A mismatch ends the stream (R518): what earlier blocks delivered stands at the destination. -/
def State.ftcMismatch (s : State) (r : StreamRef) (h : StreamHead) (e : Nat × Nat) : State :=
  let s1 := (s.outstanding r).foldl
    (fun x q => match q.data with
      | some b => (x.place h q b []).1
      | none => x) s
  let s2 := s1.modFtc (refDie r) fun f => { f with mismatches := satAdd f.mismatches 1 }
  let err := (e.1, e.2, (s2.slotAt r).ftcBlocks)
  let s3 := s2.modSlot r fun x => { x with ftcError := err }
  let s4 := match r with
    | .tile .. => s3
    | .bsu st ch _ => s3.modBsu st ch fun b => { b with ftcError := err }
  s4.streamFail r Status.compressedSizeMismatch.code h.srcTier false

/-- The requests that write stored bytes: each piece in its tier (R198). -/
def State.issueStored (s : State) (r : StreamRef) (h : StreamHead) (instr : Nat) (b : List Byte) : List (Nat × Nat) → State
  | [] => s
  | (a, n) :: l =>
    if addrTier (refDie r) a ≠ h.dstTier then s.streamFails (refOwner r) rsTier instr h.dstTier true
    else
      (s.issue r h instr { src := { addr := noPlace, tier := h.srcTier }, dst := { addr := a, tier := h.dstTier }, len := n, data := some (b.take n) }).issueStored
        r h instr (b.drop n) l

/-- The encoder writes a block (R513): requests of its bytes. One that passes SIZE is out of its tensor. -/
def State.encodeOut (s : State) (r : StreamRef) (h : StreamHead) (instr : Nat) (last : Bool) (raw : List Byte) : State :=
  match s.ftcTensor h with
  | none => s.streamFails (refOwner r) rsOutOfTensor instr h.dstTier true
  | some t =>
    let b := ftcEncodeBlock last raw
    let pos := (s.slotAt r).ftcPos
    let n := b.bytes.length
    if t.size < pos + n then s.streamFails (refOwner r) rsOutOfTensor instr h.dstTier true
    else
      let s1 := s.modFtc (refDie r) fun f =>
        { f with
          blocksEncoded := satAdd f.blocksEncoded 1
          rawBlocksEncoded := satAdd f.rawBlocksEncoded (bool01 b.table.isNone)
          encRawBytes := satAdd f.encRawBytes raw.length
          encStoredBytes := satAdd f.encStoredBytes n
          tableUse := match b.table with
            | some i => modAt f.tableUse i (satAdd · 1)
            | none => f.tableUse }
      let s2 := s1.modSlot r fun x => { x with ftcPos := pos + n, ftcBlocks := x.ftcBlocks + 1 }
      s2.issueStored r h instr b.bytes (s2.ftcAt t pos n)

/-- Requests that an encoded block may need. -/
def encodeRequests : Nat := 18

/-- A block of the encoder is full, and its requests would not fit. -/
def State.encoderFull (s : State) (r : StreamRef) : Bool := decide (maxOutstanding < (s.outstanding r).length + encodeRequests)

/-- The encoder works on what its slot has read: full blocks, and after END the last one. -/
def State.encodeRun (s : State) (r : StreamRef) (h : StreamHead) (instr : Nat) : Nat → State
  | 0 => s
  | k + 1 =>
    let x := s.slotAt r
    if !h.encodeFtc || x.state != .running || s.encoderFull r then s
    else if 4096 < x.ftcBytes.length then
      ((s.modSlot r fun y => { y with ftcBytes := y.ftcBytes.drop 4096 }).encodeOut r h instr false (x.ftcBytes.take 4096)).encodeRun
        r h instr k
    else if x.ended && !x.ftcBytes.isEmpty && !(s.outstanding r).any (·.toEncoder) then
      (s.modSlot r fun y => { y with ftcBytes := [] }).encodeOut r h instr true x.ftcBytes
    else s

/-! ### STREAM_MOVE -/

/-- A MOVE has been split to its end (R204, R214): POST_INC, the advance of A3, the next instruction. An
operand that R213 ignores does not advance (DEDUCED). -/
def StreamSlot.moved (h : StreamHead) (i : StreamInstr) (x : StreamSlot) : StreamSlot :=
  let m := moveArgs i x
  let inc := bit i.imm 25
  let add := fun (on : Bool) (k : Nat) (l : List Nat) => if on then modAt l k fun v => mask44 (v + m.total) else l
  let a1 := add (inc && !h.decodeFtc) i.ra x.a
  let a2 := add (inc && !m.toBuffer && !h.encodeFtc) i.rb a1
  { x with a := add h.tees 3 a2, moveDone := 0, pc := x.pc + 1 }

/-- The requests that a slot may keep outstanding while it reads for a MOVE: an encoder leaves room for those of the
block that it may have to write. -/
def readLimit (h : StreamHead) : Nat := if h.encodeFtc then maxOutstanding - encodeRequests else maxOutstanding

/-- The pieces of a MOVE up to its byte `stop`, as many as may be outstanding. -/
def State.deliver (s : State) (r : StreamRef) (h : StreamHead) (i : StreamInstr) (stop : Nat) : Nat → State
  | 0 => s
  | k + 1 =>
    let x := s.slotAt r
    if stop ≤ x.moveDone ∨ readLimit h ≤ (s.outstanding r).length ∨ (h.encodeFtc ∧ 4096 < x.ftcBytes.length) then s
    else
      match s.nextPiece r h i x stop with
      | .wait w => s.streamWaits r w
      | .fail e tier dst => s.streamFail r e tier dst
      | .piece y q => ((s.modSlot r fun _ => y.resume s.now).issue r h x.pc q).deliver r h i stop k

/-- The pieces of a whole MOVE; after the last one the stream goes on. -/
def State.moveOn (s : State) (r : StreamRef) (h : StreamHead) (i : StreamInstr) (k : Nat) : State :=
  let total := i.imm % 2 ^ 24
  let s1 := s.deliver r h i total k
  if (s1.slotAt r).state = .running ∧ total ≤ (s1.slotAt r).moveDone then s1.modSlot r fun y => y.moved h i else s1

/-- A MOVE of a decoding stream: the raw bytes that the free requests can carry are decoded first. What
earlier blocks hold is delivered before a failure ends the stream. -/
def State.moveDecode (s : State) (r : StreamRef) (h : StreamHead) (i : StreamInstr) : State :=
  match s.ftcTensor h with
  | none => s.streamFail r rsOutOfTensor h.srcTier false
  | some t =>
    let x := s.slotAt r
    let need := min (i.imm % 2 ^ 24 - x.moveDone) (256 * (maxOutstanding - (s.outstanding r).length))
    match s.decodeTo r h t need (need / 32 + 1) with
    | (s1, none) => s1.moveOn r h i 64
    | (s1, some e) =>
      let ready := x.moveDone + (s1.slotAt r).ftcBytes.length
      let s2 := s1.deliver r h i (min (i.imm % 2 ^ 24) ready) 64
      if (s2.slotAt r).state = .running ∧ (s2.slotAt r).wait = .none then
        match e with
        | .failed reason => s2.streamFail r reason h.srcTier false
        | .mismatch kind sub => s2.ftcMismatch r h (kind, sub)
      else s2

/-- The MOVE at the stream's program counter. -/
def State.doMove (s : State) (r : StreamRef) : State :=
  let h := s.headOf r
  let i := s.streamInstr r
  if h.decodeFtc then s.moveDecode r h i else s.moveOn r h i 64

/-! ### Completion (R209, R210, R162) -/

/-- Completes the oldest blocks that have landed whole, in order. -/
def StreamSlot.completeBlocks (x : StreamSlot) : Nat → StreamSlot × Nat
  | 0 => (x, 0)
  | k + 1 =>
    match x.filling with
    | [] => (x, 0)
    | b :: l =>
      if b.closed ∧ b.landed = b.written then
        let y := { x with filling := l, blocksHeld := x.blocksHeld + 1, heldBytes := x.heldBytes ++ [b.written] }
        let z := y.completeBlocks k
        (z.1, z.2 + 1)
      else (x, 0)

/-- BLOCK_EVENT and DONE_EVENT of a tile's stream; a BSU's stream has neither. -/
def State.streamEvent (s : State) (r : StreamRef) (counter n : Nat) : State :=
  match r with
  | .tile d p _ => if n = 0 then s else (s.opEnded d p).bump d p counter n
  | .bsu .. => s

/-- A BSU's stream was work of that BSU until now (R467). -/
def State.workEnds (s : State) (r : StreamRef) : State :=
  match r with
  | .tile .. => s
  | .bsu st ch _ => s.modBsu st ch fun b => { b with lastWork := s.now }

/-- After a landing or END: completed blocks, and the end of the stream when its last write is visible. -/
def State.streamCheck (s : State) (r : StreamRef) : State :=
  let h := s.headOf r
  let x := s.slotAt r
  let (y, n) := x.completeBlocks x.filling.length
  let s1 := (s.modSlot r fun _ => y).streamEvent r h.blockEvent n
  if y.state = .running ∧ y.ended ∧ (s.outstanding r).isEmpty ∧ (!h.encodeFtc ∨ y.ftcBytes.isEmpty) then
    let s2 := s1.freeFtc r h
    let s3 := ((s2.chargeOwner (refOwner r)).workEnds r).modSlot r fun z => { z with state := .idle, wait := .none }
    let s4 := match s.dataSlot r with
      | some t => s3.modSlot t fun z => { z with indexDone := true }
      | none => s3
    s4.streamEvent r y.done 1
  else s1

/-! ### The other stream instructions (R204) -/

/-- END: a partly filled block closes, and no read follows; an encoder has its last block to write. -/
def State.doEnd (s : State) (r : StreamRef) : State :=
  let close := fun (b : FillBlock) => { b with closed := true }
  let s1 := s.modSlot r fun y => { y with ended := true, wait := .none, filling := y.filling.map close }
  (s1.encodeRun r (s.headOf r) (s.slotAt r).pc 3).streamCheck r

/-- The slot goes on at the next instruction. -/
def StreamSlot.step (x : StreamSlot) : StreamSlot := { x with pc := x.pc + 1 }

def State.doSeta (s : State) (r : StreamRef) : State :=
  let i := s.streamInstr r
  s.modSlot r fun x => { x.step with a := modAt x.a i.ra fun _ => i.imm % 2 ^ 44 }

def State.doSets (s : State) (r : StreamRef) : State :=
  let i := s.streamInstr r
  s.modSlot r fun x => { x.step with s := modAt x.s i.ra fun _ => signExtend 48 i.imm }

def State.doAdds (s : State) (r : StreamRef) : State :=
  let i := s.streamInstr r
  s.modSlot r fun x => { x.step with a := modAt x.a i.ra fun v => twos 44 ((v : Int) + x.s.getD i.rb 0) }

def State.doAddq (s : State) (r : StreamRef) : State :=
  let i := s.streamInstr r
  s.modSlot r fun x => { x.step with a := modAt x.a i.ra fun v => mask44 (v + (x.q.getD i.rb 0).toNat * (i.imm % 2 ^ 32)) }

def State.doLoop (s : State) (r : StreamRef) : State :=
  let i := s.streamInstr r
  s.modSlot r fun x => { x.step with l := modAt x.l i.lp fun _ => i.imm % 2 ^ 24 }

/-- The ENDLOOP that matches the loop before `pc`, at a nesting depth. -/
def Program.matchEnd (g : Program) (prog : Nat) (depth pc : Nat) : Nat → Nat
  | 0 => pc
  | k + 1 =>
    let o := (g.streamInstr prog pc).op
    if o = opEndloop then if depth = 0 then pc else g.matchEnd prog (depth - 1) (pc + 1) k
    else if o = opLoop ∨ o = opLoopq then g.matchEnd prog (depth + 1) (pc + 1) k
    else g.matchEnd prog depth (pc + 1) k

def State.loopEnd (s : State) (x : StreamSlot) (pc : Nat) : Nat :=
  match s.program with
  | some g => g.matchEnd x.program 0 (pc + 1) 32
  | none => pc

/-- The first instruction of the body that an ENDLOOP closes. -/
def State.loopBody (s : State) (x : StreamSlot) : Nat :=
  match s.program with
  | none => x.pc
  | some g =>
    match (List.range x.pc).reverse.find? fun j =>
        let o := (g.streamInstr x.program j).op
        (o == opLoop || o == opLoopq) && s.loopEnd x j == x.pc with
    | some j => j + 1
    | none => x.pc + 1

def State.doLoopq (s : State) (r : StreamRef) : State :=
  let i := s.streamInstr r
  s.modSlot r fun x =>
    let n := (x.q.getD i.rb 0).toNat % 2 ^ 24
    { x with l := modAt x.l i.lp fun _ => n, pc := if n = 0 then s.loopEnd x x.pc + 1 else x.pc + 1 }

def State.doEndloop (s : State) (r : StreamRef) : State :=
  let i := s.streamInstr r
  s.modSlot r fun x =>
    let n := (x.l.getD i.lp 0 + 2 ^ 24 - 1) % 2 ^ 24
    { x with l := modAt x.l i.lp fun _ => n, pc := if n = 0 then x.pc + 1 else s.loopBody x }

/-- The index stream that feeds a slot. -/
def indexRef (r : StreamRef) (h : StreamHead) : Option StreamRef :=
  match r with
  | .tile d p _ => if h.indexSlot < 127 then some (.tile d p h.indexSlot) else none
  | .bsu .. => none

/-- INDEX (R204, R215). INDEX_RANGE and INDEX_EXHAUSTED name the source side of the data stream (DESIGN CHOICE, log
98). -/
def State.doIndex (s : State) (r : StreamRef) : State :=
  let h := s.headOf r
  let i := s.streamInstr r
  let x := s.slotAt r
  match x.fifo with
  | v :: rest =>
    if h.indexLimit ≤ v then s.streamFail r rsIndexRange h.srcTier false
    else
      s.modSlot r fun y =>
        { (y.resume s.now).step with
          fifo := rest
          a := modAt y.a i.ra fun _ => mask44 (y.a.getD i.rb 0 + v * (i.imm % 2 ^ 32))
          indexed := (s.now, 4) :: inWindowN s.now 8000 y.indexed }
  | [] => if x.indexDone then s.streamFail r rsIndexExhausted h.srcTier false else s.streamWaits r .emptyFifo

/-! ### The rows of the stream instructions -/

/-- A stream instruction as a command: it acts when it stands at the stream's program counter. -/
def State.instrRow (s : State) (r : StreamRef) (op : Nat) (f : State → StreamRef → State) : Host.Outcome State Fault Refusal :=
  if refExists r then
    .next (if s.streamActs r && (s.streamInstr r).op == op && decide ((s.slotAt r).pc < (s.headOf r).count) then
        f (s.chargeOwner (refOwner r)) r
      else s)
  else .fault .noSuchUnit

def execStreamEnd (r : StreamRef) (s : State) : Host.Outcome State Fault Refusal := s.instrRow r opEnd State.doEnd

def execStreamSeta (r : StreamRef) (s : State) : Host.Outcome State Fault Refusal := s.instrRow r opSeta State.doSeta

def execStreamSets (r : StreamRef) (s : State) : Host.Outcome State Fault Refusal := s.instrRow r opSets State.doSets

def execStreamAdds (r : StreamRef) (s : State) : Host.Outcome State Fault Refusal := s.instrRow r opAdds State.doAdds

def execStreamAddq (r : StreamRef) (s : State) : Host.Outcome State Fault Refusal := s.instrRow r opAddq State.doAddq

def execStreamLoop (r : StreamRef) (s : State) : Host.Outcome State Fault Refusal := s.instrRow r opLoop State.doLoop

def execStreamLoopq (r : StreamRef) (s : State) : Host.Outcome State Fault Refusal := s.instrRow r opLoopq State.doLoopq

def execStreamEndloop (r : StreamRef) (s : State) : Host.Outcome State Fault Refusal := s.instrRow r opEndloop State.doEndloop

def execStreamMove (r : StreamRef) (s : State) : Host.Outcome State Fault Refusal := s.instrRow r opMove State.doMove

def execStreamIndex (r : StreamRef) (s : State) : Host.Outcome State Fault Refusal := s.instrRow r opIndex State.doIndex

/-- STREAM_BACK_PRESSURE_RESUME (R210, R215): there is room again. -/
def State.hasRoom (s : State) (r : StreamRef) : Bool :=
  let h := s.headOf r
  let x := s.slotAt r
  if h.buffered then (x.openBlock h).isSome
  else
    match s.moveTarget r h (moveArgs (s.streamInstr r) x) x with
    | .ok _ => true
    | .error _ => false

def execStreamBackPressureResume (r : StreamRef) (s : State) : Host.Outcome State Fault Refusal :=
  if refExists r then
    .next (if s.streamActs r && (s.slotAt r).wait == .backPressure && s.hasRoom r then s.modSlot r (·.resume s.now) else s)
  else .fault .noSuchUnit

end Sys2Proof.Machine
end

