-- ==== Sys2Proof/Machine/Vector.lean ====
section
/-! DEFINITION. Vector operations (R161, R251 to R271, R334, R335): element by element over tile memory, in
storage order. An operation reads its elements and writes its results when it completes. -/

namespace Sys2Proof.Machine

/-! ### Seeds -/

/-- The job seed: that of the adopted commit area for a program with an UPDATE_PLAN, else the session's
(R258). -/
def State.jobSeed (s : State) : Nat :=
  if s.hasUpdatePlan && s.commit.present then s.commit.scalars.jobSeed.toNat else (s.session.map (·.seed)).getD 0

/-- The running step's number. -/
def State.stepNo (s : State) : Nat := (s.run.map (·.k)).getD 0

/-- What an element's operation takes beside its operands. -/
structure VecEnv where
  scalar : Fp
  seed : Nat
  step : Nat
  key : Nat
  elem : Nat
  addend : Nat

/-! ### Drop-out (R334, R335) -/

/-- Word 0 of the drop-out generator for an element. -/
def dropoutWord (v : VecEnv) (i : Nat) : Nat :=
  let w := BitVec.ofNat 32
  let e := v.elem + i
  ((philox (w v.seed) (w (v.seed >>> 32) ^^^ 2) (w e) (w (e >>> 32 % 256 + v.addend % 2 ^ 24 * 256)) (w v.key) (w v.step)).getD 0 0).toNat

/-- floor((1 − p) × 2²⁴). -/
def dropoutLimit (p : Fp) : Nat :=
  match (Fp.one.sub p).mul (.pow2 24) with
  | .fin false m e => if 0 ≤ e then m * 2 ^ e.toNat else m / 2 ^ (-e).toNat
  | .fin true .. | .nan | .inf _ => 0

def dropout (v : VecEnv) (i : Nat) (a : Fp) : Fp :=
  if bits (dropoutWord v i) 31 8 < dropoutLimit v.scalar then a.div (Fp.one.sub v.scalar)
  else if a.nonFinite then .nan else .zero

/-! ### One element -/

/-- A conversion that keeps a value the destination holds exactly (R242), else R243. -/
def copyConv (f : Fmt) (sub : Bool) (a : Fp) : Conv :=
  let c := f.convert false a
  if (f.spec.decode c.code).eqv a then c else f.convert sub a

/-- The result code of element `i` in FMT_D, for every format but MX (R252 to R259, R268). -/
def vecElem (o : VecOpcode) (f : Fmt) (v : VecEnv) (i : Nat) (sub : Bool) (a b d : Fp) : Conv :=
  let once := fun x => f.convert false x
  match o with
  | .add => once (a.add b)
  | .sub => once (a.sub b)
  | .mul => once (a.mul b)
  | .fma => once ((a.mul b).add d)
  | .axpy => once ((v.scalar.mul a).add b)
  | .max => once (a.max b)
  | .min => once (a.min b)
  | .exp => once a.exp
  | .log => once a.ln
  | .rcp => once a.rcp
  | .rsqrt => once a.rsqrt
  | .sum | .amax => once a
  | .convert => f.convert sub (a.mul v.scalar)
  | .copy => copyConv f sub a
  | .accum =>
    if f = .fp32 then once (d.add a)
    else
      { code := f.spec.stochastic
          ({ seed := v.seed, tensor := v.key, element := v.elem + i, addend := v.addend, step := v.step } : RoundKey).bits (d.add a) }
  | .dropout => once (dropout v i a)

/-! ### MX blocks (R243, R267) -/

/-- How an operation converts an element of a format with its source's subnormality: COPY keeps what the destination
holds exactly (R242). -/
abbrev ConvBy := Fmt → Bool → Fp → Conv

/-- A block's scale byte, and its element codes. The codes of a block whose scale is 0xFF are free values: the manual
gives them none. -/
def mxBlock (conv : ConvBy) (f : Fmt) (els : List (Fp × Bool)) : Nat × List Conv :=
  if els.any fun e => e.1.nonFinite then
    let source := els.map fun e => (toFp32 e.1).toNat
    (255, (List.range els.length).map fun i => { code := Config.mxCode f.code source i % 2 ^ f.bitsOf })
  else
    let m := els.foldl (fun m e => amaxOf m e.1) .zero
    if m.isZero then (127, els.map fun e => conv f e.2 e.1)
    else
      let x := max (-127) (min 127 (m.log2 - (f.eMax - 1)))
      ((x + 127).toNat, els.map fun e => conv f e.2 (e.1.mul (.pow2 (-x))))

/-- The value that a code of an MX block stands for (R237). -/
def mxValue (f : Fmt) (scale code : Nat) : Fp :=
  if scale = 255 then .nan else (f.spec.decode code).mul (.pow2 ((scale : Int) - 127))

/-! ### Results -/

/-- What an operation writes, and what it says of it. -/
structure VecOut where
  codes : List Nat
  scales : List Nat := []
  values : List Fp
  sat : Nat := 0
  underflow : Nat := 0
  deriving DecidableEq, Repr

def outOf (f : Fmt) (cs : List Conv) : VecOut :=
  { codes := cs.map (·.code), values := cs.map fun c => f.spec.decode c.code
    sat := (cs.filter (·.sat)).length, underflow := (cs.filter (·.underflow)).length }

/-- Results as an MX tensor: values after the tensor scale, each with its source's subnormality. -/
def mxOut (conv : ConvBy) (f : Fmt) (els : List (Fp × Bool)) : VecOut :=
  let n := els.length
  let bs := (List.range (mxScales n)).map fun k => mxBlock conv f ((mxMembers n k).map fun i => els.getD i (.zero, false))
  let at_ := fun (i : Nat) =>
    let b := bs.getD (mxScaleAt i) (127, [])
    (b.1, b.2.getD (mxPlace i) { code := 0 })
  let out := (List.range n).map at_
  let cs := out.map (·.2)
  { codes := cs.map (·.code), scales := bs.map (·.1), values := out.map fun e => mxValue f e.1 e.2.code
    sat := (cs.filter (·.sat)).length, underflow := (cs.filter (·.underflow)).length }

/-- The codes as one packed number, element 0 lowest (R239). -/
def packCodes (w : Nat) : List Nat → Nat
  | [] => 0
  | c :: l => c + 2 ^ w * packCodes w l

/-- The derived tensor scale 2^e (R266, R267), and whether the amax was non-finite. -/
def derivedScale (f : Fmt) (amax : BitVec 32) : Int × Bool :=
  let a := fp32 amax
  if a.nonFinite then (0, true)
  else if a.isZero || f.isMx then (0, false)
  else (max (-126) (min 127 (f.eMax - 1 - a.log2)), false)

/-- Element `i` of an operand, with whether it is subnormal in its format. -/
def srcElem (rd : TmRead) (c base n i : Nat) : Fp × Bool :=
  let f := fmtOf c
  (flatElem rd f base n i, f.spec.subnormal (flatCode rd f base i))

/-- The results of an operation. -/
def vecResult (rd : TmRead) (o : VecOp) (v : VecEnv) : VecOut :=
  let d := o.desc
  let f := fmtOf d.fmtD
  let as := (List.range d.length).map fun i => srcElem rd d.fmtA d.srcA d.length i
  match o.op with
  | .sum => outOf .fp32 [Fmt.fp32.convert false (dotChunks .zero (as.map (·.1)))]
  | .amax => outOf .fp32 [Fmt.fp32.convert false (as.foldl (fun m e => amaxOf m e.1) .zero)]
  | .convert =>
    if f.isMx then mxOut Fmt.convert f (as.map fun e => (e.1.mul v.scalar, e.2))
    else outOf f (as.mapIdx fun i e => vecElem .convert f v i e.2 e.1 .zero .zero)
  | .copy =>
    if f.isMx then mxOut copyConv f as else outOf f (as.mapIdx fun i e => vecElem .copy f v i e.2 e.1 .zero .zero)
  | .add | .sub | .mul | .fma | .axpy | .max | .min | .exp | .log | .rcp | .rsqrt | .accum | .dropout =>
    outOf f (as.mapIdx fun i e =>
      let b := if o.op.readsB then (srcElem rd d.fmtB d.srcB d.length i).1 else .zero
      let dd := if o.op.readsD then (srcElem rd d.fmtD d.dst d.length i).1 else .zero
      vecElem o.op f v i e.2 e.1 b dd)

/-- Writes packed codes: the bits past the last element keep their value. -/
def State.writeCodes (s : State) (d p : Nat) (f : Fmt) (off : Nat) (codes : List Nat) : State :=
  let n := codes.length
  let span := flatBytes f n
  let top := n * f.bitsOf
  let old := leNat (s.tmRead d p off span)
  s.tmWrite d p off (leBytes span (packCodes f.bitsOf codes + old >>> top * 2 ^ top))

/-! ### Issue and completion -/

/-- P registers of a context. -/
def Context.param (c : Context) (i : Nat) : Nat := (c.params.getD i 0).toNat

/-- A vector operation issues (R160, R259, R265). -/
def State.issueVector (s : State) (d p : Nat) (op : VecOpcode) (desc done : Nat) (ecc : Ecc) : State :=
  let b := s.tmRead d p (descOffset desc) 32
  let v := vecDescOf b
  let t := s.tile d p
  if !vecDescOk op b then s.progFault d p t.running pfBadDescriptor 0
  else
    let (s1, failed) := s.tmEcc d p ecc
    if failed then s1
    else
      let c := t.current
      let o : VecOp :=
        { op := op, desc := v, done := done, ctx := t.running, segment := c.segment, bundle := c.bundle
          elem := c.param 13 % 256 * 2 ^ 32 + c.param 14, addend := c.param 15 % 2 ^ 24
          amaxIn := if v.derived op then BitVec.ofNat 32 (leNat (s.tmRead d p v.srcB 4)) else 0 }
      (s1.modTile d p fun x => { x with vectorQueue := x.vectorQueue ++ [o] }).tag d p done .vector

def Tile.vectorFull (t : Tile) : Bool := decide (2 ≤ t.vectorQueue.length)

/-- The vector slot of the running context's bundle, as a command of its own. -/
def State.vecRow (s : State) (d p : Nat) (op : VecOpcode) (desc done : Nat) (ecc : Ecc) : State :=
  if !s.canIssue d p || decide (1024 ≤ desc) || decide (256 ≤ done) then s
  else if (s.tile d p).vectorFull then s.issueHold d p
  else s.issueVector d p op desc done ecc

/-- A write of the operation meets a retention lock (R87). -/
def Tile.vecBlocked (t : Tile) (o : VecOp) : Bool :=
  let f := fmtOf o.desc.fmtD
  t.locked o.desc.dst (flatEnd f o.desc.dst (o.desc.written o.op) - o.desc.dst) ||
    (o.desc.derived o.op && t.locked (o.desc.srcB + 4) 4)

/-- The writes of the operation at the head of the vector queue, and its completion (R168, R262 to R272). -/
def State.vectorDone (s : State) (d p : Nat) (o : VecOp) : State :=
  let v := o.desc
  let f := fmtOf v.fmtD
  let (e, bad) := if v.derived o.op then derivedScale f o.amaxIn else (0, false)
  let env : VecEnv :=
    { scalar := if v.derived o.op then .pow2 e else fp32 v.scalar, seed := s.jobSeed, step := s.stepNo, key := v.key
      elem := o.elem, addend := o.addend }
  let out := vecResult (s.tmRead d p) o env
  let s1 := (s.chargeStall d p).writeCodes d p f v.dst out.codes
  let s2 := if f.isMx then s1.tmWrite d p (scalePlane f v.dst v.length) (out.scales.map (BitVec.ofNat 8)) else s1
  let s3 := if v.derived o.op then s2.tmWrite d p (v.srcB + 4) (leBytes 4 (toFp32 (.pow2 e)).toNat) else s2
  let s4 := if v.recordAmax then s3.noteAmax d p o.ctx (out.values.foldl maxSeen none) else s3
  let count := o.op == .convert && v.countSat
  let res : Outcome :=
    { nonFinite := out.values.any Fp.nonFinite, source := if o.op = .convert then nfConvert else nfVector, amaxNonFinite := bad
      sat := if count then out.sat else 0, underflow := if count then out.underflow else 0 }
  let s5 := s4.modTile d p fun t =>
    { t.modCtx o.ctx fun c => c.note res o.segment o.bundle with vectorQueue := t.vectorQueue.drop 1 }
  (s5.opEnded d p).bump d p o.done 1

/-- VECTOR_OP_COMPLETE (R168): a write into a locked range waits (R87). -/
def execVectorOpComplete (d p : Nat) (s : State) : Host.Outcome State Fault Refusal :=
  if tileExists d p then
    match (s.tile d p).vectorQueue with
    | [] => .next s
    | o :: _ => .next (if s.gridRuns d p && !(s.tile d p).vecBlocked o then s.vectorDone d p o else s)
  else .fault .noSuchUnit

/-! ### The rows -/

/-- VECTOR_NOP (R161). -/
def execVectorNop (d p : Nat) (s : State) : Host.Outcome State Fault Refusal :=
  if tileExists d p then .next s else .fault .noSuchUnit

/-- VECTOR_ADD (R161). -/
def execVectorAdd (d p desc done : Nat) (ecc : Ecc) (s : State) : Host.Outcome State Fault Refusal :=
  if tileExists d p then .next (s.vecRow d p .add desc done ecc) else .fault .noSuchUnit

/-- VECTOR_SUB (R161). -/
def execVectorSub (d p desc done : Nat) (ecc : Ecc) (s : State) : Host.Outcome State Fault Refusal :=
  if tileExists d p then .next (s.vecRow d p .sub desc done ecc) else .fault .noSuchUnit

/-- VECTOR_MUL (R161). -/
def execVectorMul (d p desc done : Nat) (ecc : Ecc) (s : State) : Host.Outcome State Fault Refusal :=
  if tileExists d p then .next (s.vecRow d p .mul desc done ecc) else .fault .noSuchUnit

/-- VECTOR_FMA (R161). -/
def execVectorFma (d p desc done : Nat) (ecc : Ecc) (s : State) : Host.Outcome State Fault Refusal :=
  if tileExists d p then .next (s.vecRow d p .fma desc done ecc) else .fault .noSuchUnit

/-- VECTOR_AXPY (R161). -/
def execVectorAxpy (d p desc done : Nat) (ecc : Ecc) (s : State) : Host.Outcome State Fault Refusal :=
  if tileExists d p then .next (s.vecRow d p .axpy desc done ecc) else .fault .noSuchUnit

/-- VECTOR_MAX (R161). -/
def execVectorMax (d p desc done : Nat) (ecc : Ecc) (s : State) : Host.Outcome State Fault Refusal :=
  if tileExists d p then .next (s.vecRow d p .max desc done ecc) else .fault .noSuchUnit

/-- VECTOR_MIN (R161). -/
def execVectorMin (d p desc done : Nat) (ecc : Ecc) (s : State) : Host.Outcome State Fault Refusal :=
  if tileExists d p then .next (s.vecRow d p .min desc done ecc) else .fault .noSuchUnit

/-- VECTOR_EXP (R161). -/
def execVectorExp (d p desc done : Nat) (ecc : Ecc) (s : State) : Host.Outcome State Fault Refusal :=
  if tileExists d p then .next (s.vecRow d p .exp desc done ecc) else .fault .noSuchUnit

/-- VECTOR_LOG (R161). -/
def execVectorLog (d p desc done : Nat) (ecc : Ecc) (s : State) : Host.Outcome State Fault Refusal :=
  if tileExists d p then .next (s.vecRow d p .log desc done ecc) else .fault .noSuchUnit

/-- VECTOR_RCP (R161). -/
def execVectorRcp (d p desc done : Nat) (ecc : Ecc) (s : State) : Host.Outcome State Fault Refusal :=
  if tileExists d p then .next (s.vecRow d p .rcp desc done ecc) else .fault .noSuchUnit

/-- VECTOR_RSQRT (R161). -/
def execVectorRsqrt (d p desc done : Nat) (ecc : Ecc) (s : State) : Host.Outcome State Fault Refusal :=
  if tileExists d p then .next (s.vecRow d p .rsqrt desc done ecc) else .fault .noSuchUnit

/-- VECTOR_SUM (R161). -/
def execVectorSum (d p desc done : Nat) (ecc : Ecc) (s : State) : Host.Outcome State Fault Refusal :=
  if tileExists d p then .next (s.vecRow d p .sum desc done ecc) else .fault .noSuchUnit

/-- VECTOR_AMAX (R161). -/
def execVectorAmax (d p desc done : Nat) (ecc : Ecc) (s : State) : Host.Outcome State Fault Refusal :=
  if tileExists d p then .next (s.vecRow d p .amax desc done ecc) else .fault .noSuchUnit

/-- VECTOR_CONVERT (R161). -/
def execVectorConvert (d p desc done : Nat) (ecc : Ecc) (s : State) : Host.Outcome State Fault Refusal :=
  if tileExists d p then .next (s.vecRow d p .convert desc done ecc) else .fault .noSuchUnit

/-- VECTOR_ACCUM (R161). -/
def execVectorAccum (d p desc done : Nat) (ecc : Ecc) (s : State) : Host.Outcome State Fault Refusal :=
  if tileExists d p then .next (s.vecRow d p .accum desc done ecc) else .fault .noSuchUnit

/-- VECTOR_DROPOUT (R161). -/
def execVectorDropout (d p desc done : Nat) (ecc : Ecc) (s : State) : Host.Outcome State Fault Refusal :=
  if tileExists d p then .next (s.vecRow d p .dropout desc done ecc) else .fault .noSuchUnit

/-- VECTOR_COPY (R161). -/
def execVectorCopy (d p desc done : Nat) (ecc : Ecc) (s : State) : Host.Outcome State Fault Refusal :=
  if tileExists d p then .next (s.vecRow d p .copy desc done ecc) else .fault .noSuchUnit

end Sys2Proof.Machine
end

