-- ==== Sys2Proof/Machine/BsuDesc.lean ====
section
/-! DEFINITION. BSU operation descriptors (R470 to R475, R479 to R481): their layout, the rules that a program
must keep, and where the elements of a range lie. -/

namespace Sys2Proof.Machine

/-! ### Layout (R470) -/

def bsuDescOf (b : List Byte) : BsuDesc :=
  { bop := field b 0 1, cls := field b 1 1, recordAmax := bit (field b 2 1) 0, countSat := bit (field b 2 1) 1
    fmtA := field b 3 1, fmtB := field b 4 1, fmtD := field b 5 1, slot := field b 6 1, tensorA := field b 8 4
    tensorB := field b 0xC 4, tensorD := field b 0x10 4, scalar := BitVec.ofNat 32 (field b 0x14 4), first := field b 0x18 8
    count := field b 0x20 8, result := field b 0x28 8, addend := field b 0x30 3, rowElements := field b 0x34 4
    streamProgram := field b 0x38 2 }

/-- The reserved bits of the 64 bytes are zero. -/
def bsuReservedOk (b : List Byte) : Bool :=
  decide (field b 2 1 < 4) && field b 7 1 == 0 && field b 0x33 1 == 0 && allZero (slice b 0x3A 6)

def bopAdd : Nat := 0x01
def bopMul : Nat := 0x02
def bopAxpy : Nat := 0x03
def bopScale : Nat := 0x04
def bopFill : Nat := 0x05
def bopCopy : Nat := 0x06
def bopConvert : Nat := 0x07
def bopAccum : Nat := 0x08
def bopSum : Nat := 0x09
def bopNorm2 : Nat := 0x0A
def bopAmax : Nat := 0x0B
def bopGather : Nat := 0x0C
def bopScatterAdd : Nat := 0x0D
def bopStream : Nat := 0x0E

end Sys2Proof.Machine

namespace Sys2Proof

open Machine

/-! ### Operands (R473) -/

def BsuDesc.usesA (o : BsuDesc) : Bool := o.bop != bopFill
def BsuDesc.usesB (o : BsuDesc) : Bool := [bopAdd, bopMul, bopAxpy, bopGather, bopScatterAdd].contains o.bop
def BsuDesc.reduces (o : BsuDesc) : Bool := [bopSum, bopNorm2, bopAmax].contains o.bop
def BsuDesc.streams (o : BsuDesc) : Bool := o.bop == bopStream
def BsuDesc.byRows (o : BsuDesc) : Bool := o.bop == bopGather || o.bop == bopScatterAdd
def BsuDesc.writesD (o : BsuDesc) : Bool := !o.reduces && !o.streams
def BsuDesc.readsD (o : BsuDesc) : Bool := o.bop == bopAccum || o.bop == bopScatterAdd

/-- The scale is derived from the record at RESULT (R479). -/
def BsuDesc.derived (o : BsuDesc) : Bool := o.bop == bopConvert && (o.scalar == 0 || o.scalar == 0x80000000)

/-- RESULT is used (R470, R473, R475, R479). -/
def BsuDesc.usesResult (o : BsuDesc) : Bool := o.reduces || o.recordAmax || o.bop == bopConvert

/-- The formats of R473; FMT_B is 0 when B is unused (R470). -/
def BsuDesc.formatsOk (o : BsuDesc) : Bool :=
  let wide := fun c => decide (c ≤ 2)
  (o.usesB || o.fmtB == 0) &&
  match o.bop with
  | 0x01 | 0x02 | 0x03 => wide o.fmtA && wide o.fmtB && wide o.fmtD
  | 0x04 => wide o.fmtA && wide o.fmtD
  | 0x05 => wide o.fmtD
  | 0x06 => decide (o.fmtA ≤ 4) && wide o.fmtD
  | 0x07 => wide o.fmtA && decide (1 ≤ o.fmtD) && decide (o.fmtD ≤ 4)
  | 0x08 => decide (o.fmtA ≤ 1) && wide o.fmtD
  | 0x09 | 0x0A | 0x0B => wide o.fmtA
  | 0x0C => o.fmtA == o.fmtD && decide (o.fmtA ≤ 4) && o.fmtB == 0xB
  | 0x0D => decide (o.fmtA ≤ 1) && wide o.fmtD && o.fmtB == 0xB
  | 0x0E => true
  | _ => false

end Sys2Proof

namespace Sys2Proof.Machine

/-- Bytes of an element of a descriptor's format. -/
def elemBytes (c : Nat) : Nat := if c = 0 ∨ c = 0xB then 4 else if c ≤ 2 then 2 else 1

/-- The element size in bits that a descriptor gives an operand; STREAM takes its tensor's own. -/
def opBits (o : BsuDesc) (t : Tensor) (fmt : Nat) : Nat := if o.streams then (fmtOf t.fmt).bitsOf else 8 * elemBytes fmt

/-- Elements per slice (R471). -/
def perSlice (o : BsuDesc) (t : Tensor) (fmt : Nat) : Nat := t.sliceBytes * 8 / max (opBits o t fmt) 1

/-- Elements of a tensor under a descriptor's format. -/
def opElements (o : BsuDesc) (t : Tensor) (fmt : Nat) : Nat :=
  let n := t.size * 8 / max (opBits o t fmt) 1
  if t.fmt = fmt ∨ o.streams then min n t.elements else n

/-- The operands as (tensor, format). -/
def bsuOperands (o : BsuDesc) : List (Nat × Nat) :=
  (if o.usesA then [(o.tensorA, o.fmtA)] else []) ++ (if o.usesB then [(o.tensorB, o.fmtB)] else []) ++
    if o.writesD then [(o.tensorD, o.fmtD)] else []

/-- Unused tensors are named 0xFFFF_FFFF (R470). -/
def unusedOk (o : BsuDesc) : Bool :=
  (o.usesA || o.tensorA == noTensor) && (o.usesB || o.tensorB == noTensor) && (o.writesD || o.tensorD == noTensor)

/-- The rules of R470, R475 and R480 on a descriptor's own fields. -/
def bsuFieldsOk (o : BsuDesc) : Bool :=
  decide (o.cls ≤ 2) && o.formatsOk && decide (o.fmtA ≤ 0xC) && decide (o.fmtD ≤ 0xC) && unusedOk o && decide (1 ≤ o.count) && decide (o.addend < 2 ^ 24) &&
    (if o.streams then decide (8 ≤ o.slot) && decide (o.slot < 16) else o.slot == 0 && o.streamProgram == 0) &&
    (if o.usesResult then o.result % 8 == 0 && (daSpace o.result == 0 || daSpace o.result == 8 || daSpace o.result == 9)
      else o.result == 0) &&
    (!o.recordAmax || (!o.reduces && o.bop != bopConvert && !o.streams)) &&
    (if o.byRows then
      decide (1 ≤ o.rowElements) && decide (o.rowElements ≤ 65536) && o.rowElements * elemBytes o.fmtA % 32 == 0 &&
        o.rowElements * elemBytes o.fmtD % 32 == 0
    else o.rowElements == 0)

/-- The rules of R471 and R480 between the tensors of an operation. -/
def bsuTensorsOk (g : Program) (o : BsuDesc) : Bool :=
  let ts := (bsuOperands o).map fun x => (g.tensor x.1, x.2)
  let slab := ts.all fun x =>
    match x.1 with
    | none => false
    | some t => t.layout == layoutSlab && (g.fontIndex t.id).isNone
  let mask := (ts.filterMap fun x => x.1.map (·.mask)).eraseDups.length == 1
  let kind := !o.writesD ||
    ((g.tensor o.tensorD).map fun t => t.kind != kindMaster && t.kind != kindMoment && t.kind != kindShard).getD false
  let eps := fun (id fmt : Nat) => ((g.tensor id).map fun t => perSlice o t fmt).getD 0
  let span := fun (id fmt : Nat) => ((g.tensor id).map fun t => opElements o t fmt).getD 0
  let a := eps o.tensorA o.fmtA
  let b := eps o.tensorB o.fmtB
  let d := eps o.tensorD o.fmtD
  let stop := o.first + o.count
  slab && mask && kind &&
    if o.byRows then
      let rows := if o.bop = bopGather then a else d
      let other := if o.bop = bopGather then d else a
      let moved := if o.bop = bopGather then span o.tensorD o.fmtD else span o.tensorA o.fmtA
      decide (stop ≤ span o.tensorB o.fmtB) && decide (stop * o.rowElements ≤ moved) && rows % o.rowElements == 0 &&
        other == o.rowElements * b
    else
      (ts.filterMap fun x => x.1.map fun t => perSlice o t x.2).eraseDups.length == 1 &&
        (bsuOperands o).all fun x => decide (stop ≤ span x.1 x.2)

/-- A descriptor that LOAD_PROGRAM accepts (R471). -/
def bsuDescOk (g : Program) (o : BsuDesc) : Bool :=
  bsuFieldsOk o && bsuTensorsOk g o && (!o.streams || decide (o.streamProgram < g.entries secStreams))

/-! ### Where a range lies (R432, R469) -/

/-- The tensor whose elements the range counts, with its format. -/
def rangeTensor (o : BsuDesc) : Nat × Nat :=
  if o.byRows then (o.tensorB, o.fmtB) else if o.usesA then (o.tensorA, o.fmtA) else (o.tensorD, o.fmtD)

/-- The channel of index `n` under R432. -/
def channelOf (mask n : Nat) : Nat × Nat := ((maskStacks mask).getD (n / 32) 0, n % 32)

/-- The index of a channel under R432. -/
def channelIndex (mask st ch : Nat) : Nat := 32 * (maskStacks mask).idxOf st + ch

/-- The BSUs that hold elements of the range, in ascending channel order, each with its elements. -/
def bsuParts (g : Program) (o : BsuDesc) : List BsuPart :=
  let (id, fmt) := rangeTensor o
  match g.tensor id with
  | none => []
  | some t =>
    let e := perSlice o t fmt
    (List.range (32 * (maskStacks t.mask).length)).filterMap fun n =>
      let lo := max o.first (n * e)
      let hi := min (o.first + o.count) ((n + 1) * e)
      let c := channelOf t.mask n
      if lo < hi then some { stack := c.1, channel := c.2, next := lo, stop := hi } else none

/-- Bytes that an element of the range reads and writes (R488): an index element carries a row of A and of D
(DEDUCED). -/
def bytesPer (o : BsuDesc) : Nat :=
  let r := if o.byRows then o.rowElements else 1
  (if o.usesA then r * elemBytes o.fmtA else 0) + (if o.usesB then elemBytes o.fmtB else 0) +
    (if o.writesD then r * elemBytes o.fmtD else 0) + if o.readsD then r * elemBytes o.fmtD else 0

/-- E_slice (R488). -/
def sliceElements (sliceBytes b : Nat) : Nat := max 128 (128 * (sliceBytes / (128 * b)))

/-! ### Access to elements -/

/-- The device address of element `e` of a tensor, for reading or for writing (R358). -/
def State.elemAddr (s : State) (g : Program) (read : Bool) (t : Tensor) (fmt e : Nat) : Nat :=
  s.tensorByte t (e * elemBytes fmt) + if read then g.bankShift t.id s.commit.epochBank else 0

/-- `n` elements at an address, each with whether it is subnormal. -/
def State.elemsAt (s : State) (fmt a n : Nat) : List (Fp × Bool) :=
  let w := elemBytes fmt
  let f := fmtOf fmt
  (chunks w n (s.readDev a (n * w))).map fun b => (f.spec.decode (leNat b), f.spec.subnormal (leNat b))

/-- `n` signed index elements at an address. -/
def State.indicesAt (s : State) (a n : Nat) : List Int := (chunks 4 n (s.readDev a (n * 4))).map fun b => signExtend 32 (leNat b)

def codesBytes (fmt : Nat) (codes : List Nat) : List Byte := codes.flatMap (leBytes (elemBytes fmt))

end Sys2Proof.Machine
end

