-- ==== Sys2Proof/Machine/Dma.lean ====
section
/-! DEFINITION. The requests of host DMA (R207, R220, R592 to R594): how a descriptor is split, how its bytes are read
and land, and how one fails. -/

namespace Sys2Proof.Machine

/-- Changes the host interface. -/
def State.modHost (s : State) (f : HostIf → HostIf) : State := { s with host := f s.host }

/-- STATUS and CAUSE of a descriptor that ends so. The tier of the host side is HOST; the manual names no die
that would give the device side a tier, and `tier` stands for it. -/
def dmaStatus (dst : Bool) (tier : Nat) : Denial → Status × Nat
  | .unassigned => (.streamError, causeWord Denial.unassigned.reason 0 tier dst)
  | .protection => (.streamError, causeWord Denial.protection.reason 0 tier dst)
  | .retired => (.unitRetired, 0)
  | .halted => (.thermalHalt, 0)
  | .memory => (.memoryError, 0)
  | .hostLost => (.hostLinkLost, 0)

/-- The tier that a cause word of a DMA channel names: a free value for the device side. -/
def State.dmaTier (s : State) (d : Descriptor) (dst : Bool) : Nat :=
  if dst = d.toDevice then (Config.freeByte s.freeCount 0).toNat % 8 else 6

/-- The requests of a channel's descriptor, as many as may be outstanding. They are issued on the IOD. -/
def State.dmaSplit (s : State) (n : Nat) : Nat → State
  | 0 => s
  | k + 1 =>
    match (s.dmaCh n).current with
    | none => s
    | some job =>
      let d := job.desc
      if job.failed.isSome ∨ d.length ≤ job.issued ∨ maxOutstanding ≤ (s.inFlight (.dma n)).length then s
      else
        let a := d.src + job.issued
        let b := d.dst + job.issued
        let m := min (d.length - job.issued) (min (toGranule a) (toGranule b))
        let q : Req :=
          { owner := .dma n, seq := s.nextReq, instr := 0, cls := 0, die := 2, deadline := s.timer 2 + 1000000, src := a, dst := b
            srcTier := addrTier 0 a, dstTier := addrTier 0 b, len := m, points := s.pointsOf 2 a b }
        ((s.addReq q).modDma n fun c => { c with current := some { job with issued := job.issued + m } }).dmaSplit n k

/-- A descriptor's requests go. -/
def State.dmaDrop (s : State) (n : Nat) : State := { s with requests := s.requests.filter fun q => q.owner != .dma n }

/-- A descriptor is bound to end so: nothing more of it moves. -/
def State.dmaFails (s : State) (n : Nat) (e : Status × Nat) : State :=
  (s.dmaDrop n).modDma n fun c => { c with current := c.current.map fun j => { j with failed := some e } }

/-- A request of a descriptor fails. -/
def State.dmaDenied (s : State) (n : Nat) (e : Denial) (dst : Bool) : State :=
  match (s.dmaCh n).current with
  | none => s.dmaDrop n
  | some job => ((s.countDenial e).takeFree).dmaFails n (dmaStatus dst (s.dmaTier job.desc dst) e)

/-- A request is read at its source. -/
def State.dmaRead (s : State) (q : Req) (ecc : Ecc) : State × Except Denial (List Byte) :=
  match s.checkIod none false q.src q.len with
  | some e => (s, .error e)
  | none => s.serveRead q.src q.len ecc

/-- Its bytes are written. -/
def State.dmaPlace (s : State) (q : Req) (bs : List Byte) (ecc : Ecc) : State × Option Denial :=
  match s.checkIod none true q.dst bs.length with
  | some e => (s, some e)
  | none => s.serveWrite q.dst bs ecc

/-- Bytes of a descriptor have landed. -/
def State.dmaLanded (s : State) (n len : Nat) : State :=
  match (s.dmaCh n).current with
  | none => s
  | some job =>
    let s1 := s.modHost fun h =>
      if job.desc.toDevice then { h with dmaBytesToDevice := satAdd h.dmaBytesToDevice len }
      else { h with dmaBytesToHost := satAdd h.dmaBytesToHost len }
    (s1.modDma n fun c => { c with current := some { job with moved := job.moved + len } }).dmaSplit n maxOutstanding

end Sys2Proof.Machine
end

