-- ==== Sys2Proof/Machine/Requests.lean ====
section
/-! DEFINITION. Requests on their way: arbitration by deadline, reading, restamping, landing, XFERs, and
streams that end in error (R207 to R231, R781). -/

namespace Sys2Proof.Machine

/-! ### XFERs (R781) -/

/-- The other end of an XFER's bytes in its issuing die's terms: both sides' tiers. -/
def xferTiers (die : Nat) (x : Xfer) : Nat × Nat := (addrTier die x.src, addrTier die x.dst)

def xferOwner (d p : Nat) (x : Xfer) : ReqOwner := .xfer d p x.id

def xferPut (x : Xfer) (l : List Xfer) : List Xfer := l.map fun y => if y.id = x.id then x else y

/-- Splits an XFER into requests, as many as may be outstanding (R207, R220). -/
def State.xferSplit (s : State) (d p : Nat) (x : Xfer) : Nat → State
  | 0 => s
  | k + 1 =>
    if x.length ≤ x.issued ∨ maxOutstanding ≤ (s.inFlight (xferOwner d p x)).length then
      s.modTile d p fun t => { t with xfers := xferPut x t.xfers }
    else
      let a := x.src + x.issued
      let b := x.dst + x.issued
      let n := min (x.length - x.issued) (min (toGranule a) (toGranule b))
      let tiers := xferTiers d x
      let q : Req :=
        { owner := xferOwner d p x, seq := s.nextReq, instr := 0, cls := 0, die := d
          deadline := s.timer d + 1000000, src := a, dst := b, srcTier := tiers.1, dstTier := tiers.2, len := n
          points := s.pointsOf d a b }
      (((s.addReq q).askAt a).askAt b).xferSplit d p { x with issued := x.issued + n } k

/-- Wick reads the descriptor and issues the XFER (R158, R160). -/
def State.issueXfer (s : State) (d p desc done : Nat) : State :=
  let b := s.tmRead d p (descOffset desc) 32
  let t := s.tile d p
  let other := (s.program.map fun g => if d = 0 then g.tilesCd1 else g.tilesCd0).getD 0
  if !xferDescOk d other b then s.progFault d p t.running pfBadDescriptor 0
  else
    let e := xferDescOf b
    let x : Xfer :=
      { id := s.nextReq, src := e.src, dst := e.dst, length := e.length, targetTile := e.targetTile
        targetEvent := e.targetEvent, done := done, ctx := t.running, lastLanded := s.now, issueTime := s.now }
    let s1 : State := { s with nextReq := s.nextReq + 1 }
    ((s1.modTile d p fun y => { y with xfers := y.xfers ++ [x] }).tag d p done .xfer).xferSplit d p x 33

/-- The XFER queue takes four (R151). -/
def Tile.xferFull (t : Tile) : Bool := decide (4 ≤ t.xfers.length)

/-- XFER (R164, R781): held for an issue cycle when the queue is full. -/
def execXfer (d p desc done : Nat) (s : State) : Host.Outcome State Fault Refusal :=
  if tileExists d p then
    .next <|
      if !s.canIssue d p || decide (1024 ≤ desc) || decide (256 ≤ done) then s
      else if (s.tile d p).xferFull then s.modTile d p fun t => { t with issueHoldCycles := satAdd t.issueHoldCycles 1 }
      else s.issueXfer d p desc done
  else .fault .noSuchUnit

/-- XFER_COMPLETE (R781): the oldest XFER's last byte is visible, and its event has crossed LINK_CC (R169). Both
events rise together. -/
def execXferComplete (d p : Nat) (s : State) : Host.Outcome State Fault Refusal :=
  if tileExists d p then
    match (s.tile d p).xfers with
    | [] => .next s
    | x :: rest =>
      if s.stepOpen && !s.stopped && x.landed == x.length && !s.eventPassing x.event then
        let s1 := s.modTile d p fun t => { t with xfers := rest, activeAt := s.now }
        let s2 := s1.bump d p x.done 1
        match s2.posOf (1 - d) x.targetTile with
        | some q => .next (s2.bump (1 - d) q x.targetEvent 1)
        | none => .next s2
      else .next s
  else .fault .noSuchUnit

/-! ### What ends in error -/

/-- A request fails: its stream or its XFER ends in error, blaming the tier of the failing side. -/
def State.requestFails (s : State) (q : Req) (e : Denial) (dst : Bool) : State :=
  let tiers :=
    match ownerRef q.owner with
    | some r => ((s.headOf r).srcTier, (s.headOf r).dstTier)
    | none => (q.srcTier, q.dstTier)
  match q.owner with
  | .dma n => s.dmaDenied n e dst
  | .tileSlot .. | .bsuSlot .. | .xfer .. | .beacon _ | .event =>
    s.streamFails q.owner e.reason q.instr (if dst then tiers.2 else tiers.1) dst

/-- A request meets a link that has FAILED (R37). -/
def State.linkFails (s : State) (q : Req) : State :=
  match q.owner with
  | .dma n =>
    match (s.dmaCh n).current with
    | some job => s.dmaFails n (.streamError, causeWord 0x8008 0 0 job.desc.toDevice)
    | none => s.dmaDrop n
  | .tileSlot .. | .bsuSlot .. | .xfer .. | .beacon _ | .event => s.newCascade.endInError q.owner q.linkCause

/-- A step of this microsecond has ended with a stream's error, and another's may still be the one to report (R232). -/
def State.erredNow (s : State) : Bool :=
  ((s.run.bind (·.abort)).map fun a => a.status == .streamError && a.time / 1000 == s.now / 1000).getD false

/-- STREAM_ERROR (R229): a stream ends in error for a reason of R228. One that the abort of this microsecond has cut
off can still be the one to report (R232). -/
def execStreamError (r : StreamRef) (reason tier : Nat) (destSide : Bool) (s : State) : Host.Outcome State Fault Refusal :=
  if refExists r then
    .next <|
      if !reasonOk reason || decide (8 ≤ tier) then s
      else if s.stepOpen && !s.stopped && (s.slotAt r).state == .running then s.streamFail r reason tier destSide
      else if s.erredNow && (s.slotAt r).cutOff then
        s.endInError (refOwner r) (causeWord reason (s.slotAt r).pc tier destSide)
      else s
  else .fault .noSuchUnit

/-- STALL_LIMIT of the running step, in ns (R231). -/
def State.stallLimit (s : State) : Nat := ((s.run.map (·.stallLimitMs)).getD 100) * msNs

/-- NO_PROGRESS (R231, R781): nothing has landed for STALL_LIMIT. The source side is named (DEDUCED). -/
def State.noProgress (s : State) (o : ReqOwner) : State :=
  if !s.stepOpen || s.stopped then s
  else
    match o with
    | .xfer d p id =>
      match (s.tile d p).xfers.find? fun x => x.id == id && decide (x.landed < x.length) with
      | some x => (s.advanceTo (x.lastLanded + s.stallLimit)).streamFails o rsNoProgress 0 (xferTiers d x).1 false
      | none => s
    | .dma _ | .beacon _ | .event => s
    | .tileSlot .. | .bsuSlot .. =>
      match ownerRef o with
      | none => s
      | some r =>
        let x := s.slotAt r
        if x.state = .running ∧ x.wait ≠ .backPressure then
          (s.advanceTo (x.lastLanded + s.stallLimit)).streamFail r rsNoProgress (s.headOf r).srcTier false
        else s

def ownerExists : ReqOwner → Bool
  | .tileSlot d p n => tileExists d p && decide (n < 128)
  | .bsuSlot st ch n => decide (st < 8) && decide (ch < 32) && decide (n < 16)
  | .xfer d p _ => tileExists d p
  | .dma n => decide (n < 8)
  | .beacon _ | .event => true

def execNoProgress (owner : ReqOwner) (s : State) : Host.Outcome State Fault Refusal :=
  if ownerExists owner then .next (s.noProgress owner) else .fault .noSuchUnit

/-! ### Arbitration (R219 to R221) -/

/-- Slack of a request (R216). -/
def State.slack (s : State) (q : Req) : Int := (q.deadline - s.timer q.die).toInt

/-- The band of a request at a point (R221). -/
def State.band (s : State) (pt : Point) (q : Req) : Nat :=
  let cls := if q.cls = 2 ∧ s.slack q ≤ 0 then 0 else q.cls
  let throttled : Bool := match pt with
    | .pseudoChannel st _ => (s.stack st).stage == .throttle
    | .tilePort .. | .diePort .. | .linkCc _ | .linkCi .. | .beaconPort | .hostOut => false
  if cls = 1 ∧ throttled then 0 else if cls = 2 then 2 else 1

/-- Rank order: band, slack, slot key, order of issue. -/
def State.ranksBefore (s : State) (pt : Point) (a b : Req) : Bool :=
  let x := s.band pt a
  let y := s.band pt b
  if x ≠ y then decide (x < y)
  else if s.slack a ≠ s.slack b then decide (s.slack a < s.slack b)
  else if slotKey a.owner ≠ slotKey b.owner then decide (slotKey a.owner < slotKey b.owner)
  else decide (a.seq < b.seq)

/-- The granules of a range lie in the footprint of a running slice (R489). -/
def State.claimed (s : State) (a n : Nat) : Bool :=
  daSpace a == 0 &&
    match s.pch a with
    | none => false
    | some (q, _) =>
      let b := s.bsu (daStack a) (q / 2)
      b.slice.isSome && (granules a n).any fun g => b.footprint.contains (g.1 / 256 * 256)

/-- A pseudo-channel in PHY calibration holds its requests (R744). -/
def State.calibrating (s : State) (a : Nat) : Bool :=
  daSpace a == 0 &&
    match (s.stack (daStack a)).calibrating, s.pch a with
    | some (q, t), some (k, _) => q == k && decide (s.now < t)
    | _, _ => false

/-- Two accesses to stacked memory touch a common sector. -/
def shareSector (a n b m : Nat) : Bool :=
  daSpace a == 0 && daSpace b == 0 && decide (a / 32 ≤ (b + m - 1) / 32) && decide (b / 32 ≤ (a + n - 1) / 32)

/-- Sectors that a pseudo-channel's narrow queue holds (R437). -/
def narrowSectorsMax : Nat := 64

/-- The narrow requests at a pseudo-channel that it received before a number. -/
def State.queuedBefore (s : State) (pt : Point) (k : Nat) : List Req :=
  s.requests.filter fun x => x.points.head? == some pt && isNarrow x.endAt x.len && decide (x.queued < k)

/-- A narrow request is not among the first 64 sectors at its pseudo-channel, or an access to one of its sectors that came
there before it has not been served (R437). -/
def State.outOfTurn (s : State) (pt : Point) (q : Req) : Bool :=
  isNarrow q.endAt q.len &&
    (let before := s.queuedBefore pt q.queued
     decide (narrowSectorsMax < ((q :: before).map fun x => sectorsOf x.endAt x.len).sum) ||
       before.any (fun x => shareSector x.endAt x.len q.endAt q.len) ||
       s.requests.any fun x => x.points.isEmpty && isNarrow x.dst x.len && shareSector x.dst x.len q.endAt q.len)

/-- Traffic under a cap: in WARN narrow accesses, in THROTTLE everything (R451). -/
def State.capped (s : State) (st : Nat) (q : Req) : Bool :=
  match (s.stack st).stage with
  | .normal | .halt => false
  | .warn => isNarrow q.endAt q.len
  | .throttle => true

/-- A request cannot be granted at a memory's point yet. -/
def State.heldAt (s : State) (pt : Point) (q : Req) : Bool :=
  match pt with
  | .pseudoChannel st pch =>
    s.bankHeld q.endAt || s.calibrating q.endAt || s.claimed q.endAt q.len || s.outOfTurn pt q ||
      ((s.stack st).spent.contains pch && s.capped st q)
  | .tilePort .. => s.darkAt q.endAt
  | .diePort .. | .linkCc _ | .linkCi .. => q.data.isNone && s.darkAt q.src
  | .beaconPort | .hostOut => false

/-- A request at a footprint is counted as held, once (R489). -/
def State.noteHeld (s : State) (pt : Point) : State :=
  match pt with
  | .pseudoChannel st pch =>
    let hit := fun (q : Req) => q.points.head? == some pt && !q.held && s.claimed q.endAt q.len
    let n := (s.requests.filter hit).length
    let mark := fun (q : Req) => if hit q then { q with held := true, heldSince := s.now } else q
    ({ s with requests := s.requests.map mark } : State).modBsu st (pch / 2) fun b =>
      { b with heldRequests := satAdd b.heldRequests n, held := b.held || decide (0 < n) }
  | .tilePort .. | .diePort .. | .linkCc _ | .linkCi .. | .beaconPort | .hostOut => s

/-- The candidate of smallest rank at a point. -/
def State.bestAt (s : State) (pt : Point) : Option Req :=
  match s.requests.filter fun q => q.points.head? == some pt && !s.heldAt pt q with
  | [] => none
  | a :: l => some (l.foldl (fun b q => if s.ranksBefore pt q b then q else b) a)

/-- Changes the request of an owner and number. -/
def State.modReq (s : State) (q : Req) (f : Req → Req) : State :=
  { s with requests := s.requests.map fun x => if x.owner = q.owner ∧ x.seq = q.seq then f x else x }

def State.dropReq (s : State) (q : Req) : State :=
  { s with requests := s.requests.filter fun x => !(x.owner == q.owner && x.seq == q.seq) }

/-- The link of a point, and the die that receives there (R32, R218). -/
def pointLink : Point → Option (Nat × Nat)
  | .linkCc a => some (0, 1 - a)
  | .linkCi d up => some (dieLink d, if up then 2 else d)
  | .tilePort .. | .diePort .. | .pseudoChannel .. | .beaconPort | .hostOut => none

/-- A message that carries no bytes of its own: it is over when its last point has let it through (R220). -/
def isMessage : ReqOwner → Bool
  | .beacon _ | .event => true
  | .tileSlot .. | .bsuSlot .. | .xfer .. | .dma _ => false

/-- What passing a point does to a request: a link's bytes are counted, and the die beyond it restamps the request
with its own time (R218). -/
def State.passPoint (s : State) (pt : Point) (q : Req) : State :=
  let on := match pointLink pt with
    | some (k, b) =>
      let d := s.timer b + BitVec.ofInt 32 (s.slack q)
      (s.modLink k fun x => { x with bytes := satAdd x.bytes q.len }).modReq q fun x =>
        { x with points := x.points.drop 1, die := b, deadline := d, queued := s.nextReq }
    | none => s.modReq q fun x => { x with points := x.points.drop 1, queued := s.nextReq }
  let on : State := { on with nextReq := on.nextReq + 1 }
  if isMessage q.owner && decide (q.points.length ≤ 1) then on.dropReq q else on

/-- The bytes of a request at its source: a stream's or an XFER's under the program agent class, a descriptor's under
the checks of DMA, and code from the program copy, which no region covers (R146, R427, R695). -/
def State.sourceBytes (s : State) (q : Req) (ecc : Ecc) : State × Except Denial (List Byte) :=
  match q.owner with
  | .dma _ => s.dmaRead q ecc
  | .tileSlot .. | .bsuSlot .. | .xfer .. | .beacon _ | .event =>
    let right := if refills q.owner then none else programRight false q.src
    match s.checkAccess right false q.src q.len with
    | some e => (s.countDenial e, .error e)
    | none => s.serveRead q.src q.len ecc

/-- A request is read at its source. -/
def State.readRequest (s : State) (q : Req) (ecc : Ecc) : State × Option Denial :=
  if q.data.isSome then (s, none)
  else
    match s.sourceBytes q ecc with
    | (s1, .error e) => (s1, some e)
    | (s1, .ok b) =>
      let k := q.live.getD b.length
      (s1.modReq q fun x => { x with data := some (b.take k ++ zeros (b.length - k)) }, none)

/-- A link that has FAILED passes nothing (R37). -/
def State.linkDown (s : State) : Point → Bool
  | .linkCc _ => (s.link 0).state == .failed
  | .linkCi d _ => (s.link (dieLink d)).state == .failed
  | .tilePort .. | .diePort .. | .pseudoChannel .. | .beaconPort | .hostOut => false

/-- A die in stand-alone test mode ignores its links, and nothing passes them (R59). -/
def State.isolatedAt (s : State) : Point → Bool
  | .linkCc _ => (s.die 0).isolated || (s.die 1).isolated
  | .linkCi d _ => (s.die d).isolated || (s.die 2).isolated
  | .pseudoChannel st _ => (s.die (stackDie st)).isolated || (s.die (3 + st)).isolated
  | .tilePort .. | .diePort .. | .beaconPort | .hostOut => false

/-- The host link carries nothing while it retrains (R596). -/
def State.hostWaits (s : State) (pt : Point) : Bool := pt == .hostOut && s.host.retraining

/-- Whether an opportunity at a pseudo-channel went to traffic under a cap, which then leaves the next one (R451). -/
def State.spend (s : State) (pt : Point) (q : Option Req) : State :=
  match pt with
  | .pseudoChannel st pch =>
    let used := (q.map (s.capped st)).getD false
    if used = (s.stack st).spent.contains pch then s
    else s.modStack st fun k => { k with spent := if used then pch :: k.spent else k.spent.filter (· != pch) }
  | .tilePort .. | .diePort .. | .linkCc _ | .linkCi .. | .beaconPort | .hostOut => s

/-- One grant at a point. -/
def State.grant (s0 : State) (pt : Point) (ecc : Ecc) : State :=
  let best := (s0.noteHeld pt).bestAt pt
  let s := s0.spend pt best
  let s1 := s.noteHeld pt
  match best with
  | none =>
    match pt with
    | .tilePort d p => if s1.requests.any fun q => q.points.head? == some pt then s1.askLight d p else s1
    | .diePort .. | .pseudoChannel .. | .linkCc _ | .linkCi .. | .beaconPort | .hostOut => s1
  | some q =>
    if s.hostWaits pt || s.isolatedAt pt then s1
    else if s.linkDown pt then s1.linkFails q
    else
      match (s1.chargeOwner q.owner).readRequest q ecc with
      | (s2, some e) => s2.requestFails q e false
      | (s2, none) => s2.passPoint pt q

/-- Whether a point exists. -/
def pointExists : Point → Bool
  | .tilePort d p => tileExists d p
  | .diePort d n => decide (d < 2) && decide (n < 64)
  | .pseudoChannel st q => decide (st < 8) && decide (q < 64)
  | .linkCc d => decide (d < 2)
  | .linkCi d _ => decide (d < 2)
  | .beaconPort | .hostOut => true

/-- ARBITER_GRANT (R221). -/
def execArbiterGrant (pt : Point) (ecc : Ecc) (s : State) : Host.Outcome State Fault Refusal :=
  if pointExists pt then .next (s.grant pt ecc) else .fault .noSuchUnit

/-! ### Landing (R209, R212, R215) -/

/-- Full 32-bit values at the front of a byte string, and what is left. -/
def wordsOf (bs : List Byte) : List Nat × List Byte :=
  let n := bs.length / 4
  ((List.range n).map fun i => field bs (4 * i) 4, bs.drop (4 * n))

/-- Values land in the FIFO of the data stream. -/
def State.landIndex (s : State) (r : StreamRef) (data : List Byte) : State :=
  match s.dataSlot r with
  | none => s
  | some t =>
    let (ws, left) := wordsOf ((s.slotAt r).partWord ++ data)
    ((s.chargeOwner (refOwner r)).modSlot r fun x => { x with partWord := left }).modSlot t fun x =>
      { x with fifo := x.fifo ++ ws, wait := if x.wait = .emptyFifo ∧ !ws.isEmpty then .none else x.wait }

/-- A stream's request has landed: BYTES_MOVED, its block, and what follows from it. Under ENCODE_FTC the
stream counts the bytes that it lands. -/
def State.streamLanded (s : State) (r : StreamRef) (q : Req) : State :=
  let land := fun (b : FillBlock) => if some b.index = q.block then { b with landed := b.landed + q.len } else b
  let s1 := s.modSlot r fun x =>
    { x with bytesMoved := satAdd x.bytesMoved q.len, lastLanded := s.now, filling := x.filling.map land }
  (s1.encodeRun r (s.headOf r) (s.slotAt r).pc 3).streamCheck r

/-- An XFER's request has landed; its unit splits on. -/
def State.xferLanded (s : State) (d p id : Nat) (q : Req) : State :=
  match (s.tile d p).xfers.find? fun x => x.id == id with
  | none => s
  | some x =>
    let y := { x with landed := x.landed + q.len, lastLanded := s.now }
    let put := fun (z : Xfer) (u : State) => u.modTile d p fun t => { t with xfers := xferPut z t.xfers }
    if y.landed = y.length then s.sendEvent d fun n u => put { y with event := some n } u
    else (put y s).xferSplit d p y 33

/-- Bytes that an encoding stream has read reach its encoder. -/
def State.feedEncoder (s : State) (r : StreamRef) (q : Req) (data : List Byte) : State :=
  let h := s.headOf r
  let s1 := s.modSlot r fun x => { x with ftcBytes := x.ftcBytes ++ data, lastLanded := s.now }
  (s1.encodeRun r h q.instr 3).streamCheck r

/-- Code lands for the oldest segment load of a tile; slot 127 reads on (R149, R234). -/
def State.refillLanded (s : State) (d p : Nat) (data : List Byte) : State :=
  let s1 := s.modSlot (.tile d p 127) fun x => { x with bytesMoved := satAdd x.bytesMoved data.length, lastLanded := s.now }
  match (s.tile d p).segLoads with
  | [] => s1
  | l :: rest =>
    (s1.modTile d p fun t => { t with segLoads := { l with code := l.code ++ data } :: rest }).refillSplit d p maxOutstanding

/-- Bytes whose order matters where they land: index values, code, and what an encoder reads (DEDUCED from R213,
R215). -/
def Req.inOrder (q : Req) : Bool := q.dstTier == tierIndex || q.toEncoder || refills q.owner

/-- A request may land: it has passed every point with its bytes, nothing locks its destination (R87), one whose order
matters waits for the earlier ones of its stream, and a narrow one for those served before it at its sectors (R437). -/
def State.mayLand (s : State) (q : Req) : Bool :=
  let first := ((s.inFlight q.owner).filter fun x => x.toEncoder == q.toEncoder).head?.map (·.seq)
  let earlier := fun (x : Req) =>
    x.points.isEmpty && decide (x.queued < q.queued) && isNarrow x.dst x.len && shareSector x.dst x.len q.dst q.len
  q.points.isEmpty && q.data.isSome && !s.lockedReq q && !s.darkAt q.dst && (!q.inOrder || first == some q.seq) &&
    !(isNarrow q.dst q.len && s.requests.any earlier)

/-- The bytes of a request are written where they go. -/
def State.placeRequest (s : State) (q : Req) (data : List Byte) (ecc : Ecc) : State × Option Denial :=
  match q.owner with
  | .dma _ => s.dmaPlace q data ecc
  | .tileSlot .. | .bsuSlot .. | .xfer .. | .beacon _ | .event =>
    let h := match ownerRef q.owner with
      | some r => s.headOf r
      | none => streamHeadOf []
    s.place h q data ecc

/-- A request lands and becomes visible. -/
def State.land (s : State) (q : Req) (data : List Byte) (ecc : Ecc) : State :=
  match ((s.chargeOwner q.owner).dropReq q).placeRequest q data ecc with
  | (s1, some e) => s1.requestFails q e true
  | (s1, none) =>
    match q.owner with
    | .tileSlot d p n =>
      let r := StreamRef.tile d p n
      if n = 127 then s1.refillLanded d p data
      else if q.toEncoder then s1.feedEncoder r q data
      else if q.dstTier = tierIndex then (s1.landIndex r data).streamLanded r q
      else s1.streamLanded r q
    | .bsuSlot st ch n =>
      let r := StreamRef.bsu st ch n
      if q.toEncoder then s1.feedEncoder r q data else s1.streamLanded r q
    | .xfer d p id => s1.xferLanded d p id q
    | .dma n => s1.dmaLanded n q.len
    | .beacon _ | .event => s1

/-- REQUEST_LANDED (R209): a request of a stream that has ended in error is discarded (R229). -/
def execRequestLanded (owner : ReqOwner) (seq : Nat) (ecc : Ecc) (s : State) : Host.Outcome State Fault Refusal :=
  if ownerExists owner then
    match s.requests.find? fun q => q.owner == owner && q.seq == seq with
    | none => .next s
    | some q =>
      if q.discarded then .next (s.dropReq q)
      else if s.mayLand q then .next (s.land q (q.data.getD []) ecc) else .next (s.askAt q.dst)
  else .fault .noSuchUnit

end Sys2Proof.Machine
end

