-- ==== Sys2Proof/Machine/Bsu.lean ====
section
/-! DEFINITION. Bank-side units (11): dispatch, slices with their footprints, results, errors, landings, and
BSUs going dark and lit. A slice's work is done at its end; what touches its footprint waits until then. -/

namespace Sys2Proof.Machine

/-! ### Units and operations -/

def bsuExists (st ch : Nat) : Bool := decide (st < 8) && decide (ch < 32)

def State.bsuOp (s : State) (id : Nat) : Option BsuOp := s.bsuOps.find? fun o => o.id == id

def State.modBsuOp (s : State) (id : Nat) (f : BsuOp → BsuOp) : State :=
  { s with bsuOps := s.bsuOps.map fun o => if o.id = id then f o else o }

def BsuOp.part (o : BsuOp) (st ch : Nat) : Option BsuPart := o.parts.find? fun p => p.stack == st && p.channel == ch

def BsuOp.modPart (o : BsuOp) (st ch : Nat) (f : BsuPart → BsuPart) : BsuOp :=
  { o with parts := o.parts.map fun p => if p.stack = st ∧ p.channel = ch then f p else p }

/-- The tensor of an operand, of which an accepted descriptor always names one. -/
def Program.operand (g : Program) (id : Nat) : Tensor := (g.tensor id).getD (tensorOf [])

/-! ### Flags (R476, R498) -/

def bsuElementwise : Nat := 1
def bsuAccumSource : Nat := 2
def bsuConvertSource : Nat := 3
def bsuDerivedSource : Nat := 4
def bsuLandingSource : Nat := 5
def bsuScatterSource : Nat := 6
def bsuReductionSource : Nat := 7

/-- Sets NONFINITE; SOURCE keeps the first setting, as NF_STATUS does (DEDUCED from R280). -/
def BsuNf.set (f : BsuNf) (source : Nat) : BsuNf := if f.nonFinite then f else { f with nonFinite := true, source := source }

/-- SOURCE of a descriptor's elements. -/
def elemSource (o : BsuDesc) : Nat :=
  if o.bop = bopAccum then bsuAccumSource
  else if o.bop = bopConvert then bsuConvertSource
  else if o.bop = bopScatterAdd then bsuScatterSource
  else bsuElementwise

/-! ### Errors (R494, R495) -/

/-- A BSU's cause word: the side that failed, in its own stack. -/
def bsuCauseWord (reason : Nat) (dst : Bool) : Nat := causeWord reason 0 tierStack dst

/-- The operation of a program ends in error on a BSU: the step aborts with STREAM_ERROR for slot 0, or for
SLOT under STREAM. -/
def State.bsuFails (s : State) (st ch : Nat) (o : BsuDesc) (reason : Nat) (dst : Bool) : State :=
  let w := bsuCauseWord reason dst
  let s1 := s.modBsu st ch fun b => { b with cause := BitVec.ofNat 32 w }
  s1.newCascade.endInError (.bsuSlot st ch (if o.streams then o.slot else 0)) w

/-- The status of an error of a device-issued operation. -/
def deviceReason (reason : Nat) : Status :=
  if reason = Status.thermalHalt.code then .thermalHalt
  else if reason = Status.unitRetired.code then .unitRetired
  else .memoryError

/-- An operation that Beacon or Lamplighter issued for a collective ends in error: the device originates the
abort of the step. -/
def State.bsuDeviceFails (s : State) (st ch reason : Nat) (dst : Bool) : State :=
  let w := bsuCauseWord reason dst
  let s1 := s.modBsu st ch fun b => { b with cause := BitVec.ofNat 32 w }
  s1.newCascade.abortStep
    { status := deviceReason reason, kind := 1, detail := streamDetail true (stackDie st) (32 * st + ch) 0 w
      key := slotKey (.bsuSlot st ch 0) }

/-! ### What a slice reads and writes (R488, R489) -/

/-- A range of bytes of a slice. -/
structure SliceRange where
  addr : Nat
  len : Nat
  write : Bool
  deriving DecidableEq, Repr

/-- The index elements of a slice of GATHER or SCATTER_ADD. -/
def State.sliceIndices (s : State) (g : Program) (o : BsuDesc) (lo n : Nat) : List Int :=
  s.indicesAt (s.elemAddr g true (g.operand o.tensorB) o.fmtB lo) n

/-- Row `v` lies in the tensor and on the channel of index element `i` (R480). -/
def rowOk (g : Program) (o : BsuDesc) (i : Nat) (v : Int) : Bool :=
  let (id, fmt) := if o.bop = bopGather then (o.tensorA, o.fmtA) else (o.tensorD, o.fmtD)
  let t := g.operand id
  let e := v.toNat * o.rowElements
  decide (0 ≤ v) && decide (e + o.rowElements ≤ opElements o t fmt) &&
    e / max (perSlice o t fmt) 1 == i / max (perSlice o (g.operand o.tensorB) o.fmtB) 1

/-- The ranges of elements [lo, lo + n) of an operation. -/
def State.sliceRanges (s : State) (g : Program) (o : BsuDesc) (lo n : Nat) : List SliceRange :=
  let rd := fun (id fmt e k : Nat) => { addr := s.elemAddr g true (g.operand id) fmt e, len := k * elemBytes fmt, write := false }
  let wr := fun (id fmt e k : Nat) => { addr := s.elemAddr g false (g.operand id) fmt e, len := k * elemBytes fmt, write := true }
  if o.byRows then
    let r := o.rowElements
    let rows := fun (p : Int × Nat) =>
      let a := if o.bop = bopGather then p.1.toNat else p.2
      let d := if o.bop = bopGather then p.2 else p.1.toNat
      [rd o.tensorA o.fmtA (a * r) r, wr o.tensorD o.fmtD (d * r) r]
    rd o.tensorB o.fmtB lo n :: (((s.sliceIndices g o lo n).zipIdx lo).filter fun p => rowOk g o p.2 p.1).flatMap rows
  else
    (if o.usesA then [rd o.tensorA o.fmtA lo n] else []) ++ (if o.usesB then [rd o.tensorB o.fmtB lo n] else []) ++
      (if o.readsD then [rd o.tensorD o.fmtD lo n] else []) ++ if o.writesD then [wr o.tensorD o.fmtD lo n] else []

/-- The 256-byte granules of ranges. -/
def footprintOf (rs : List SliceRange) : List Nat :=
  (rs.flatMap fun r => (granules r.addr r.len).map fun g => g.1 / 256 * 256).eraseDups

/-- Why a slice fails: the reason, and whether the destination failed. -/
abbrev SliceError := Nat × Bool

/-- The units of an access that follow the first `k`, numbered anew. -/
def eccFrom (ecc : Ecc) (k : Nat) : Ecc := ecc.filterMap fun e => if k ≤ e.1 then some (e.1 - k, e.2) else none

/-- One range of a slice meets its memory's error protection: a read, or what a write of part of a sector must read
(R440, R441). -/
def State.rangeReads (s : State) (r : SliceRange) (ecc : Ecc) : State × Bool :=
  if r.write then s.rmwReads r.addr r.len ecc else s.eccRead r.addr r.len ecc

/-- The checks that a slice's ranges meet: region rights and service, then error protection, in the order of the
ranges, whose sectors `ecc` numbers one after another (R440, R441, R494). -/
def State.sliceReads (s : State) (rs : List SliceRange) (ecc : Ecc) : State × Option SliceError :=
  let denied := rs.findSome? fun r => (s.checkAccess (programRight r.write r.addr) r.write r.addr r.len).map fun d => (d, r.write)
  match denied with
  | some (d, w) => (s.countDenial d, some (d.reason, w))
  | none =>
    let step := fun (x : State × Option SliceError × Nat) (r : SliceRange) =>
      if x.2.1.isSome then x
      else
        let (t, bad) := x.1.rangeReads r (eccFrom ecc x.2.2)
        (t, if bad then some (Status.memoryError.code, r.write) else none, x.2.2 + sectorsOf r.addr r.len)
    let (s1, e, _) := rs.foldl step (s, none, 0)
    (s1, e)

/-! ### The work of a slice (R473, R474, R477, R480) -/

/-- A sum into D: to nearest even in FP32, stochastically in a 16-bit format. A sum that is not zero and rounds to zero
is an underflow (R243, R257, R474, R476). -/
def addRounded (f : Fmt) (key : RoundKey) (x : Fp) : Conv :=
  if f = .fp32 then f.convert false x
  else
    let code := f.spec.stochastic key.bits x
    { code := code, underflow := !x.nonFinite && !x.isZero && (f.spec.decode code).isZero }

/-- The result of one element. -/
def bsuElem (o : BsuDesc) (scale : Fp) (key : RoundKey) (sub : Bool) (a b d : Fp) : Conv :=
  let f := fmtOf o.fmtD
  let once := fun x => f.convert false x
  match o.bop with
  | 0x01 => once (a.add b)
  | 0x02 => once (a.mul b)
  | 0x03 => once (((fp32 o.scalar).mul a).add b)
  | 0x04 => once ((fp32 o.scalar).mul a)
  | 0x05 => once (fp32 o.scalar)
  | 0x06 => copyConv f sub a
  | 0x07 => f.convert sub (a.mul scale)
  | _ => addRounded f key (d.add a)

/-- What a slice leaves beside the bytes it writes. -/
structure SliceOut where
  values : List Fp := []
  sat : Nat := 0
  underflow : Nat := 0
  bytes : Nat := 0

def sliceOutOf (f : Fmt) (cs : List Conv) (bytes : Nat) : SliceOut :=
  { values := cs.map fun c => f.spec.decode c.code, sat := (cs.filter (·.sat)).length
    underflow := (cs.filter (·.underflow)).length, bytes := bytes }

def State.roundKey (s : State) (tensor element addend : Nat) : RoundKey :=
  { seed := s.jobSeed, tensor := tensor, element := element, addend := addend % 2 ^ 24, step := s.stepNo }

/-- Elements [lo, lo + n) of an elementwise operation. -/
def State.sliceElementwise (s : State) (g : Program) (op : BsuOp) (lo n : Nat) : State × SliceOut :=
  let o := op.desc
  let get := fun (used : Bool) (id fmt : Nat) =>
    if used then s.elemsAt fmt (s.elemAddr g true (g.operand id) fmt lo) n else List.replicate n (.zero, false)
  let as := get o.usesA o.tensorA o.fmtA
  let bs := get o.usesB o.tensorB o.fmtB
  let ds := get o.readsD o.tensorD o.fmtD
  let cs := (List.range n).map fun i =>
    let a := as.getD i (.zero, false)
    bsuElem o (fp32 op.scale) (s.roundKey o.tensorD (lo + i) o.addend) a.2 a.1 (bs.getD i (.zero, false)).1 (ds.getD i (.zero, false)).1
  (s.writeDev (s.elemAddr g false (g.operand o.tensorD) o.fmtD lo) (codesBytes o.fmtD (cs.map (·.code))),
    sliceOutOf (fmtOf o.fmtD) cs (n * bytesPer o))

/-- One row of GATHER or SCATTER_ADD: index element `i` holds row number `v`. -/
def State.oneRow (s : State) (g : Program) (o : BsuDesc) (i v : Nat) : State × List Conv :=
  let r := o.rowElements
  let ta := g.operand o.tensorA
  let td := g.operand o.tensorD
  let f := fmtOf o.fmtD
  if o.bop = bopGather then
    let cs := (s.elemsAt o.fmtA (s.elemAddr g true ta o.fmtA (v * r)) r).map fun a => copyConv f a.2 a.1
    (s.writeDev (s.elemAddr g false td o.fmtD (i * r)) (codesBytes o.fmtD (cs.map (·.code))), cs)
  else
    let as := s.elemsAt o.fmtA (s.elemAddr g true ta o.fmtA (i * r)) r
    let ds := s.elemsAt o.fmtD (s.elemAddr g true td o.fmtD (v * r)) r
    let cs := (List.range r).map fun j =>
      let x := (ds.getD j (.zero, false)).1.add (as.getD j (.zero, false)).1
      addRounded f (s.roundKey o.tensorD (v * r + j) (o.addend + i)) x
    (s.writeDev (s.elemAddr g false td o.fmtD (v * r)) (codesBytes o.fmtD (cs.map (·.code))), cs)

/-- Index elements [lo, lo + n), in order. -/
def State.sliceRows (s : State) (g : Program) (op : BsuOp) (lo n : Nat) : State × SliceOut :=
  let o := op.desc
  let step := fun (x : State × List Conv) (p : Int × Nat) =>
    let (t, cs) := x.1.oneRow g o p.2 p.1.toNat
    (t, x.2 ++ cs)
  let (s1, cs) := ((s.sliceIndices g o lo n).zipIdx lo).foldl step (s, [])
  (s1, sliceOutOf (fmtOf o.fmtD) cs (n * bytesPer o))

/-- The partial of a reduction after elements [lo, lo + n), from the partial before them (R247, R251). -/
def State.slicePartial (s : State) (g : Program) (o : BsuDesc) (acc : Fp) (lo n : Nat) : Fp :=
  let as := (s.elemsAt o.fmtA (s.elemAddr g true (g.operand o.tensorA) o.fmtA lo) n).map (·.1)
  if o.bop = bopSum then dotChunks acc as
  else if o.bop = bopNorm2 then dotChunks acc (as.map fun a => a.mul a)
  else as.foldl amaxOf acc

/-! ### Choosing the next slice (R485, R488, R492) -/

/-- A BSU has an operation in progress. -/
def Bsu.busy (b : Bsu) : Bool := !b.queue.isEmpty || b.slice.isSome || b.updateOp != 0

/-- STATE follows what the BSU does (R497). -/
def Bsu.settle (b : Bsu) : Bsu :=
  match b.state with
  | .dark | .retired => b
  | .idle | .running => { b with state := if b.busy then .running else .idle }

def State.sliceBytes (s : State) (st : Nat) : Nat := if (s.stack st).stage = .throttle then 32768 else 65536

/-- Sums that one landing slice takes: 48 KiB of staged sums. -/
def landingSlice : Nat := 12288

/-- A slice starts and claims its footprint. -/
def State.claim (s : State) (st ch : Nat) (k : SliceKind) (elems : Nat × Nat) (fp : List Nat) : State :=
  (s.chargeBsu st ch).modBsu st ch fun b => { b with slice := some k, sliceElems := elems, footprint := fp, sliceStart := s.now, lastWork := s.now }

/-- A stream of STREAM starts on its slot of this BSU, and the next operation may follow (R481). -/
def State.startBsuStream (s : State) (g : Program) (st ch : Nat) (op : BsuOp) (p : BsuPart) : State :=
  let o := op.desc
  let t := g.operand o.tensorA
  let q := [channelIndex t.mask st ch, s.tensorByte t (p.next * opBits o t o.fmtA / 8), p.stop - p.next, o.scalar.toNat].map (BitVec.ofNat 64)
  let r := StreamRef.bsu st ch o.slot
  let s1 := (s.chargeBsu st ch).modSlot r fun x => { x with state := .idle, program := o.streamProgram }
  let s2 := (s1.startSlot r 0 0 q).modBsuOp op.id fun x => x.modPart st ch fun y => { y with finished := true }
  s2.modBsu st ch fun b => { b with queue := b.queue.drop 1, lastWork := s.now }

/-- The slot of a STREAM operation is free. -/
def State.slotFree (s : State) (st ch : Nat) (o : BsuDesc) : Bool := (s.slotAt (.bsu st ch o.slot)).state != .running

/-- The next slice of the operation at the head of the queue, by the rule of R488. -/
def State.claimOp (s : State) (g : Program) (st ch : Nat) (op : BsuOp) (p : BsuPart) : State :=
  let n := min (sliceElements (s.sliceBytes st) (bytesPer op.desc)) (p.stop - p.next)
  s.claim st ch (.op op.id) (p.next, n) (footprintOf (s.sliceRanges g op.desc p.next n))

/-- What a BSU that is free at a slice boundary starts, once. -/
def State.kickOnce (s : State) (st ch : Nat) : State :=
  let b := s.bsu st ch
  let head := b.queue.head?.bind s.bsuOp
  let due := b.exportPending && decide (7 ≤ b.slicesSinceExport)
  if !b.landings.isEmpty && !due then
    s.claim st ch .landing (0, min landingSlice b.landings.length)
      (footprintOf ((b.landings.take landingSlice).map fun l => { addr := l.addr, len := elemBytes l.fmt, write := true }))
  else
    match head, s.program with
    | some op, some g =>
      match op.part st ch with
      | some p =>
        if p.finished then s
        else if op.desc.streams then if s.slotFree st ch op.desc then s.startBsuStream g st ch op p else s
        else if due then s.claim st ch .exportOut (0, 0) []
        else s.claimOp g st ch op p
      | none => s
    | _, _ => if b.exportPending then s.claim st ch .exportOut (0, 0) [] else s

/-- The BSU may start a slice: lit, no slice running, not in a pause, its duty share not spent, and no BREAK
(R486, R492, R703). -/
def State.bsuFree (s : State) (st ch : Nat) : Bool :=
  let b := s.bsu st ch
  (b.state == .idle || b.state == .running) && b.slice.isNone && !b.paused && !b.dutySpent && !s.tinder.broken

/-- A BSU goes on: the streams that can start, and the next slice. -/
def State.kickBsu (s : State) (st ch : Nat) : State :=
  let go := fun (x : State) => if x.bsuFree st ch then x.kickOnce st ch else x
  -- five operations at most are queued, each of which may be a STREAM
  ((List.range 6).foldl (fun x _ => go x) s).modBsu st ch Bsu.settle

/-- Work for a BSU lights it if it is dark, and otherwise sets it going (R467). -/
def State.wakeBsu (s : State) (st ch : Nat) : State :=
  match (s.bsu st ch).state with
  | .dark => s.modBsu st ch fun b => { b with lighting := true, lastWork := s.now }
  | .idle | .running => (s.modBsu st ch fun b => { b with lastWork := s.now }).kickBsu st ch
  | .retired => s

/-! ### Dispatch (R469, R479) -/

/-- Operations that wait behind the running one, at most 4 (R465). -/
def bsuQueueFull (b : Bsu) : Bool := decide (5 ≤ b.queue.length)

/-- A queue that the operation needs is full. -/
def State.dispatchFull (s : State) (o : BsuDesc) : Bool :=
  match s.program with
  | none => false
  | some g => (bsuParts g o).any fun p => bsuQueueFull (s.bsu p.stack p.channel)

/-- The scale that CONVERT applies, and whether its amax was non-finite (R266, R479). -/
def State.dispatchScale (s : State) (o : BsuDesc) : BitVec 32 × Bool :=
  if o.derived then
    let (e, bad) := derivedScale (fmtOf o.fmtD) (BitVec.ofNat 32 (s.devNat o.result 4))
    (toFp32 (.pow2 e), bad)
  else (o.scalar, false)

/-- The descriptor goes to every BSU that holds elements of the range. -/
def State.dispatchTo (s : State) (op : BsuOp) : State :=
  let s1 : State := { s with bsuOps := s.bsuOps ++ [op], nextBsuOp := s.nextBsuOp + 1 }
  let s2 := op.parts.foldl (fun x p => x.modBsu p.stack p.channel fun b => { b with queue := b.queue ++ [op.id] }) s1
  let s3 :=
    if op.badScale then
      op.parts.foldl
        (fun x p => x.modBsu p.stack p.channel fun b => { b with nf := { b.nf.set bsuDerivedSource with amaxNonFinite := true } }) s2
    else s2
  op.parts.foldl (fun x p => x.wakeBsu p.stack p.channel) s3

/-- A BSU operation of a program is issued. -/
def State.dispatchBsu (s : State) (die pos ctx done : Nat) (o : BsuDesc) : State :=
  match s.program with
  | none => s
  | some g =>
    let parts := bsuParts g o
    match parts.find? fun p => (s.bsu p.stack p.channel).state == .retired || !s.stackInService p.stack with
    | some p => s.bsuFails p.stack p.channel o Status.unitRetired.code false
    | none =>
      match if o.derived then s.checkAccess (programRight false o.result) false o.result 4 else none with
      | some d => (s.countDenial d).bsuFails ((parts.map (·.stack)).getD 0 0) ((parts.map (·.channel)).getD 0 0) o d.reason false
      | none =>
        let (scale, bad) := s.dispatchScale o
        s.dispatchTo
          { id := s.nextBsuOp, desc := o, issuer := .tile die pos ctx done, die := die, parts := parts, scale := scale
            badScale := bad }

/-- A COLL that names a BSU_OP entry, for the running context: a full queue holds it (R469). -/
def State.bsuColl (s : State) (d p done : Nat) (o : BsuDesc) : State :=
  if s.dispatchFull o then s.issueHold d p
  else (s.tag d p done .coll).dispatchBsu d p (s.tile d p).running done o

/-- A row that issues an operation. -/
def State.bsuRow (s : State) (d p done bop : Nat) (o : BsuDesc) : Host.Outcome State Fault Refusal :=
  if tileExists d p then
    let x := { o with bop := bop }
    let ok := (s.program.map fun g => bsuDescOk g x).getD false
    .next (if s.canIssue d p && decide (done < 256) && ok then s.bsuColl d p done x else s)
  else .fault .noSuchUnit

def execBsuAdd (d p done : Nat) (desc : BsuDesc) (s : State) : Host.Outcome State Fault Refusal := s.bsuRow d p done bopAdd desc
def execBsuMul (d p done : Nat) (desc : BsuDesc) (s : State) : Host.Outcome State Fault Refusal := s.bsuRow d p done bopMul desc
def execBsuAxpy (d p done : Nat) (desc : BsuDesc) (s : State) : Host.Outcome State Fault Refusal := s.bsuRow d p done bopAxpy desc
def execBsuScale (d p done : Nat) (desc : BsuDesc) (s : State) : Host.Outcome State Fault Refusal := s.bsuRow d p done bopScale desc
def execBsuFill (d p done : Nat) (desc : BsuDesc) (s : State) : Host.Outcome State Fault Refusal := s.bsuRow d p done bopFill desc
def execBsuCopy (d p done : Nat) (desc : BsuDesc) (s : State) : Host.Outcome State Fault Refusal := s.bsuRow d p done bopCopy desc
def execBsuConvert (d p done : Nat) (desc : BsuDesc) (s : State) : Host.Outcome State Fault Refusal := s.bsuRow d p done bopConvert desc
def execBsuAccum (d p done : Nat) (desc : BsuDesc) (s : State) : Host.Outcome State Fault Refusal := s.bsuRow d p done bopAccum desc
def execBsuSum (d p done : Nat) (desc : BsuDesc) (s : State) : Host.Outcome State Fault Refusal := s.bsuRow d p done bopSum desc
def execBsuNorm2 (d p done : Nat) (desc : BsuDesc) (s : State) : Host.Outcome State Fault Refusal := s.bsuRow d p done bopNorm2 desc
def execBsuAmax (d p done : Nat) (desc : BsuDesc) (s : State) : Host.Outcome State Fault Refusal := s.bsuRow d p done bopAmax desc
def execBsuGather (d p done : Nat) (desc : BsuDesc) (s : State) : Host.Outcome State Fault Refusal := s.bsuRow d p done bopGather desc
def execBsuScatterAdd (d p done : Nat) (desc : BsuDesc) (s : State) : Host.Outcome State Fault Refusal := s.bsuRow d p done bopScatterAdd desc
def execBsuStream (d p done : Nat) (desc : BsuDesc) (s : State) : Host.Outcome State Fault Refusal := s.bsuRow d p done bopStream desc

/-! ### The end of a slice (R488 to R493) -/

/-- Nanoseconds that a slice should take at most (R496). -/
def sliceNs (bytes : Nat) : Nat := ceilDiv bytes 192 + 20

/-- The BSU lets go of its footprint, counts the slice, and the time that its requests were held. -/
def State.releaseSlice (s : State) (st ch bytes : Nat) : State :=
  let onCh := fun (q : Req) => q.held && daSpace q.endAt == 0 && daStack q.endAt == st && ((s.pch q.endAt).map fun k => k.1 / 2 == ch).getD false
  let ns := ((s.requests.filter onCh).map fun q => s.now - q.heldSince).sum
  let s0 := (s.bsu st ch).footprint.foldl State.activate s
  let s1 : State := { s0 with requests := s0.requests.map fun q => if onCh q then { q with held := false } else q }
  s1.modBsu st ch fun b =>
    { b with
      slice := none
      footprint := []
      held := false
      holdNs := satAdd b.holdNs ns
      slices := satAdd b.slices 1
      internalBytes := satAdd b.internalBytes bytes
      slicesSinceExport := if b.slice = some .exportOut then 0 else b.slicesSinceExport + 1
      stalls := modAt b.stalls StallCause.stackLate.code (satAdd · (s.now - b.sliceStart - sliceNs bytes))
      stallSince := s.now
      lastWork := s.now }

/-- Banks of a channel with refresh debt, as keys of `Stack.banks`. -/
def Stack.indebted (k : Stack) (ch : Nat) : List Nat :=
  (k.banks.filter fun e => e.1 / 128 == ch && decide (0 < e.2.debt)).map (·.1)

/-- At a boundary a requested pause begins: every bank with debt refreshes, and holds its requests (R492). -/
def State.boundary (s : State) (st ch : Nat) : State :=
  if (s.bsu st ch).pauseRequested then
    let ks := (s.stack st).indebted ch
    let s1 := (s.chargeAll.chargeBsu st ch).modStack st fun k =>
      { k with banks := k.banks.map fun e => if ks.contains e.1 then (e.1, { e.2 with held := true }) else e }
    s1.modBsu st ch fun b =>
      { b with paused := true, pauseRequested := false, waitSince := if b.busy then some s.now else none }
  else s.kickBsu st ch

/-- What a BSU keeps of a slice's elements (R475, R476). -/
def State.noteSlice (s : State) (st ch : Nat) (op : BsuOp) (x : SliceOut) : State :=
  let o := op.desc
  let s1 := s.modBsu st ch fun b =>
    { b with
      nf := if x.values.any Fp.nonFinite then b.nf.set (elemSource o) else b.nf
      satCount := if o.countSat then satAdd b.satCount x.sat else b.satCount
      underflowCount := if o.countSat then satAdd b.underflowCount x.underflow else b.underflowCount }
  if o.recordAmax then s1.modBsuOp op.id fun y => { y with amaxSeen := x.values.foldl maxSeen y.amaxSeen } else s1

/-- The parts of a reduction leave their queues in channel order: a BSU holds its partial until those of the lower channels
of its stack are in, and the wait is EVENT_WAIT (R477, R482, R496). -/
def State.passPartials (s : State) (st id : Nat) : State :=
  let parts := ((s.bsuOp id).map fun o => o.parts.filter fun p => p.stack == st).getD []
  (parts.takeWhile fun p => p.finished).foldl
    (fun (x : State) p =>
      if (x.bsu st p.channel).queue.head? = some id then
        let y := x.modBsu st p.channel fun b =>
          { b with
            queue := b.queue.drop 1, lastWork := x.now, stallSince := x.now
            stalls := modAt b.stalls StallCause.eventWait.code (satAdd · (x.now - p.doneAt)) }
        if x.now = p.doneAt then y else y.kickBsu st p.channel
      else x) s

/-- A BSU has run elements up to `stop` of its part: a part that is through leaves the queue. -/
def State.partTo (s : State) (st ch id stop : Nat) (acc : Option (BitVec 32)) : State :=
  let s1 := s.modBsuOp id fun o => o.modPart st ch fun p =>
    { p with next := stop, finished := decide (p.stop ≤ stop), acc := acc, doneAt := s.now }
  if ((s1.bsuOp id).bind fun o => o.part st ch).any fun p => p.finished then
    if ((s1.bsuOp id).map fun o => o.desc.reduces).getD false then s1.passPartials st id
    else s1.modBsu st ch fun b => { b with queue := b.queue.drop 1 }
  else s1

/-- The work of a running slice of an operation. -/
def State.runSlice (s : State) (g : Program) (st ch : Nat) (op : BsuOp) (p : BsuPart) (lo n : Nat) : State :=
  let o := op.desc
  if o.reduces then
    let acc := s.slicePartial g o (fp32 (p.acc.getD 0)) lo n
    (s.partTo st ch op.id (lo + n) (some (toFp32 acc))).releaseSlice st ch (n * bytesPer o)
  else
    let (s1, x) := if o.byRows then s.sliceRows g op lo n else s.sliceElementwise g op lo n
    ((s1.noteSlice st ch op x).partTo st ch op.id (lo + n) none).releaseSlice st ch x.bytes

/-- A row number is out of range (R480). -/
def State.rowsBad (s : State) (g : Program) (o : BsuDesc) (lo n : Nat) : Bool :=
  o.byRows && ((s.sliceIndices g o lo n).zipIdx lo).any fun p => !rowOk g o p.2 p.1

/-- A running slice of an operation ends, or the operation fails (R494): a slice that fails writes nothing. -/
def State.endSlice (s : State) (st ch id : Nat) (ecc : Ecc) : State :=
  let b := s.bsu st ch
  match s.bsuOp id, s.program with
  | some op, some g =>
    match op.part st ch with
    | none => s
    | some p =>
      let (lo, n) := b.sliceElems
      if (s.stack st).stage = .halt then s.bsuFails st ch op.desc Status.thermalHalt.code false
      else
        match s.sliceReads (s.sliceRanges g op.desc lo n) ecc with
        | (s1, some e) => s1.bsuFails st ch op.desc e.1 e.2
        | (s1, none) =>
          if s1.rowsBad g op.desc lo n then s1.bsuFails st ch op.desc rsIndexRange (op.desc.bop == bopScatterAdd)
          else (s1.runSlice g st ch op p lo n).boundary st ch
  | _, _ => s

/-- BSU_SLICE_END (R489, R492): a landing slice ends with LANDING_ACCUM. -/
def execBsuSliceEnd (st ch : Nat) (ecc : Ecc) (s : State) : Host.Outcome State Fault Refusal :=
  if bsuExists st ch then
    .next
      (match (s.bsu st ch).slice with
      | some (.op id) => s.endSlice st ch id ecc
      | some .exportOut => (s.releaseSlice st ch 65536).boundary st ch
      | some .landing | none => s)
  else .fault .noSuchUnit

/-! ### Landings (R363, R367, R478) -/

/-- One sum is added to its element of the gradient copy. -/
def State.landOne (s : State) (st ch : Nat) (l : Landing) : State :=
  let f := fmtOf l.fmt
  let old := f.spec.decode (s.devNat l.addr (elemBytes l.fmt))
  let x := old.add (fp32 l.sum)
  let code := if f = .fp32 then f.spec.rne x else f.spec.stochastic (s.roundKey l.tensor l.element l.addend).bits x
  let s1 := s.writeDev l.addr (leBytes (elemBytes l.fmt) code)
  if (f.spec.decode code).nonFinite then s1.modBsu st ch fun b => { b with nf := b.nf.set bsuLandingSource } else s1

/-- A landing slice ends: its sums in the order in which they landed. A gradient copy that cannot be read, or
whose stack has halted, fails the collective. -/
def State.landSlice (s : State) (st ch : Nat) (ecc : Ecc) : State :=
  let ls := (s.bsu st ch).landings.take landingSlice
  let bytes := (ls.map fun l => 2 * elemBytes l.fmt).sum
  if (s.stack st).stage = .halt then s.bsuDeviceFails st ch Status.thermalHalt.code true
  else
    let reads := ls.zipIdx.foldl
      (fun (x : State × Bool) e => if x.2 then x else x.1.eccSector (e.1.addr / 32 * 32) (eccAt ecc e.2)) (s, false)
    match reads with
    | (s0, true) => s0.bsuDeviceFails st ch Status.memoryError.code true
    | (s0, false) =>
      let s1 := ls.foldl (fun x l => x.landOne st ch l) s0
      let s2 := s1.modBsu st ch fun b => { b with landings := b.landings.drop landingSlice }
      (s2.releaseSlice st ch bytes).boundary st ch

/-- LANDING_ACCUM (R478): the sums read their elements one after another. -/
def execLandingAccum (st ch : Nat) (ecc : Ecc) (s : State) : Host.Outcome State Fault Refusal :=
  if bsuExists st ch then .next (if (s.bsu st ch).slice = some .landing then s.landSlice st ch ecc else s)
  else .fault .noSuchUnit

/-- Sums land for a BSU: they enter its staging as external traffic of its channel (R463), and it sets to work. -/
def State.landSums (s : State) (st ch : Nat) (ls : List Landing) : State :=
  if ls.isEmpty then s
  else
    let n := (ls.map fun l => elemBytes l.fmt).sum
    let t := s.modChannel st ch fun c => if c.retired then c else { c with bytes := satAdd c.bytes n }
    (t.modBsu st ch fun b => { b with landings := b.landings ++ ls }).wakeBsu st ch

/-! ### The end of an operation (R469, R475, R477, R479) -/

/-- The partials of the participating channels of each stack, combined; then the stacks'. -/
def combineParts (amax : Bool) (parts : List BsuPart) : BitVec 32 :=
  let join := fun (a b : Fp) => if amax then amaxOf a b else fp32Spec.round (a.add b)
  let chain := fun (l : List Fp) => (l.drop 1).foldl join (l.getD 0 .zero)
  let stack := fun (st : Nat) => (parts.filter fun p => p.stack == st).map fun p => fp32 (p.acc.getD 0)
  toFp32 (chain (((List.range 8).map stack).filter (fun l => !l.isEmpty) |>.map chain))

/-- The partials that pass on the ring: every participating channel of a stack but the last sends one. -/
def State.countRing (s : State) (parts : List BsuPart) : State :=
  parts.foldl
    (fun x p =>
      if parts.any fun q => q.stack == p.stack && decide (p.channel < q.channel) then
        x.modBsu p.stack p.channel fun b => { b with ringBytes := satAdd b.ringBytes 4 }
      else x) s

/-- The words that go to RESULT: their offset, and the value. -/
def State.resultWords (s : State) (op : BsuOp) : List (Nat × BitVec 32) :=
  let o := op.desc
  if o.reduces then [(0, combineParts (o.bop == bopAmax) op.parts)]
  else if o.derived then [(4, op.scale)]
  else if o.recordAmax then [(0, amaxWord (BitVec.ofNat 32 (s.devNat o.result 4)) (op.amaxSeen.getD 0))]
  else []

/-- The last participating BSU, at which the combination ends: it stands for the writer of a RESULT word. -/
def BsuOp.lastPart (op : BsuOp) : Nat × Nat := (op.parts.getLast?.map fun p => (p.stack, p.channel)).getD (0, 0)

/-- RESULT is written; a NaN or an infinity sets the flag (R476). -/
def State.writeResult (s : State) (op : BsuOp) (w : Nat × BitVec 32) : State × Option Denial :=
  let a := op.desc.result + w.1
  match s.checkAccess (programRight true a) true a 4 with
  | some d => (s.countDenial d, some d)
  | none =>
    let (s1, e) := s.serveWrite a (leBytes 4 w.2.toNat)
    let l := op.lastPart
    let source := if op.desc.reduces then bsuReductionSource else elemSource op.desc
    (if (fp32 w.2).nonFinite then s1.modBsu l.1 l.2 fun b => { b with nf := b.nf.set source } else s1, e)

/-- The operation is done: its words, its counts, and DONE_EVENT. -/
def State.finishBsu (s : State) (op : BsuOp) : State :=
  let step := fun (x : State × Option Denial) (w : Nat × BitVec 32) =>
    match x.2 with
    | some _ => x
    | none => x.1.writeResult op w
  let (s1, e) := (s.resultWords op).foldl step (s, none)
  match e with
  | some d => s1.bsuFails op.lastPart.1 op.lastPart.2 op.desc d.reason true
  | none =>
    let s2 := op.parts.foldl (fun x p => x.modBsu p.stack p.channel fun b => { b with operations := satAdd b.operations 1 }) s1
    let s3 := if op.desc.reduces then s2.countRing op.parts else s2
    let s4 : State := { s3 with bsuOps := s3.bsuOps.filter fun o => o.id != op.id }
    match op.issuer with
    | .tile d p _ done => (s4.opEnded d p).bump d p done 1
    | .beacon | .lamplighter => s4

/-- Every part is through, and every stream of STREAM has completed. -/
def State.bsuDone (s : State) (op : BsuOp) : Bool :=
  op.parts.all fun p =>
    p.finished && !(s.bsu p.stack p.channel).queue.contains op.id && (!op.desc.streams || s.slotFree p.stack p.channel op.desc)

/-- BSU_OPERATION_COMPLETE (R469). An operation that a STREAM's slot held up goes on after it. -/
def execBsuOperationComplete (id : Nat) (s : State) : Host.Outcome State Fault Refusal :=
  match s.bsuOp id with
  | none => .next s
  | some op =>
    if s.stepOpen && !s.stopped && s.bsuDone op then
      .next (op.parts.foldl (fun x p => x.kickBsu p.stack p.channel) (s.finishBsu op))
    else .next s

/-! ### Lamplighter's operations (R468, R473) -/

/-- Lamplighter dispatches an operation to the BSUs that hold a part of it: each is lit, and runs it. -/
def State.startUpdateOp (s : State) (bop : Nat) (l : List (Nat × Nat)) : State :=
  l.eraseDups.foldl
    (fun u c =>
      if (u.bsu c.1 c.2).state = .retired then u
      else (u.modBsu c.1 c.2 fun b => { b with updateOp := bop }).wakeBsu c.1 c.2) s

/-- It is complete on every BSU. -/
def State.endUpdateOp (s : State) : State :=
  { s with hbm := s.hbm.map fun k => { k with bsus := k.bsus.map (Bsu.leaveUpdate s.now) } }

/-- The BSUs that have a part of it are lit, and their stacks are not in HALT: it can complete. -/
def State.updateRuns (s : State) : Bool :=
  !s.tinder.broken && (List.range 256).all fun i =>
    let b := s.bsu (i / 32) (i % 32)
    b.updateOp == 0 || !s.stackInService (i / 32) || ((s.stack (i / 32)).stage != .halt && b.state != .dark)

/-! ### Dark, lit, duty (R467, R486) -/

/-- A BSU has nothing to do. -/
def Bsu.quiet (b : Bsu) : Bool :=
  !b.busy && b.landings.isEmpty && !b.exportPending && !(b.slots.any fun x => x.state == .running)

/-- BSU_IDLE_DARK (R467): 20 µs after its last work. -/
def execBsuIdleDark (st ch : Nat) (s : State) : Host.Outcome State Fault Refusal :=
  if bsuExists st ch then
    let b := s.bsu st ch
    if b.state == .idle && b.quiet then
      .next ((s.advanceTo (b.lastWork + 20000)).modBsu st ch fun x => { x with state := .dark, lighting := false })
    else .next s
  else .fault .noSuchUnit

/-- BSU_LIT (R467). -/
def execBsuLit (st ch : Nat) (s : State) : Host.Outcome State Fault Refusal :=
  if bsuExists st ch then
    let b := s.bsu st ch
    if b.lighting && b.state == .dark && s.stackInService st then
      .next ((s.modBsu st ch fun x => { x with state := .idle, lighting := false, lastWork := s.now }).kickBsu st ch)
    else .next s
  else .fault .noSuchUnit

/-- BSU_DUTY_WINDOW (R486): the share of a window is spent, or a new window begins. A wait for the window is a
stall under THERMAL_HOLD (R496). -/
def execBsuDutyWindow (st ch : Nat) (s : State) : Host.Outcome State Fault Refusal :=
  if bsuExists st ch then
    let b := s.bsu st ch
    if b.dutySpent then
      let ns := s.now - b.waitSince.getD s.now
      .next ((s.modBsu st ch fun x =>
        { x with
          dutySpent := false
          waitSince := none
          stallSince := s.now
          stalls := modAt x.stalls StallCause.thermalHold.code (satAdd · ns) }).kickBsu st ch)
    else if (s.stack st).dutyCap = .full then .next s
    else .next ((s.chargeBsu st ch).modBsu st ch fun x => { x with dutySpent := true, waitSince := if x.busy then some s.now else none })
  else .fault .noSuchUnit

end Sys2Proof.Machine
end

