-- ==== Sys2Proof/Machine/Layout.lean ====
section
/-! DEFINITION. The geometry of a job and the layout of the flat state (R343, R344, R350 to R357): ranks and
groups, shards, and where each copy of a flat position lies. -/

namespace Sys2Proof.Machine

/-! ### Geometry (R343, R344, R556) -/

/-- Split size K, shard-group size N, replica count H and devices D of a job. -/
structure Geo where
  k : Nat
  n : Nat
  h : Nat
  d : Nat
  deriving DecidableEq, Repr

/-- A program without a state header forms its groups with K = 1, N = D, H = 1. -/
def geoOf (g : Program) (devices : Nat) : Geo :=
  match g.plan with
  | some p => { k := p.state.split, n := p.state.shardGroup, h := p.state.replicas, d := devices }
  | none => { k := 1, n := devices, h := 1, d := devices }

def Geo.split (g : Geo) (r : Nat) : Nat := r % max g.k 1
def Geo.shard (g : Geo) (r : Nat) : Nat := r / max g.k 1 % max g.n 1
def Geo.replica (g : Geo) (r : Nat) : Nat := r / max (g.k * g.n) 1

def State.devices (s : State) : Nat := (s.topo.map (·.devices)).getD 1

def State.geo (s : State) : Geo :=
  match s.program with
  | some g => geoOf g s.devices
  | none => { k := 1, n := s.devices, h := 1, d := s.devices }

/-- The group codes of a plan entry (R554). -/
def groupJob : Nat := 0
def groupShard : Nat := 1
def groupReplicaSet : Nat := 2
def groupSplit : Nat := 3
def groupReplica : Nat := 4

/-- Two ranks share a group. -/
def Geo.together (g : Geo) (grp a b : Nat) : Bool :=
  match grp with
  | 0 => true
  | 1 => g.replica a == g.replica b && g.split a == g.split b
  | 2 => g.shard a == g.shard b && g.split a == g.split b
  | 3 => g.replica a == g.replica b && g.shard a == g.shard b
  | _ => g.replica a == g.replica b

/-- The members of a rank's group, in ascending rank (R556). -/
def Geo.members (g : Geo) (grp rank : Nat) : List Nat := (List.range g.d).filter fun r => g.together grp rank r

/-- The size of every group of a kind. -/
def Geo.groupSize (g : Geo) (grp : Nat) : Nat := (g.members grp 0).length

/-! ### The flat vector (R350 to R353) -/

/-- The FLAT records, in order. -/
def Program.flatRecords (g : Program) : List ParamRecord := g.records.filter fun r => !r.placed

/-- The record that holds a flat position. -/
def Program.recordAt (g : Program) (p : Nat) : Option ParamRecord :=
  g.flatRecords.find? fun r => decide (r.flatOffset ≤ p) && decide (p < r.flatOffset + r.elements)

/-- Positions [first, last) of shard `i` (R351). -/
def shardRange (h : StateHeader) (i : Nat) : Nat × Nat := (i * h.shardElements, (i + 1) * h.shardElements)

/-- S as R351 computes it. -/
def shardSize (l n : Nat) : Nat := roundUp (ceilDiv l (max n 1)) 2048

/-! ### The layout on a channel (R355, R356) -/

/-- The copies of an element. -/
inductive Copy where
  | master | moment | gather | grad
  deriving DecidableEq, Repr

/-- Bytes of an element of the one moment; 0 without one. -/
def StateHeader.momentBytes (h : StateHeader) : Nat := if h.momentKind = 2 then 0 else if h.momentFormat = 1 then 4 else 2

/-- Bytes of a gradient element (R363). -/
def StateHeader.gradBytes (h : StateHeader) : Nat := if h.gradMode = 1 then 2 else 4

/-- The format code of the gradient copy, and of the moment. -/
def StateHeader.gradFmt (h : StateHeader) : Nat := if h.gradMode = 1 then 1 else 0
def StateHeader.momentFmt (h : StateHeader) : Nat := if h.momentFormat = 1 then 0 else 1

def StateHeader.copyBytes (h : StateHeader) : Copy → Nat
  | .master => 4
  | .moment => h.momentBytes
  | .gather => 2
  | .grad => h.gradBytes

/-- The stacks of the flat state, and the number of its channels. -/
def StateHeader.channels (h : StateHeader) : Nat := 32 * (maskStacks h.stackMask).length

/-- Positions of a channel's slice. -/
def StateHeader.perChannel (h : StateHeader) : Nat := h.shardElements / max h.channels 1

def align256 (n : Nat) : Nat := roundUp n 256

/-- Bytes of one bank on a channel, alignment included. -/
def StateHeader.bankBytes (h : StateHeader) : Nat :=
  let e := h.perChannel
  align256 (4 * e) + align256 (h.momentBytes * e) + align256 (2 * e)

/-- Offset of an array on its channel from the start of the state region. -/
def StateHeader.arrayOffset (h : StateHeader) (bank : Nat) : Copy → Nat
  | .master => bank * h.bankBytes
  | .moment => bank * h.bankBytes + align256 (4 * h.perChannel)
  | .gather => bank * h.bankBytes + align256 (4 * h.perChannel) + align256 (h.momentBytes * h.perChannel)
  | .grad => 2 * h.bankBytes

/-- Offset of the factor area. -/
def StateHeader.factorOffset (h : StateHeader) : Nat := 2 * h.bankBytes + align256 (h.gradBytes * h.perChannel)

/-- The state region of a die (R345). -/
def StateHeader.region (h : StateHeader) (die : Nat) : Nat := if die = 0 then h.regionCd0 else h.regionCd1

/-- The channel of index `n` (R356). -/
def StateHeader.channel (h : StateHeader) (n : Nat) : Nat × Nat := ((maskStacks h.stackMask).getD (n / 32) 0, n % 32)

/-- The range of the state region of a channel's die on that channel: first CLO and bytes (R346, R356). -/
def State.stateRange (s : State) (h : StateHeader) (st ch : Nat) : Option (Nat × Nat) :=
  (s.flash.protection.regions.getD (h.region (stackDie st)) none).bind (Region.onChannel s.ileave st ch)

/-- The device address of an offset in the state area of channel `n`. -/
def State.stateAddr (s : State) (h : StateHeader) (n off : Nat) : Nat :=
  let c := h.channel n
  cloAddr s.ileave c.1 c.2 (((s.stateRange h c.1 c.2).map (·.1)).getD 0 + off)

/-- Shard index of this device. -/
def State.shardIndex (s : State) : Nat := s.geo.shard s.rank

/-- The address of a copy of a flat position in this device's shard. -/
def State.flatAddr (s : State) (h : StateHeader) (bank : Nat) (c : Copy) (p : Nat) : Nat :=
  let q := p - s.shardIndex * h.shardElements
  let e := max h.perChannel 1
  s.stateAddr h (q / e) (h.arrayOffset bank c + q % e * h.copyBytes c)

/-- A run of flat positions whose copies lie one after another on one channel. -/
structure FlatRun where
  channel : Nat
  first : Nat
  count : Nat
  deriving DecidableEq, Repr

/-- The runs of positions [a, b) that this device's shard holds. -/
def State.flatRuns (s : State) (h : StateHeader) (a b : Nat) : List FlatRun :=
  let (lo, _) := shardRange h s.shardIndex
  let e := h.perChannel
  (List.range h.channels).filterMap fun n =>
    let x := max a (lo + n * e)
    let y := min b (lo + (n + 1) * e)
    if x < y then some { channel := n, first := x, count := y - x } else none

/-! ### Records on this device -/

/-- The positions of a record that lie in this device's shard, as a range. -/
def State.localRange (s : State) (h : StateHeader) (r : ParamRecord) : Nat × Nat :=
  let (lo, hi) := shardRange h s.shardIndex
  (max lo r.flatOffset, max (max lo r.flatOffset) (min hi (r.flatOffset + r.elements)))

def State.touches (s : State) (h : StateHeader) (r : ParamRecord) : Bool :=
  let x := s.localRange h r
  decide (x.1 < x.2)

/-- The first channel whose slice touches a record. -/
def State.factorChannel (s : State) (h : StateHeader) (r : ParamRecord) : Nat :=
  ((s.localRange h r).1 - s.shardIndex * h.shardElements) / max h.perChannel 1

/-- DIM[0] of a record's parameter, and its rank. -/
def Program.dimOf (g : Program) (r : ParamRecord) : Nat := ((g.tensor r.param).map fun t => t.dims.getD 0 1).getD 1

def Program.rankOf (g : Program) (r : ParamRecord) : Nat := ((g.tensor r.param).map (·.rank)).getD 1

/-- n and m of R386: columns and rows. -/
def Program.colsOf (g : Program) (r : ParamRecord) : Nat := max (g.dimOf r) 1

def Program.rowsOf (g : Program) (r : ParamRecord) : Nat := r.elements / g.colsOf r

/-- FP32 values of a record's factor vectors (R357). -/
def Program.factorCount (g : Program) (r : ParamRecord) : Nat :=
  if g.rankOf r = 1 then r.elements else g.rowsOf r + g.colsOf r

/-- Bytes of a factor block, up to the next multiple of 256. -/
def Program.factorBlock (g : Program) (r : ParamRecord) : Nat := align256 (4 * g.factorCount r)

/-- The header gives its records factor vectors. -/
def StateHeader.factored (h : StateHeader) : Bool := h.momentKind == 2 || h.momentKind == 3

/-- The address of the first factor value of a FLAT record that the shard touches, in a bank. -/
def State.factorAddr (s : State) (g : Program) (h : StateHeader) (bank : Nat) (r : ParamRecord) : Nat :=
  let n := s.factorChannel h r
  let before := (g.flatRecords.takeWhile fun x => x.param != r.param).filter fun x => s.touches h x && s.factorChannel h x == n
  s.stateAddr h n (h.factorOffset + (before.map fun x => 2 * g.factorBlock x).sum + bank * g.factorBlock r)

/-- Bytes of the factor area of channel `n`. -/
def State.factorArea (s : State) (g : Program) (h : StateHeader) (n : Nat) : Nat :=
  if h.factored then
    ((g.flatRecords.filter fun x => s.touches h x && s.factorChannel h x == n).map fun x => 2 * g.factorBlock x).sum
  else 0

end Sys2Proof.Machine
end

