-- ==== Sys2Proof/Machine/Collective.lean ====
section
/-! DEFINITION. The collective plan (R554 to R558): its entries and the rules that they must keep. -/

namespace Sys2Proof.Machine

/-! ### Kinds (R555) -/

def ckAllGather : Nat := 0x01
def ckReduceScatter : Nat := 0x02
def ckAllReduce : Nat := 0x03
def ckBroadcast : Nat := 0x04
def ckAllToAll : Nat := 0x05
def ckBarrier : Nat := 0x06
def ckFlagOr : Nat := 0x07
def ckFlagAnd : Nat := 0x08
def ckPut : Nat := 0x09
def ckEthRead : Nat := 0x0A
def ckBsuOp : Nat := 0x0B

/-- A plan entry (R554). -/
structure CollEntry where
  kind : Nat
  group : Nat
  die : Nat
  tile : Nat
  fmt : Nat
  scaleExp : Int
  flat : Bool
  accum : Bool
  ftc : Bool
  srcTensor : Nat
  dstTensor : Nat
  srcOffset : Nat
  dstOffset : Nat
  length : Nat
  round : Nat
  peer : Nat
  lengths : Nat
  rowBytes : Nat
  params : List Byte
  reservedZero : Bool
  deriving DecidableEq, Repr

def collEntryOf (b : List Byte) : CollEntry :=
  { kind := field b 0 1, group := field b 1 1, die := field b 2 1, tile := field b 3 1, fmt := field b 4 1
    scaleExp := signExtend 8 (field b 5 1), flat := bit (field b 6 1) 0, accum := bit (field b 6 1) 1, ftc := bit (field b 6 1) 2
    srcTensor := field b 8 4, dstTensor := field b 0xC 4, srcOffset := field b 0x10 8, dstOffset := field b 0x18 8
    length := field b 0x20 8, round := field b 0x28 3, peer := field b 0x2C 2, lengths := field b 0x30 4
    rowBytes := field b 0x34 4, params := slice b 0x40 64
    reservedZero := decide (field b 6 1 < 8) && field b 7 1 == 0 && field b 0x2B 1 == 0 && field b 0x2E 2 == 0 &&
      field b 0x38 8 == 0 }

def Program.collEntry (g : Program) (i : Nat) : CollEntry := collEntryOf (g.entry secCollectivePlan 128 i)

def Program.collEntries (g : Program) : List CollEntry := (List.range (g.entries secCollectivePlan)).map g.collEntry

def CollEntry.reduces (e : CollEntry) : Bool := e.kind == ckReduceScatter || e.kind == ckAllReduce
def CollEntry.gathers (e : CollEntry) : Bool := e.kind == ckAllGather || e.kind == ckBroadcast || e.kind == ckAllToAll
def CollEntry.flags (e : CollEntry) : Bool := e.kind == ckBarrier || e.kind == ckFlagOr || e.kind == ckFlagAnd
def CollEntry.grouped (e : CollEntry) : Bool := e.reduces || e.gathers || e.flags

/-- Bytes of an element of a reduction's message. -/
def CollEntry.elem (e : CollEntry) : Nat := if e.fmt = 1 then 2 else 4

/-- Bytes of the message that a member contributes, FLAT gathers apart. -/
def CollEntry.bytes (e : CollEntry) : Nat := if e.flat then e.length * e.elem else e.length

/-! ### The collectives of the update (R384, R554) -/

def updOpen : Nat := 0xFF0
def updStats : Nat := 0xFF1
def updRecords : Nat := 0xFF2
def updDigest : Nat := 0xFF3
def updReady : Nat := 0xFF4

/-- Entry numbers that Lamplighter's collectives have, outside the plan. -/
def isUpdate (i : Nat) : Bool := decide (updOpen ≤ i) && decide (i ≤ updReady)

/-- Operation, group and length of one of them, as a plan entry would say them. -/
def updateEntry (i length : Nat) : CollEntry :=
  let e := { collEntryOf [] with srcTensor := noTensor, dstTensor := noTensor, lengths := noTensor, length := length }
  if i = updOpen then { e with kind := ckFlagOr, group := groupJob }
  else if i = updStats then { e with kind := ckAllReduce, group := groupJob }
  else if i = updRecords then { e with kind := ckAllReduce, group := groupShard }
  else if i = updDigest then { e with kind := ckAllGather, group := groupReplicaSet }
  else { e with kind := ckFlagAnd, group := groupJob }

/-- The range [a, b) of a FLAT entry (R557). -/
def CollEntry.flatRange (e : CollEntry) : Nat × Nat :=
  let a := if e.kind = ckAllGather then e.srcOffset else e.dstOffset
  (a, a + e.length)

/-! ### Checks (R554, R555, R557, R558) -/

/-- A tensor is named, or none. -/
def Program.tensorOk (g : Program) (id : Nat) : Bool := id == noTensor || (g.tensor id).isSome

/-- The destination of an ALL_REDUCE that lands: a placed record's gradient, or a G4E record's. -/
def Program.gradTensor (g : Program) (id : Nat) : Bool :=
  (g.records.any fun r => r.placed && r.grad == id) || g.g4eRecords.any fun r => r.weightGrad == id

/-- The rules on FLAT, ACCUM_LANDING and FTC_WIRE. -/
def collFlagsOk (g : Program) (e : CollEntry) : Bool :=
  (!e.flat || ((e.kind == ckAllGather || (e.kind == ckReduceScatter && e.accum)) && !e.ftc && g.plan.isSome &&
    decide (1 ≤ e.length) && (g.plan.map fun p => decide (e.flatRange.2 ≤ p.state.vectorElements)).getD false)) &&
  (!e.accum || (e.kind == ckReduceScatter && e.flat && e.group == groupJob) ||
    (e.kind == ckAllReduce && !e.flat && e.group == groupReplicaSet && g.gradTensor e.dstTensor)) &&
  (!e.ftc || e.kind == ckAllGather || e.kind == ckBroadcast || e.kind == ckAllToAll || e.kind == ckPut)

/-- The rules that no group size enters. -/
def collEntryOk (g : Program) (e : CollEntry) : Bool :=
  decide (1 ≤ e.kind) && decide (e.kind ≤ 0x0B) && decide (e.group ≤ 4) && decide (e.die ≤ 1) && e.reservedZero &&
    (if e.reduces then decide (e.fmt ≤ 1) else e.fmt == 0) && decide (-64 ≤ e.scaleExp) && decide (e.scaleExp ≤ 63) &&
    g.tensorOk e.srcTensor && g.tensorOk e.dstTensor && collFlagsOk g e &&
    (e.kind == ckPut || e.kind == ckBroadcast || e.peer == 0) &&
    (if e.kind = ckAllToAll then
      decide (1 ≤ e.rowBytes) && e.rowBytes % 32 == 0 && ((g.tensor e.lengths).map fun t => t.fmt == 0xB).getD false
    else e.lengths == noTensor && e.rowBytes == 0) &&
    (if e.kind = ckBsuOp then bsuReservedOk e.params && bsuDescOk g (bsuDescOf e.params)
    else if e.kind = ckEthRead then decide (field e.params 0 1 ≤ 15) && allZero (e.params.drop 1)
    else allZero e.params)

/-- The rules of R555 that rest on G and D. -/
def collSizesOk (geo : Geo) (e : CollEntry) : Bool :=
  let n := geo.groupSize e.group
  (e.kind != ckReduceScatter || e.flat || e.length % (256 * max n 1) == 0) && (e.kind != ckBroadcast || decide (e.peer < n)) &&
    (e.kind != ckPut || decide (e.peer < geo.d))

end Sys2Proof.Machine
end

