-- ==== Sys2Proof/Machine/Beacon.lean ====
section
/-! DEFINITION. Beacon (R552 to R564): what a device reads, adds, sends, passes on and lands for a collective
instance. -/

namespace Sys2Proof.Machine

/-! ### Failures (R566, R568) -/

/-- The step aborts with FABRIC_ABORT of this device's own (R633). -/
def State.fabricFails (s : State) (port peer entry reason : Nat) : State :=
  s.newCascade.abortStep { status := .fabricAbort, kind := 7, detail := fabricDetail port peer entry reason, entry := entry }

/-- The status of an access of Beacon that failed. -/
def Denial.beaconStatus : Denial → Status
  | .memory => .memoryError
  | .halted => .thermalHalt
  | .retired => .unitRetired
  | .hostLost => .hostLinkLost
  | .protection | .unassigned => .streamError

/-- An access of Beacon to local memory fails: the collective aborts. -/
def State.beaconFails (s : State) (entry : Nat) (d : Denial) (dst : Bool) : State :=
  let w := causeWord d.reason 0 tierBeacon dst
  (s.countDenial d).newCascade.abortStep
    { status := d.beaconStatus, kind := 1, detail := streamDetail false 0 0 0xFF w, key := slotKey (.beacon entry), entry := entry }

/-! ### Local memory -/

/-- The place of byte `off` of a plan entry's source or destination: a tensor, or the Beacon buffer. -/
def State.collAddr (s : State) (read : Bool) (tensor off : Nat) : Nat :=
  match s.program with
  | none => beaconBase + off
  | some g =>
    match g.tensor tensor with
    | none => beaconBase + off
    | some t => s.tensorByte t off + if read then g.bankShift tensor s.commit.epochBank else 0

/-- Reads at addresses, one after another. -/
def State.readPieces (s : State) : List (Nat × Nat) → State × Except Denial (List Byte)
  | [] => (s, .ok [])
  | (a, n) :: l =>
    match s.checkIod (programRight false a) false a n with
    | some d => (s, .error d)
    | none =>
      match s.readIod a n [] with
      | (s1, .error d) => (s1, .error d)
      | (s1, .ok b) =>
        match s1.readPieces l with
        | (s2, .error d) => (s2, .error d)
        | (s2, .ok r) => (s2, .ok (b ++ r))

def State.collRead (s : State) (tensor off n : Nat) : State × Except Denial (List Byte) :=
  s.readPieces ((granules off n).map fun g => (s.collAddr true tensor g.1, g.2))

/-- Writes bytes at `off` of a destination. -/
def State.collWrite (s : State) (tensor off : Nat) (bs : List Byte) : State × Option Denial :=
  (granules off bs.length).foldl
    (fun x g =>
      match x.2 with
      | some _ => x
      | none =>
        let a := x.1.collAddr false tensor g.1
        match x.1.checkIod (programRight true a) true a g.2 with
        | some d => (x.1, some d)
        | none => (x.1.countIod a g.2).serveWrite a (slice bs (g.1 - off) g.2))
    (s, none)

/-- Writes received data; a failure aborts the collective. -/
def State.deposit (s : State) (entry tensor off : Nat) (bs : List Byte) : State :=
  match s.collWrite tensor off bs with
  | (s1, some d) => s1.beaconFails entry d true
  | (s1, none) => s1

/-! ### Instances -/

/-- A plan entry, or one of Lamplighter's; its message is as long as what the device contributes. -/
def State.planEntry (s : State) (i : Nat) : CollEntry :=
  if isUpdate i then updateEntry i (((s.beacon.instances.find? fun x => x.entry == i).map fun x => x.own.length).getD 0)
  else
    match s.program with
    | some g => g.collEntry i
    | none => collEntryOf []

def State.collMembers (s : State) (e : CollEntry) : List Nat := s.geo.members e.group s.rank

/-- This device's member index. -/
def State.memberIndex (s : State) (e : CollEntry) : Nat := (s.collMembers e).idxOf s.rank

def CollInst.is (i : CollInst) (entry sequence : Nat) : Bool := i.entry == entry && i.sequence == sequence

def State.instance? (s : State) (entry sequence : Nat) : Option CollInst := s.beacon.instances.find? fun i => i.is entry sequence

def State.modInst (s : State) (entry sequence : Nat) (f : CollInst → CollInst) : State :=
  { s with beacon := { s.beacon with instances := s.beacon.instances.map fun i => if i.is entry sequence then f i else i } }

/-- Bytes over part of a list. -/
def overlay (l : List Byte) (off : Nat) (bs : List Byte) : List Byte := sliceZ l 0 off ++ bs ++ l.drop (off + bs.length)

/-- Received data goes to the destination, or for a collective of the update into Beacon's own buffer (R552). -/
def State.receive (s : State) (entry sequence : Nat) (e : CollEntry) (off : Nat) (bs : List Byte) : State :=
  if isUpdate entry then s.modInst entry sequence fun i => { i with result := overlay i.result off bs }
  else s.deposit entry e.dstTensor (e.dstOffset + off) bs

/-- The trailer flag word that a packet of STEP_STATS carries behind its sums (R385; its place in the payload is a DESIGN
CHOICE, log 83). -/
def State.trailerOf (s : State) (entry sequence : Nat) : List Byte :=
  if entry = updStats then ((s.instance? entry sequence).map fun i => [i.trailer]).getD [] else []

/-- Beacon ORs the words that arrive. -/
def State.takeTrailer (s : State) (entry sequence n : Nat) (payload : List Byte) : State :=
  if entry = updStats then s.modInst entry sequence fun i => { i with trailer := i.trailer ||| payload.getD n 0 } else s

/-- CRC-32C over FEATURE_FLOOR and PROGRAM_ID (R563). -/
def State.jobCheck (s : State) : BitVec 32 :=
  crc32c (leBytes 8 s.floor.toNat ++ leBytes 8 ((s.program.map (·.programId)).getD 0))

/-! ### Sending (R533, R540, R561) -/

/-- A payload is a multiple of 32 bytes: zeros follow what is shorter (DEDUCED from R540). -/
def padded (b : List Byte) : List Byte := b ++ zeros (roundUp b.length 32 - b.length)

/-- A packet of this device's goes out, or finds its port FAILED or MISWIRED. -/
def State.sendRouted (s : State) (p : Packet) (sel : Nat) : State :=
  match s.topo.bind fun t => t.nextPort s.rank p.dstRank p.vc sel with
  | none => s
  | some (n, vc) =>
    match (s.port n).state with
    | .failed | .miswired => s.fabricFails n (s.port n).peerRank p.entry 2
    | .down | .training | .up | .degraded | .ethernetUp | .ethernetDown => s.sendOn n false (p.withVc vc)

/-- What a packet of an instance says beside its payload. -/
structure CollHead where
  ptype : Nat
  dst : Nat
  address : Nat
  chain : Nat := 0
  last : Bool := false
  ftc : Bool := false

/-- Sends a packet of an instance; nothing goes out of a step that has ended. -/
def State.sendColl (s : State) (entry sequence : Nat) (h : CollHead) (sel : Nat) (payload : List Byte) : State :=
  if !s.stepOpen then s
  else
    let p := s.packet h.ptype (if h.ptype = 1 then 0 else 2)
    let q : Packet :=
      { p with
        flags := p.flags ||| BitVec.ofNat 8 (8 * bool01 h.ftc + 16 * bool01 h.last)
        dstRank := h.dst
        entry := entry
        sequence := sequence
        address := BitVec.ofNat 64 h.address
        chainPos := h.chain
        tag := if h.ptype ≠ 1 ∧ s.deterministic then s.jobCheck else 0
        msgId := BitVec.ofNat 32 s.beacon.nextMsgId
        payload := padded payload }
    let s1 : State :=
      { s with beacon :=
        { s.beacon with nextMsgId := (s.beacon.nextMsgId + 1) % 2 ^ 32, bytesSent := satAdd s.beacon.bytesSent payload.length } }
    s1.sendRouted q.sealed sel

/-! ### Chain reductions (R255, R257, R367, R561, R562) -/

/-- The tensor identifier and element index of element `j` of a message (R259, R367). For a BF16_SCALED reduction that is no
gradient landing R259 names no index: DESIGN CHOICE (log 100), the destination offset in elements plus the element's place
in the whole message. -/
def State.elemKey (s : State) (e : CollEntry) (j : Nat) : Nat × Nat :=
  if e.flat then
    let p := e.flatRange.1 + j
    match s.program.bind fun g => g.recordAt p with
    | some r => (r.param, p - r.flatOffset)
    | none => (noTensor, p)
  else (e.dstTensor, e.dstOffset / e.elem + j)

def sumFmt (e : CollEntry) : FmtSpec := if e.fmt = 1 then bf16Spec else fp32Spec

/-- A member's contribution to a segment: element codes, scaled and rounded once in BF16_SCALED. -/
def State.contribution (s : State) (entry sequence : Nat) (e : CollEntry) (off n : Nat) : State × Except Denial (List Nat) :=
  let read :=
    if isUpdate entry then (s, .ok (((s.instance? entry sequence).map fun i => slice i.own off n).getD []))
    else s.collRead e.srcTensor (e.srcOffset + off) n
  match read with
  | (s1, .error d) => (s1, .error d)
  | (s1, .ok b) =>
    let codes := (chunks e.elem n b).map leNat
    (s1, .ok (if e.fmt = 1 then codes.map fun c => bf16Spec.rne ((bf16Spec.decode c).mul (.pow2 e.scaleExp)) else codes))

/-- The partial with this member's part added: element by element, each sum rounded once. -/
def State.addParts (s : State) (e : CollEntry) (k off : Nat) (acc own : List Nat) : List Nat :=
  let f := sumFmt e
  (acc.zipIdx).map fun x =>
    let v := (f.decode x.1).add (f.decode (own.getD x.2 0))
    if e.fmt = 1 then
      let key := s.elemKey e (off / 2 + x.2)
      f.stochastic (s.roundKey key.1 key.2 k).bits v
    else f.rne v

/-- The final sums without the scale of the contributions. -/
def descaled (e : CollEntry) (codes : List Nat) : List Nat :=
  if e.fmt = 1 then codes.map fun c => bf16Spec.rne ((bf16Spec.decode c).mul (.pow2 (-e.scaleExp))) else codes

/-- FP32 pattern of a sum. -/
def sumWord (e : CollEntry) (c : Nat) : BitVec 32 := BitVec.ofNat 32 (if e.fmt = 1 then c * 65536 else c)

/-- Bytes of part `m` of a REDUCE_SCATTER. -/
def partBytes (e : CollEntry) (members : Nat) : Nat := e.bytes / max members 1

/-- The members that own bytes [off, off + n) of the result (R555, R557). -/
def State.owners (s : State) (e : CollEntry) (off n : Nat) : List Nat :=
  let ms := s.collMembers e
  if e.kind = ckAllReduce then ms
  else if e.flat then
    let h := ((s.program.bind Program.plan).map (·.state)).getD (stateHeaderOf [])
    let a := e.flatRange.1 + off / e.elem
    let b := e.flatRange.1 + (off + n) / e.elem
    ms.filter fun r =>
      let x := shardRange h (s.geo.shard r)
      decide (x.1 < b) && decide (a < x.2)
  else
    let w := partBytes e ms.length
    (ms.zipIdx.filter fun r => decide (r.2 * w < off + n) && decide (off < (r.2 + 1) * w)).map (·.1)

/-- Element `j` of a reduction's message lies in the destination of another reduction. -/
def CollEntry.meets (e f : CollEntry) (j : Nat) : Bool :=
  if e.flat then f.flat && decide (f.flatRange.1 ≤ e.flatRange.1 + j) && decide (e.flatRange.1 + j < f.flatRange.2)
  else
    let k := e.dstOffset + j * e.elem
    !f.flat && f.accum && f.dstTensor == e.dstTensor && decide (f.dstOffset ≤ k) && decide (k < f.dstOffset + f.bytes)

/-- Another round for element `j` is in flight (R368). -/
def State.roundsMeet (s : State) (sequence : Nat) (e : CollEntry) (j : Nat) : Bool :=
  match s.program with
  | none => false
  | some g =>
    s.beacon.instances.any fun i =>
      let f := g.collEntry i.entry
      i.sequence != sequence && !i.complete && f.reduces && f.round != e.round && e.meets f j

/-- Landings for a run of elements that lie one after another on one channel; the first denied one fails. Where two rounds
for one element are in flight together R368 defines no result: a free value lands (log 101). -/
def State.landRun (s : State) (entry sequence : Nat) (e : CollEntry) (addr fmt first : Nat) (sums : List Nat) : State :=
  let w := elemBytes fmt
  match s.checkIod (programRight true addr) true addr (w * sums.length) with
  | some d => s.beaconFails entry d true
  | none =>
    let st := daStack addr
    let ch := (cloOf s.ileave (daSo addr)).1
    let land := fun (x : Nat × Nat) =>
      let key := s.elemKey e (first + x.2)
      let sum := if s.roundsMeet sequence e (first + x.2) then Config.freeWord (s.freeCount + x.2) else sumWord e x.1
      ({ addr := addr + w * x.2, fmt := fmt, tensor := key.1, element := key.2, addend := e.round, sum := sum
         entry := entry, sequence := sequence } : Landing)
    let t : State := { s with freeCount := s.freeCount + sums.length }
    (t.countIod addr (w * sums.length)).landSums st ch (sums.zipIdx.map land)

/-- A final segment reaches one of its owners, this device. -/
def State.landFinal (s : State) (entry sequence : Nat) (e : CollEntry) (off : Nat) (codes : List Nat) : State :=
  let s1 := s.modInst entry sequence fun i => { i with finals := i.finals ++ [off] }
  let w := e.elem
  let n := codes.length * w
  if e.flat then
    let h := ((s.program.bind Program.plan).map (·.state)).getD (stateHeaderOf [])
    let a := e.flatRange.1 + off / w
    (s.flatRuns h a (a + codes.length)).foldl
      (fun x r => x.landRun entry sequence e (x.flatAddr h 0 .grad r.first) h.gradFmt (r.first - e.flatRange.1) (slice2 codes (r.first - a) r.count)) s1
  else if e.accum then
    (granules (e.dstOffset + off) n).foldl
      (fun x g =>
        let j := (g.1 - e.dstOffset - off) / w
        x.landRun entry sequence e (x.collAddr false e.dstTensor g.1) e.fmt (off / w + j) (slice2 codes j (g.2 / w))) s1
  else if e.kind = ckAllReduce then s1.receive entry sequence e off (codesBytes e.fmt codes)
  else
    let p := partBytes e (s.collMembers e).length
    let m := s.memberIndex e
    let lo := max off (m * p)
    let hi := min (off + n) ((m + 1) * p)
    s1.deposit entry e.dstTensor (e.dstOffset + (lo - m * p)) (slice (codesBytes e.fmt codes) (lo - off) (hi - lo))
where
  slice2 (l : List Nat) (i n : Nat) : List Nat := (l.drop i).take n

/-- A segment passes this member: its part is added, and the result goes to the next member, or at the end of
the chain to its owners. -/
def State.chainSegment (s : State) (entry sequence : Nat) (e : CollEntry) (off : Nat) (acc : Option (List Nat)) : State :=
  let ms := s.collMembers e
  let k := s.memberIndex e
  let n := min 4096 (e.bytes - off)
  match s.contribution entry sequence e off n with
  | (s1, .error d) => s1.beaconFails entry d false
  | (s1, .ok own) =>
    let codes := match acc with
      | none => own
      | some a => s1.addParts e k off a own
    let s2 := s1.modInst entry sequence fun i => { i with contributed := i.contributed ++ [off] }
    let s3 : State :=
      { s2 with beacon := { s2.beacon with elementsReduced := satAdd s2.beacon.elementsReduced (if acc.isSome then codes.length else 0) } }
    let sel := off / 4096
    if k + 1 < ms.length then
      s3.sendColl entry sequence { ptype := 0x10, dst := ms.getD (k + 1) 0, address := off, chain := k } sel
        (codesBytes e.fmt codes ++ s3.trailerOf entry sequence)
    else
      let out := descaled e codes
      (s3.owners e off n).foldl
        (fun x r =>
          if r = s.rank then x.landFinal entry sequence e off out
          else
            x.sendColl entry sequence { ptype := 0x10, dst := r, address := off, chain := k, last := true } sel
              (codesBytes e.fmt out ++ s3.trailerOf entry sequence)) s3

def segmentOffsets (bytes : Nat) : List Nat := (List.range (ceilDiv bytes 4096)).map (4096 * ·)

/-! ### Gathers, broadcasts, exchanges (R557, R558, R561, R373) -/

/-- The device exchanges along the dimensions of a ring or torus: the group is JOB (R561). -/
def State.byDims (s : State) (e : CollEntry) : Bool :=
  e.group == groupJob && ((s.topo.map fun t => decide (1 ≤ t.kind) && decide (t.kind ≤ 3)).getD false)

/-- The dimensions of the topology that have more than one device. -/
def Topo.activeDims (t : Topo) : List Nat := [0, 1, 2].filter fun d => decide (1 < t.size d)

/-- Hops that data travels in a direction, so that each member of a ring gets it once. -/
def gatherHops (n : Nat) (plus : Bool) : Nat := if plus then n / 2 else n - 1 - n / 2

/-- The neighbours to which a member first sends, from a dimension on. -/
def State.spread (s : State) (t : Topo) (dims : List Nat) : List Nat :=
  dims.flatMap fun d =>
    (if 0 < gatherHops (t.size d) true then [t.step s.rank ⟨d, true⟩] else []) ++
      if 0 < gatherHops (t.size d) false then [t.step s.rank ⟨d, false⟩] else []

/-- Payload bytes of a packet of data. -/
def dataChunk (e : CollEntry) : Nat := if e.ftc then 4032 else 4096

/-- One packet's payload on the wire; the IOD's encoders count it. -/
def State.wireData (s : State) (e : CollEntry) (raw : List Byte) : State × List Byte :=
  if e.ftc then
    let b := ftcEncodeBlock true (padded raw)
    let s1 := s.modFtc 2 fun f =>
      { f with
        blocksEncoded := satAdd f.blocksEncoded 1
        rawBlocksEncoded := satAdd f.rawBlocksEncoded (bool01 b.table.isNone)
        encRawBytes := satAdd f.encRawBytes raw.length
        encStoredBytes := satAdd f.encStoredBytes b.bytes.length
        tableUse := match b.table with
          | some i => modAt f.tableUse i (satAdd · 1)
          | none => f.tableUse }
    (s1, b.bytes)
  else (s, raw)

/-- Sends a run of bytes of the message to each of some ranks. -/
def State.sendData (s : State) (entry sequence : Nat) (e : CollEntry) (off : Nat) (bs : List Byte) (dsts : List Nat) : State :=
  let cs := if bs.isEmpty then [[]] else chunks (dataChunk e) (bs.length / dataChunk e + 1) bs
  (cs.zipIdx).foldl
    (fun x c =>
      let (y, wire) := if c.1.isEmpty then (x, []) else x.wireData e c.1
      dsts.foldl
        (fun z r =>
          z.sendColl entry sequence
            { ptype := 0x10, dst := r, address := off + dataChunk e * c.2, last := c.2 + 1 == cs.length, ftc := e.ftc && !c.1.isEmpty } r wire) y) s

/-- The ranks to which a member sends its own data. -/
def State.dataTargets (s : State) (e : CollEntry) : List Nat :=
  match s.topo, s.byDims e with
  | some t, true => s.spread t t.activeDims
  | _, _ => (s.collMembers e).filter fun r => r != s.rank

/-- Where a member's contribution to a message ends, from an offset in it. -/
def State.contributionEnd (s : State) (e : CollEntry) (off : Nat) : Nat :=
  if e.kind = ckBroadcast then e.length
  else if e.flat then
    let h := ((s.program.bind Program.plan).map (·.state)).getD (stateHeaderOf [])
    let (a, b) := e.flatRange
    let i := (a + off / 2) / max h.shardElements 1
    2 * (min b ((i + 1) * h.shardElements) - a)
  else (off / max e.length 1 + 1) * e.length

/-- Bytes that an instance delivers to each member. -/
def State.gatherBytes (s : State) (e : CollEntry) : Nat :=
  if e.kind = ckBroadcast then e.length else if e.flat then 2 * e.length else (s.collMembers e).length * e.length

/-- A member's own contribution: its offset in the message, and its bytes. -/
def State.ownData (s : State) (entry sequence : Nat) (e : CollEntry) : State × Except Denial (Nat × List Byte) :=
  let m := s.memberIndex e
  if isUpdate entry then (s, .ok (m * e.length, ((s.instance? entry sequence).map (·.own)).getD []))
  else if e.flat then
    let h := ((s.program.bind Program.plan).map (·.state)).getD (stateHeaderOf [])
    let rs := s.flatRuns h e.flatRange.1 e.flatRange.2
    match s.readPieces (rs.map fun r => (s.flatAddr h s.commit.epochBank .gather r.first, 2 * r.count)) with
    | (s1, .error d) => (s1, .error d)
    | (s1, .ok b) => (s1, .ok (2 * ((rs.map (·.first)).getD 0 e.flatRange.1 - e.flatRange.1), b))
  else if e.kind = ckBroadcast ∧ e.peer ≠ m then (s, .ok (0, []))
  else
    match s.collRead e.srcTensor e.srcOffset e.length with
    | (s1, .error d) => (s1, .error d)
    | (s1, .ok b) => (s1, .ok (if e.kind = ckBroadcast then 0 else m * e.length, b))

def State.addPiece (s : State) (entry sequence : Nat) (p : CollPiece) : State :=
  s.modInst entry sequence fun i => { i with pieces := i.pieces ++ [p] }

/-- ALL_GATHER and BROADCAST begin. -/
def State.startGather (s : State) (entry sequence : Nat) (e : CollEntry) : State :=
  match s.ownData entry sequence e with
  | (s1, .error d) => s1.beaconFails entry d false
  | (s1, .ok (off, bs)) =>
    if bs.isEmpty then s1
    else
      let s2 := s1.receive entry sequence e off bs
      (s2.addPiece entry sequence { member := s.rank, offset := off, len := bs.length }).sendData entry sequence e off bs (s.dataTargets e)

/-- The row counts of an ALL_TO_ALL, by member. -/
def State.rowCounts (s : State) (e : CollEntry) (members : Nat) : State × Except Denial (List Nat) :=
  match s.collRead e.lengths 0 (4 * members) with
  | (s1, .error d) => (s1, .error d)
  | (s1, .ok b) => (s1, .ok ((chunks 4 members b).map fun x => (signExtend 32 (leNat x)).toNat))

/-- ALL_TO_ALL begins: the rows for each member lie one after another in member order (R555, R373). -/
def State.startExchange (s : State) (entry sequence : Nat) (e : CollEntry) : State :=
  let ms := s.collMembers e
  match s.rowCounts e ms.length with
  | (s1, .error d) => s1.beaconFails entry d false
  | (s1, .ok counts) =>
    ((ms.zip counts).zipIdx).foldl
      (fun x r =>
        let before := (counts.take r.2).sum * e.rowBytes
        match x.collRead e.srcTensor (e.srcOffset + before) (r.1.2 * e.rowBytes) with
        | (y, .error d) => y.beaconFails entry d false
        | (y, .ok bs) =>
          if r.1.1 = s.rank then y.addPiece entry sequence { member := s.rank, offset := 0, len := bs.length, last := true, bytes := bs }
          else y.sendData entry sequence e 0 bs [r.1.1]) s1

/-! ### Flags (R561) -/

/-- What a flag operation makes of two words. -/
def flagOp (kind : Nat) (a b : BitVec 64) : BitVec 64 := if kind = ckFlagAnd then a &&& b else a ||| b

def CollInst.flag? (i : CollInst) (r : Nat) : Option (BitVec 64) := (i.flags.find? fun f => f.1 == r).map (·.2)

def CollInst.setFlag (i : CollInst) (r : Nat) (w : BitVec 64) : CollInst := { i with flags := assocSet i.flags r w }

def State.sendFlag (s : State) (entry sequence dst : Nat) (w : BitVec 64) : State :=
  s.sendColl entry sequence { ptype := 0x11, dst := dst, address := w.toNat } dst []

/-- The ranks of this device's ring in a dimension. -/
def State.ring (s : State) (t : Topo) (d : Nat) : List Nat :=
  (List.range t.devices).filter fun r => ([0, 1, 2].filter fun x => x != d).all fun x => t.coord r x == t.coord s.rank x

/-- Sends the word of the present stage along its dimension. -/
def State.sendStage (s : State) (t : Topo) (entry sequence d : Nat) (w : BitVec 64) : State :=
  [t.step s.rank ⟨d, true⟩, t.step s.rank ⟨d, false⟩].eraseDups.foldl (fun x r => x.sendFlag entry sequence r w) s

/-- The exchange goes on while the words of a whole ring are there. -/
def State.advanceStages (s : State) (t : Topo) (entry sequence kind : Nat) : Nat → State
  | 0 => s
  | fuel + 1 =>
    match s.instance? entry sequence with
    | none => s
    | some i =>
      match t.activeDims[i.stage]? with
      | none => s
      | some d =>
        let ws := (s.ring t d).map i.flag?
        if ws.all Option.isSome then
          let w := (ws.filterMap id).foldl (flagOp kind) ((i.flag? s.rank).getD 0)
          let s1 := s.modInst entry sequence fun x => { x.setFlag s.rank w with stage := x.stage + 1 }
          let s2 := match t.activeDims[i.stage + 1]? with
            | some d' => s1.sendStage t entry sequence d' w
            | none => s1
          s2.advanceStages t entry sequence kind fuel
        else s

/-- The way of a flag collective. -/
inductive FlagPath where
  | dims | direct | chain
  deriving DecidableEq, Repr

def State.flagPath (s : State) (e : CollEntry) : FlagPath :=
  if s.byDims e then .dims else if (s.topo.map fun t => t.kind == 4).getD false then .direct else .chain

/-- A member of a chain has the words of all before it, and passes on what it has; the last answers. -/
def State.chainFlag (s : State) (entry sequence : Nat) (e : CollEntry) (w : BitVec 64) : State :=
  let ms := s.collMembers e
  let k := s.memberIndex e
  if k + 1 < ms.length then s.sendFlag entry sequence (ms.getD (k + 1) 0) w
  else
    let s1 := s.modInst entry sequence fun i => { i.setFlag s.rank w with stage := 1 }
    if k = 0 then s1 else s1.sendFlag entry sequence (ms.getD (k - 1) 0) w

/-- A flag collective begins with this device's word. -/
def State.startFlag (s : State) (entry sequence : Nat) (e : CollEntry) (w : BitVec 64) : State :=
  let s1 := s.modInst entry sequence (·.setFlag s.rank w)
  match s.topo, s.flagPath e with
  | some t, .dims =>
    match t.activeDims[0]? with
    | some d => (s1.sendStage t entry sequence d w).advanceStages t entry sequence e.kind 3
    | none => s1
  | _, .direct => ((s.collMembers e).filter fun r => r != s.rank).foldl (fun x r => x.sendFlag entry sequence r w) s1
  | _, _ => if s.memberIndex e = 0 then s1.chainFlag entry sequence e w else s1

/-- The result of a flag collective, when it is known. -/
def State.flagResult (s : State) (e : CollEntry) (i : CollInst) : Option (BitVec 64) :=
  match s.topo, s.flagPath e with
  | some t, .dims => if t.activeDims.length ≤ i.stage then i.flag? s.rank else none
  | _, .direct =>
    let ws := (s.collMembers e).map i.flag?
    if ws.all Option.isSome then some ((ws.filterMap id).foldl (flagOp e.kind) ((i.flag? s.rank).getD 0)) else none
  | _, _ => if i.stage = 1 then i.flag? s.rank else none

/-- A flag word arrives from a rank, in a direction of travel when it came along a dimension. -/
def State.takeFlag (s : State) (entry sequence : Nat) (e : CollEntry) (src : Nat) (dir : Option Dir) (p : Packet) : State :=
  let w := p.address
  match s.topo, s.flagPath e with
  | some t, .dims =>
    let s1 := s.modInst entry sequence (·.setFlag src w)
    let s2 := match dir with
      | some d =>
        let n := t.size d.dim
        let dist := if d.plus then (t.coord s.rank d.dim + n - t.coord src d.dim) % n else (t.coord src d.dim + n - t.coord s.rank d.dim) % n
        if dist < n / 2 then s1.sendRouted (({ p with dstRank := t.step s.rank d } : Packet).withVc 2).sealed (t.step s.rank d) else s1
      | none => s1
    s2.advanceStages t entry sequence e.kind 3
  | _, .direct => s.modInst entry sequence (·.setFlag src w)
  | _, _ =>
    let ms := s.collMembers e
    let k := s.memberIndex e
    if src = ms.getD (k + 1) s.rank then
      -- the answer comes back
      let s1 := s.modInst entry sequence fun i => { i.setFlag s.rank w with stage := 1 }
      if k = 0 then s1 else s1.sendFlag entry sequence (ms.getD (k - 1) 0) w
    else
      let own := ((s.instance? entry sequence).bind fun i => i.flag? s.rank).getD 0
      s.chainFlag entry sequence e (flagOp e.kind w own)

/-! ### PUT (R545) -/

/-- PUT begins: packets to PEER at DST_OFFSET. -/
def State.startPut (s : State) (entry sequence : Nat) (e : CollEntry) : State :=
  match s.collRead e.srcTensor e.srcOffset e.length with
  | (s1, .error d) => s1.beaconFails entry d false
  | (s1, .ok bs) =>
    if e.peer = s.rank then s1.deposit entry e.dstTensor e.dstOffset bs
    else
      let cs := chunks (dataChunk e) (bs.length / dataChunk e + 1) bs
      (cs.zipIdx).foldl
        (fun x c =>
          let (y, wire) := x.wireData e c.1
          let id := y.beacon.nextMsgId
          let z := y.modInst entry sequence fun i => { i with unacked := i.unacked ++ [id] }
          z.sendColl entry sequence
            { ptype := 0x01, dst := e.peer, address := z.collAddr false e.dstTensor (e.dstOffset + dataChunk e * c.2)
              last := c.2 + 1 == cs.length, ftc := e.ftc } e.peer wire) s1

/-! ### Issue (R553, R559) -/

/-- The word of tile memory that a flag collective reads, or that Lamplighter contributes. -/
def State.flagWord (s : State) (entry sequence : Nat) (e : CollEntry) (o : CollOwner) : BitVec 64 :=
  match o with
  | .tile d p _ _ => if e.kind = ckBarrier then 0 else BitVec.ofNat 64 (leNat (s.tmRead d p e.srcOffset 8))
  | .update => BitVec.ofNat 64 (((s.instance? entry sequence).map fun i => leNat i.own).getD 0)

/-- An instance begins. -/
def State.beginInst (s : State) (entry sequence : Nat) (e : CollEntry) (o : CollOwner) : State :=
  if e.reduces then
    if s.memberIndex e = 0 then (segmentOffsets e.bytes).foldl (fun x off => x.chainSegment entry sequence e off none) s else s
  else if e.kind = ckAllToAll then s.startExchange entry sequence e
  else if e.gathers then s.startGather entry sequence e
  else if e.flags then s.startFlag entry sequence e (s.flagWord entry sequence e o)
  else if e.kind = ckPut then s.startPut entry sequence e
  else s

/-! ### Receiving (R561, R563) -/

/-- A packet's payload decoded (R558): one LAST block of at most 4,032 raw bytes; none when it does not decode. -/
def State.unwire (s : State) (p : Packet) : State × Option (List Byte) :=
  if p.ftc then
    match ftcDecodeBlock p.payload with
    | .ok b =>
      if b.last && decide (b.raw.length ≤ 4032) then
        (s.modFtc 2 fun f =>
          { f with
            blocksDecoded := satAdd f.blocksDecoded 1
            rawBlocksDecoded := satAdd f.rawBlocksDecoded (bool01 b.isRaw) }, some b.raw)
      else (s, none)
    | .error _ => (s.modFtc 2 fun f => { f with mismatches := satAdd f.mismatches 1 }, none)
  else (s, some p.payload)

/-- A payload that does not decode aborts the collective. -/
def State.wireFails (s : State) (entry : Nat) : State :=
  let w := causeWord Status.compressedSizeMismatch.code 0 tierBeacon false
  s.newCascade.abortStep
    { status := .compressedSizeMismatch, kind := 1, detail := streamDetail false 0 0 0xFF w, key := slotKey (.beacon entry)
      entry := entry }

/-- Passes received data on along the dimensions (R561). -/
def State.relay (s : State) (t : Topo) (d : Dir) (p : Packet) : State :=
  let n := t.size d.dim
  let src := p.srcRank
  let dist := if d.plus then (t.coord s.rank d.dim + n - t.coord src d.dim) % n else (t.coord src d.dim + n - t.coord s.rank d.dim) % n
  let onward := if dist < gatherHops n d.plus then [t.step s.rank d] else []
  (onward ++ s.spread t (t.activeDims.filter fun x => decide (d.dim < x))).foldl
    (fun x r => x.sendRouted (({ p with dstRank := r } : Packet).withVc 2).sealed r) s

/-- Data of ALL_GATHER or BROADCAST arrives. -/
def State.takeGather (s : State) (entry sequence : Nat) (e : CollEntry) (dir : Option Dir) (p : Packet) : State :=
  match s.unwire p with
  | (s1, none) => s1.wireFails entry
  | (s1, some raw) =>
    let off := p.address.toNat
    let bs := raw.take (s.contributionEnd e off - off)
    let s2 := s1.receive entry sequence e off bs
    let s3 := s2.addPiece entry sequence { member := p.srcRank, offset := off, len := bs.length }
    match s.topo, dir, s.byDims e with
    | some t, some d, true => s3.relay t d p
    | _, _, _ => s3

/-- Rows of an ALL_TO_ALL arrive: they are placed when every source's last packet is there (R373). -/
def State.takeExchange (s : State) (entry sequence : Nat) (p : Packet) : State :=
  match s.unwire p with
  | (s1, none) => s1.wireFails entry
  | (s1, some raw) =>
    s1.addPiece entry sequence { member := p.srcRank, offset := p.address.toNat, len := raw.length, last := p.last, bytes := raw }

/-- A segment of a chain reduction arrives: a partial of the member before, or the final sum. -/
def State.takeSegment (s : State) (entry sequence : Nat) (e : CollEntry) (p : Packet) : State :=
  let off := p.address.toNat
  let n := min 4096 (e.bytes - off)
  let codes := (chunks e.elem n (p.payload.take n)).map leNat
  let k := s.memberIndex e
  if p.chainPos + 1 = k then (s.takeTrailer entry sequence n p.payload).chainSegment entry sequence e off (some codes)
  else if p.chainPos + 1 = (s.collMembers e).length then (s.takeTrailer entry sequence n p.payload).landFinal entry sequence e off codes
  else s

/-- The direction in which a packet from a port travels. -/
def State.travel (s : State) (port : Nat) : Option Dir :=
  s.topo.bind fun t => (t.dirs.find? fun d => d.2.contains port).map fun d => ⟨d.1.dim, !d.1.plus⟩

/-- A packet for a running instance: the job check of R563, then its data or flag word. -/
def State.takeColl (s : State) (port : Nat) (p : Packet) (i : CollInst) : State :=
  let e := s.planEntry i.entry
  let s1 := s.modInst i.entry i.sequence fun x => { x with lastActivity := s.now }
  if s.deterministic ∧ p.tag ≠ s.jobCheck then
    s1.newCascade.abortStep
      { status := .featureMissing, kind := 8, entry := i.entry
        detail := leBytes 4 s.jobCheck.toNat ++ leBytes 4 p.tag.toNat ++ leBytes 2 p.srcRank ++ leBytes 2 i.entry }
  else if p.ptype = 0x11 then if e.flags then s1.takeFlag i.entry i.sequence e p.srcRank (s.travel port) p else s1
  else if e.reduces then s1.takeSegment i.entry i.sequence e p
  else if e.kind = ckAllToAll then s1.takeExchange i.entry i.sequence p
  else if e.gathers then s1.takeGather i.entry i.sequence e (s.travel port) p
  else s1

/-- The step number as packets carry it. -/
def stepWord (k : Nat) : BitVec 32 := BitVec.ofNat 32 k

/-- The packets held for an instance, taken out of the reserve in the order in which they came. -/
def State.takeEarly (s : State) (entry sequence : Nat) : State :=
  let hit := fun (e : Nat × Packet) => e.2.entry == entry && e.2.sequence == sequence && e.2.step == stepWord s.stepNo
  let mine := s.beacon.early.filter hit
  let s1 : State := { s with beacon := { s.beacon with early := s.beacon.early.filter fun e => !hit e } }
  mine.foldl
    (fun x e =>
      match x.instance? entry sequence with
      | some i => x.takeColl e.1 e.2 i
      | none => x) s1

/-- Instances at a time (R553). -/
def maxInstances : Nat := 64

def State.issueCount (s : State) (entry : Nat) : Nat := assocGet 0 s.beacon.issueCounts entry

/-- An instance is issued; Lamplighter's has a message, and a trailer word. -/
def State.issueInst (s : State) (entry : Nat) (o : CollOwner) (own : List Byte) (trailer : BitVec 8) : State :=
  let n := s.issueCount entry
  let i : CollInst :=
    { step := s.stepNo, entry := entry, sequence := n, owner := o, issuedAt := s.now, lastActivity := s.now, own := own
      trailer := trailer }
  let s1 : State :=
    { s with beacon := { s.beacon with instances := s.beacon.instances ++ [i], issueCounts := assocSet s.beacon.issueCounts entry (n + 1) } }
  (s1.beginInst entry n (s1.planEntry entry) o).takeEarly entry n

/-- A COLL's. -/
def State.issueColl (s : State) (entry : Nat) (o : CollOwner) : State := s.issueInst entry o [] 0

/-- Lamplighter's (R384). -/
def State.issueUpdate (s : State) (entry : Nat) (own : List Byte) (trailer : BitVec 8) : State :=
  s.issueInst entry .update own trailer

/-- The entry belongs to the tile (R145, R554). -/
def State.collOf (s : State) (d p entry : Nat) : Bool :=
  match s.program with
  | none => false
  | some g =>
    let e := g.collEntry entry
    decide (entry < g.entries secCollectivePlan) && e.die == d && some e.tile == (s.tile d p).logicalId

/-- A COLL of the running context (R164, R469, R553). Its order to Beacon competes for the CD–IOD link and Beacon's
port with its time of issue as deadline (R219, R220); what Beacon does with it is not held up by that (R222). -/
def State.opColl (s : State) (d p entry done : Nat) : State :=
  let e := s.planEntry entry
  if e.kind = ckBsuOp then s.bsuColl d p done (bsuDescOf e.params)
  else if maxInstances ≤ s.beacon.instances.length then s.issueHold d p
  else
    ((s.tag d p done .coll).issueColl entry (.tile d p (s.tile d p).running done)).addReq
      { owner := .beacon entry, seq := s.nextReq, instr := 0, cls := 0, die := d, deadline := s.timer d, src := noPlace, dst := noPlace
        srcTier := tierTile, dstTier := tierBeacon, len := 0, points := [.linkCi d true, .beaconPort], data := some [] }

/-- A COLL cannot issue yet: a queue of a BSU is full, or 64 instances run. -/
def State.collHolds (s : State) (entry : Nat) : Bool :=
  let e := s.planEntry entry
  if e.kind = ckBsuOp then s.dispatchFull (bsuDescOf e.params) else decide (maxInstances ≤ s.beacon.instances.length)

/-- COLL (R164). -/
def execColl (d p entry done : Nat) (s : State) : Host.Outcome State Fault Refusal :=
  if tileExists d p then
    .next (if s.canIssue d p && s.collOf d p entry && decide (done < 256) then s.opColl d p entry done else s)
  else .fault .noSuchUnit

/-! ### Completion (R560) -/

/-- No landing of the instance waits at a BSU. -/
def State.landed (s : State) (entry sequence : Nat) : Bool :=
  s.hbm.all fun k => k.bsus.all fun b => !(b.landings.any fun l => l.entry == entry && l.sequence == sequence)

/-- Every source's rows are there. -/
def CollInst.exchanged (i : CollInst) (members : List Nat) : Bool :=
  members.all fun r => i.pieces.any fun p => p.member == r && p.last

/-- The final segments that this device owns. -/
def State.ownSegments (s : State) (e : CollEntry) : List Nat :=
  (segmentOffsets e.bytes).filter fun off => (s.owners e off (min 4096 (e.bytes - off))).contains s.rank

/-- The device's own part is complete and visible. -/
def State.partDone (s : State) (e : CollEntry) (i : CollInst) : Bool :=
  if e.reduces then
    (segmentOffsets e.bytes).all i.contributed.contains && (s.ownSegments e).all i.finals.contains && s.landed i.entry i.sequence
  else if e.kind = ckAllToAll then i.exchanged (s.collMembers e)
  else if e.gathers then decide (s.gatherBytes e ≤ (i.pieces.map (·.len)).sum)
  else if e.flags then (s.flagResult e i).isSome
  else if e.kind = ckPut then i.unacked.isEmpty
  else false

/-- Rows in ascending source rank, each source's in the order sent (R373). -/
def CollInst.exchangeBytes (i : CollInst) (members : List Nat) : List Byte :=
  members.flatMap fun r => ((i.pieces.filter fun p => p.member == r).mergeSort fun a b => decide (a.offset ≤ b.offset)).flatMap (·.bytes)

/-- The instance of a collective of the update, when this device's part is complete. -/
def State.updateDone (s : State) (entry : Nat) : Option CollInst :=
  (s.beacon.instances.find? fun i => i.entry == entry).bind fun i => if s.partDone (s.planEntry entry) i then some i else none

/-- The word that one with flags has formed. -/
def State.updateWord (s : State) (entry : Nat) : Option Nat :=
  (s.updateDone entry).bind fun i => (s.flagResult (s.planEntry entry) i).map (·.toNat)

/-- Its instance ends. -/
def State.endUpdate (s : State) (entry : Nat) : State :=
  { s with beacon := { s.beacon with
      instances := s.beacon.instances.filter fun i => i.entry != entry
      instancesDone := satAdd s.beacon.instancesDone 1 } }

/-- What is written when an instance completes. -/
def State.lastWrites (s : State) (e : CollEntry) (i : CollInst) : State :=
  if e.kind = ckAllToAll then s.deposit i.entry e.dstTensor e.dstOffset (i.exchangeBytes (s.collMembers e))
  else
    match i.owner, s.flagResult e i with
    | .tile d p _ _, some w =>
      if e.kind = ckFlagOr ∨ e.kind = ckFlagAnd then s.tmWrite d p e.dstOffset (leBytes 8 w.toNat) else s
    | _, _ => s

/-- The instance is over: DONE_EVENT, and its counts. -/
def State.finishInst (s : State) (e : CollEntry) (i : CollInst) : State :=
  let s1 := s.lastWrites e i
  if !s1.stepOpen then s1
  else
    let s2 : State :=
      { s1 with
        beacon :=
          { s1.beacon with
            instances := s1.beacon.instances.filter fun x => !x.is i.entry i.sequence
            instancesDone := satAdd s1.beacon.instancesDone 1 }
        stateBlock := { s1.stateBlock with rounds := s1.stateBlock.rounds + bool01 (e.accum && !(s1.ownSegments e).isEmpty) } }
    match i.owner with
    | .tile d p _ done => (s2.opEnded d p).bump d p done 1
    | .update => s2

/-- COLLECTIVE_COMPLETE (R560). -/
def execCollectiveComplete (entry sequence : Nat) (s : State) : Host.Outcome State Fault Refusal :=
  match s.instance? entry sequence with
  | none => .next s
  | some i =>
    match i.owner with
    | .update => .next s
    | .tile .. =>
      let e := s.planEntry entry
      .next (if s.stepOpen && !s.stopped && s.partDone e i then s.finishInst e i else s)

/-- COLLECTIVE_STALL (R568): STALL_LIMIT without a byte or a flag. -/
def execCollectiveStall (entry sequence : Nat) (s : State) : Host.Outcome State Fault Refusal :=
  match s.instance? entry sequence with
  | none => .next s
  | some i =>
    let e := s.planEntry entry
    if s.stepOpen && !s.stopped && e.grouped && !s.partDone e i then
      .next ((s.advanceTo (i.lastActivity + s.stallLimit)).fabricFails 0xFF s.rank entry rsNoProgress)
    else .next s

/-! ### RDMA READ (R551) -/

/-- ETH_READ_COMPLETE (R551): the bytes, or a remote error or a port down for more than STALL_LIMIT. -/
def execEthReadComplete (entry sequence : Nat) (data : Option (List Byte)) (s : State) : Host.Outcome State Fault Refusal :=
  match s.instance? entry sequence with
  | none => .next s
  | some i =>
    let e := s.planEntry entry
    let queue := s.flash.policy.exportQueues.find? fun q => q.queue == field e.params 0 1
    let port := (queue.map (·.port)).getD 0xFF
    if !s.stepOpen || s.stopped || e.kind != ckEthRead then .next s
    else
      match data with
      | none => .next (s.fabricFails port s.rank entry rsNoProgress)
      | some bs =>
        if bs.length = e.length ∧ (queue.map fun q => (s.port q.port).state == .ethernetUp) = some true then
          let s1 := s.deposit entry e.dstTensor e.dstOffset bs
          let s2 := s1.modPort port fun p => { p with ethFramesReceived := satAdd p.ethFramesReceived (ceilDiv bs.length 4096) }
          .next (if s2.stepOpen then s2.finishInst e i else s2)
        else .next s

end Sys2Proof.Machine
end

