-- ==== Sys2Proof/Machine/Commit.lean ====
section
/-! DEFINITION. The commit area (R393 to R405, R415 to R417): records, the epoch word, the scalar block after
a step, which steps a device accepts, and how STEP_OPEN resolves a step in doubt. -/

namespace Sys2Proof.Machine

def word64 : Nat := 2 ^ 64

/-! ### The bytes of a record and of the epoch word (R396 to R398) -/

/-- The scalar block (R397). -/
def Scalars.bytes (c : Scalars) : List Byte :=
  leBytes 8 c.committedStep.toNat ++ leBytes 8 c.jobSeed.toNat ++ leBytes 8 c.noiseEma.toNat ++ leBytes 4 c.goodSteps ++
    leBytes 2 c.nextMb ++ leBytes 1 c.lossExp ++ zeros 1 ++ leBytes 4 c.steerCount ++ zeros 4 ++ leBytes 8 c.updates ++
    leBytes 8 c.skips ++ zeros 8

def scalarsOf (b : List Byte) : Scalars :=
  { committedStep := BitVec.ofNat 64 (field b 0 8), jobSeed := BitVec.ofNat 64 (field b 8 8)
    noiseEma := BitVec.ofNat 64 (field b 0x10 8), goodSteps := field b 0x18 4, nextMb := field b 0x1C 2
    lossExp := field b 0x1E 1, steerCount := field b 0x20 4, updates := field b 0x28 8, skips := field b 0x30 8 }

def recordMagic : Nat := 0x4352535A

def RecordKind.code : RecordKind → Nat
  | .prepared => 1 | .committed => 2 | .rolledBack => 3

def RecordKind.ofCode : Nat → Option RecordKind
  | 1 => some .prepared | 2 => some .committed | 3 => some .rolledBack
  | _ => none

/-- The 192 bytes of a record. -/
def CommitRecord.bytes (r : CommitRecord) : List Byte :=
  let b := leBytes 4 recordMagic ++ leBytes 1 r.kind.code ++ leBytes 1 r.outcome.code ++ leBytes 1 r.vote ++ leBytes 1 r.shadowBank ++
    leBytes 8 r.step ++ leBytes 8 r.programId ++ leBytes 8 r.jobId ++ r.scalars.bytes ++ sliceZ r.stateDigest 0 32 ++
    leBytes 8 (r.noiseB.getD (BitVec.allOnes 64)).toNat ++ leBytes 1 r.steerMode ++ zeros 51
  b ++ leBytes 4 (crc32c b).toNat

/-- The record that 192 bytes hold; none where MAGIC, KIND or CHECK fails. -/
def recordOf (b : List Byte) : Option CommitRecord :=
  match RecordKind.ofCode (field b 4 1) with
  | some kind =>
    if field b 0 4 = recordMagic ∧ field b 0xBC 4 = (crc32c (slice b 0 0xBC)).toNat then
      let noise := BitVec.ofNat 64 (field b 0x80 8)
      some
        { kind := kind, outcome := if field b 5 1 = 1 then .update else if field b 5 1 = 2 then .skip else .none
          vote := field b 6 1, shadowBank := field b 7 1, step := field b 8 8, programId := field b 0x10 8, jobId := field b 0x18 8
          scalars := scalarsOf (slice b 0x20 64), stateDigest := slice b 0x60 32
          noiseB := if noise = BitVec.allOnes 64 then none else some noise, steerMode := field b 0x88 1 }
    else none
  | none => none

/-- The epoch word, filled up to a sector. -/
def epochBytes (step bank : Nat) : List Byte :=
  let b := leBytes 8 step ++ leBytes 1 bank ++ zeros 3
  b ++ leBytes 4 (crc32c b).toNat ++ zeros 16

/-- The step and the bank of an epoch word that is valid. -/
def epochOf (b : List Byte) : Option (Nat × Nat) :=
  if field b 12 4 = (crc32c (slice b 0 12)).toNat then some (field b 0 8, field b 8 1) else none

/-! ### The copies in the reserves (R395, R398) -/

/-- Records of a copy of 64 KiB, after the sector of the epoch word. -/
def maxRecords : Nat := 341

/-- Where the record of a step lies: the records of one step share a place, so that a new one of them takes the place
of the last (DESIGN CHOICE, log 111: R395 places none). -/
def recordOffset (slot : Nat) : Nat := 32 + 192 * (slot % maxRecords)

/-- A place in service takes bytes at an offset; Lamplighter reads them back. -/
def State.putArea (s : State) (k : Nat) (b : List Byte) (c : Nat × Nat) : State :=
  if s.stackInService c.1 && !(s.channel c.1 c.2).retired then
    let a := s.reserveAddr c.1 c.2 k
    ((s.countStack true a b.length).writeDev a b).countStack false a b.length
  else s

/-- The first copy, then the second. -/
def State.putCopies (s : State) (k : Nat) (b : List Byte) : State := s.commit.copies.foldl (fun t c => t.putArea k b c) s

/-- The order of (STEP, KIND). A step and all ones as the step before 0 compare as the steps of one job (DEDUCED, log 111). -/
def CommitRecord.rank (r : CommitRecord) : Nat :=
  (r.step + 1) % word64 * 3 + match r.kind with
    | .prepared => 0 | .rolledBack => 1 | .committed => 2

/-- The record with the highest (STEP, KIND). -/
def highestRecord (l : List CommitRecord) : Option CommitRecord :=
  l.foldl (fun m r => match m with
    | some x => if x.rank < r.rank then some r else some x
    | none => some r) none

/-- The area with a record written into it, over that of the same step. -/
def CommitArea.noted (a : CommitArea) (r : CommitRecord) : CommitArea :=
  { a with
    present := true
    top := highestRecord (r :: (a.top.filter fun x => x.step != r.step).toList)
    last := if r.kind = .committed then highestRecord (r :: a.last.toList) else a.last }

/-- A record into both copies. -/
def State.writeRecord (s : State) (r : CommitRecord) : State :=
  let t := s.putCopies (recordOffset r.step) r.bytes
  { t with commit := t.commit.noted r }

/-- The valid records of a copy. A channel that holds no byte holds none. -/
def State.recordsAt (s : State) (c : Nat × Nat) : List CommitRecord :=
  if s.mem.any fun x => x.1 / 2 ^ 32 == 32 * c.1 + c.2 then
    (List.range maxRecords).filterMap fun i =>
      let a := s.reserveAddr c.1 c.2 (recordOffset i)
      if s.failing a 192 then none else recordOf (s.readDev a 192)
  else []

/-- The epoch word of the first copy that holds a valid one. -/
def State.readEpoch (s : State) : State :=
  let word := fun (c : Nat × Nat) =>
    let a := s.reserveAddr c.1 c.2 0
    if s.stackInService c.1 && !s.failing a 16 then epochOf (s.readDev a 16) else none
  match s.commit.copies.findSome? word with
  | some (step, bank) => { s with commit := { s.commit with epochStep := step, epochBank := bank } }
  | none => s

/-- Lamplighter takes the commit area as its copies hold it. A place without a valid record waits to be written from
the other (R457). -/
def State.takeArea (s : State) : State :=
  let places := s.commitPlaces
  let found := places.map s.recordsAt
  let all := found.flatten
  let committed := all.filter fun r => r.kind == .committed
  match highestRecord all with
  | none => { s with commit := { copies := places, gain := s.commit.gain } }
  | some r =>
    let t : State :=
      { s with commit :=
          { present := true, top := some r, last := highestRecord committed, programId := r.programId, jobId := r.jobId
            scalars := r.scalars, copies := places, gain := s.commit.gain
            stateDigest := ((highestRecord (committed.filter fun x => x.outcome == .update)).map (·.stateDigest)).getD []
            rebuild := s.commit.rebuild || found.any (·.isEmpty) } }
    t.readEpoch

/-- The outcome of the last committed step; none when the area was initialised and none has committed. -/
def State.lastOutcome (s : State) : StepOutcome := (s.commit.last.map (·.outcome)).getD .none

/-! ### What is written (R396, R398) -/

/-- PREPARED (R398). -/
def State.writePrepared (s : State) (k vote : Nat) (digest : List Byte) (b : Option (BitVec 64)) (mode : Nat) : State :=
  s.writeRecord
    { kind := .prepared, outcome := .none, vote := vote, shadowBank := 1 - s.commit.epochBank, step := k
      programId := s.commit.programId, jobId := s.commit.jobId, scalars := s.commit.scalars, stateDigest := digest
      noiseB := b, steerMode := mode }

/-- ROLLED_BACK, from the step's PREPARED record: the step before stays the state. -/
def State.writeRolledBack (s : State) (p : CommitRecord) : State :=
  let t := s.writeRecord { p with kind := .rolledBack, outcome := .none, vote := 0, scalars := s.commit.scalars }
  { t with
    commit := { t.commit with gain := [] }
    sweep := { t.sweep with rollBacks := satAdd t.sweep.rollBacks 1 } }

/-- The epoch word takes the last committed UPDATE (R398). -/
def State.flip (s : State) : State :=
  match s.commit.last with
  | some r =>
    if s.flipPending then
      let t := s.putCopies 0 (epochBytes r.step r.shadowBank)
      { t with commit := { t.commit with epochStep := r.step, epochBank := r.shadowBank } }
    else s
  | none => s

/-! ### Noise and steering (R415 to R417) -/

/-- One binary64 operation, rounded to nearest even. -/
def r64 (v : Fp) : Fp := fp64Spec.round v

def fp64 (b : BitVec 64) : Fp := fp64Spec.decode b.toNat

def toFp64 (v : Fp) : BitVec 64 := BitVec.ofNat 64 (fp64Spec.rne v)

def natFp (n : Nat) : Fp := .ofInt n

/-- a and B of R415 from A and G of STEP_STATS; B only when it is valid. -/
def noiseEstimate (a g : BitVec 32) (m : Nat) : Fp × Option (BitVec 64) :=
  let mm := natFp m
  let a1 := r64 ((fp32 a).div mm)
  let c := r64 ((fp32 g).div (r64 (mm.mul mm)))
  let m1 := natFp (m - 1)
  let s := r64 ((r64 ((r64 (a1.sub c)).mul mm)).div m1)
  let t := r64 ((r64 ((r64 (mm.mul c)).sub a1)).div m1)
  let b := r64 (s.div t)
  let ok := decide (2 ≤ m) && Fp.zero.lt t && !s.lt .zero && !(a1.nonFinite || c.nonFinite || s.nonFinite || t.nonFinite || b.nonFinite)
  (a1, if ok then some (toFp64 b) else none)

/-- The smallest integer that is not below a value. -/
def fpCeil : Fp → Nat
  | .fin false m e => if 0 ≤ e then m * 2 ^ e.toNat else ceilDiv m (2 ^ (-e).toNat)
  | .fin true .. | .nan | .inf _ => 0

/-- The smallest permitted micro-batch count that reaches a target, or the largest. -/
def steeredMb (permitted : List Nat) (target : Nat) : Nat :=
  let used := permitted.filter (· != 0)
  (used.find? fun m => decide (target ≤ m)).getD (used.getLast?.getD 0)

/-- What steering makes of the block at an UPDATE commit. -/
def steered (h : PlanHeader) (devices mode : Nat) (b : Option (BitVec 64)) (c : Scalars) : Scalars :=
  let ema := fp64 c.noiseEma
  let c1 := match b with
    | some x =>
      if mode = 0 then c
      else if c.noiseEma = 0 then { c with noiseEma := x }
      else { c with noiseEma := toFp64 (r64 (ema.add (r64 ((r64 ((fp64 x).sub ema)).div (natFp 8))))) }
    | none => c
  if mode = 2 then
    if h.steerInterval ≤ c1.steerCount + 1 then
      let v := r64 ((r64 ((r64 ((fp64 c1.noiseEma).mul (fp32 h.steerGain))).mul (natFp h.state.split))).div (natFp devices))
      { c1 with steerCount := 0, nextMb := steeredMb h.permittedMb (fpCeil v) }
    else { c1 with steerCount := c1.steerCount + 1 }
  else c1

/-! ### The scalar block after a step (R393, R397) -/

def lossAfter (h : PlanHeader) (outcome : StepOutcome) (c : Scalars) : Scalars :=
  if h.state.gradMode = 0 then c
  else
    match outcome with
    | .update =>
      if h.growthInterval ≤ c.goodSteps + 1 then { c with goodSteps := 0, lossExp := min (c.lossExp + 1) 24 }
      else { c with goodSteps := c.goodSteps + 1 }
    | .skip => { c with lossExp := c.lossExp - 1, goodSteps := 0 }
    | .none | .notCommitted => c

/-- The block after step `k` commits. -/
def nextScalars (h : PlanHeader) (devices k : Nat) (outcome : StepOutcome) (mode : Nat) (b : Option (BitVec 64)) (c : Scalars) :
    Scalars :=
  let c1 := { lossAfter h outcome c with committedStep := BitVec.ofNat 64 k }
  match outcome with
  | .update => { steered h devices mode b c1 with updates := satAdd c1.updates 1 }
  | .skip => { c1 with skips := satAdd c1.skips 1 }
  | .none | .notCommitted => c1

/-- What an UPDATE adds to the counters of a G4E record (R303). -/
def G4eCounters.gain (a b : G4eCounters) : G4eCounters :=
  { g4eId := a.g4eId, saturated := satAdd a.saturated b.saturated, underflow := satAdd a.underflow b.underflow
    escapesLast := b.escapesLast, guardUp := satAdd a.guardUp b.guardUp, guardDown := satAdd a.guardDown b.guardDown
    guardLimited := satAdd a.guardLimited b.guardLimited, scaleFixups := satAdd a.scaleFixups b.scaleFixups }

def zipGain (l gain : List G4eCounters) : List G4eCounters :=
  if gain.isEmpty then l else l.mapIdx fun i a => (gain[i]?.map a.gain).getD a

/-- COMMITTED, from the step's PREPARED record: the scalar block is that of the new state, and at an UPDATE the digest is
and the counters of the G4E records advance (R303). -/
def State.writeCommitted (s : State) (h : PlanHeader) (outcome : StepOutcome) (w : Nat) (p : CommitRecord) : State :=
  let c := nextScalars h s.devices p.step outcome p.steerMode p.noiseB s.commit.scalars
  let t := s.writeRecord { p with kind := .committed, outcome := outcome, vote := w, scalars := c }
  let update := outcome == .update
  { t with
    g4e := if update then zipGain t.g4e t.commit.gain else t.g4e
    commit := { t.commit with
      scalars := c, gain := [], stateDigest := if update then p.stateDigest else t.commit.stateDigest } }

/-! ### Adoption (R400) -/

def State.jobId (s : State) : Nat := (s.session.map (·.jobId)).getD 0

def State.adopts (s : State) (g : Program) : Bool :=
  s.commit.present && s.commit.programId == g.programId && s.commit.jobId == s.jobId

/-- The block of a job at its start. -/
def firstScalars (g : Program) (h : PlanHeader) (x : Session) : Scalars :=
  { committedStep := BitVec.ofNat 64 (x.firstStep + word64 - 1), jobSeed := BitVec.ofNat 64 x.seed, nextMb := g.mbDefault
    lossExp := if h.state.gradMode = 0 then 0 else h.state.initLossExp }

/-- The area as R400 initialises it for a session: both copies cleared, a COMMITTED record without an outcome that holds the
block (DESIGN CHOICE, log 111: R400 names no record), and the epoch word with bank 0. -/
def State.initArea (s : State) (g : Program) (h : PlanHeader) (x : Session) : State :=
  let c := (x.firstStep + word64 - 1) % word64
  let first : CommitRecord :=
    { kind := .committed, outcome := .none, vote := 0, shadowBank := 0, step := c, programId := g.programId, jobId := x.jobId
      scalars := firstScalars g h x, stateDigest := [], noiseB := none, steerMode := 0 }
  let t : State :=
    { s.releaseExport with
      exports := []
      commit :=
        { epochStep := c, programId := g.programId, jobId := x.jobId, scalars := first.scalars, copies := s.commitPlaces } }
  ((t.putCopies 0 (zeros commitBytes)).writeRecord first).putCopies 0 (epochBytes c 0)

/-- Adopts the area as it stands in memory or initialises it; true when adopted. -/
def State.adoptArea (s : State) (g : Program) : State × Bool :=
  match g.plan, s.session with
  | some h, some x =>
    let t := s.takeArea
    if t.adopts g then (t.flip, true) else (s.initArea g h x, false)
  | _, _ => (s, false)

/-! ### Acceptance and STEP_OPEN (R401, R403, R404) -/

/-- R401: step `k` is one that the device may run next. -/
def State.acceptsStep (s : State) (k : Nat) : Bool :=
  let c := s.committedStep
  match s.prepared with
  | some p => k == (c + 1) % word64 || (p.step == (c + 1) % word64 && k == (c + 2) % word64)
  | none => k == (c + 1) % word64

/-- The recovery word of R403. -/
def State.openWord (s : State) (k : Nat) : Nat :=
  let c := s.committedStep
  let current := k == (c + 1) % word64
  let doubt := k == (c + 2) % word64 && (s.prepared.map (·.step)) == some ((c + 1) % word64)
  bool01 current + 2 * bool01 doubt + 4 * bool01 (current && s.lastOutcome == .update) +
    8 * bool01 (current && s.lastOutcome == .skip)

/-- A device of replica 0 owes storage the object of a step that has committed (R408). -/
def State.owesExport (s : State) (h : PlanHeader) (k : Nat) (o : StepOutcome) : State :=
  if h.deltaSink ≠ 0 ∧ s.geo.replica s.rank = 0 then
    { s with exports := s.exports ++ [{ step := k, kind := o, scalars := s.commit.scalars, digest := s.commit.stateDigest }] }
  else s

/-- Rolls a step in doubt forward to what the devices committed (R404). -/
def State.rollForward (s : State) (h : PlanHeader) (outcome : StepOutcome) (w : Nat) (p : CommitRecord) : State :=
  let t := ((s.writeCommitted h outcome w p).flip).owesExport h p.step outcome
  { t with sweep := { t.sweep with rollForwards := satAdd t.sweep.rollForwards 1, outcome := outcome } }

/-- Steps 1 and 2 of R404 with the word of the whole job. -/
def State.resolveDoubt (s : State) (h : PlanHeader) (k w : Nat) : State :=
  match s.prepared with
  | none => s
  | some p =>
    if p.step = k then s.writeRolledBack p
    else if bit w 2 then s.rollForward h .update 7 p
    else if bit w 3 then s.rollForward h .skip 5 p
    else s.writeRolledBack p

end Sys2Proof.Machine
end

