-- ==== Sys2Proof/Machine/SelfTest.lean ====
section
/-! DEFINITION. What failures of the self-test do, at boot and under SELF_TEST (R63, R65, R117, R661,
R733 to R735), and the assignment of lane states after training (R26 to R28). -/

namespace Sys2Proof.Machine

/-! ### Arrays and tiles (R117, R733) -/

/-- A tile is recorded as SELF_TEST_FAILED and held dark; a tile that the Owner has restored is retired
again (R661). -/
def State.failTile (s : State) (d p : Nat) : State :=
  if (s.tile d p).state ≠ .available then s
  else if s.restoredNow (tileUnit d p) then s.newCascade.retireTile d p .selfTest
  else
    (s.newCascade.modTile d p fun t => { t with state := .selfTestFailed, lit := false }).raise
      { code := .selfTestFailed, unit := tileUnit d p, threshold := .selfTest }

/-- A failing spare is marked failed (R117). -/
def State.failSpare (s : State) (d p : Nat) : State :=
  if (s.tile d p).arrayRetired.getLsbD 16 then s
  else
    ((s.newCascade.modTile d p fun t => { t with arrayRetired := t.arrayRetired ||| 0x10000#17 }).logAppend
      (arrayUnit d p 16) (.retired .selfTest)).raise
      { code := .selfTestFailed, unit := arrayUnit d p 16, threshold := .selfTest }

/-- A failing grid array is retired and the spare substitutes for it. -/
def State.failArray (s : State) (d p a : Nat) : State :=
  if (s.tile d p).arrayRetired.getLsbD a then s
  else
    let s1 := s.newCascade.modTile d p fun t =>
      { t with arrayRetired := t.arrayRetired ||| BitVec.ofNat 17 (1 <<< a), spareFor := some a }
    ((s1.logAppend (arrayUnit d p a) (.retired .selfTest)).countRetirement false).raise
      { code := .arrayRetired, unit := arrayUnit d p a, threshold := .selfTest, value := a }

/-- A spare that has failed stands in no array's place. -/
def Tile.dropSpare (t : Tile) : Tile := if t.arrayRetired.getLsbD 16 then { t with spareFor := none } else t

/-- The arrays of one tile that failed their vectors (R117). A grid position whose array is retired and which no
healthy spare fills has a failing array. -/
def State.testArrays (s : State) (d p : Nat) (failed : List Nat) : State :=
  if (s.tile d p).state ≠ .available then s
  else
    let s1 := (if failed.contains 16 then s.failSpare d p else s).modTile d p Tile.dropSpare
    let t := s1.tile d p
    let grid := failed.filter fun a => decide (a < 16) && !t.arrayRetired.getLsbD a
    match grid ++ t.pendingSpare with
    | [] => s1
    | [a] => if t.spareAvailable && grid.contains a then s1.failArray d p a else s1.failTile d p
    | _ :: _ :: _ => s1.failTile d p

/-- The tiles of a list of (die, position, unit), without repeats. -/
def tilesOf (l : List (Nat × Nat × Nat)) : List (Nat × Nat) :=
  ((List.range 100).map fun i => (i / 50, i % 50)).filter fun t => l.any fun e => e.1 == t.1 && e.2.1 == t.2

def State.testAllArrays (s : State) (l : List (Nat × Nat × Nat)) : State :=
  (List.range 100).foldl
    (fun t i => t.testArrays (i / 50) (i % 50) ((l.filter fun x => x.1 == i / 50 && x.2.1 == i % 50).map (·.2.2))) s

def State.testBanks (s : State) (l : List (Nat × Nat × Nat)) : State :=
  (tilesOf l).foldl (fun t e => t.failTile e.1 e.2) s

/-- A BSU that failed has its channel retired (R455, R733). -/
def State.testBsus (s : State) (l : List (Nat × Nat)) : State :=
  l.foldl (fun t e => t.newCascade.retireChannel e.1 e.2 .selfTest) s

def State.testShared (s : State) (l : List (Nat × Nat)) : State :=
  l.foldl (fun t e => t.newCascade.retireSharedPage e.1 e.2 .selfTest) s

def State.testBeacon (s : State) (l : List Nat) : State :=
  l.foldl (fun t e => t.newCascade.replaceBeaconPage e .selfTest) s

/-! ### Lane tests -/

/-- What a report says of a lane; a lane not named passes. -/
def laneReport (tests : List LaneTest) (r : LaneRef) : LaneTest :=
  (tests.find? fun t => t.lane == r).getD { lane := r }

/-- The loop-back that ran last, and its result: on a die-to-die lane the optical one, which follows the
electrical one (R63); a port lane has no loop-back ring, and its stage reads ELECTRICAL (R735). -/
def lastLoop (r : LaneRef) (t : LaneTest) : TestResult × LoopStage :=
  match r with
  | .die .. => (t.optical, .optical)
  | .port .. => (t.electrical, .electrical)

/-- A lane fails either loop-back (R63). -/
def loopFails (r : LaneRef) (t : LaneTest) : Bool := t.electrical == .fail || (lastLoop r t).1 == .fail

/-- Records a lane's last loop-back with the time of the test (R65, R735). Its loop-back ring, tuned for the
optical one alone, is detuned again (R18). -/
def State.noteLoop (s : State) (r : LaneRef) (t : LaneTest) : State :=
  s.modLane r fun l =>
    { l with
      test := (lastLoop r t).1, testStage := (lastLoop r t).2, testedNs := s.now
      rings := modAt l.rings loopRole fun x => { x with tuning := .off } }

/-- PASS, MARGINAL or FAIL of a lane (step 5 of R26, R63): FAIL for a failed loop-back, or for a rate over the
permanent threshold in the 1 ms measured; MARGINAL for an eye below its margin (log 89). -/
def laneOutcome (p : Policy) (r : LaneRef) (t : LaneTest) : TestResult :=
  if loopFails r t || berAbove p.lanePermanentBer (1000 * t.bitErrors) then .fail
  else if t.eyeMargin then .pass else .marginal

/-! ### Lane states after training (R27) -/

/-- A lane that fails training: SUSPECT for this boot, or RETIRED when the log already shows it SUSPECT
as the boot began, or when the Owner's RESTORE takes effect at this boot (R661). -/
def State.laneFails (s : State) (r : LaneRef) : State :=
  if s.lastLog (laneUnit r) = some .suspect ∨ s.restoredNow (laneUnit r) then s.retireLaneQuietly r .selfTest
  else (s.modLane r (Lane.enter s.now .suspect)).logAppend (laneUnit r) .suspect

/-- A lane that passes: a CLEARED entry follows a SUSPECT one. -/
def State.lanePasses (s : State) (r : LaneRef) : State :=
  match s.lastLog (laneUnit r) with
  | some .suspect => s.logAppend (laneUnit r) .cleared
  | some .restore | some .cleared | some (.retired _) | none => s

/-- Steps 1 and 2 of R27 for one lane that is not retired. -/
def State.trainLane (s : State) (tests : List LaneTest) (r : LaneRef) : State :=
  if (s.lane r).state = .retired then s
  else
    let t := laneReport tests r
    let s1 := match r with
      | .die .. => s.noteLoop r t
      | .port .. => s
    if laneOutcome s.flash.policy r t = .fail then s1.laneFails r
    else (s1.modLane r (Lane.enter s.now .spare)).lanePasses r

/-- Steps 3 and 4 of R27: the lowest lanes that passed become ACTIVE, up to the nominal width and in
whole narrowing steps; the others stay SPARE. Answers the width. -/
def State.assignLanes (s : State) (r : LaneRef) : State × Nat :=
  let sp := groupSpec r
  let good := lanesIn (s.groupLanes r) .spare
  let w := min good.length sp.nominal / sp.step * sp.step
  ((good.take w).foldl (fun t l => t.modLane (withLane r l) (Lane.enter s.now .active)) s, w)

/-- Trains every lane of a group (R26, R27); answers the trained width. -/
def State.trainGroup (s : State) (tests : List LaneTest) (r : LaneRef) : State × Nat :=
  ((List.range (s.groupLanes r).length).foldl (fun t l => t.trainLane tests (withLane r l)) s).assignLanes r

/-- LANE_RETIRED for each lane that training has retired since `before` (R28). -/
def State.raiseNewlyRetired (s before : State) (r : LaneRef) : State :=
  ((lanesIn (s.groupLanes r) .retired).filter fun l => (before.lane (withLane r l)).state != .retired).foldl
    (fun t l => t.raiseRetired (withLane r l) .selfTest) s

end Sys2Proof.Machine
end

