-- ==== Sys2Proof/Machine/Reset.lean ====
section
/-! DEFINITION. The resets of R726: what each source keeps and what it returns to reset. -/

namespace Sys2Proof.Machine

/-- What RESET_DEVICE keeps of the pilot domain: all of it but the boot and Snuffer's level. -/
def Pilot.afterReset (p : Pilot) : Pilot :=
  { p with boot := none, level := 0, byPower := false, byTemperature := false, calmSince := none,
           overSince := none }

/-- What DEV_RESET_N keeps of the pilot domain: the supply monitors, the retention store and the
counters that only loss of VDD_PILOT resets (R726, R741). -/
def Pilot.afterDevReset (p : Pilot) : Pilot :=
  { vddPilot := p.vddPilot, railsUp := p.railsUp, devResetN := p.devResetN, perstAsserted := p.perstAsserted
    wakeLow := p.wakeLow, straps := p.straps, bootKind := p.bootKind, coldCause := p.coldCause
    railFault := p.railFault, warm := p.warm, lastBootOnMain := p.lastBootOnMain
    faultedSince := p.faultedSince, origin := p.origin, holdNs := p.holdNs, levelRaises := p.levelRaises
    thermAssertions := p.thermAssertions, coldBoots := p.coldBoots, warmBoots := p.warmBoots
    lastBootNs := p.lastBootNs }

/-- A stack after a reset: in self-refresh (R727). Its identification data are its own; its counters
and tables are formed again at boot. -/
def Stack.afterReset (k : Stack) : Stack :=
  { idInvalid := k.idInvalid, thresh := k.thresh, activationThreshold := k.activationThreshold }

/-- A tile after a reset; one that failed its self-test waits for the next cold boot (R733). -/
def Tile.afterReset (pos : Nat) (t : Tile) : Tile :=
  { Tile.atReset pos with
    scrambled := t.scrambled
    state := if t.state = .selfTestFailed ∨ t.state = .fusedOff then t.state else (Tile.atReset pos).state }

/-- Counters of the fault block, the mailboxes, the security block, tinder and the host interface:
only DEV_RESET_N and power loss reset them (R600, R638, R670, R704, R707). -/
def keptEvents (full : Bool) (e : Events) : Events :=
  if full then { nextSeq := e.nextSeq, flashRingWrapped := e.flashRingWrapped }
  else
    { nextSeq := e.nextSeq, flashRingWrapped := e.flashRingWrapped, lastSeq := e.lastSeq
      lastHeadlineSeq := e.lastHeadlineSeq, retirements := e.retirements
      manualRetirements := e.manualRetirements, stepsAborted := e.stepsAborted }

def keptBundle (full : Bool) (b : Bundle) : Bundle :=
  if full then { running := b.running, reverted := b.reverted, failedPart := b.failedPart }
  else
    { running := b.running, reverted := b.reverted, failedPart := b.failedPart
      blocksStaged := b.blocksStaged, blockCrcFailures := b.blockCrcFailures
      stageRefusals := b.stageRefusals, reverts := b.reverts, attestations := b.attestations
      protectionDenials := b.protectionDenials }

def keptLamp (full : Bool) (l : Lamplighter) : Lamplighter :=
  if full then {}
  else
    { authFails := l.authFails, lockoutUntil := l.lockoutUntil, commands := l.commands
      commandsRefused := l.commandsRefused, authFailures := l.authFailures
      doorbellOverruns := l.doorbellOverruns, restarts := l.restarts }

def keptHost (full : Bool) (h : HostIf) : HostIf :=
  if full then {}
  else
    { retrains := h.retrains, linkLosses := h.linkLosses, windowErrors := h.windowErrors
      dmaBytesToDevice := h.dmaBytesToDevice, dmaBytesToHost := h.dmaBytesToHost }

def keptTinder (full : Bool) (t : Tinder) : Tinder :=
  if full then {}
  else { tainted := t.tainted, breakNs := t.breakNs, traceDropped := t.traceDropped }

/-- What of the flash survives: entries whose append has completed (R671). -/
def Flash.afterReset (f : Flash) : Flash :=
  { f with
    faultLog := f.faultLog.filter (·.inFlash)
    eventRing := f.eventRing.filter (·.inFlash) }

/-- The lit domains reset, and the device is DARK. `full` is a reset of DEV_RESET_N's kind. -/
def State.toDark (s : State) (full : Bool) : State :=
  { pending := s.pending
    dev := .dark
    now := s.now
    freeCount := s.freeCount
    pilot := if full then s.pilot.afterDevReset else s.pilot.afterReset
    fuses := s.fuses
    flash := s.flash.afterReset
    bundle := keptBundle full s.bundle
    events := keptEvents full s.events
    tele := { series := s.tele.series }
    i3c := if full then {} else { dynamicAddr := s.i3c.dynamicAddr, ibiEnabled := s.i3c.ibiEnabled }
    tinder := keptTinder full s.tinder
    dies := s.dies.map fun d => { d with state := .absent, isolated := false, ownTests := .notTested }
    lasers := s.lasers
    tiles := s.tiles.mapIdx fun i t => t.afterReset (i % 50)
    hbm := s.hbm.map Stack.afterReset
    host := keptHost full s.host
    lamp := keptLamp full s.lamp
    commit := { copies := s.commit.copies }
    exports := s.exports.map fun e => { e with started := false, object := [] }
    mem := s.mem
    hostMem := s.hostMem
    badSectors := s.badSectors
    sharedScrambled := s.sharedScrambled }

/-- The stacks lose their contents, the commit area among them (R726). -/
def State.loseStacks (s : State) : State :=
  { s with mem := s.mem.filter fun c => 2 ^ 40 ≤ c.1, badSectors := [], commit := {}, exports := [] }

/-- The tiles, shared buffers and Beacon buffers lose their contents. -/
def State.loseSram (s : State) : State :=
  { s with
    mem := s.mem.filter fun c => c.1 < 2 ^ 40
    tiles := s.tiles.map fun t => { t with scrambled := none }
    sharedScrambled := [none, none] }

/-- The origin of the boot that follows a reset (R728): a reset of a lit device. -/
def State.markReset (s : State) : State :=
  if s.dev.lit then { s with pilot := { s.pilot with origin := .reset } } else s

/-- RESET_DEVICE (R627, R726): the pilot domain is kept. -/
def State.resetDevice (s : State) : State := s.markReset.toDark false

/-- From DARK, with every supply up and DEV_RESET_N released, the device passes to PILOT (R623). -/
def State.pilotReady (s : State) : Bool :=
  s.dev == .dark && s.pilot.vddPilot && s.pilot.devResetN && s.pilot.railsUp == 0xFF#8

def State.pilotStart (s : State) : State := if s.pilotReady then { s with dev := .pilot } else s

/-- The idle clock: BOOT_NS advances by one period of the 25 MHz pilot clock (R715), and a device that
RESET_DEVICE left DARK passes to PILOT (DESIGN CHOICE: the table has no row for either). -/
def State.idle (s : State) : State := { s.pilotStart with now := s.now + 40 }

/-! ### Meanings -/

/-- VDD_PILOT_UP (R722): supply monitors and retention store run, the store empty (R716). -/
def execVddPilotUp (s : State) : Host.Outcome State Fault Refusal :=
  if s.pilot.vddPilot then .next s
  else
    .next { s with
      pilot := { s.pilot with vddPilot := true, origin := .powerUp, warm := none, railFault := 0
                              lastBootOnMain := false, faultedSince := false }
      tele := { s.tele with series := 0 } }

/-- VDD_PILOT_LOSS (R726): the device is DARK, and pilot domain, retention store and stacks are lost. -/
def execVddPilotLoss (s : State) : Host.Outcome State Fault Refusal :=
  if s.pilot.vddPilot then
    let t := ((s.toDark true).loseStacks).loseSram
    .next { t with pilot := {}, tele := {}, now := 0 }
  else .next s

/-- DEV_RESET_N_RELEASE (R623, R768): samples the straps; with every supply up the pilot domain starts,
BOOT_NS from zero. -/
def execDevResetNRelease (rails : BitVec 8) (straps : BitVec 2) (s : State) : Host.Outcome State Fault Refusal :=
  if s.pilot.vddPilot && !s.pilot.devResetN then
    let t : State :=
      { s with
        now := 0
        pilot := { s.pilot with devResetN := true, railsUp := rails, straps := straps } }
    .next t.pilotStart
  else .next s

/-- DEV_RESET_N_ASSERT (R726, R727): stacks in self-refresh, then DARK. -/
def execDevResetNAssert (s : State) : Host.Outcome State Fault Refusal :=
  if s.pilot.devResetN then
    let t := s.markReset.toDark true
    .next { t with pilot := { t.pilot with devResetN := false } }
  else .next s

/-- The bit of a rail in RAIL_FAULT. -/
def railMask (r : Rail) : BitVec 8 := 1#8 <<< Rail.bit r

/-- The HBM rails, whose loss costs the stacks their contents (R726). -/
def hbmRail : Rail → Bool
  | .vppHbm | .vddHbm | .vddqHbm => true
  | .vddIod | .vddCd0 | .vddCd1 | .vddOpt | .vddLaser => false

/-- RAIL_EXCURSION (R725, R726): with DEV_RESET_N released it acts as its assertion and sets the rail's
bit of RAIL_FAULT; while it is asserted the supply monitors only see the rail fall. -/
def execRailExcursion (rail : Rail) (s : State) : Host.Outcome State Fault Refusal :=
  if s.pilot.vddPilot then
    let down := ~~~(railMask rail)
    let t := if s.pilot.devResetN then s.toDark true else s
    let t1 := if hbmRail rail then t.loseStacks else t
    .next { t1 with
      pilot := { t1.pilot with
        railsUp := t1.pilot.railsUp &&& down
        railFault := if s.pilot.devResetN then t1.pilot.railFault ||| railMask rail else t1.pilot.railFault
        origin := if s.pilot.devResetN then .excursion else t1.pilot.origin } }
  else .next s

/-- RAILS_RESTORED (R725): every rail within tolerance again, and the device passes to PILOT. -/
def execRailsRestored (s : State) : Host.Outcome State Fault Refusal :=
  if s.pilot.vddPilot && s.dev == .dark then
    let t : State := { s with now := 0, pilot := { s.pilot with railsUp := 0xFF#8 } }
    .next t.pilotStart
  else .next s

end Sys2Proof.Machine
end

