-- ==== Sys2Proof/Machine/Boot.lean ====
section
/-! DEFINITION. Wake and boot, cold and warm: the bundle procedure of R685, the start-up checks of R673,
link training, the self-test, the floor and minimum service (R52, R717, R728 to R733). -/

namespace Sys2Proof.Machine

/-! ### Slots -/

def Flash.slot (f : Flash) : Slot → FlashSlot
  | .a => f.slotA
  | .b => f.slotB
  | .r => f.slotR

def Flash.setSlot (f : Flash) (k : Slot) (v : FlashSlot) : Flash :=
  match k with
  | .a => { f with slotA := v }
  | .b => { f with slotB := v }
  | .r => { f with slotR := v }

/-- Check 2 of R683: the signer's slot is fused and not revoked. -/
def signerOk (u : Fuses) (b : FlashSlot) : Bool :=
  (u.keyDigests.getD b.signerSlot none).isSome && !u.keysRevoked.getLsbD b.signerSlot

/-- The boot ROM's checks of a slot: R683 checks 1 to 5, and the rollback counter (R685). -/
def State.slotBoots (s : State) (k : Slot) : Bool :=
  let b := s.flash.slot k
  b.intact && signerOk s.fuses b && decide (s.fuses.rollbackCounter ≤ b.rollbackIndex)

/-- The parts of a bundle in the order in which R685 loads them. -/
def loadOrder : List Part :=
  [.lampMain, .policyTable, .opticalEngine, .portFirmware, .beaconFirmware, .wickMicrocode, .mbdFirmware]

/-- The slots that R685 tries: PENDING when set, then LAST_GOOD. -/
def State.candidates (s : State) : List Slot :=
  match s.flash.pendingSlot with
  | none => [s.flash.lastGood]
  | some p => if p = s.flash.lastGood then [p] else [p, s.flash.lastGood]

def State.markFailedBoot (s : State) (k : Slot) : State :=
  { s with flash := s.flash.setSlot k { s.flash.slot k with state := .failedBoot } }

/-! ### The revision windows (R52, R679) -/

/-- A revision lies within a range. -/
def RevRange.holds (r : RevRange) (major minor : Nat) : Bool :=
  let v := major * 256 + minor
  decide (r.minMajor * 256 + r.minMinor ≤ v) && decide (v ≤ r.maxMajor * 256 + r.maxMinor)

/-- A revision is in the window of its die type: within some range of every part that names the type,
and some part names it (R679). -/
def inWindowOf (ranges : List RevRange) (d : Die) : Bool :=
  let mine := ranges.filter fun r => r.dieType == d.dieType
  !mine.isEmpty && mine.all fun r => mine.any fun q => q.part == r.part && q.holds d.major d.minor

/-- DIE_REV (R47). -/
def Die.rev (d : Die) : Nat := d.dieType * 2 ^ 24 + d.major * 2 ^ 16 + d.minor * 2 ^ 8

/-! ### Starting a bundle -/

/-- The recovery image starts from slot R (R685, R687): MAINTENANCE, every other die dark. The boot is complete (R623),
and RAIL_FAULT is cleared (R740). -/
def State.startRecovery (s : State) : State :=
  { s with
    dev := .maintenance
    lamp := { s.lamp with maintReason := .recoveryImage }
    bundle := { s.bundle with running := .r }
    dies := modAt s.dies 2 fun d => { d with state := .lit }
    pilot := { s.pilot with boot := none, railFault := 0, coldBoots := satAdd s.pilot.coldBoots 1, lastBootNs := s.now - s.pilot.wakeAt }
    tele := { series := s.tele.series + 1, sampling := true, lastSample := s.now }
    i3c := { s.i3c with cursor := 0, signalled := false } }

/-- Tries the slots in turn: the first that passes the boot ROM's checks loads LAMP_MAIN; the others are
marked FAILED_BOOT; with none left the recovery image starts. -/
def bootBundle (absent : List Nat) : List Slot → List Slot → State → State
  | _, [], s => s.startRecovery
  | tried, k :: ks, s =>
    if s.slotBoots k then
      { s with pilot := { s.pilot with boot := some {
          kind := s.pilot.bootKind, slot := k, tried := tried ++ [k], loading := some .lampMain
          toLoad := loadOrder.drop 1, absentDies := absent } } }
    else bootBundle absent (tried ++ [k]) ks (s.markFailedBoot k)

/-- A part's start-up check failed: every loaded die is reset, the slot is FAILED_BOOT, and the next
candidate is tried (R685). -/
def State.partFails (s : State) (b : Boot) (p : Part) : State :=
  let t := s.markFailedBoot b.slot
  let t1 : State :=
    { t with
      bundle := { t.bundle with reverted := true, failedPart := Part.code p, reverts := satAdd t.bundle.reverts 1 } }
  bootBundle b.absentDies b.tried (s.candidates.filter fun k => !b.tried.contains k) t1

/-- Every part has passed: LAST_GOOD, PENDING, the rollback fuses, revocations and slot R (R685, R686). -/
def State.bundleGood (s : State) (b : Boot) : State :=
  let v := s.flash.slot b.slot
  let f1 : Flash := { s.flash with lastGood := b.slot, pendingSlot := none }
  let f2 : Flash := if s.flash.slotR.recoveryVersion < v.recoveryVersion then { f1 with slotR := v } else f1
  { s with
    flash := f2
    fuses := { s.fuses with
      rollbackCounter := max s.fuses.rollbackCounter v.rollbackIndex
      keysRevoked := s.fuses.keysRevoked ||| BitVec.ofNat 4 v.revokeMask }
    bundle := { s.bundle with running := b.slot }
    pilot := { s.pilot with boot := some { b with loading := none, toLoad := [], partsDone := true } } }

/-- The sweep block after boot, from the commit area (R419, R420): W of the last COMMITTED record, and of the record that
counts what it holds. -/
def State.loadSweep (s : State) : State :=
  let top := s.commit.top
  { s with sweep :=
      { outcome := if (top.map (·.kind)) = some .rolledBack then .notCommitted else s.lastOutcome
        vote := (s.prepared.map (·.vote)).getD 0
        result := (s.commit.last.map (·.vote)).getD 0
        steerMode := (top.map (·.steerMode)).getD 0
        noiseB := (top.bind (·.noiseB)).getD (BitVec.allOnes 64) } }

/-- The main image runs from here on: telemetry starts a new series (R749). -/
def State.lampStarts (s : State) : State :=
  { s with
    tele := { series := s.tele.series + 1, sampling := true, lastSample := s.now }
    i3c := { s.i3c with cursor := 0, signalled := false } }

/-- Identification data as the MBDs read them (R449, R453). -/
def Stack.identify (offsets : List Nat) (i : StackId) (k : Stack) : Stack :=
  let eff := [i.warn, i.throttle, i.halt].mapIdx fun n t => t - offsets.getD n 0
  { k with
    idInvalid := !i.valid || !(decide (i.warn < i.throttle) && decide (i.throttle < i.halt))
    thresh := [i.warn, i.throttle, i.halt, i.refresh]
    activationThreshold := i.activations
    threshEffective := eff }

def State.identifyStacks (s : State) (ids : List StackId) : State :=
  { s with hbm := s.hbm.mapIdx fun n k =>
      match ids[n]? with
      | some i => k.identify s.flash.policy.thermalOffsets i
      | none => k }

/-! ### Wake (R717, R728) -/

/-- The first condition of R728 that fails, NONE for a warm boot. -/
def State.coldCause (s : State) (rep : WakeReport) : ColdCause :=
  match s.pilot.origin with
  | .powerUp => .powerUp
  | .excursion => .railExcursion
  | .reset =>
    if s.pilot.railFault ≠ 0 then .railExcursion
    else if s.flash.pendingSlot.isSome then .activationPending
    else if !s.pilot.lastBootOnMain || s.pilot.faultedSince then .previousBootIncomplete
    else
      match s.pilot.warm with
      | none => .warmRecord
      | some w =>
        if w.slot ≠ s.flash.lastGood then .previousBootIncomplete
        else if rep.imagesMatch then .none else .imageMismatch

/-- Heater codes of every ring, in link, lane and role order (R716). -/
def State.heaters (s : State) : List (BitVec 16) :=
  s.links.flatMap fun k => k.lanes.flatMap fun l => l.rings.map (·.heater)

/-- Puts retained heater codes back (R731). -/
def State.restoreHeaters (s : State) (hs : List (BitVec 16)) : State :=
  let (ls, _) := s.links.foldl
    (fun (acc : List Link × List (BitVec 16)) k =>
      let n := (k.lanes.map fun l => l.rings.length).sum
      let mine := acc.2.take n
      let lanes := k.lanes.mapIdx fun i l =>
        { l with rings := l.rings.mapIdx fun j r => { r with heater := mine.getD (5 * i + j) 0 } }
      (acc.1 ++ [{ k with lanes := lanes }], acc.2.drop n))
    ([], hs)
  { s with links := ls }

/-- Enters BOOTING: the boot counts, the kind and cause are recorded, Snuffer starts at level 0. -/
def State.beginBoot (s : State) (cause : ColdCause) : State :=
  let kind := if cause = .none then BootKind.warm
    else if s.pilot.origin = .powerUp then .coldPowerUp else .coldReset
  { s with
    dev := .booting
    flash := { s.flash with bootCount := s.flash.bootCount + 1 }
    bundle := { s.bundle with reverted := false, failedPart := 0 }
    pilot := { s.pilot with
      bootKind := kind, coldCause := cause, wakeAt := s.now, wakeLow := true, lastBootOnMain := false, level := 0 } }

/-- The Lamplighter SRAM march test failed (R730). -/
def State.sramTestFails (s : State) : State :=
  { s with
    dev := .faulted
    lamp := { s.lamp with faultReason := .sramUncorrectable, dead := true }
    pilot := { s.pilot with faultedSince := true, boot := none } }

/-- WAKE (R717, R728): a warm boot accepts the retained images; a cold one loses the SRAM contents to
the march tests and loads a bundle. -/
def execWake (rep : WakeReport) (s : State) : Host.Outcome State Fault Refusal :=
  let s0 := s.pilotStart
  if s0.dev = .pilot then
    let cause := s0.coldCause rep
    let s1 := s0.beginBoot cause
    match cause, s0.pilot.warm with
    | .none, some w =>
      let s2 := ((s1.lampStarts).restoreHeaters w.heaters).identifyStacks rep.stackIds
      .next { s2 with
        bundle := { s2.bundle with running := w.slot }
        pilot := { s2.pilot with boot := some {
          kind := .warm, slot := w.slot, tried := [w.slot], loading := none, toLoad := []
          partsDone := true, absentDies := rep.absentDies } } }
    | _, _ =>
      let s2 := s1.loseSram
      if rep.sramTestPass then .next (bootBundle rep.absentDies [] s2.candidates s2)
      else .next s2.sramTestFails
  else .next s

/-- PART_STARTUP_TIMEOUT (R673): no PASS within 500 ms. -/
def execPartStartupTimeout (s : State) : Host.Outcome State Fault Refusal :=
  match s.pilot.boot with
  | some b =>
    match b.loading with
    | some p => .next (s.partFails b p)
    | none => .next s
  | none => .next s

/-- PART_STARTUP_PASS (R673, R57): the next part loads, or the bundle is good. LAMP_MAIN also checks the
revision window of the IOD. -/
def execPartStartupPass (rep : PartReport) (s : State) : Host.Outcome State Fault Refusal :=
  match s.pilot.boot with
  | some b =>
    match b.loading with
    | some .lampMain =>
      if inWindowOf (s.flash.slot b.slot).ranges (s.die 2) then
        .next { s.lampStarts with pilot := { s.pilot with boot := some { b with loading := b.toLoad.head?, toLoad := b.toLoad.tail } } }
      else .next (s.partFails b .lampMain)
    | some .mbdFirmware => .next ((s.identifyStacks rep.stackIds).bundleGood b)
    | some _ => .next { s with pilot := { s.pilot with boot := some { b with loading := b.toLoad.head?, toLoad := b.toLoad.tail } } }
    | none => .next s
  | none => .next s

/-! ### From trained links to READY (R52, R729) -/

/-- A unit that the fault log shows retired. -/
def State.logRetired (s : State) (u : UnitAddr) : Bool :=
  match s.lastLog u with
  | some (.retired _) => true
  | some .restore | some .suspect | some .cleared | none => false

/-- Tiles, arrays, channels, pages and lanes as the fault log leaves them (R116, R455, R641). A cold boot
tests again the tiles that an earlier self-test failed. -/
def State.loadFaultLog (s : State) (cold : Bool) : State :=
  let tiles := s.tiles.mapIdx fun i t =>
    let d := i / 50
    let p := i % 50
    if t.state = .fusedOff then t
    else
      let bits17 := maskOf 17 fun a => s.logRetired (arrayUnit d p a)
      let grid := (List.range 16).filter fun a => bit bits17 a
      let state := if s.logRetired (tileUnit d p) then TileState.retired
        else if t.state = .selfTestFailed && !cold && !s.restoredNow (tileUnit d p) then .selfTestFailed else .available
      { t with known := true, state := state, arrayRetired := BitVec.ofNat 17 bits17, spareFor := if bit bits17 16 then none else grid.head? }
  let ks := s.hbm.mapIdx fun st k =>
    let ch := k.channels.mapIdx fun c x => { x with retired := s.logRetired (channelUnit st c) }
    let b := k.bsus.mapIdx fun c x => if s.logRetired (channelUnit st c) then { x with state := .retired } else x
    { k with channels := ch, bsus := b }
  let pages := s.flash.faultLog.filterMap fun e =>
    if e.unit.kind = .sharedPage && s.logRetired e.unit then some (e.unit.die, e.unit.index) else none
  let beacon := s.flash.faultLog.filterMap fun e =>
    if e.unit.kind = .beaconPage && s.logRetired e.unit then some e.unit.index else none
  let lanes := fun (mk : Nat → LaneRef) (ls : List Lane) => ls.mapIdx fun i l =>
    if s.logRetired (laneUnit (mk i)) then { l with state := LaneState.retired } else l
  { s with
    tiles := tiles
    hbm := ks
    sharedRetired := pages.eraseDups
    beacon := { s.beacon with pagesReplaced := beacon }
    links := s.links.mapIdx fun k x => { x with lanes := lanes (LaneRef.die k) x.lanes }
    ports := s.ports.mapIdx fun n x => { x with lanes := lanes (LaneRef.port n) x.lanes } }

/-- Steps 1 and 2 of R52: who answers, and who is in the window of the running bundle. A die that DIE_ISOLATE has
put in stand-alone test mode before this does not answer, and is ABSENT (DESIGN CHOICE, log 90: R59 has it ignore
its die-to-die links and does not name the sideband). -/
def State.lightDies (s : State) (absent : List Nat) : State :=
  let ranges := (s.flash.slot s.bundle.running).ranges
  (List.range 11).foldl
    (fun t d =>
      if absent.contains d || (t.die d).isolated then t.modDie d fun x => { x with state := .absent }
      else if inWindowOf ranges (t.die d) then t.modDie d fun x => { x with state := .lit }
      else
        (t.newCascade.modDie d fun x => { x with state := .heldDarkRevision }).raise
          { code := .dieHeldDark, threshold := .revision, value := (t.die d).rev
            unit := if d < 2 then dieUnit d else if d = 2 then deviceUnit else stackUnit (d - 3) })
    s

/-- The optical links of a die that is held dark carry nothing. -/
def State.darkenLinks (s : State) (d : Nat) : State :=
  { s with links := s.links.mapIdx fun k x =>
      if ((linkEnds k).1 = d ∨ (linkEnds k).2 = d) ∧ x.state ≠ .failed then { x with width := 0, state := .up } else x }

/-- A die is held dark for want of a common protocol version (step 5 of R52). -/
def State.holdProtocol (s : State) (d : Nat) : State :=
  ((s.newCascade.modDie d fun x => { x with state := .heldDarkProtocol }).darkenLinks d).raise
    { code := .dieHeldDark, threshold := .protocol, value := (s.die d).rev
      unit := if d < 2 then dieUnit d else stackUnit (d - 3) }

/-- Highest protocol version, minus one, that two dies share (step 4 of R52). -/
def commonProto (a b : Die) : Option Nat :=
  let m := (a.protoSupported &&& b.protoSupported).toNat
  ((List.range 16).reverse.find? fun i => bit m i)

/-- Negotiates the copper links and the CD–IOD links; a CD–IOD link without a common version holds its
compute die dark, a copper link its MBD. -/
def State.negotiate (s : State) : State :=
  let s1 := [1, 2].foldl
    (fun (t : State) k =>
      let e := linkEnds k
      if (t.die e.1).state = .lit ∧ (t.die e.2).state = .lit then
        match commonProto (t.die e.1) (t.die e.2) with
        | some v => t.modLink k fun x => { x with proto := v }
        | none => t.holdProtocol e.1
      else t) s
  let s2 := (List.range 8).foldl
    (fun (t : State) st =>
      let c := stackDie st
      if (t.die c).state = .lit ∧ (t.die (3 + st)).state = .lit then
        match commonProto (t.die c) (t.die (3 + st)) with
        | some v => { t with copper := modAt t.copper st fun x => { x with proto := v } }
        | none => t.holdProtocol (3 + st)
      else t) s1
  match commonProto (s2.die 0) (s2.die 1) with
  | some v => s2.modLink 0 fun x => { x with proto := v }
  | none => s2

/-- Both ends of an optical link are LIT. -/
def State.linkLit (s : State) (k : Nat) : Bool :=
  let e := linkEnds k
  (s.die e.1).state == .lit && (s.die e.2).state == .lit

/-- The rings of a trained lane: all LOCKED but the loop-back ring, which stays detuned (R18, R26). -/
def Lane.ringsLocked (l : Lane) : Lane :=
  if l.state = .retired then l
  else { l with rings := l.rings.mapIdx fun i r => { r with tuning := if i = loopRole then .off else .locked } }

/-- A link at its trained width; below the failure limit it is FAILED (R28). -/
def Link.trained (k w : Nat) (x : Link) : Link :=
  let sp := linkSpec k
  let y := { x with lanes := x.lanes.map Lane.ringsLocked }
  if w < sp.failedBelow then { y with width := 0, state := .failed }
  else { y with width := w, state := if w < sp.nominal then .degraded else .up }

/-- Step 3 of R52 for every link between LIT dies: its lanes, then its width. -/
def State.trainLinks (s : State) (tests : List LaneTest) : State :=
  (List.range 3).foldl
    (fun (t : State) k =>
      if t.linkLit k then
        let (u, w) := t.trainGroup tests (.die k 0)
        u.modLink k (Link.trained k w)
      else t) s

/-- LINK_CC joins two LIT dies that share no protocol version (step 5 of R52). -/
def State.ccUnspoken (s : State) : Bool := s.linkLit 0 && (commonProto (s.die 0) (s.die 1)).isNone

/-- The records of R28, one cascade over all links: retired lanes, then links that trained below their nominal
width, then FAILED links. `before` is the state as training began, `trained` as it ended. -/
def State.linkRecords (s before trained : State) : State :=
  let noProto := s.ccUnspoken
  let s1 := if noProto then s.modLink 0 fun x => { x with state := .failed, width := 0 } else s
  let s2 := [0, 1, 2].foldl (fun (t : State) k => t.raiseNewlyRetired before (.die k 0)) s1
  let s3 := [0, 1, 2].foldl
    (fun (t : State) k =>
      if (trained.link k).state = .degraded ∧ (t.link k).state ≠ .failed then
        t.raise { code := .linkDegraded, unit := { kind := .link, link := k }, threshold := .selfTest, value := (trained.link k).width }
      else t) s2
  [0, 1, 2].foldl
    (fun (t : State) k =>
      if (t.link k).state = .failed then
        t.raise { code := .linkFailed, unit := { kind := .link, link := k }
                  threshold := if k = 0 && noProto then .protocol else .selfTest }
      else t) s3

/-- Owner types of each capability bit: 1 compute die, 2 IOD, 3 MBD (R49). -/
def capOwners : List (List Nat) :=
  [[1], [1], [1], [1], [1], [1], [1], [1, 2, 3], [3], [3], [3], [3], [3], [1, 2], [2], [2], [2],
    [1, 2], [1, 2, 3], [2], [3]]

/-- FEATURE_FLOOR (R53). -/
def formFloor (dies : List Die) : BitVec 64 :=
  let lit := dies.filter fun d => d.state == .lit
  BitVec.ofNat 64 (maskOf 21 fun b =>
    lit.any (fun d => (capOwners.getD b []).contains d.dieType) && lit.all fun d => d.cap.getLsbD b)

/-- The key of a byte of a channel's reserve in stacked memory, and whether a key is one of the first `n` bytes there. -/
def inReserve (i n key : Nat) : Bool :=
  decide (key < 2 ^ 40) && key / 2 ^ 31 % 2 == 0 && decide (i / 64 ≤ key % 2 ^ 31) && decide (key % 2 ^ 31 < i / 64 + n)

/-- Zeros over bytes of stacked memory by key; the sectors that held them fail no more. -/
def State.wipe (s : State) (p : Nat → Bool) : State :=
  { s with mem := s.mem.filter fun c => !p c.1, badSectors := s.badSectors.filter fun k => !p k }

/-- The interleave that the boot puts in force. A change clears the region table and both copies of the commit area, and
overwrites what the new reserves cover (R425); they then hold zeros (DESIGN CHOICE, log 112). -/
def State.applyInterleave (s : State) : State :=
  let i := s.flash.policy.interleaveNext
  if i = s.flash.interleave then s
  else
    let old := s.commit.copies.map fun c => 32 * c.1 + c.2
    let t := (s.wipe fun k => old.contains (k / 2 ^ 32) && inReserve s.ileave commitBytes k).wipe (inReserve i reserveBytes)
    { t with
      flash := { t.flash with
        interleave := i
        protection := { t.flash.protection with regions := List.replicate 4096 none } }
      commit := {} }

/-- Stacks after self-refresh: REDIRECT, thresholds, scrub cycle and stage times (R449, R456). -/
def State.startStacks (s : State) : State :=
  { s with
    timerBase := [s.now, s.now]
    hbm := s.hbm.mapIdx fun st k =>
      { k with
        redirect := buildRedirect k.retiredChannels
        outOfService := k.channelsIn = 0
        selfRefresh := !(s.dieInService (stackDie st) && (s.die (3 + st)).state == .lit && !k.idInvalid && 0 < k.channelsIn)
        scrubStart := s.now, stageSince := s.now, lastSample := s.now } }

/-- Interleaved regions of a stack that has a retired pseudo-channel without a host are lost (step 3 of R456). -/
def State.loseUnhosted (s : State) : State :=
  (s.loseRegions fun r =>
    r.space == 0 && r.layout != 1 && decide (daSo r.base < s.ileave) && (s.stack (daStack r.base)).redirect.any fun e => e.2.isNone).1

/-- STACK_ID_INVALID for each stack whose data fail (R453). -/
def State.reportIds (s : State) : State :=
  (List.range 8).foldl
    (fun (t : State) st =>
      if (t.stack st).idInvalid && (t.die (3 + st)).state == .lit then
        t.newCascade.raise { code := .stackIdInvalid, unit := stackUnit st, threshold := .idData }
      else t) s

/-- The items of the boot self-test other than the loop-backs (R733); a warm boot skips the march tests. -/
def State.bootSelfTest (s : State) (cold : Bool) (rep : SelfTestReport) : State :=
  let s1 := s.testAllArrays rep.arrays
  let s2 := if cold then ((s1.testBanks rep.banks).testShared rep.sharedPages).testBeacon rep.beaconPages else s1
  let s3 := s2.testBsus rep.bsus
  if cold then s3.testBsus rep.bsuSram else s3

/-- Ports begin to train in parallel (R575, R729); P6 and P7 in the mode that the policy sets (R547). -/
def State.startPorts (s : State) : State :=
  { s with ports := s.ports.mapIdx fun n p =>
      { p with
        state := .training
        ethernet := decide (6 ≤ n) && s.floor.getLsbD 15 && s.flash.policy.ethernetMode.getLsbD (n - 6) } }

/-- The boot is complete: READY, or MAINTENANCE below minimum service; the warm record is written and
RAIL_FAULT cleared (R623, R652, R716, R740). -/
def State.bootComplete (s : State) (b : Boot) : State :=
  let v := s.flash.slot b.slot
  let warm := b.kind == .warm
  let p := s.pilot
  let s1 : State :=
    { s with
      dev := if s.givesService then .ready else .maintenance
      lamp := { s.lamp with maintReason := if s.givesService then .none else .belowMinimum }
      pilot := { p with
        boot := none, railFault := 0, lastBootOnMain := true, faultedSince := false, lastBootNs := s.now - p.wakeAt
        coldBoots := if warm then p.coldBoots else satAdd p.coldBoots 1
        warmBoots := if warm then satAdd p.warmBoots 1 else p.warmBoots
        warm := some { slot := b.slot, digest := v.digest, partDigests := v.partDigests, heaters := s.heaters
                       phyTraining := Config.phyTraining s.flash.bootCount } } }
  if s.givesService then s1 else s1.raise { code := .belowMinimum, unit := deviceUnit }

/-- Everything from the training of the links to READY or MAINTENANCE, in the order of R52. -/
def State.finishBoot (s : State) (b : Boot) (rep : SelfTestReport) : State :=
  let cold := b.kind != .warm
  let s0 := (s.applyInterleave.loadFaultLog cold).lightDies b.absentDies
  let s1 := s0.trainLinks rep.lanes
  let s2 := s1.negotiate.startStacks.loseUnhosted.takeArea.loadSweep.newCascade.linkRecords s0 s1
  let root := s2.events.cascade
  let s3 := s2.reportIds.bootSelfTest cold rep
  let s4 : State := { s3 with floor := formFloor s3.dies }
  let s5 := (((s4.startPorts.inCascade root).checkDie 0).checkDie 1).checkLinkCc
  ((s5.bootComplete b).inCascade none).settleRestores

/-- LINK_TRAINING_COMPLETE (R27, R52): the boot goes from the trained links to its end. -/
def execLinkTrainingComplete (rep : SelfTestReport) (s : State) : Host.Outcome State Fault Refusal :=
  match s.dev, s.pilot.boot with
  | .booting, some b => if b.partsDone then .next (s.finishBoot b rep) else .next s
  | _, _ => .next s

end Sys2Proof.Machine
end

