-- ==== Sys2Proof/Machine/Mailbox.lean ====
section
/-! DEFINITION. The mailboxes: submission, the checks of R621, responses and held results
(R607 to R622, R597, R598). -/

namespace Sys2Proof.Machine

/-! ### The command table (R627) -/

/-- Conflict classes of R622. -/
inductive CmdClass where
  | step | config | bundle
  deriving DecidableEq, Repr

/-- What the command table says of a command, with the payload lengths it accepts. -/
structure CmdSpec where
  opcode : Nat
  states : DevState → Bool
  owner : Bool := false
  cls : Option CmdClass := none
  /-- Served while DETACHED (R598), and by the recovery image (R687). -/
  detachedOk : Bool := false
  recovery : Bool := false
  lengthOk : Nat → Bool := fun n => n == 0

def litStates (d : DevState) : Bool := DevState.lit d

def readyOnly : DevState → Bool
  | .ready => true
  | .dark | .pilot | .booting | .maintenance | .running | .draining | .faulted => false

def maintReady : DevState → Bool
  | .maintenance | .ready => true
  | .dark | .pilot | .booting | .running | .draining | .faulted => false

def working : DevState → Bool
  | .maintenance | .ready | .running | .draining => true
  | .dark | .pilot | .booting | .faulted => false

def workingOrFaulted (d : DevState) : Bool := working d || d == .faulted

/-- Conflict class of an opcode (R627). -/
def opcodeClass (op : Nat) : Option CmdClass :=
  if op = 0x10 ∨ op = 0x20 ∨ op = 0x21 ∨ op = 0x24 ∨ op = 0x30 ∨ op = 0x31 then some .step
  else if op = 0x11 ∨ op = 0x12 ∨ op = 0x13 ∨ op = 0x14 then some .config
  else if op = 0x40 ∨ op = 0x41 then some .bundle
  else none

/-! ### Responses -/

/-- A result goes inline or to RESULT_ADDR, as many bytes as fit (R610); nothing reaches host memory
while the link is down (R597). -/
def State.placeResult (s : State) (r : Request) (result : List Byte) : State × List Byte × Bool × Bool :=
  let external := r.flags.getLsbD 1
  if external then
    let fit := result.take r.resultCapacity
    let s1 := if s.host.speed = 0 then s else s.hostWrite r.resultAddr.toNat fit
    (s1, [], decide (r.resultCapacity < result.length), true)
  else (s, result.take 1984, decide (1984 < result.length), false)

/-- Writes the response of mailbox `n`, sets its state and signals vector `n` (R613). While the command
is held for ATTACH (R597), the held entry takes its place. -/
def State.respondWith (s : State) (n : Nat) (final : Bool) (st : Status) (eventSeq : Nat) (result : List Byte) : State :=
  let m := s.mbox n
  match m.held.filter (·.running) with
  | some h =>
    s.modMbox n fun x => { x with held := some { h with
      status := st, resultLength := result.length, running := !final, result := sliceZ result 0 64 } }
  | none =>
    let (s1, inline, truncated, external) := s.placeResult m.request result
    let resp : Response :=
      { status := st, final := final, truncated := truncated, external := external
        sequence := m.request.sequence, opcode := m.opcode, resultLength := result.length
        eventSeq := eventSeq, inline := inline, front := sliceZ result 0 64 }
    (s1.modMbox n fun x => { x with response := resp, state := if final then .done else .pending }).signal n

/-- A FINAL response. An INTERNAL status raises INTERNAL_ERROR, which EVENT_SEQ names (R609, R667). -/
def State.respond (s : State) (n : Nat) (st : Status) (result : List Byte) : State :=
  if st = .internal then
    let s1 := s.raise { code := .internalError, unit := deviceUnit, status := .internal, value := (s.mbox n).opcode }
    s1.respondWith n true st s1.events.lastSeq result
  else s.respondWith n true st 0 result

/-- The PENDING response of a long command: a result of 8 bytes (R615). -/
def State.respondPending (s : State) (n value : Nat) : State := s.respondWith n false .pending 0 (leBytes 8 value)

/-- A request that fails a check of R621: FINAL with the status, and COMMANDS_REFUSED (R638). -/
def State.refuseWith (s : State) (n : Nat) (st : Status) (result : List Byte) : State :=
  ({ s with lamp := { s.lamp with commandsRefused := satAdd s.lamp.commandsRefused 1 } } : State).respond n st result

def State.refuse (s : State) (n : Nat) (st : Status) : State := s.refuseWith n st []

/-! ### The checks of R621 -/

/-- Check 2: header fields valid, reserved fields zero, lengths in range (R7, R608, R616). -/
def headerOk (spec : CmdSpec) (r : Request) : Bool :=
  let pe := r.flags.getLsbD 0
  let re := r.flags.getLsbD 1
  decide (r.flags.toNat < 4) && r.reserved == 0 && decide (r.role ≤ 1) &&
  (r.role == 1 || r.credential == 0) &&
  spec.lengthOk r.payloadLength && decide (r.payloadLength ≤ if pe then 65536 else 1984) &&
  (if pe then daSpace r.payloadAddr.toNat == 0xC else r.payloadAddr == 0) &&
  (if re then daSpace r.resultAddr.toNat == 0xC && r.resultAddr.toNat % 8 == 0
   else r.resultAddr == 0 && r.resultCapacity == 0)

/-- The digest of a credential (R617). -/
def credentialDigest (c : BitVec 128) : List Byte := shake256 (leBytes 16 c.toNat) 32

/-- The lockout of R620 is in effect. -/
def State.lockedOut (s : State) : Bool := (s.lamp.lockoutUntil.map fun t => decide (s.now < t)).getD false

/-- Counts a credential that fails; the sixteenth within 60 s locks OWNER requests out (R620). -/
def State.authFailed (s : State) : State :=
  let ts := s.now :: inWindow s.now minNs s.lamp.authFails
  let s1 : State := { s with lamp := { s.lamp with authFails := ts, authFailures := satAdd s.lamp.authFailures 1 } }
  if 16 ≤ ts.length then
    (({ s1 with lamp := { s1.lamp with lockoutUntil := some (s.now + minNs), authFails := [] } } : State).newCascade.raise
      { code := .ownerLockout, unit := deviceUnit }).inCascade none
  else s1

/-- Check 3: the role suffices (R616 to R620). Answers the state, changed by a failed credential. -/
def State.checkRole (s : State) (spec : CmdSpec) (r : Request) : State × Bool :=
  if r.role = 0 then (s, !spec.owner)
  else if s.lockedOut then (s, false)
  else
    match s.flash.ownerDigest with
    | none => (s, spec.opcode == 0x14)
    | some d => if credentialDigest r.credential = d then (s, true) else (s.authFailed, false)

/-- Check 6: another mailbox has a command of the class in progress (R622). -/
def State.conflicts (s : State) (n : Nat) (cls : Option CmdClass) : Bool :=
  match cls with
  | none => false
  | some c => (List.range 16).any fun i =>
    i != n && ((s.mbox i).state == .submitted || (s.mbox i).state == .pending ||
      ((s.mbox i).held.map (·.running)).getD false) && opcodeClass (s.mbox i).opcode == some c

/-- The payload: inline, or read through the host DMA windows; none when a window denies it (R608). -/
def State.payload (s : State) (r : Request) : Option (List Byte) :=
  if r.flags.getLsbD 0 then s.hostRead r.payloadAddr.toNat r.payloadLength
  else some (sliceZ r.payload 0 r.payloadLength)

/-- The windows let in the result (R608). -/
def State.resultOk (s : State) (r : Request) : Bool :=
  !r.flags.getLsbD 1 || s.hostAllowed true r.resultAddr.toNat r.resultCapacity

/-- Checks 2 to 7 of R621 in order: the state that the checks leave, and the payload or a status. -/
def State.checks (s : State) (n : Nat) (spec : CmdSpec) (r : Request) : State × Except Status (List Byte) :=
  if !headerOk spec r then (s, .error .badField)
  else
    let (s1, allowed) := s.checkRole spec r
    if !allowed then (s1, .error .notPrivileged)
    else if s1.host.detached && !spec.detachedOk then (s1, .error .wrongState)
    else if !spec.states s1.dev || (s1.bundle.running == .r && s1.dev != .booting && !spec.recovery) then (s1, .error .wrongState)
    else if s1.conflicts n spec.cls then (s1, .error .busy)
    else
      match s1.payload r with
      | none => (s1, .error .badField)
      | some p => if s1.resultOk r then (s1, .ok p) else (s1, .error .badField)

/-! ### Submission (R612, R614) -/

/-- The command of a mailbox was in progress at a link loss and still is (R597, R635). -/
def Mailbox.heldRunning (m : Mailbox) : Bool := (m.held.map (·.running)).getD false

/-- The mailbox takes a doorbell: no command of its own is in progress. -/
def Mailbox.open_ (m : Mailbox) : Bool := (m.state == .free || m.state == .done) && !m.heldRunning

/-- Lamplighter copies the request (R612) and counts it. -/
def State.submit (s : State) (n opcode : Nat) (r : Request) : State :=
  ({ s with lamp := { s.lamp with commands := satAdd s.lamp.commands 1 } } : State).modMbox n fun m =>
    { m with state := .submitted, opcode := opcode, request := r }

/-- A doorbell that is ignored (R612). -/
def State.overrun (s : State) : State :=
  { s with lamp := { s.lamp with doorbellOverruns := satAdd s.lamp.doorbellOverruns 1 } }

/-- Lamplighter takes doorbells: the IOD is lit, and its SRAM test has not failed (R604, R730). -/
def State.lampServes (s : State) : Bool := s.dev.lit && !s.lamp.dead

/-- A doorbell with a request of a listed command: refused by the first check that fails, else the
command's own checks and effect on its payload. -/
def State.command (s : State) (n : Nat) (spec : CmdSpec) (r : Request) (body : State → List Byte → State) : State :=
  if !s.lampServes then s
  else if !(s.mbox n).open_ then s.overrun
  else
    let (s1, res) := (s.newCascade.submit n spec.opcode r).checks n spec r
    (match res with
     | .error st => s1.refuse n st
     | .ok p => body s1 p).inCascade none

/-- Mailbox commands as meanings: mailbox 16 does not exist. -/
def onMailbox (n : Nat) (t : State) : Host.Outcome State Fault Refusal :=
  if n < 16 then .next t else .fault .noSuchUnit

/-! ### Rows without a command -/

/-- BAD_OPCODE (R621): a FINAL response with BAD_OPCODE and no other effect. -/
def execBadOpcode (n opcode : Nat) (r : Request) (s : State) : Host.Outcome State Fault Refusal :=
  onMailbox n
    (if !s.lampServes then s
     else if !(s.mbox n).open_ then s.overrun
     else (s.newCascade.submit n opcode r).refuse n .badOpcode)

/-- DOORBELL_OVERRUN (R612): a doorbell on a SUBMITTED or PENDING mailbox. -/
def execDoorbellOverrun (n : Nat) (s : State) : Host.Outcome State Fault Refusal :=
  onMailbox n (if s.lampServes && !(s.mbox n).open_ then s.overrun else s)

/-- OWNER_LOCKOUT_EXPIRY (R620). -/
def execOwnerLockoutExpiry (s : State) : Host.Outcome State Fault Refusal :=
  match s.lamp.lockoutUntil with
  | some t => .next { s.advanceTo t with lamp := { s.lamp with lockoutUntil := none } }
  | none => .next s

end Sys2Proof.Machine
end

