-- ==== Sys2Proof/Machine/Commands.lean ====
section
/-! DEFINITION. Mailbox commands that query, attach, read records, open a session, drain, abort, reset,
self-test and retire (R627 to R635, R659 to R661, R668, R734, R735, R753). -/

namespace Sys2Proof.Machine

/-! ### QUERY_IDENTITY (R46, R627) -/

/-- LINK_STATUS and the LANE_STATE words of a link entry (R51); a copper link has no lanes. SPARES_LEFT is the
number of SPARE lanes modulo 16 (DESIGN CHOICE, log 91: R51 gives four bits, and a deeply narrowed link may hold
more than 15 SPARE lanes). -/
def Link.statusWord (k : Link) : Nat :=
  k.width % 64 + (lanesIn k.lanes .spare).length % 16 * 2 ^ 6 + k.proto % 16 * 2 ^ 10 +
    k.state.code * 2 ^ 14 + (lanesIn k.lanes .retired).length % 64 * 2 ^ 16

/-- LANE_STATE_i: two bits a lane, sixteen lanes. -/
def Link.laneWord (k : Link) (i : Nat) : Nat :=
  (((k.lanes.drop (16 * i)).take 16).zipIdx.map fun e => e.1.state.code * 4 ^ e.2).sum

def Link.bytes16 (k : Link) : List Byte :=
  leBytes 4 k.statusWord ++ [0, 1, 2].flatMap fun i => leBytes 4 (k.laneWord i)

/-- DIE_REV, DIE_STATUS and DIE_CAP (R47 to R49). -/
def Die.bytes16 (d : Die) : List Byte :=
  leBytes 4 d.rev ++ leBytes 4 (d.state.code + d.protoSupported.toNat * 2 ^ 16) ++ leBytes 8 d.cap.toNat

/-- What an MBD reports of its core dies' identification data (R15, R449): whether they are valid, the WARN,
THROTTLE, HALT and refresh thresholds in degrees Celsius, and the activation threshold. Their place in the upper
half of the MBD's die entry is the model's (DESIGN CHOICE, log 92). -/
def Stack.idBytes (k : Stack) : List Byte :=
  leBytes 1 (bool01 (!k.idInvalid)) ++ ((List.range 4).flatMap fun i => leBytes 1 (k.thresh.getD i 0)) ++ zeros 3 ++
    leBytes 4 k.activationThreshold ++ zeros 4

/-- The upper half of a die entry. -/
def State.dieTail (s : State) (d : Nat) : List Byte := if d < 3 then zeros 16 else (s.stack (d - 3)).idBytes

/-- The package identity block (R46): 0x460 bytes. -/
def State.identityBlock (s : State) : List Byte :=
  leBytes 8 s.floor.toNat ++ zeros 0xF8 ++ (s.dies.mapIdx fun i d => d.bytes16 ++ s.dieTail i).flatten ++ zeros 0xA0 ++
    (s.links ++ s.copper).flatMap fun k => k.bytes16 ++ zeros 16

/-- The result of QUERY_IDENTITY: identity block, available tiles, unit identifier. -/
def State.identityResult (s : State) : List Byte :=
  s.identityBlock ++ leBytes 1 (s.availTiles 0) ++ leBytes 1 (s.availTiles 1) ++ zeros 6 ++
    leBytes 16 s.fuses.unitId.toNat

def specQueryIdentity : CmdSpec := { opcode := 0x01, states := litStates, detachedOk := true, recovery := true }

/-- QUERY_IDENTITY (R627). -/
def execQueryIdentity (n : Nat) (r : Request) (s : State) : Host.Outcome State Fault Refusal :=
  onMailbox n (s.command n specQueryIdentity r fun t _ => t.respond n .ok t.identityResult)

/-! ### QUERY_STATE and ATTACH (R634, R635) -/

def specQueryState : CmdSpec := { opcode := 0x02, states := litStates, detachedOk := true, recovery := true }

/-- QUERY_STATE (R634). -/
def execQueryState (n : Nat) (r : Request) (s : State) : Host.Outcome State Fault Refusal :=
  onMailbox n (s.command n specQueryState r fun t _ => t.respond n .ok t.stateRecord)

/-- DMA[c] of the ATTACH record. -/
def DmaChannel.attachBytes (c : DmaChannel) : List Byte :=
  match c.held with
  | some (i, st) => leBytes 2 i ++ leBytes 2 (Status.code st) ++ leBytes 1 1 ++ zeros 3
  | none => zeros 8

/-- HELD[n] of the ATTACH record. -/
def Mailbox.attachBytes (m : Mailbox) : List Byte :=
  match m.held with
  | some h =>
    leBytes 2 h.opcode ++ leBytes 2 (Status.code h.status) ++ leBytes 4 h.sequence.toNat ++
      leBytes 4 h.resultLength ++ leBytes 1 (1 + 2 * bool01 h.running) ++ zeros 3 ++ sliceZ h.result 0 64
  | none => zeros 80

/-- The 1,376-byte record of R635. -/
def State.attachRecord (s : State) : List Byte :=
  leBytes 1 (DevState.code s.dev) ++ leBytes 1 (bool01 s.host.detached + 2 * bool01 s.host.perstSeen) ++ zeros 6 ++
  leBytes 8 s.committedStep ++ leBytes 8 ((s.program.map (·.programId)).getD 0) ++ zeros 8 ++
  s.host.dma.flatMap DmaChannel.attachBytes ++ s.lamp.mailboxes.flatMap Mailbox.attachBytes

/-- A mailbox whose command still runs returns to PENDING; other held results have been delivered. -/
def Mailbox.attach (m : Mailbox) : Mailbox :=
  match m.held with
  | some h => if h.running then { m with state := .pending, held := none } else { m with held := none }
  | none => m

/-- ATTACH clears DETACHED and what was held. -/
def State.attached (s : State) : State :=
  { s with
    host := { s.host with
      detached := false, perstSeen := false, dma := s.host.dma.map fun c => { c with held := none } }
    lamp := { s.lamp with mailboxes := s.lamp.mailboxes.map Mailbox.attach } }

def specAttach : CmdSpec :=
  { opcode := 0x03, states := fun d => litStates d && d != .booting, detachedOk := true, recovery := true }

/-- The mailbox that carries ATTACH itself keeps its request: what was held of it is in the record. -/
def State.dropHeld (s : State) (n : Nat) : State := s.modMbox n fun m => { m with held := none }

/-- ATTACH (R598, R635). -/
def execAttach (n : Nat) (r : Request) (s : State) : Host.Outcome State Fault Refusal :=
  onMailbox n (s.command n specAttach r fun t _ =>
    let record := s.attachRecord
    ((t.dropHeld n).attached).respond n .ok record)

/-! ### READ_TELEMETRY and READ_EVENTS (R668, R753) -/

/-- The result of R753: header and records from a sequence number. -/
def State.telemetryResult (s : State) (fromSeq maxRecords : Nat) : List Byte × Nat :=
  let oldest := (s.tele.ring.head?.map (·.1)).getD s.tele.nextSeq
  let rs := (s.tele.ring.filter fun e => decide (fromSeq ≤ e.1)).take maxRecords
  let lost := min maxRecords (oldest - fromSeq)
  let next := match rs.getLast? with
    | some e => e.1 + 1
    | none => max fromSeq s.tele.nextSeq
  (leBytes 8 next ++ leBytes 2 rs.length ++ leBytes 2 lost ++ zeros 4 ++ rs.flatMap (·.2), next)

def specReadTelemetry : CmdSpec :=
  { opcode := 0x04, states := workingOrFaulted, recovery := true, lengthOk := fun k => k == 16 }

/-- READ_TELEMETRY (R753). -/
def execReadTelemetry (n : Nat) (r : Request) (s : State) : Host.Outcome State Fault Refusal :=
  onMailbox n (s.command n specReadTelemetry r fun t p =>
    let max := field p 8 2
    let flags := field p 10 1
    let th := field p 12 2
    if max = 0 ∨ 2048 < max ∨ 1 < flags ∨ field p 11 1 ≠ 0 ∨ field p 14 2 ≠ 0 ∨
        (flags = 1 ∧ (th = 0 ∨ 2047 < th)) then t.refuse n .badField
    else
      let (res, next) := t.telemetryResult (field p 0 8) max
      let limit := if flags = 1 then th else t.tele.threshold
      let u : State := { t with
        tele := { t.tele with
          cursor := next, threshold := limit, signalled := t.tele.signalled && decide (limit < t.tele.nextSeq - next) } }
      u.respond n .ok res)

/-- The result of R668 from a ring. -/
def eventsResult (ring : List EventRecord) (nextSeq fromSeq maxRecords : Nat) : List Byte :=
  let rs := (ring.filter fun e => decide (fromSeq ≤ e.seq)).take maxRecords
  let first := (rs.head?.map (·.seq)).getD (max fromSeq nextSeq)
  let next := match rs.getLast? with
    | some e => e.seq + 1
    | none => max fromSeq nextSeq
  leBytes 8 next ++ leBytes 2 rs.length ++ leBytes 2 (bool01 (decide (fromSeq < first))) ++ zeros 4 ++
    rs.flatMap EventRecord.bytes

/-- Acknowledges every record below a sequence number, in both rings. -/
def State.acknowledge (s : State) (seq : Nat) : State :=
  let ack := List.map fun (e : EventRecord) => if e.seq < seq then { e with acknowledged := true } else e
  { s with
    events := { s.events with ring := ack s.events.ring }
    flash := { s.flash with eventRing := ack s.flash.eventRing } }

def specReadEvents : CmdSpec :=
  { opcode := 0x05, states := workingOrFaulted, recovery := true, lengthOk := fun k => k == 16 }

/-- READ_EVENTS (R668). -/
def execReadEvents (n : Nat) (r : Request) (s : State) : Host.Outcome State Fault Refusal :=
  onMailbox n (s.command n specReadEvents r fun t p =>
    let max := field p 8 2
    let flags := field p 10 1
    if max = 0 ∨ 1024 < max ∨ 3 < flags ∨ field p 11 5 ≠ 0 then t.refuse n .badField
    else
      let fromSeq := field p 0 8
      let u := if bit flags 0 then t.acknowledge fromSeq else t
      let ring := if bit flags 1 then u.flash.eventRing else u.events.ring
      u.respond n .ok (eventsResult ring u.events.nextSeq fromSeq max))

/-! ### OPEN_SESSION (R531, R628) -/

/-- HELLO of a port (R529, R542). -/
def State.helloPacket (s : State) (port : Nat) : Packet :=
  let p := s.packet 0x30 4
  let topology : List Byte := match s.session with
    | some x => x.topology
    | none => zeros 64
  { p with
    flags := 0x24#8
    address := BitVec.ofNat 64 (s.rank % 16384 + port * 2 ^ 16)
    payload := topology }.sealed

/-- Begins a HELLO exchange on a port. A device without a session has no rank and no key to give: it is silent
(DESIGN CHOICE). -/
def State.sendHello (s : State) (n : Nat) : State :=
  if s.session.isNone then s
  else
    (s.modPort n fun p => { p with helloSent := true, helloReceived := p.helloOwed, helloOwed := false }).sendOn n false
      (s.helloPacket n)

/-- Ports of the map that are FAILED, MISWIRED or silent. -/
def State.portsBad (s : State) : Nat :=
  maskOf 8 fun n => s.torcorPorts.contains n &&
    ((s.port n).state == .failed || (s.port n).state == .miswired || !(s.port n).helloReceived)

/-- HELLO has been exchanged on every port of the map. -/
def State.helloDone (s : State) : Bool := s.torcorPorts.all fun n => (s.port n).helloReceived

/-- The result of OPEN_SESSION. -/
def State.sessionResult (s : State) : List Byte := leBytes 1 s.portsMask ++ leBytes 1 s.portsBad ++ zeros 6

/-- OPEN_SESSION completes. -/
def State.finishSession (s : State) : State :=
  match s.lamp.helloWait with
  | some n => ({ s with lamp := { s.lamp with helloWait := none } } : State).respond n .ok s.sessionResult
  | none => s

/-- OPEN_SESSION completes when every mapped port has answered. -/
def State.checkHello (s : State) : State := if s.lamp.helloWait.isSome && s.helloDone then s.finishSession else s

/-- The map uses a port that runs Ethernet, by the policy or by its mode now. -/
def State.ethernetClash (s : State) (ports : List Nat) : Bool :=
  ports.any fun n => (s.port n).ethernet || (decide (6 ≤ n) && s.flash.policy.ethernetMode.getLsbD (n - 6))

def specOpenSession : CmdSpec :=
  { opcode := 0x10, states := readyOnly, cls := some .step, lengthOk := fun k => k == 96 }

/-- OPEN_SESSION (R628). -/
def execOpenSession (n : Nat) (r : Request) (s : State) : Host.Outcome State Fault Refusal :=
  onMailbox n (s.command n specOpenSession r fun t p =>
    let topo := slice p 0x20 64
    let d := topoOf topo
    let rank := field p 0x18 2
    if field p 0x1A 6 ≠ 0 ∨ !d.valid ∨ d.devices ≤ rank ∨ t.ethernetClash (d.ports rank) ∨
        !t.flash.protection.keys.contains (BitVec.ofNat 64 d.key) then t.refuse n .badField
    else
      let x : Session :=
        { jobId := field p 0 8, seed := field p 8 8, firstStep := field p 0x10 8, rank := rank, topology := topo }
      let u : State := { t.unloadProgram with
        session := some x, lamp := { t.lamp with helloWait := some n }
        beacon := { t.beacon with tokens := [], early := [] } }
      (u.torcorPorts.foldl State.sendHello u).checkHello)

/-- OPEN_SESSION_HELLO_TIMEOUT (R628): 100 ms have passed. -/
def execOpenSessionHelloTimeout (s : State) : Host.Outcome State Fault Refusal := .next s.finishSession

/-! ### SET_CREDENTIAL, ABORT_STEP, DRAIN, RESUME, RESET_DEVICE -/

def specSetCredential : CmdSpec :=
  { opcode := 0x14, states := maintReady, owner := true, cls := some .config, recovery := true
    lengthOk := fun k => k == 16 }

/-- SET_CREDENTIAL (R618, R619). -/
def execSetCredential (n : Nat) (r : Request) (s : State) : Host.Outcome State Fault Refusal :=
  onMailbox n (s.command n specSetCredential r fun t p =>
    ({ t with flash := { t.flash with ownerDigest := some (shake256 p 32) } } : State).respond n .ok [])

def specAbortStep : CmdSpec :=
  { opcode := 0x22, states := fun d => d == .running || d == .draining, lengthOk := fun k => k == 8 }

/-- ABORT_STEP (R632). -/
def execAbortStep (n : Nat) (r : Request) (s : State) : Host.Outcome State Fault Refusal :=
  onMailbox n (s.command n specAbortStep r fun t p =>
    match t.run with
    | none => t.refuse n .badField
    | some x =>
      if field p 0 8 ≠ x.k then t.refuse n .badField
      else if x.committed then t.respond n .ok (leBytes 8 1)
      else
        (t.abortStep { status := .stepSkipped, kind := 5, detail := leBytes 1 3 }).respond n .ok (leBytes 8 0))

def specDrain : CmdSpec :=
  { opcode := 0x23, states := fun d => d == .ready || d == .running, lengthOk := fun k => k == 8 }

/-- DRAIN (R629): in RUNNING it completes at the step's end. -/
def execDrain (n : Nat) (r : Request) (s : State) : Host.Outcome State Fault Refusal :=
  onMailbox n (s.command n specDrain r fun t p =>
    let target := field p 0 1
    if 1 < target ∨ field p 1 7 ≠ 0 then t.refuse n .badField
    else if t.dev = .ready then
      let u := t.respondPending n 0
      if target = 0 then u.respond n .ok []
      else ({ u with dev := .maintenance, lamp := { u.lamp with maintReason := .requested } } : State).respond n .ok []
    else
      ({ t with dev := .draining, lamp := { t.lamp with drain := some (n, target == 1) } } : State).respondPending n 0)

def specResume : CmdSpec :=
  { opcode := 0x24, states := fun d => d == .maintenance, cls := some .step }

/-- RESUME (R627). -/
def execResume (n : Nat) (r : Request) (s : State) : Host.Outcome State Fault Refusal :=
  onMailbox n (s.command n specResume r fun t _ =>
    if t.givesService then
      ({ t with dev := .ready, lamp := { t.lamp with maintReason := .none } } : State).respond n .ok []
    else t.refuse n .unitRetired)

def specResetDevice : CmdSpec := { opcode := 0xF0, states := litStates, recovery := true }

/-- RESET_DEVICE (R627): OK is written, then the whole device resets. -/
def execResetDevice (n : Nat) (r : Request) (s : State) : Host.Outcome State Fault Refusal :=
  onMailbox n (s.command n specResetDevice r fun t _ => (t.respond n .ok []).resetDevice)

/-! ### SELF_TEST (R734, R735) -/

/-- Every lane in the order of the result: the links, then the ports. -/
def allLanes : List LaneRef :=
  (List.range 3).flatMap (fun k => (List.range (linkLaneCount k)).map (LaneRef.die k)) ++
    (List.range 8).flatMap fun n => (List.range 5).map (LaneRef.port n)

/-- A lane out of the active set is looped back: a failing SPARE becomes SUSPECT (R27, R64). -/
def State.selfTestLane (s : State) (tests : List LaneTest) (r : LaneRef) : State :=
  let l := s.lane r
  if l.state = .spare ∨ l.state = .suspect then
    let t := laneReport tests r
    let s1 := s.noteLoop r t
    if loopFails r t && l.state == .spare then
      (s1.modLane r fun x => { x.enter s.now .suspect with backgroundDue := some (s.now + minNs) }).logAppend
        (laneUnit r) .suspect
    else s1
  else s

def testCode : TestResult → Nat
  | .pass => 0 | .marginal => 1 | .fail => 2 | .notTested => 3

def stageCode : LoopStage → Nat
  | .electrical => 0 | .optical => 1

/-- A lane entry of the result. -/
def State.laneEntry (s : State) (r : LaneRef) : List Byte :=
  let l := s.lane r
  let (kind, link) := match r with
    | .die k _ => (1, k)
    | .port n _ => (2, n)
  leBytes 1 kind ++ leBytes 1 link ++ leBytes 1 (laneOf r) ++ leBytes 1 (testCode l.test) ++
    leBytes 1 (stageCode l.testStage) ++ zeros 3 ++ leBytes 8 l.testedNs

/-- Whether a tile is tested: it is available. -/
def State.tested (s : State) (d p : Nat) : Bool := tileExists d p && (s.tile d p).state == .available

/-- Runs the items of SCOPE in the order of their bits, and evaluates minimum service. -/
def State.runSelfTest (s : State) (scope : Nat) (rep : SelfTestReport) : State :=
  let s1 := if bit scope 0 then allLanes.foldl (fun t r => t.selfTestLane rep.lanes r) s else s
  let s2 := if bit scope 1 then s1.testAllArrays rep.arrays else s1
  let s3 := if bit scope 2 then
      (((List.range 100).filter fun i => s2.tested (i / 50) (i % 50)).foldl
        (fun t i => t.scramble (i / 50) (i % 50)) s2).testBanks rep.banks
    else s2
  let s4 := if bit scope 3 then s3.testBsus rep.bsus else s3
  (s4.advanceTo (s.now + rep.durationNs)).serviceNow

/-- The result of SELF_TEST: the header and 128 lane entries. -/
def selfTestResult (before after : State) (scope : Nat) (rep : SelfTestReport) : List Byte :=
  let failedTiles := fun (t : State) => (t.tiles.filter fun x => x.state == .selfTestFailed).length
  let retiredBsus := fun (t : State) => (t.hbm.map fun k => (k.channels.filter (·.retired)).length).sum
  let arrays := if bit scope 1 then (rep.arrays.filter fun e => before.tested e.1 e.2.1).length else 0
  let banks := if bit scope 2 then (rep.banks.filter fun e => before.tested e.1 e.2.1).length else 0
  let first := if before.events.nextSeq = after.events.nextSeq then ones64 else before.events.nextSeq
  leBytes 1 scope ++ zeros 1 ++ leBytes 2 128 ++ leBytes 2 arrays ++
    leBytes 1 (failedTiles after - failedTiles before) ++
    leBytes 1 (if bit scope 3 then retiredBsus after - retiredBsus before else 0) ++ leBytes 2 banks ++ zeros 6 ++
    leBytes 8 rep.durationNs ++ leBytes 8 first ++ allLanes.flatMap after.laneEntry

def specSelfTest : CmdSpec :=
  { opcode := 0x30, states := maintReady, cls := some .step, lengthOk := fun k => k == 8 }

/-- SELF_TEST (R734). -/
def execSelfTest (n : Nat) (r : Request) (rep : SelfTestReport) (s : State) : Host.Outcome State Fault Refusal :=
  onMailbox n (s.command n specSelfTest r fun t p =>
    let scope := field p 0 1
    if scope = 0 ∨ 15 < scope ∨ field p 1 7 ≠ 0 then t.refuse n .badField
    else
      let u := t.respondPending n 0
      let v := u.runSelfTest scope rep
      v.respond n .ok (selfTestResult u v scope rep))

/-! ### RETIRE_UNIT (R658 to R661) -/

/-- The unit address of eight bytes; none for an unknown KIND or a reserved byte that is not zero. -/
def unitOfBytes (b : List Byte) : Option UnitAddr :=
  if field b 3 1 = 0 ∧ field b 7 1 = 0 then
    (unitKindOf (field b 0 1)).map fun k =>
      { kind := k, die := field b 1 1, link := field b 2 1, index := field b 4 2, sub := field b 6 1 }
  else none

/-- A unit that RETIRE_UNIT may name (R658, R659). A fused-off position is none. -/
def State.retirable (s : State) (u : UnitAddr) : Bool :=
  match u.kind with
  | .dieLane => u.link < 3 && u.index < linkLaneCount u.link && u.die == (linkEnds u.link).1 && u.sub == 0
  | .portLane => u.link < 8 && u.index < 5 && u.die == 0 && u.sub == 0
  | .array => u.link == 0 && tileExists u.die u.index && (s.tile u.die u.index).state != .fusedOff && u.sub < 17
  | .tile => u.link == 0 && tileExists u.die u.index && (s.tile u.die u.index).state != .fusedOff && u.sub == 0
  | .channel => u.link == 0 && u.die < 8 && u.index < 32 && u.sub == 0
  | .sharedPage => u.link == 0 && u.die < 2 && u.index < 12288 && u.sub == 0
  | .none | .stack | .computeDie | .port | .link | .beaconPage | .bsu | .device => false

/-- The lane that a unit address names. -/
def laneOfUnit (u : UnitAddr) : LaneRef :=
  match u.kind with
  | .portLane => .port u.link u.index
  | .dieLane | .none | .array | .tile | .channel | .stack | .computeDie | .port | .link | .sharedPage
  | .beaconPage | .bsu | .device => .die u.link u.index

/-- The unit is retired already. -/
def State.unitRetired (s : State) (u : UnitAddr) : Bool :=
  match u.kind with
  | .dieLane | .portLane => (s.lane (laneOfUnit u)).state == .retired
  | .array => (s.tile u.die u.index).arrayRetired.getLsbD u.sub || (s.tile u.die u.index).state != .available
  | .tile => (s.tile u.die u.index).state != .available
  | .channel => (s.channel u.die u.index).retired
  | .sharedPage => s.sharedRetired.contains (u.die, u.index)
  | .none | .stack | .computeDie | .port | .link | .beaconPage | .bsu | .device => false

/-- RETIRE takes effect at once, with threshold MANUAL (R660). -/
def State.retireUnit (s : State) (u : UnitAddr) : State :=
  match u.kind with
  | .dieLane | .portLane => s.retireLane (laneOfUnit u) .manual
  | .array => s.retireArray u.die u.index u.sub .manual
  | .tile => s.retireTile u.die u.index .manual
  | .channel => s.retireChannel u.die u.index .manual
  | .sharedPage => s.retireSharedPage u.die u.index .manual
  | .none | .stack | .computeDie | .port | .link | .beaconPage | .bsu | .device => s

/-- The result of RETIRE_UNIT: EFFECTIVE, and the SEQ of the first record that the command raised. -/
def retireResult (effective seq : Nat) : List Byte := leBytes 1 effective ++ zeros 3 ++ leBytes 4 seq

def specRetireUnit : CmdSpec :=
  { opcode := 0x31, states := maintReady, owner := true, cls := some .step, lengthOk := fun k => k == 16 }

/-- The payload's checks, then one of the two actions. `action` is the row's: the payload says the same. -/
def State.retireCommand (s : State) (n action : Nat) (p : List Byte) : State :=
  let act := if field p 0 1 ≤ 1 then action else field p 0 1
  match unitOfBytes (slice p 8 8) with
  | none => s.refuse n .badField
  | some u =>
    if 1 < act ∨ field p 1 7 ≠ 0 ∨ !s.retirable u then s.refuse n .badField
    else if act = 0 then
      if s.unitRetired u then s.refuse n .unitRetired
      else (s.retireUnit u).respond n .ok (retireResult 0 s.events.nextSeq)
    else if !s.unitRetired u then s.refuse n .badField
    else
      ((s.logAppend u .restore).raise { code := .unitRestorePending, unit := u }).respond n .ok
        (retireResult 1 s.events.nextSeq)

/-- RETIRE_UNIT with ACTION RETIRE (R660). -/
def execRetireUnitRetire (n : Nat) (r : Request) (s : State) : Host.Outcome State Fault Refusal :=
  onMailbox n (s.command n specRetireUnit r fun t p => t.retireCommand n 0 p)

/-- RETIRE_UNIT with ACTION RESTORE (R661). -/
def execRetireUnitRestore (n : Nat) (r : Request) (s : State) : Host.Outcome State Fault Refusal :=
  onMailbox n (s.command n specRetireUnit r fun t p => t.retireCommand n 1 p)

end Sys2Proof.Machine
end

