-- ==== Sys2Proof/Machine/Protection.lean ====
section
/-! DEFINITION. The Owner's commands on the protection set-up and the policies: SET_PROTECTION, MAP_REGION
and SET_POLICY (R636, R691 to R699), and the check on each policy item. -/

namespace Sys2Proof.Machine

/-! ### The region table (R692, R693) -/

/-- An entry of 32 bytes, and whether its reserved bits are zero. STATUS is read back only. -/
def regionOfBytes (b : List Byte) : Region × Bool :=
  ({ base := field b 0 8, size := field b 8 8, space := field b 0x10 1, stackMask := field b 0x11 1
     layout := field b 0x12 1, compression := field b 0x13 1, rights := BitVec.ofNat 5 (field b 0x14 1)
     tag := field b 0x18 8 },
   field b 0x14 1 < 32 && field b 0x16 2 == 0)

/-- An entry as it reads back. -/
def State.regionBytes (s : State) : Option Region → List Byte
  | none => zeros 32
  | some r =>
    leBytes 8 r.base ++ leBytes 8 r.size ++ leBytes 1 r.space ++ leBytes 1 r.stackMask ++ leBytes 1 r.layout ++
      leBytes 1 r.compression ++ leBytes 1 r.rights.toNat ++ leBytes 1 (bool01 (!s.regionAbsent r) + 2 * bool01 r.lost) ++ zeros 2 ++
      leBytes 8 r.tag

/-- The ranges of device addresses that an entry covers: one, or one a channel (R433). -/
def Region.pieces (i : Nat) (r : Region) : List (Nat × Nat) :=
  if r.layout = 1 then
    let clo := (cloOf i (daSo r.base)).2
    ((List.range 8).filter fun st => bit r.stackMask st).flatMap fun st =>
      (List.range 32).map fun ch => (cloAddr i st ch clo, r.size)
  else [(r.base, r.size)]

/-- Two entries share a byte. -/
def Region.meets (i : Nat) (a b : Region) : Bool :=
  (a.pieces i).any fun p => (b.pieces i).any fun q => overlaps p.1 p.2 q.1 q.2

/-- A range of space 0x8 lies in one tile of one view, whose position is not fused off (R196). -/
def State.tileRange (s : State) (a n : Nat) : Bool :=
  let die := bits a 32 32
  let t := bits a 29 24
  bits a 39 33 == 0 && !bit a 30 && bits a 23 21 == 0 && a % 2 ^ 24 + n ≤ tileBytes &&
    (if bit a 31 then decide (t < 48) else tileExists die t && (s.tile die t).state != .fusedOff)

/-- A range lies wholly within its space, at addresses that are assigned. -/
def State.spaceRange (s : State) (r : Region) : Bool :=
  match r.space with
  | 0 => decide (daSo r.base + r.size ≤ 2 ^ 37)
  | 8 => s.tileRange r.base r.size
  | 9 => bits r.base 39 33 == 0 && r.base % 2 ^ 32 + r.size ≤ sharedBytes
  | 0xC => decide (r.base % 2 ^ 40 + r.size ≤ 2 ^ 40)
  | _ => false

/-- A linear range of a stack stays in one part, and off every system reserve (R427). -/
def linearOk (i so n : Nat) : Bool :=
  if so < i then decide (so + n ≤ i)
  else (List.range 32).all fun ch => !overlaps so n (i + ch * (2 * slabZ i)) reserveBytes

/-- A CHANNEL_SLAB entry: BASE in channel 0 of the lowest stack, its range in the channel-local range of a
channel and above the reserve. -/
def slabOk (i : Nat) (r : Region) : Bool :=
  let so := daSo r.base
  let low := (List.range 8).find? fun st => bit r.stackMask st
  low == some (daStack r.base) && i ≤ so && i + reserveBytes ≤ so && so - i + r.size ≤ 2 * slabZ i

/-- The first, second, third and fifth case of R693, and the fields of R692. -/
def State.regionValid (s : State) (r : Region) : Bool :=
  let i := s.ileave
  r.base % 4096 == 0 && 0 < r.size && r.size % 4096 == 0 && r.base < 2 ^ 44 && r.space == daSpace r.base &&
  r.layout < 2 && r.compression < 3 && r.stackMask < 256 && s.spaceRange r &&
  (if r.layout = 1 then r.space == 0 && r.stackMask != 0 && slabOk i r
   else r.stackMask == 0 && (r.space != 0 || linearOk i (daSo r.base) r.size))

/-- A byte of an entry is unavailable (R424, R456). -/
def State.regionUnavailable (s : State) (r : Region) : Bool :=
  r.space == 0 && (r.pieces s.ileave).any fun p => s.unavailable p.1 p.2

/-- An operation of MAP_REGION: the index, and the entry that stands there after it. -/
structure MapOp where
  index : Nat
  entry : Option Region
  deriving DecidableEq, Repr

/-- One operation of 40 bytes (R696), none when a field is invalid. -/
def State.mapOp (s : State) (b : List Byte) : Option MapOp :=
  let op := field b 2 1
  let (r, reservedZero) := regionOfBytes (slice b 8 32)
  if 4096 ≤ field b 0 2 ∨ 1 < op ∨ field b 3 5 ≠ 0 ∨ !reservedZero then none
  else if op = 1 then
    if allZero (slice b 8 32) then some { index := field b 0 2, entry := none } else none
  else if s.regionValid r then some { index := field b 0 2, entry := some r }
  else none

/-- The operations of a payload. -/
def State.mapOps (s : State) (p : List Byte) (count : Nat) : Option (List MapOp) :=
  (List.range count).mapM fun j => s.mapOp (slice p (8 + 40 * j) 40)

/-- The table after operations, in order. -/
def applyMapOps (t : List (Option Region)) (ops : List MapOp) : List (Option Region) :=
  ops.foldl (fun t o => t.set o.index o.entry) t

/-- No entry that an operation set overlaps another of the table. -/
def State.tableDisjoint (s : State) (t : List (Option Region)) (ops : List MapOp) : Bool :=
  ops.all fun o =>
    match t.getD o.index none with
    | none => true
    | some r => (t.zipIdx).all fun e =>
      e.2 == o.index || match e.1 with
        | none => true
        | some q => !r.meets s.ileave q

/-- A change of the protection set-up applies at one instant, and the epoch rises by 1 (R698). -/
def State.newProtection (s : State) (p : Protection) : State :=
  { s with flash := { s.flash with protection := { p with epoch := (p.epoch + 1) % 2 ^ 64 } } }

def specMapRegion : CmdSpec :=
  { opcode := 0x12, states := working, owner := true, cls := some .config, lengthOk := fun k => decide (8 ≤ k) }

/-- MAP_REGION (R696): all of the operations or none. -/
def execMapRegion (n : Nat) (r : Request) (s : State) : Host.Outcome State Fault Refusal :=
  onMailbox n (s.command n specMapRegion r fun t p =>
    let count := field p 0 2
    let limit := if r.flags.getLsbD 0 then 1638 else 48
    if count = 0 ∨ limit < count ∨ field p 2 6 ≠ 0 ∨ p.length ≠ 8 + 40 * count then t.refuse n .badField
    else
      match t.mapOps p count with
      | none => t.refuse n .badField
      | some ops =>
        let table := applyMapOps t.flash.protection.regions ops
        if !t.tableDisjoint table ops then t.refuse n .badField
        else if ops.any fun o => (o.entry.map t.regionUnavailable).getD false then t.refuse n .unitRetired
        else
          let u := t.newProtection { t.flash.protection with regions := table }
          u.respond n .ok (leBytes 8 u.flash.protection.epoch))

/-! ### SET_PROTECTION (R697) -/

/-- A window of 32 bytes; none when a field is invalid. -/
def windowOfBytes (b : List Byte) : Option Window :=
  let w := field b 0 8
  let size := field b 0x10 8
  let rights := field b 0x18 1
  if daSpace w = 0xC ∧ w % 4096 = 0 ∧ field b 8 8 % 4096 = 0 ∧ 0 < size ∧ size % 4096 = 0 ∧ rights < 4 ∧
      field b 0x19 7 = 0 ∧ w % 2 ^ 40 + size ≤ 2 ^ 40 then
    some { base := w, hostBase := field b 8 8, size := size, read := bit rights 0, write := bit rights 1 }
  else none

/-- Pairwise: no two elements are related. -/
def noPair {α : Type} (rel : α → α → Bool) : List α → Bool
  | [] => true
  | a :: l => l.all (fun b => !rel a b) && noPair rel l

def specSetProtection : CmdSpec :=
  { opcode := 0x11, states := working, owner := true, cls := some .config, lengthOk := fun k => decide (8 ≤ k) }

/-- The windows of a payload. -/
def windowsOf (p : List Byte) (count : Nat) : Option (List Window) :=
  (List.range count).mapM fun i => windowOfBytes (slice p (8 + 32 * i) 32)

/-- The keys of a payload that follow its windows. -/
def keysOf (p : List Byte) (windows count : Nat) : List (BitVec 64) :=
  (List.range count).map fun i => BitVec.ofNat 64 (field p (8 + 32 * windows + 8 * i) 8)

/-- SET_PROTECTION (R697): windows and keys, all at once. -/
def execSetProtection (n : Nat) (r : Request) (s : State) : Host.Outcome State Fault Refusal :=
  onMailbox n (s.command n specSetProtection r fun t p =>
    let wc := field p 0 2
    let kc := field p 2 2
    if 64 < wc ∨ 16 < kc ∨ field p 4 4 ≠ 0 ∨ p.length ≠ 8 + 32 * wc + 8 * kc then t.refuse n .badField
    else
      match windowsOf p wc with
      | none => t.refuse n .badField
      | some ws =>
        let keys := keysOf p wc kc
        let sessionKey := match t.topo with
          | some d => keys.contains (BitVec.ofNat 64 d.key)
          | none => true
        if !noPair (fun a b => overlaps a.base a.size b.base b.size) ws || keys.contains 0 || !noPair (· == ·) keys ||
            !sessionKey then t.refuse n .badField
        else
          let u := t.newProtection { t.flash.protection with windows := ws, keys := keys }
          u.respond n .ok (leBytes 8 u.flash.protection.epoch))

/-- A window slot as it reads back. -/
def windowBytes (w : Window) : List Byte :=
  leBytes 8 w.base ++ leBytes 8 w.hostBase ++ leBytes 8 w.size ++ leBytes 1 (bool01 w.read + 2 * bool01 w.write) ++
    zeros 7

/-- PROTECTION_DIGEST (R699). -/
def State.protectionDigest (s : State) : List Byte :=
  let p := s.flash.protection
  shake256 (p.regions.flatMap s.regionBytes ++ p.windows.flatMap windowBytes ++ zeros (32 * (64 - p.windows.length)) ++
    p.keys.flatMap (fun k => leBytes 8 k.toNat) ++ zeros (8 * (16 - p.keys.length))) 64

/-! ### SET_POLICY (R636) -/

/-- Items of a payload: ITEM and VALUE, the VALUE padded with zeros to a multiple of 8. -/
def policyItems : Nat → List Byte → Option (List (Nat × List Byte))
  | 0, b => if b.isEmpty then some [] else none
  | fuel + 1, b =>
    if b.isEmpty then some []
    else
      let len := field b 2 2
      let stop := 4 + roundUp len 8
      if b.length < stop ∨ !allZero (slice b (4 + len) (stop - 4 - len)) then none
      else (policyItems fuel (b.drop stop)).map ((field b 0 2, slice b 4 len) :: ·)

/-- An FP32 value between two positive bounds. -/
def fp32Between (lo hi v : Nat) : Bool := decide (lo ≤ v) && decide (v ≤ hi)

/-- The bounds of R29, rounded to FP32: 10⁻⁹, 10⁻⁷, 10⁻⁶ and 10⁻⁴. -/
def ber1e9 : Nat := 0x3089705F
def ber1e7 : Nat := 0x33D6BF95
def ber1e6 : Nat := 0x358637BD
def ber1e4 : Nat := 0x38D1B717

/-- The items that are accepted in MAINTENANCE and READY only. -/
def itemMaintReady (item : Nat) : Bool := item == 0x0B || item == 0x0D || item == 0x0E || item == 0x0F || item == 0x10

/-- Length of an item's VALUE; none for an item that is not listed. -/
def itemLength (item : Nat) : Option Nat :=
  if (1 ≤ item ∧ item ≤ 9) ∨ item = 0x11 then some 4
  else if item = 0x0A then some 3
  else if item = 0x0B ∨ item = 0x0C ∨ item = 0x0D then some 1
  else if item = 0x0E then some 28
  else if item = 0x0F then some 16
  else if item = 0x10 then some 48
  else none

/-- A port that the Ethernet items may name. -/
def ethPort (n : Nat) : Bool := n == 6 || n == 7

/-- Replaces the element with the same key, or appends it. -/
def upsert {α : Type} (key : α → Nat) (l : List α) (x : α) : List α := l.filter (fun y => key y != key x) ++ [x]

def ethAddrOf (v : List Byte) : Option EthAddr :=
  if ethPort (field v 0 1) ∧ field v 1 1 < 8 ∧ field v 2 1 < 64 ∧ field v 3 1 = 0 ∧ field v 4 2 < 4096 ∧ field v 6 2 = 0 then
    some { port := field v 0 1, pfcPriority := field v 1 1, dscp := field v 2 1, vlan := field v 4 2
           ipv4 := BitVec.ofNat 32 (field v 8 4), ipv6 := BitVec.ofNat 128 (field v 12 16) }
  else none

def cnpOf (v : List Byte) : Option CnpParams :=
  if ethPort (field v 0 1) ∧ field v 1 3 = 0 then
    some { port := field v 0 1, alphaGain := BitVec.ofNat 32 (field v 4 4), recoveryUs := field v 8 4, minRateGbps := field v 12 4 }
  else none

def queueOf (v : List Byte) : Option ExportQueue :=
  if field v 0 1 < 16 ∧ ethPort (field v 1 1) ∧ field v 2 2 = 0 ∧ field v 20 4 = 0 then
    some { queue := field v 0 1, port := field v 1 1, remoteQpn := field v 4 4, remoteAddr := BitVec.ofNat 64 (field v 8 8)
           remoteKey := BitVec.ofNat 32 (field v 16 4), capacity := field v 24 8, remoteIp := BitVec.ofNat 128 (field v 32 16) }
  else none

/-- ETHERNET_MODE: needs the feature, and no port of the session's map (R547). -/
def State.ethernetModeOk (s : State) (v : Nat) : Bool :=
  decide (v < 4) &&
    (v == 0 || (s.floor.getLsbD 15 &&
      !((s.session.map fun x => (topoOf x.topology).ports x.rank).getD []).any fun n => decide (6 ≤ n) && bit v (n - 6)))

/-- The policy after one item, or none for a value outside its bound. -/
def State.applyItem (s : State) (p : Policy) (item : Nat) (v : List Byte) : Option Policy :=
  let x := leNat v
  let within := fun (lo hi : Nat) (q : Policy) => if lo ≤ x ∧ x ≤ hi then some q else none
  match item with
  | 0x01 => if fp32Between ber1e9 ber1e6 x then some { p with laneTransientBer := BitVec.ofNat 32 x } else none
  | 0x02 => if fp32Between ber1e7 ber1e4 x then some { p with lanePermanentBer := BitVec.ofNat 32 x } else none
  | 0x03 => within 1 100 { p with laneUncorrectable := x }
  | 0x04 => within 1 60 { p with flickerWindowMin := x }
  | 0x05 => within 2 32 { p with flicker24h := x }
  | 0x06 => within 1 10000 { p with stallLimitMs := x }
  | 0x07 => within 1 8 { p with channelUncorrectable := x }
  | 0x08 => within 1000 10000000 { p with channelCorrected := x }
  | 0x09 => within 4 1024 { p with channelTransient := x }
  | 0x0A => if v.all fun b => b.toNat ≤ 15 then some { p with thermalOffsets := v.map BitVec.toNat } else none
  | 0x0B => within 1 15 { p with interleaveNext := x }
  | 0x0C => within 0 2 { p with steerMode := x }
  | 0x0D => if s.ethernetModeOk x then some { p with ethernetMode := BitVec.ofNat 2 x } else none
  | 0x0E => (ethAddrOf v).map fun a => { p with ethAddrs := upsert EthAddr.port p.ethAddrs a }
  | 0x0F => (cnpOf v).map fun a => { p with cnp := upsert CnpParams.port p.cnp a }
  | 0x10 => (queueOf v).map fun q => { p with exportQueues := upsert ExportQueue.queue p.exportQueues q }
  | 0x11 => within 600 1500 { p with powerLimitW := x }
  | _ => none

/-- Every item in order: the policy after all of them, or the status of the first that fails. -/
def State.applyItems (s : State) : List (Nat × List Byte) → Policy → Except Status Policy
  | [], p => .ok p
  | (item, v) :: l, p =>
    if itemLength item ≠ some v.length then .error .badField
    else if itemMaintReady item && !maintReady s.dev then .error .wrongState
    else
      match s.applyItem p item v with
      | none => .error .badField
      | some q => s.applyItems l q

/-- The permanent threshold is at least 10 times the transient one (R29). -/
def berRule (p : Policy) : Bool :=
  !(fp32 p.lanePermanentBer).lt ((Fp.ofInt 10).mul (fp32 p.laneTransientBer))

/-- Thresholds of a stack lowered by the policy's offsets. -/
def lowered (thresh offsets : List Nat) : List Nat := (thresh.take 3).mapIdx fun i t => t - offsets.getD i 0

/-- The lowered thresholds of every stack that has identification data ascend strictly (R449). -/
def State.thermalRule (s : State) (p : Policy) : Bool :=
  s.hbm.all fun k =>
    k.idInvalid || k.thresh.headD 0 == 0 ||
      (let t := lowered k.thresh p.thermalOffsets
       decide (t.getD 0 0 < t.getD 1 0) && decide (t.getD 1 0 < t.getD 2 0))

/-- A port whose Ethernet mode changes trains anew (R547). -/
def State.switchPorts (s : State) (mode : BitVec 2) : State :=
  { s with ports := s.ports.mapIdx fun n p =>
      if n < 6 ∨ p.ethernet = mode.getLsbD (n - 6) then p
      else
        { p with
          state := .training, ethernet := mode.getLsbD (n - 6), width := 0, pending := [], peerChanges := []
          replay := [], txControl := [], txForward := [], txOwn := [], ethRate := none, helloReceived := false } }

/-- A new policy in force (R636). -/
def State.setPolicy (s : State) (p : Policy) : State :=
  let t : State :=
    { s with
      flash := { s.flash with policy := p }
      hbm := s.hbm.map fun k => { k with threshEffective := lowered k.thresh p.thermalOffsets } }
  t.switchPorts p.ethernetMode

def specSetPolicy : CmdSpec :=
  { opcode := 0x13, states := working, owner := true, cls := some .config, lengthOk := fun _ => true }

/-- SET_POLICY (R636): every item is checked, and the rules across items, before any is applied. -/
def execSetPolicy (n : Nat) (r : Request) (s : State) : Host.Outcome State Fault Refusal :=
  onMailbox n (s.command n specSetPolicy r fun t p =>
    match policyItems p.length p with
    | none => t.refuse n .badField
    | some items =>
      match t.applyItems items t.flash.policy with
      | .error st => t.refuse n st
      | .ok q => if berRule q && t.thermalRule q then (t.setPolicy q).respond n .ok [] else t.refuse n .badField)

end Sys2Proof.Machine
end

