-- ==== Sys2Proof/Machine/Bundles.lean ====
section
/-! DEFINITION. Grened bundles: STAGE_BUNDLE, ACTIVATE_BUNDLE and ATTEST (R672 to R690, R711, R713). -/

namespace Sys2Proof.Machine

/-! ### A bundle's bytes (R675, R676, R678) -/

/-- A part entry of 192 bytes. `reservedZero`: its reserved bytes, and the requirement and range entries that it does
not use, are zero (R678). -/
structure PartEntry where
  ptype : Nat
  version : Nat
  offset : Nat
  size : Nat
  digest : List Byte
  /-- (ID, VERSION), and (ID, MIN, MAX). -/
  provides : List (Nat × Nat)
  requires : List (Nat × Nat × Nat)
  ranges : List RevRange
  reservedZero : Bool
  deriving DecidableEq, Repr

def partEntry (b : List Byte) : PartEntry :=
  let ty := field b 0 1
  let reqs := (List.range 4).map fun i => slice b (0x68 + 8 * i) 8
  let rngs := (List.range 4).map fun i => slice b (0x88 + 8 * i) 8
  { ptype := ty, version := field b 4 4, offset := field b 8 8, size := field b 0x10 8, digest := slice b 0x18 64
    provides := ((List.range 4).map fun i => (field b (0x58 + 4 * i) 2, field b (0x5A + 4 * i) 2)).filter fun e => e.1 != 0
    requires := (reqs.map fun q => (field q 0 2, field q 2 2, field q 4 2)).filter fun e => e.1 != 0
    ranges := (rngs.filter fun q => field q 0 1 != 0).map fun q =>
      ⟨ty, field q 0 1, field q 1 1, field q 2 1, field q 3 1, field q 4 1⟩
    reservedZero := field b 1 3 == 0 && allZero (slice b 0xA8 24) && reqs.all (fun q => field q 6 2 == 0 && (field q 0 2 != 0 || allZero q)) &&
      rngs.all fun q => field q 5 3 == 0 && (field q 0 1 != 0 || allZero q) }

/-- Parts of a bundle, in the order of their entries. -/
def bundleParts (b : List Byte) : List PartEntry := (List.range 8).map fun i => partEntry (slice b (0x900 + 192 * i) 192)

/-- Parts lie in order within the signed bytes, on 4 KiB boundaries, with zeros between them. -/
def partsInOrder (b : List Byte) : Nat → List PartEntry → Bool
  | _, [] => true
  | at_, p :: l =>
    p.reservedZero && p.offset % 4096 == 0 && at_ ≤ p.offset && 1 ≤ p.size && p.size ≤ 0x2000000 &&
      allZero (slice b at_ (p.offset - at_)) && partsInOrder b (p.offset + p.size) l

/-- Check 1 of R683. -/
def bundleCheck1 (b : List Byte) : Bool :=
  let parts := bundleParts b
  let signed := field b 0x18 8
  let units := field b 0x24 2
  let listEnd := 0xF00 + 16 * units
  let last := (parts.getLast?.map fun p => p.offset + p.size).getD 0
  let revoke := field b 0x23 1
  field b 0 4 == 0x4E455247 && field b 4 2 == 1 && field b 6 2 == 0x100 && field b 0x10 8 == signed + 3328 &&
  b.length == signed + 3328 && b.length ≤ 0x4000000 && field b 0x20 1 == 8 && field b 0x21 1 < 128 &&
  field b 0x22 1 < 4 && revoke < 16 && !bit revoke (field b 0x22 1) && units ≤ 256 && field b 0x26 2 == 0 &&
  field b 0x28 4 == 1536 + 16 * units && field b 0x2C 4 == 0 && allZero (slice b 0x70 144) && allZero (slice b 0x8A0 96) &&
  (parts.zip (parts.drop 1)).all (fun e => decide (e.1.ptype ≤ e.2.ptype)) && partsInOrder b listEnd parts &&
  signed == roundUp last 64 && allZero (slice b last (signed - last)) && allZero (slice b (signed + 3309) 19)

/-- The key's digest is the one fused in SIGNER_SLOT (R677). -/
def signerMatches (u : Fuses) (b : List Byte) : Bool :=
  u.keyDigests.getD (field b 0x22 1) none == some (shake256 (slice b 0x100 1952) 32)

/-- Check 2: fused, not revoked, and matching. -/
def bundleCheck2 (u : Fuses) (b : List Byte) : Bool := signerMatches u b && !u.keysRevoked.getLsbD (field b 0x22 1)

/-- Check 3: DIGEST. -/
def bundleCheck3 (b : List Byte) : Bool := shake256 (slice b 0x100 (field b 0x18 8 - 0x100)) 64 == slice b 0x30 64

/-- Check 4: the signature over the header, with the context string of R677. -/
def bundleCheck4 (b : List Byte) : Bool :=
  Config.mldsaVerify (slice b 0x100 1952) (ascii "ZSV-GRENED") (b.take 256) (slice b (field b 0x18 8) 3309)

/-- Check 5: every PART_DIGEST. -/
def bundleCheck5 (b : List Byte) : Bool :=
  (bundleParts b).all fun p => shake256 (slice b p.offset p.size) 64 == p.digest

/-- Check 6: bound to this hardware and unit. -/
def bundleCheck6 (u : Fuses) (b : List Byte) : Bool :=
  let units := field b 0x24 2
  field b 8 4 == 0x400 &&
    (units == 0 || (List.range units).any fun i => field b (0xF00 + 16 * i) 16 == u.unitId.toNat)

/-- Check 8: one part of each type, and every requirement met by another part. -/
def bundleCheck8 (b : List Byte) : Bool :=
  let parts := bundleParts b
  parts.map (·.ptype) == [1, 2, 3, 4, 5, 6, 7, 8] &&
    parts.all fun p => p.requires.all fun q =>
      parts.any fun o => o.ptype != p.ptype && o.provides.any fun v => v.1 == q.1 && q.2.1 ≤ v.2 && v.2 ≤ q.2.2

/-- Check 9: every die that is not ABSENT is in its type's window. -/
def bundleCheck9 (dies : List Die) (b : List Byte) : Bool :=
  dies.all fun d => d.state == .absent || inWindowOf ((bundleParts b).flatMap (·.ranges)) d

/-- The first check of R683 that fails, with its status. -/
def State.bundleFails (s : State) (b : List Byte) : Option (Nat × Status) :=
  if !bundleCheck1 b then some (1, .imageCheckFailed)
  else if !bundleCheck2 s.fuses b then some (2, .imageCheckFailed)
  else if !bundleCheck3 b then some (3, .imageCheckFailed)
  else if !bundleCheck4 b then some (4, .imageCheckFailed)
  else if !bundleCheck5 b then some (5, .imageCheckFailed)
  else if !bundleCheck6 s.fuses b then some (6, .imageNotBound)
  else if field b 0x21 1 < s.fuses.rollbackCounter then some (7, .rollbackRefused)
  else if !bundleCheck8 b then some (8, .imageIncompatible)
  else if !bundleCheck9 s.dies b then some (9, .imageIncompatible)
  else none

/-- What the device keeps of a slot's bundle. -/
def slotOf (u : Fuses) (st : SlotState) (b : List Byte) : FlashSlot :=
  let parts := bundleParts b
  { state := st
    bundleVersion := BitVec.ofNat 32 (field b 0xC 4)
    rollbackIndex := field b 0x21 1
    signerSlot := field b 0x22 1
    revokeMask := field b 0x23 1
    recoveryVersion := ((parts.find? fun p => p.ptype == 2).map (·.version)).getD 0
    digest := slice b 0x30 64
    partDigests := parts.map (·.digest)
    ranges := parts.flatMap (·.ranges)
    intact := bundleCheck1 b && signerMatches u b && bundleCheck3 b && bundleCheck4 b && bundleCheck5 b }

/-! ### STAGE_BUNDLE (R681 to R683) -/

/-- The bootable slot that is not running. -/
def Bundle.targetSlot (b : Bundle) : Slot :=
  match b.running with
  | .a => .b
  | .b | .r => .a

/-- The 8-byte result: NEXT_INDEX and CANCELLED. -/
def stageResult (next : Nat) (cancelled : Bool) : List Byte := leBytes 4 next ++ leBytes 1 (bool01 cancelled) ++ zeros 3

/-- Block 0 erases the target slot, cancels its activation and starts a new staging. -/
def State.startStaging (s : State) (count : Nat) : State × Bool :=
  let target := s.bundle.targetSlot
  let cancelled := s.flash.pendingSlot == some target
  let f := s.flash.setSlot target { state := .invalid }
  ({ s with
      flash := { f with pendingSlot := if cancelled then none else f.pendingSlot }
      bundle := { s.bundle with stage := .staging, target := target, nextIndex := 0, blockCount := count, bytes := [] } },
    cancelled)

/-- The header of block 0 is right, and BUNDLE_SIZE agrees with BLOCK_COUNT and the block's length. -/
def stageHeaderOk (b : List Byte) (count : Nat) : Bool :=
  let size := field b 0x10 8
  field b 0 4 == 0x4E455247 && field b 4 2 == 1 && field b 6 2 == 0x100 && ceilDiv size 65536 == count &&
    b.length == (if count = 1 then size else 65536)

/-- A block is written to the slot. -/
def State.writeBlock (s : State) (b : List Byte) : State :=
  { s with bundle := { s.bundle with
      bytes := s.bundle.bytes ++ b, nextIndex := s.bundle.nextIndex + 1
      blocksStaged := satAdd s.bundle.blocksStaged 1 } }

/-- The checks after the last block: the slot is VALID or INVALID. -/
def State.finishStaging (s : State) (n : Nat) (cancelled : Bool) : State :=
  let b := s.bundle.bytes
  let target := s.bundle.target
  let next := s.bundle.nextIndex
  match s.bundleFails b with
  | none =>
    let t : State := { s with
      flash := s.flash.setSlot target (slotOf s.fuses .valid b)
      bundle := { s.bundle with stage := .staged, stageStatus := .ok, failedCheck := 0, bytes := [] } }
    t.respond n .ok (stageResult next cancelled)
  | some (c, st) =>
    let t : State := { s with
      flash := s.flash.setSlot target (slotOf s.fuses .invalid b)
      bundle := { s.bundle with
        stage := .refused, stageStatus := st, failedCheck := c, bytes := []
        stageRefusals := satAdd s.bundle.stageRefusals 1 } }
    t.respond n st (stageResult next cancelled)

/-- One block whose payload fields are valid and whose bytes have been fetched. -/
def State.stageBlock (s : State) (n index count crc : Nat) (b : List Byte) : State :=
  let (s1, cancelled) := if index = 0 then s.startStaging count else (s, false)
  if (crc32c b).toNat ≠ crc then
    ({ s1 with bundle := { s1.bundle with blockCrcFailures := satAdd s1.bundle.blockCrcFailures 1 } } : State).respond
      n .imageCheckFailed (stageResult s1.bundle.nextIndex cancelled)
  else if index = 0 && !stageHeaderOk b count then
    ({ s1 with bundle := { s1.bundle with stage := .idle } } : State).respond n .imageCheckFailed (stageResult 0 cancelled)
  else
    let s2 := s1.writeBlock b
    if index + 1 = count then (s2.respondPending n 0).finishStaging n cancelled
    else s2.respond n .ok (stageResult s2.bundle.nextIndex cancelled)

def specStageBundle : CmdSpec :=
  { opcode := 0x40, states := working, owner := true, cls := some .bundle, recovery := true, lengthOk := fun k => k == 32 }

/-- STAGE_BUNDLE (R681, R682). -/
def execStageBundle (n : Nat) (r : Request) (s : State) : Host.Outcome State Fault Refusal :=
  onMailbox n (s.command n specStageBundle r fun t p =>
    let index := field p 0 4
    let count := field p 4 4
    let len := field p 8 4
    let last := index + 1 == count
    if r.flags.getLsbD 0 ∨ count = 0 ∨ 1024 < count ∨ count ≤ index ∨ field p 0x18 8 ≠ 0 ∨ daSpace (field p 0x10 8) ≠ 0xC ∨
        (!last ∧ len ≠ 65536) ∨ len = 0 ∨ 65536 < len ∨ len % 64 ≠ 0 then t.refuse n .badField
    else if index ≠ 0 ∧ (t.bundle.stage ≠ .staging ∨ index ≠ t.bundle.nextIndex ∨ count ≠ t.bundle.blockCount) then
      t.refuse n .badField
    else
      match t.hostRead (field p 0x10 8) len with
      | none => t.refuse n .badField
      | some b => t.stageBlock n index count (field p 0xC 4) b)

/-! ### ACTIVATE_BUNDLE (R684) -/

def specActivateBundle : CmdSpec :=
  { opcode := 0x41, states := maintReady, owner := true, cls := some .bundle, recovery := true, lengthOk := fun k => k == 8 }

/-- The slot of SLOT. -/
def slotCode : Nat → Option Slot
  | 0 => some .a
  | 1 => some .b
  | _ => none

def State.setActivation (s : State) (k : Option Slot) : State := { s with flash := { s.flash with pendingSlot := k } }

/-- ACTIVATE_BUNDLE without CANCEL. -/
def execActivateBundle (n : Nat) (r : Request) (s : State) : Host.Outcome State Fault Refusal :=
  onMailbox n (s.command n specActivateBundle r fun t p =>
    match slotCode (field p 0 1) with
    | none => t.refuse n .badField
    | some k =>
      let v := t.flash.slot k
      if 1 < field p 1 1 ∨ field p 2 6 ≠ 0 ∨ k = t.bundle.running ∨ v.state = .empty ∨ v.state = .invalid then t.refuse n .badField
      else if v.rollbackIndex < t.fuses.rollbackCounter then t.refuse n .rollbackRefused
      else if v.state = .failedBoot then t.refuse n .imageIncompatible
      else (t.setActivation (some k)).respond n .ok [])

/-- ACTIVATE_BUNDLE with CANCEL: SLOT is ignored. -/
def execActivateBundleCancel (n : Nat) (r : Request) (s : State) : Host.Outcome State Fault Refusal :=
  onMailbox n (s.command n specActivateBundle r fun t p =>
    if 1 < field p 1 1 ∨ field p 2 6 ≠ 0 then t.refuse n .badField else (t.setActivation none).respond n .ok [])

/-! ### ATTEST (R689, R690) -/

/-- FUSE_STATE (R711). -/
def State.fuseState (s : State) : Nat :=
  let u := s.fuses
  u.rollbackCounter % 128 + maskOf 4 (fun i => (u.keyDigests.getD i none).isSome) * 2 ^ 8 + u.keysRevoked.toNat * 2 ^ 12 +
    bool01 u.debugBlown * 2 ^ 16 + bool01 u.identitySeed * 2 ^ 17 + bool01 s.flash.ownerDigest.isSome * 2 ^ 18

/-- TINDER_STATUS (R713). -/
def State.tinderStatus (s : State) : Nat :=
  bool01 (!s.fuses.debugBlown) + 2 * bool01 s.tinder.unlocked + 4 * bool01 s.tinder.broken +
    8 * bool01 (s.tinder.trace != .off) + 16 * bool01 s.tinder.tainted

/-- The report body of 0x340 bytes. -/
def State.attestBody (s : State) (nonce : List Byte) : List Byte :=
  let run := s.flash.slot s.bundle.running
  leBytes 4 0x4156535A ++ leBytes 2 1 ++ leBytes 2 0x340 ++ leBytes 16 s.fuses.unitId.toNat ++ nonce ++
  leBytes 4 s.flash.bootCount ++ leBytes 1 s.bundle.running.code ++ leBytes 1 (DevState.code s.dev) ++ zeros 2 ++
  leBytes 8 s.floor.toNat ++ leBytes 4 s.fuseState ++ leBytes 4 s.tinderStatus ++ sliceZ run.digest 0 64 ++
  (List.range 8).flatMap (fun i => sliceZ (run.partDigests.getD i []) 0 64) ++ s.protectionDigest ++
  leBytes 8 s.flash.protection.epoch ++ s.dies.flatMap (fun d => leBytes 4 (if d.state = .absent then 0 else d.rev)) ++
  zeros 4 ++ leBytes 8 s.committedStep ++ leBytes 8 ((s.session.map (·.jobId)).getD 0) ++
  leBytes 8 ((s.program.map (·.programId)).getD 0) ++ zeros 32

/-- The result of ATTEST. -/
def State.attestResult (s : State) (nonce : List Byte) (includeKey : Bool) : List Byte :=
  let body := s.attestBody nonce
  let report := body ++ sliceZ (Config.mldsaSign (ascii "ZSV-ATTEST") body) 0 3309 ++ zeros 3
  if includeKey then
    report ++ sliceZ Config.identityKey 0 1952 ++ sliceZ Config.identityCertificate 0 3309 ++ zeros 3
  else report

def specAttest : CmdSpec := { opcode := 0x42, states := workingOrFaulted, recovery := true, lengthOk := fun k => k == 40 }

/-- ATTEST (R689). -/
def execAttest (n : Nat) (r : Request) (s : State) : Host.Outcome State Fault Refusal :=
  onMailbox n (s.command n specAttest r fun t p =>
    if 1 < field p 32 1 ∨ field p 33 7 ≠ 0 then t.refuse n .badField
    else
      let u : State := { t with bundle := { t.bundle with attestations := satAdd t.bundle.attestations 1 } }
      u.respond n .ok (t.attestResult (slice p 0 32) (field p 32 1 == 1)))

end Sys2Proof.Machine
end

