-- ==== Sys2Proof/Machine/Control.lean ====
section
/-! DEFINITION. The control slot and the sequencing field: waits, signals, barriers, fences, halts, loops,
branches, segments, context switches, and tiles going dark and lit (R149, R154, R164 to R183). -/

namespace Sys2Proof.Machine

/-! ### Control operations (R164) -/

/-- The condition of a WAIT holds. -/
def Tile.waitMet (t : Tile) (counter threshold : Nat) : Bool := decide (threshold ≤ t.counters.getD counter 0)

/-- A WAIT whose condition holds takes its CONSUME. -/
def State.waitConsume (s : State) (d p counter threshold : Nat) (consume : Bool) : State :=
  if consume then s.modTile d p fun t => { t with counters := modAt t.counters counter (· - threshold) } else s

def State.opWait (s : State) (d p counter threshold : Nat) (consume : Bool) : State :=
  if (s.tile d p).waitMet counter threshold then s.waitConsume d p counter threshold consume
  else s.blockOn d p (.wait counter threshold)

/-- The tile that a SIGNAL names: SELF, or a logical tile of this die or the other. -/
def State.signalTarget (s : State) (d p scope target : Nat) : Option (Nat × Nat) :=
  match scope with
  | 0 => some (d, p)
  | 1 => (s.posOf d target).map fun q => (d, q)
  | _ => (s.posOf (1 - d) target).map fun q => (1 - d, q)

def State.opSignal (s : State) (d p counter scope target inc : Nat) : State :=
  match s.signalTarget d p scope target with
  | none => s
  | some (e, q) =>
    let m : SignalMsg := { fromDie := d, fromPos := p, toDie := e, toPos := q, counter := counter, increment := inc }
    if d = e then { s with signals := s.signals ++ [m] }
    else s.sendEvent d fun n t => { t with signals := t.signals ++ [{ m with passing := some n }] }

/-- A tile arrives at a barrier (R170). -/
def State.opBarrier (s : State) (d p id : Nat) : State :=
  let b := s.barriers.getD id { id := id }
  if b.arrived.contains (d, p) then s.progFault d p (s.tile d p).running pfBarrierReentry 0
  else
    ({ s with barriers := modAt s.barriers id fun x => { x with arrived := x.arrived ++ [(d, p)] } } : State).blockOn d p
      (.barrier id b.opened)

/-- The tiers of destination that a FENCE's scopes name (R164): bit 0 TILE_AND_SHARED, 1 STACK, 2 OTHER_DIE,
3 HOST, 4 BEACON. -/
def fenceTier (scopes tier : Nat) : Bool :=
  match tier with
  | 0 | 1 | 2 => bit scopes 0
  | 3 => bit scopes 1
  | 4 => bit scopes 2
  | 5 => bit scopes 4
  | 6 => bit scopes 3
  | _ => false

/-- Nothing that the context issued before the fence is still on its way to the named scopes. A stream counts whole;
of one that fills a ring or a double buffer, which cannot end before blocks are released, only the requests made
before the fence count (DEDUCED, log 108). -/
def State.fenceMet (s : State) (d p n scopes upTo : Nat) : Bool :=
  let whole := (s.tile d p).slots.any fun x =>
    let h := s.slotHead x
    x.state == .running && x.ctx == n && !h.buffered && fenceTier scopes h.dstTier
  let t := s.tile d p
  let local_ := bit scopes 0 && ((t.arrayQueue.any fun o => o.ctx == n) || t.vectorQueue.any fun o => o.ctx == n)
  let far := bit scopes 2 && t.xfers.any fun x => x.ctx == n && decide (x.id < upTo)
  let stream := s.requests.any fun q =>
    match q.owner with
    | .tileSlot e r k => e == d && r == p && (t.slot k).ctx == n && decide (q.seq < upTo) && fenceTier scopes q.dstTier
    | .bsuSlot .. | .xfer .. | .dma _ | .beacon _ | .event => false
  !local_ && !far && !whole && !stream

def State.opFence (s : State) (d p scopes : Nat) : State :=
  if s.fenceMet d p (s.tile d p).running scopes s.nextReq then s else s.blockOn d p (.fence scopes s.nextReq)

def State.opHalt (s : State) (d p : Nat) : State := s.blockOn d p .halt

/-! ### Their rows -/

/-- CONTROL_NOP (R164). -/
def execControlNop (d p : Nat) (s : State) : Host.Outcome State Fault Refusal :=
  if tileExists d p then .next s else .fault .noSuchUnit

/-- WAIT (R164). -/
def execWait (d p counter threshold : Nat) (consume : Bool) (s : State) : Host.Outcome State Fault Refusal :=
  if tileExists d p then
    .next (if s.canIssue d p && decide (counter < 256) && decide (threshold < 65536) then s.opWait d p counter threshold consume else s)
  else .fault .noSuchUnit

/-- SIGNAL (R164). -/
def execSignal (d p counter scope target increment : Nat) (s : State) : Host.Outcome State Fault Refusal :=
  if tileExists d p then
    let ok := decide (counter < 256) && decide (scope < 3) && decide (1 ≤ increment) && decide (increment < 65536)
    .next (if s.canIssue d p && ok then s.opSignal d p counter scope target increment else s)
  else .fault .noSuchUnit

/-- SIGNAL_ARRIVAL (R169): the oldest SIGNAL from one tile to one counter of another. One that has to cross
LINK_CC has been granted the link (R219). -/
def execSignalArrival (fromDie fromPos toDie toPos counter : Nat) (s : State) : Host.Outcome State Fault Refusal :=
  if tileExists fromDie fromPos && tileExists toDie toPos && decide (counter < 256) then
    let hit := fun (m : SignalMsg) =>
      m.fromDie == fromDie && m.fromPos == fromPos && m.toDie == toDie && m.toPos == toPos && m.counter == counter
    match s.signals.find? hit with
    | none => .next s
    | some m =>
      if s.stopped || s.eventPassing m.passing then .next s
      else .next (({ s with signals := s.signals.erase m } : State).bump toDie toPos counter m.increment)
  else .fault .noSuchUnit

/-- YIELD (R174). -/
def execYieldPoint (d p : Nat) (s : State) : Host.Outcome State Fault Refusal :=
  if tileExists d p then .next (if s.canIssue d p then s.yieldNow d p else s) else .fault .noSuchUnit

/-- The tile is a member of a barrier of the program. -/
def State.barrierMember (s : State) (d p id : Nat) : Bool :=
  match s.program, (s.tile d p).logicalId with
  | some g, some l => g.barriers.any fun e => e.id == id && e.member d l
  | _, _ => false

/-- BARRIER (R170). -/
def execBarrier (d p id : Nat) (s : State) : Host.Outcome State Fault Refusal :=
  if tileExists d p && decide (id < 32) then
    .next (if s.canIssue d p && s.barrierMember d p id then s.opBarrier d p id else s)
  else .fault .noSuchUnit

/-- The members of a barrier, as positions. -/
def State.barrierTiles (s : State) (id : Nat) : List (Nat × Nat) :=
  (List.range 100).filterMap fun i => if s.barrierMember (i / 50) (i % 50) id then some (i / 50, i % 50) else none

/-- The barrier opens: its members' contexts are released, and dark members are lit (R170, R181). -/
def State.openBarrier (s : State) (id : Nat) : State :=
  let s1 : State := { s with barriers := modAt s.barriers id fun x => { x with arrived := [], opened := x.opened + 1 } }
  (s.barrierTiles id).foldl (fun x m => (x.askLight m.1 m.2).settle m.1 m.2) s1

/-- BARRIER_OPEN (R170). -/
def execBarrierOpen (id : Nat) (s : State) : Host.Outcome State Fault Refusal :=
  if id < 32 then
    let ms := s.barrierTiles id
    let b := s.barriers.getD id { id := id }
    .next (if s.computing && !ms.isEmpty && ms.all b.arrived.contains then s.openBarrier id else s)
  else .fault .noSuchUnit

/-- FENCE (R164). -/
def execFence (d p scopes : Nat) (s : State) : Host.Outcome State Fault Refusal :=
  if tileExists d p then .next (if s.canIssue d p && decide (scopes < 32) then s.opFence d p scopes else s)
  else .fault .noSuchUnit

/-- FENCE_COMPLETE (R164). -/
def execFenceComplete (d p ctx : Nat) (s : State) : Host.Outcome State Fault Refusal :=
  if tileExists d p && decide (ctx < 8) then
    let c := (s.tile d p).ctx ctx
    match c.reason with
    | .fence scopes upTo =>
      .next (if s.stepOpen && !s.stopped && c.state == .blocked && s.fenceMet d p ctx scopes upTo then s.unblock d p ctx .ready else s)
    | .none | .wait .. | .barrier .. | .halt | .segment _ => .next s
  else .fault .noSuchUnit

/-- HALT (R164): the context is held until CONTEXT_HALTED. -/
def execHalt (d p : Nat) (s : State) : Host.Outcome State Fault Refusal :=
  if tileExists d p then .next (if s.canIssue d p then s.opHalt d p else s) else .fault .noSuchUnit

/-! ### Sequencing (R153 to R155) -/

def State.nextOf (s : State) (d p : Nat) : State := s.gotoBundle d p ((s.tile d p).current.bundle + 1)

/-- A loop register of the running context. -/
def Tile.loopReg (t : Tile) (n : Nat) : LoopReg := t.current.loops.getD n {}

/-- A loop begins with a count (R155). -/
def State.loopFrom (s : State) (d p reg count : Nat) : State :=
  let t := s.tile d p
  let c := t.current
  if count = 0 then s.progFault d p t.running pfLoopZero 0
  else if 4095 < count then s.progFault d p t.running pfLoopRange 0
  else
    let l : LoopReg := { count := count, start := c.bundle + 1, segment := c.segment }
    (s.modCtx d p t.running fun x => { x with loops := modAt x.loops reg fun _ => l }).nextOf d p

def State.param (s : State) (d p r : Nat) : Nat := ((s.tile d p).current.params.getD r 0).toNat

/-- The count of a loop is 12 bits wide: a LOOP_END at 0 wraps (DEDUCED from R172). -/
def State.loopBack (s : State) (d p reg : Nat) : State :=
  let t := s.tile d p
  let l := t.loopReg reg
  if l.segment ≠ t.current.segment then s.progFault d p t.running pfLoopSegment 0
  else
    let n := (l.count + 4095) % 4096
    let s1 := s.modCtx d p t.running fun x => { x with loops := modAt x.loops reg fun y => { y with count := n } }
    if n = 0 then s1.nextOf d p else s1.gotoBundle d p l.start

def State.setParam (s : State) (d p reg : Nat) (v : BitVec 32) : State :=
  (s.modCtx d p (s.tile d p).running fun x => { x with params := modAt x.params reg fun _ => v }).nextOf d p

def State.paramAdd (s : State) (d p reg imm : Nat) : State :=
  s.setParam d p reg (BitVec.ofNat 32 (s.param d p reg) + BitVec.ofInt 32 (signExtend 12 imm))

def State.jumpGe (s : State) (d p reg imm : Nat) : State :=
  if s.param d p 1 ≤ s.param d p reg then s.gotoBundle d p (imm % 2048) else s.nextOf d p

/-- A sequencing field takes effect for the running context. -/
def State.sequence (s : State) (d p : Nat) (f : SeqField) : State :=
  match f.seq with
  | 0 => s.nextOf d p
  | 1 => s.loopFrom d p f.reg f.imm
  | 2 => s.loopFrom d p f.reg (s.param d p (f.imm % 16))
  | 3 => s.loopBack d p f.reg
  | 4 => s.gotoBundle d p (f.imm % 2048)
  | 5 => s.segmentTo d p f.imm
  | 6 => s.paramAdd d p f.reg f.imm
  | 7 => s.setParam d p f.reg (BitVec.ofNat 32 f.imm)
  | 8 => s.jumpGe d p f.reg f.imm
  | _ => s

/-- A sequencing operation as a command of its own. -/
def State.seqRow (s : State) (d p : Nat) (ok : Bool) (f : State → State) : Host.Outcome State Fault Refusal :=
  if tileExists d p then .next (if s.canIssue d p && ok then f s else s) else .fault .noSuchUnit

/-- NEXT (R154). -/
def execNextBundle (d p : Nat) (s : State) : Host.Outcome State Fault Refusal := s.seqRow d p true (·.nextOf d p)

/-- LOOP_BEGIN (R154). -/
def execLoopBegin (d p reg imm : Nat) (s : State) : Host.Outcome State Fault Refusal :=
  s.seqRow d p (decide (reg < 4) && decide (imm < 4096)) (·.loopFrom d p reg imm)

/-- LOOP_BEGIN_P (R155). -/
def execLoopBeginP (d p reg imm : Nat) (s : State) : Host.Outcome State Fault Refusal :=
  s.seqRow d p (decide (reg < 4) && decide (imm < 4096)) fun x => x.loopFrom d p reg (x.param d p (imm % 16))

/-- LOOP_END (R154). -/
def execLoopEnd (d p reg : Nat) (s : State) : Host.Outcome State Fault Refusal :=
  s.seqRow d p (decide (reg < 4)) (·.loopBack d p reg)

/-- JUMP (R154). -/
def execJump (d p imm : Nat) (s : State) : Host.Outcome State Fault Refusal :=
  s.seqRow d p (decide (imm < 4096)) (·.gotoBundle d p (imm % 2048))

/-- The tile has the segment (R145). -/
def State.hasSegment (s : State) (d p n : Nat) : Bool := ((s.entryOf d p).map fun e => decide (n < e.segments)).getD false

/-- SEGMENT (R149). -/
def execSegment (d p imm : Nat) (s : State) : Host.Outcome State Fault Refusal :=
  s.seqRow d p (s.hasSegment d p imm) (·.segmentTo d p imm)

/-- PADD (R154). -/
def execPadd (d p reg imm : Nat) (s : State) : Host.Outcome State Fault Refusal :=
  s.seqRow d p (decide (reg < 16) && decide (imm < 4096)) (·.paramAdd d p reg imm)

/-- PSET (R154). -/
def execPset (d p reg imm : Nat) (s : State) : Host.Outcome State Fault Refusal :=
  s.seqRow d p (decide (reg < 16) && decide (imm < 4096)) (·.setParam d p reg (BitVec.ofNat 32 imm))

/-- JUMP_IF_GE (R154). -/
def execJumpIfGe (d p reg imm : Nat) (s : State) : Host.Outcome State Fault Refusal :=
  s.seqRow d p (decide (reg < 16) && decide (imm < 4096)) (·.jumpGe d p reg imm)

/-! ### Segments (R149) -/

/-- The code of a load is there whole. -/
def State.loadLanded (s : State) (d p : Nat) (l : SegLoad) : Bool := l.code.length == (s.codePlace d p l.segment).2

/-- The tile's oldest segment load ends: a context that waits for it goes on, what follows its entry is prefetched,
and slot 127 turns to the next load. -/
def State.segmentLoaded (s : State) (d p : Nat) (l : SegLoad) (rest : List SegLoad) : State :=
  let idle := s.modSlot (.tile d p 127) fun x => { x with state := .idle }
  let s0 := idle.modTile d p fun t =>
    { t with
      segLoads := rest
      buffers := modAt t.buffers l.buffer fun _ => some (l.segment, l.code)
      segmentLoads := satAdd t.segmentLoads 1
      activeAt := s.now }
  let s1 := s0.refill d p
  match l.ctx with
  | none => s1
  | some n =>
    let s2 := s1.prefetch d p l.segment l.buffer
    match ((s2.tile d p).ctx n).reason with
    | .segment _ => s2.unblock d p n .ready
    | .none | .wait .. | .barrier .. | .fence .. | .halt => s2

/-- SEGMENT_LOAD_COMPLETE (R149): the code of the tile's oldest load has landed. -/
def execSegmentLoadComplete (d p : Nat) (s : State) : Host.Outcome State Fault Refusal :=
  if tileExists d p then
    match (s.tile d p).segLoads with
    | [] => .next s
    | l :: rest => .next (if s.stepOpen && !s.stopped && s.loadLanded d p l then s.segmentLoaded d p l rest else s)
  else .fault .noSuchUnit

/-! ### Switches (R176) -/

/-- CONTEXT_SWITCH_COMPLETE (R176): 16 cycles after the switch began. -/
def execContextSwitchComplete (d p : Nat) (s : State) : Host.Outcome State Fault Refusal :=
  if tileExists d p then
    match (s.tile d p).switching with
    | none => .next s
    | some m =>
      let s1 := s.advanceTo (s.now + nsOfCycles 16)
      .next ((s1.modTile d p fun t => { t with running := m, switching := none, activeAt := s1.now }).settle d p)
  else .fault .noSuchUnit

/-! ### Dark and lit (R180, R181) -/

/-- Every used context is HALTED or BLOCKED. -/
def State.allHeld (s : State) (t : Tile) : Bool :=
  (t.contexts.take s.contextsUsed).all fun c => c.state == .halted || c.state == .blocked

/-- No operation of the tile is in flight. -/
def State.tileQuiet (s : State) (d p : Nat) : Bool :=
  let t := s.tile d p
  t.segLoads.isEmpty && t.switching.isNone && (List.range 8).all fun n => s.ctxQuiet d p n

def State.keepLit (s : State) : Bool := (s.program.map fun g => bit g.modeFlags 2).getD false

/-- TILE_IDLE_DARK (R180): 4,096 cycles with every used context held and no operation in flight, since the last of
them ended or the tile was lit (log 109). -/
def execTileIdleDark (d p : Nat) (s : State) : Host.Outcome State Fault Refusal :=
  if tileExists d p then
    let t := s.tile d p
    if s.computing && s.usedTile d p && t.lit && !s.keepLit && s.allHeld t && s.tileQuiet d p then
      let s1 := s.advanceTo (t.activeAt + nsOfCycles 4096)
      .next (s1.modTile d p fun x => { x with lit := false, lighting := false })
    else .next s
  else .fault .noSuchUnit

/-- TILE_LIT (R181): the tile may issue, and its next array operation ramps. -/
def execTileLit (d p : Nat) (s : State) : Host.Outcome State Fault Refusal :=
  if tileExists d p then
    let t := s.tile d p
    if t.lighting && t.state == .available && s.dieInService d then
      .next ((s.modTile d p fun x => { x with lit := true, lighting := false, rampDue := true, activeAt := s.now }).settle d p)
    else .next s
  else .fault .noSuchUnit

/-! ### Light-ahead hints (R183) -/

/-- Lights a dark BSU. -/
def State.askBsu (s : State) (st ch : Nat) : State :=
  s.modBsu st ch fun b => if b.state = .dark then { b with lighting := true } else b

def State.hint (s : State) (d : Nat) (f : SeqField) : State :=
  match f.hintClass with
  | 1 =>
    match s.posOf d (f.hintTarget % 64) with
    | some q => s.askLight d q
    | none => s
  | 2 => s.askBsu (4 * d + bits f.hintTarget 6 5) (f.hintTarget % 32)
  | 3 => (List.range 32).foldl (fun x ch => x.askBsu (4 * d + f.hintTarget % 4) ch) s
  | _ => s

end Sys2Proof.Machine
end

