-- ==== Sys2Proof/Machine/Registers.lean ====
section
/-! DEFINITION. The registers as software reads them: the blocks of control space (space 0xF) and the
registers of BAR 0. Every register of control space is RO; an offset that the manual does not assign
reads zero (R46, R123, R188, R234, R279, R304, R331, R376, R419, R458, R497, R521, R522, R571, R573,
R585, R600 to R602, R637, R669, R707, R740, R758). -/

namespace Sys2Proof.Machine

/-! ### Looking a word up -/

/-- A 32-bit word of a block, from its 32-bit registers and its 64-bit ones, each with its offset. -/
def blockWord (regs wide : List (Nat × Nat)) (off : Nat) : Nat :=
  match regs.find? fun e => e.1 == off with
  | some e => e.2 % 2 ^ 32
  | none => assocGet 0 wide (off / 8 * 8) / 2 ^ (8 * (off % 8)) % 2 ^ 32

/-- 64-bit registers at consecutive offsets. -/
def wideFrom (off : Nat) (vs : List Nat) : List (Nat × Nat) := vs.mapIdx fun i v => (off + 8 * i, v)

/-- Word of a byte string that a block mirrors. -/
def bytesWord (b : List Byte) (off : Nat) : Nat := field b off 4

/-! ### Tiles (R123 to R128, R188 to R190, R233, R234, R279, R280, R305, R521) -/

def Tile.statusWord (t : Tile) : Nat :=
  t.state.code + 4 * bool01 t.lit + 8 * bool01 (t.known && t.spareAvailable) + 16 * bool01 t.spareFor.isSome +
    t.spareFor.getD 0 % 16 * 2 ^ 8 + t.logicalId.getD 0x3F % 64 * 2 ^ 16

/-- FLICKER_COUNT_a. -/
def Tile.flickerWord (now : Nat) (t : Tile) (a : Nat) : Nat :=
  satTo 1 (inWindow now (24 * hourNs) (t.flickerTimes.getD a [])).length +
    satTo 2 (t.flickerBoot.getD a 0) * 2 ^ 16

def Tile.contextStatus (t : Tile) : Nat :=
  (t.contexts.mapIdx fun i c => c.state.code * 8 ^ i).sum % 2 ^ 24 + t.running % 8 * 2 ^ 24 +
    bool01 t.switching.isSome * 2 ^ 27

def FaultInfo.infoWord (f : FaultInfo) : Nat :=
  f.cause % 256 + f.ctx % 8 * 2 ^ 8 + bool01 f.valid * 2 ^ 11 + f.segment % 4096 * 2 ^ 12

def FaultInfo.pcWord (f : FaultInfo) : Nat := f.bundle % 2048 + f.slot % 128 * 2 ^ 11

def NfStatus.word (n : NfStatus) : Nat :=
  bool01 n.nonFinite + 2 * bool01 n.amaxNonFinite + n.source % 16 * 2 ^ 4 + n.segment % 4096 * 2 ^ 8 +
    n.bundle % 2048 * 2 ^ 20

def StreamSlot.statusWord (x : StreamSlot) : Nat :=
  x.state.code + x.program % 4096 * 2 ^ 8 + x.blocksHeld % 128 * 2 ^ 20 + x.pc % 32 * 2 ^ 27

/-- FTC_ERROR from its kind, sub-stream and block. -/
def ftcErrorWord (e : Nat × Nat × Nat) : Nat := e.1 % 16 + e.2.1 % 8 * 2 ^ 4 + e.2.2 % 2 ^ 24 * 2 ^ 8

/-- The numeric registers of one context. -/
def Context.numericWord (c : Context) (off : Nat) : Nat :=
  blockWord [(0, c.nf.word)] [(8, c.satCount), (0x10, c.underflowCount)] off

/-- The registers of one stream slot. -/
def StreamSlot.word (x : StreamSlot) (off : Nat) : Nat :=
  blockWord [(0, x.statusWord), (4, x.causeWord.toNat)] [(8, x.bytesMoved)] off

/-- A word of a tile control block. -/
def Tile.word (now : Nat) (t : Tile) (off : Nat) : Nat :=
  if t.state = .fusedOff then (if off = 0 then t.state.code else 0)
  else if off < 0x40 then blockWord [(0, t.statusWord), (4, t.arrayRetired.toNat)] [] off
  else if off < 0x100 then (if off < 0x40 + 4 * 17 then t.flickerWord now ((off - 0x40) / 4) else 0)
  else if off < 0x200 then
    blockWord [] (wideFrom 0x100 [t.arrayCycles, t.skippedCycles, t.replayCycles, t.ramps, t.zeroGated / 1024,
      t.tmCorrected, t.tmUncorrectable, t.g4eMismatch, t.g4eEscapes]) off
  else if off < 0x400 then
    blockWord [(0x200, t.contextStatus), (0x208, t.fault.infoWord), (0x20C, t.fault.pcWord)]
      (wideFrom 0x210 [t.bundlesIssued, t.contextSwitches, t.switchCycles, t.issueHoldCycles, t.segmentLoads]) off
  else if off < 0x600 then
    blockWord [] (wideFrom 0 (t.contexts.getD ((off - 0x400) / 0x40) {}).stalls) (off % 0x40)
  else if off < 0x700 then (t.contexts.getD ((off - 0x600) / 0x20) {}).numericWord (off % 0x20)
  else if off < 0x1000 then 0
  else if off < 0x1400 then t.counters.getD ((off - 0x1000) / 4) 0 % 2 ^ 16
  else if off < 0x2000 then 0
  else if off < 0x2800 then (t.slots.getD ((off - 0x2000) / 0x10) {}).word (off % 0x10)
  else if off < 0x2A00 then ftcErrorWord (t.slots.getD ((off - 0x2800) / 4) {}).ftcError
  else 0

/-- TILE_AVAIL (R128). -/
def State.tileAvail (s : State) (d : Nat) : Nat :=
  let ts := (List.range 50).map (s.tile d)
  s.availTiles d % 64 +
    (ts.filter fun t => t.state == .available && s.dieInService d && t.spareAvailable).length % 64 * 2 ^ 8 +
    (ts.filter fun t => t.state == .retired || t.state == .selfTestFailed).length % 64 * 2 ^ 16

/-- The font block (R331, R332). -/
def Font.word (f : Font) (off : Nat) : Nat :=
  blockWord
    [(0, bool01 f.placed + 2 * bool01 f.stashFull + f.failedEntry % 8192 * 2 ^ 4 + f.failedContext % 8 * 2 ^ 17)]
    (wideFrom 8 [f.frontUsed, f.mainUsed, f.overflowUsed, f.demand, f.dropped, f.spilled, f.demandHighWater,
      f.stashFullSteps, f.recomputedSteps]) off

/-- An FTC block (R522, R523). -/
def Ftc.word (f : Ftc) (off : Nat) : Nat :=
  blockWord
    [(0, f.decBusy % 128 + f.encBusy % 64 * 2 ^ 8 + (f.decWaiting.length + f.encWaiting.length) % 1024 * 2 ^ 16)]
    (wideFrom 8 [f.blocksDecoded, f.rawBlocksDecoded, f.blocksEncoded, f.rawBlocksEncoded, f.encRawBytes,
      f.encStoredBytes, f.mismatches, f.unitWaitNs] ++ wideFrom 0x100 f.tableUse) off

/-- The 16 MiB of a compute die: its tiles, the die summary, the font block and the FTC block. -/
def State.dieWord (s : State) (d off : Nat) : Nat :=
  if off < 50 * 0x10000 then (s.tile d (off / 0x10000)).word s.now (off % 0x10000)
  else if off = 0x800000 then s.tileAvail d
  else if 0x900000 ≤ off ∧ off < 0x900100 then (s.font d).word (off - 0x900000)
  else if 0xA00000 ≤ off ∧ off < 0xA01000 then (s.ftc.getD d {}).word (off - 0xA00000)
  else 0

/-! ### Stacks and bank-side units (R458 to R463, R497 to R500) -/

/-- Time in a stage so far. -/
def Stack.stageNs (now : Nat) (k : Stack) (g : Stage) (closed : Nat) : Nat :=
  if k.stage = g then satAdd closed (now - k.stageSince) else closed

def threshWord (t : List Nat) (refresh : Nat) : Nat :=
  t.getD 0 0 % 256 + t.getD 1 0 % 256 * 2 ^ 8 + t.getD 2 0 % 256 * 2 ^ 16 + refresh % 256 * 2 ^ 24

def State.stackStatus (s : State) (st : Nat) : Nat :=
  let k := s.stack st
  k.stage.code + 4 * bool01 k.hotRefresh + 8 * bool01 (s.stackInService st) + 16 * bool01 k.idInvalid +
    32 * bool01 k.scrubLate + k.hotLayer % 16 * 2 ^ 8 + k.retiredChannels.length % 64 * 2 ^ 16

/-- REDIRECT_q: without a host the share has no physical pseudo-channel, and the field reads 0. -/
def redirectWord (red : List (Nat × Option Nat)) (q : Nat) : Nat :=
  if red.any fun e => e.1 == q then (redirectOf red q).getD 0 % 64 + 2 ^ 31 else q % 64

def Channel.word (c : Channel) (off : Nat) : Nat :=
  blockWord [] (wideFrom 0 [c.corrected, c.transient, c.uncorrectable, c.bytes]) off

/-- A word of a stack block. -/
def State.stackWord (s : State) (st off : Nat) : Nat :=
  let k := s.stack st
  if off < 0x40 then
    blockWord [(0, s.stackStatus st), (4, maskOf 32 fun c => (k.channels.getD c {}).retired),
      (8, threshWord k.thresh (k.thresh.getD 3 0)), (0xC, threshWord k.threshEffective (k.thresh.getD 3 0))] [] off
  else if off < 0x84 then twos 16 (k.layerTemp.getD ((off - 0x40) / 4) 0)
  else if off < 0xC0 then 0
  else if off < 0x1C0 then redirectWord k.redirect ((off - 0xC0) / 4)
  else if off < 0x1000 then
    blockWord [] (wideFrom 0x200 [k.corrected, k.onDieCorrected, k.transient, k.uncorrectable,
      k.lastUncorrectable.getD ones64, k.scrubCorrected, k.scrubCycles, k.scrubPosition, k.refreshPostponed,
      k.refreshForced, k.rfmIssued, k.narrowSectors, k.rmwWrites, k.stageNs s.now .warn k.warnNs,
      k.stageNs s.now .throttle k.throttleNs, k.stageNs s.now .halt k.haltNs, k.haltEntries]) off
  else if off < 0x1400 then (k.channels.getD ((off - 0x1000) / 0x20) {}).word (off % 0x20)
  else 0

/-- BOP of the running operation: that of its slice, or else of the operation that it is at (R473). -/
def State.runningBop (s : State) (b : Bsu) : Nat :=
  match b.slice, b.queue with
  | some .landing, _ => 0x24
  | some .exportOut, _ => 0x26
  | _, i :: _ => ((s.bsuOps.find? fun o => o.id == i).map fun o => o.desc.bop).getD 0
  | _, [] => b.updateOp

def State.bsuWord (s : State) (st ch off : Nat) : Nat :=
  let b := s.bsu st ch
  blockWord
    [(0, b.state.code + 4 * bool01 b.paused + 8 * bool01 b.held + (b.queue.length - 1) % 8 * 2 ^ 4 +
        s.runningBop b % 256 * 2 ^ 8),
      (4, bool01 b.nf.nonFinite + 2 * bool01 b.nf.amaxNonFinite + b.nf.source % 16 * 2 ^ 4), (8, b.cause.toNat),
      (0xC, ftcErrorWord b.ftcError)]
    (wideFrom 0x40 [b.operations, b.slices, b.internalBytes, b.heldRequests, b.holdNs, b.refreshPauses, b.satCount,
      b.underflowCount, b.ringBytes, b.sramCorrected] ++ wideFrom 0x100 b.stalls) off

/-- BSU_STACK. -/
def State.bsuStackWord (s : State) (st : Nat) : Nat :=
  let k := s.stack st
  k.dutyCap.code + (k.bsus.filter fun b => b.state == .running).length % 64 * 2 ^ 8

def State.bsuSpaceWord (s : State) (st off : Nat) : Nat :=
  if off < 32 * 0x1000 then s.bsuWord st (off / 0x1000) (off % 0x1000)
  else if off = 0x80000 then s.bsuStackWord st
  else 0

/-! ### G4E, state and sweep blocks (R304, R376, R377, R419, R420) -/

def G4eCounters.word (g : G4eCounters) (off : Nat) : Nat :=
  blockWord [] (wideFrom 0 [g.g4eId, g.saturated, g.underflow, g.escapesLast, g.guardUp, g.guardDown, g.guardLimited,
    g.scaleFixups]) off

/-- BANK and LOSS_EXP are those of the state laid out; before LOAD_PROGRAM has laid one out they read 0, as after the
boot. -/
def State.stateBlockWord (s : State) (off : Nat) : Nat :=
  let b := s.stateBlock
  let (bank, e) := if b.laidOut then (s.commit.epochBank, s.commit.scalars.lossExp) else (0, 0)
  blockWord
    [(0, b.shardIndex % 2 ^ 14 + b.replica % 2 ^ 14 * 2 ^ 16 + bank % 2 * 2 ^ 30 + bool01 b.laidOut * 2 ^ 31)]
    (wideFrom 8 [b.shardElements, b.realElements, b.flatBytes, b.factorBytes, b.placedBytes, e % 32, b.rounds, b.clearTime]) off

/-- Step of a PREPARED record in doubt, or all ones. -/
def State.preparedStep (s : State) : Nat := (s.prepared.map (·.step)).getD ones64

def State.sweepWord (s : State) (off : Nat) : Nat :=
  let w := s.sweep
  blockWord
    [(0, w.phase.code + w.outcome.code * 2 ^ 3 + w.vote % 8 * 2 ^ 5 + w.result % 8 * 2 ^ 8 + bool01 s.inDoubt * 2 ^ 11 +
        bool01 s.flipPending * 2 ^ 12 + bool01 (!s.exports.isEmpty) * 2 ^ 13 + bool01 w.diverged * 2 ^ 14 +
        w.steerMode % 4 * 2 ^ 15)]
    (wideFrom 8 [s.committedStep, s.preparedStep, w.noiseA.toNat, w.noiseG2.toNat, w.noiseB.toNat,
      s.commit.scalars.noiseEma.toNat, s.commit.scalars.nextMb % 4096, w.sweepNs, w.exportWaitNs, w.exportBytes,
      w.rollForwards, w.rollBacks, w.modeMismatches, w.digestComparisons]) off

/-! ### Ports and Beacon (R571 to R574) -/

def Port.statusWord (p : Port) : Nat :=
  p.state.code + p.width % 8 * 2 ^ 3 + bool01 (!(lanesIn p.lanes .spare).isEmpty) * 2 ^ 6 + bool01 p.ethernet * 2 ^ 7 +
    p.peerRank % 2 ^ 14 * 2 ^ 8 + p.peerPort % 8 * 2 ^ 22

def Port.laneWord (p : Port) : Nat := (p.lanes.mapIdx fun i l => l.state.code * 4 ^ i).sum

/-- CREDIT_WAIT_NS with the wait now open. -/
def Port.waitNs (now : Nat) (p : Port) : Nat :=
  match p.creditWaitSince with
  | some t => satAdd p.creditWaitNs (now - t)
  | none => p.creditWaitNs

def Port.word (now : Nat) (p : Port) (off : Nat) : Nat :=
  blockWord [(0, p.statusWord), (4, p.laneWord)]
    (wideFrom 0x100 [p.flitsSent, p.flitsReceived, p.flitCrcErrors, p.replayedFlits, p.fecCorrected, p.fecUncorrectable,
      p.waitNs now, p.packetsForwarded, p.partitionDrops, p.e2eCrcErrors, p.stalePackets, p.ethFramesSent,
      p.ethFramesReceived, p.ethCnpReceived]) off

/-- Bytes of packets held in the early-arrival reserve, headers included. -/
def Beacon.earlyBytes (b : Beacon) : Nat := (b.early.map fun e => 48 + e.2.payload.length).sum

def Beacon.word (b : Beacon) (off : Nat) : Nat :=
  blockWord
    [(0, b.instances.length % 128 + bool01 b.aborted * 2 ^ 7 + bool01 b.originator * 2 ^ 8 +
        ceilDiv b.earlyBytes 1024 % 2 ^ 14 * 2 ^ 9),
      (4, b.abortRank % 2 ^ 14 + b.abortCause % 2 ^ 16 * 2 ^ 16)]
    (wideFrom 8 [b.abortStep, b.instancesDone, b.abortsOriginated, b.abortsReceived, b.elementsReduced, b.bytesSent,
      b.earlyHeld]) off

/-! ### Fault, security, pilot and telemetry blocks (R669, R670, R707 to R711, R740, R741, R758 to R760) -/

/-- Records not acknowledged: those of the SRAM ring, and the older ones that only flash holds. -/
def State.unacked (s : State) : List EventRecord :=
  let sram := s.events.ring
  (sram ++ s.flash.eventRing.filter fun r => !sram.any fun x => x.seq == r.seq).filter fun r => !r.acknowledged

def State.faultWord (s : State) (off : Nat) : Nat :=
  let u := s.unacked
  blockWord
    [(0, u.foldl (fun m r => max m r.code.severity.code) 0 + 4 * bool01 s.alert + 8 * bool01 s.events.flashRingWrapped +
        min (u.filter EventRecord.grave).length 0xFFF * 2 ^ 4)]
    (wideFrom 8 [s.events.lastSeq, s.events.lastHeadlineSeq, s.events.retirements, s.events.manualRetirements,
      s.events.stepsAborted, s.flash.faultLog.length]) off

def State.bundleStatus (s : State) : Nat :=
  let b := s.bundle
  b.running.code + 4 * bool01 s.flash.pendingSlot.isSome + 8 * bool01 (s.flash.pendingSlot == some .b) +
    16 * bool01 b.reverted + b.failedPart % 16 * 2 ^ 8 + b.stage.code * 2 ^ 12 + b.nextIndex % 1024 * 2 ^ 16

/-- SLOT_INFO. -/
def FlashSlot.info (f : FlashSlot) : Nat :=
  f.bundleVersion.toNat + f.rollbackIndex % 128 * 2 ^ 32 + f.state.code * 2 ^ 40

/-- BREAK_NS with the BREAK now in effect (R703). -/
def State.breakNs (s : State) : Nat :=
  let t := s.tinder
  if t.broken then satAdd t.breakNs (s.now - t.breakSince) else t.breakNs

def State.securityWord (s : State) (off : Nat) : Nat :=
  let b := s.bundle
  blockWord
    [(0, s.bundleStatus), (4, Status.code b.stageStatus + b.failedCheck % 16 * 2 ^ 16), (0x18, s.fuseState),
      (0x1C, s.tinderStatus)]
    ([(8, s.flash.slotA.info), (0x10, s.flash.slotB.info), (0x20, s.flash.protection.epoch)] ++
      wideFrom 0x40 [b.blocksStaged, b.blockCrcFailures, b.stageRefusals, b.reverts, b.attestations,
        b.protectionDenials, s.breakNs, s.tinder.traceDropped]) off

def Pilot.statusWord (p : Pilot) : Nat :=
  p.bootKind.code + p.coldCause.code * 2 ^ 2 + p.railFault.toNat * 2 ^ 8 + bool01 p.wakeLow * 2 ^ 16

def State.snufferWord (s : State) : Nat :=
  let p := s.pilot
  p.level % 8 + 8 * bool01 p.therm + 16 * bool01 p.byPower + 32 * bool01 p.byTemperature +
    s.flash.policy.powerLimitW % 2 ^ 16 * 2 ^ 16

def State.pilotWord (s : State) (off : Nat) : Nat :=
  let p := s.pilot
  blockWord [(0, p.statusWord), (4, s.snufferWord)]
    (wideFrom 8 [p.powerMw, twos 16 p.dieTempMax, p.holdNs, p.levelRaises, p.thermAssertions, p.coldBoots, p.warmBoots,
      p.lastBootNs]) off

def State.telemetryStatus (s : State) : Nat :=
  min (s.tele.nextSeq - s.tele.cursor) 2047 + s.laserSpares % 8 * 2 ^ 11 + min s.wear 1000 * 2 ^ 16

def State.telemetryWord (s : State) (off : Nat) : Nat :=
  let t := s.tele
  if off < 0x1000 then
    blockWord [(0, s.telemetryStatus)]
      (wideFrom 8 [t.records, t.scrubPasses, t.scrubCorrected, t.phyCalibrations, t.rotations, t.rotationsDeferred,
        t.laserSwitchovers, t.flashRelocations, t.i3cTransfers]) off
  else if off < 0x1400 then blockWord [] (wideFrom 0x1000 t.histTemp) off
  else if 0x2000 ≤ off ∧ off < 0x4000 then blockWord [] (wideFrom 0x2000 t.histBer) off
  else if 0x4000 ≤ off ∧ off < 0x4800 then blockWord [] (wideFrom 0x4000 t.histStall) off
  else 0

/-! ### Control space -/

/-- The 32-bit word at an aligned offset of control space (the low 40 bits of the address). -/
def State.controlWord (s : State) (off : Nat) : Nat :=
  if 0x1000 ≤ off ∧ off < 0x2000 then bytesWord s.identityBlock (off - 0x1000)
  else if 0x1000000000 ≤ off ∧ off < 0x1002000000 then
    s.dieWord ((off - 0x1000000000) / 0x1000000) ((off - 0x1000000000) % 0x1000000)
  else if 0x2000000000 ≤ off ∧ off < 0x2000800000 then
    s.stackWord ((off - 0x2000000000) / 0x100000) ((off - 0x2000000000) % 0x100000)
  else if off = 0x2000800000 then s.flash.interleave % 16 + s.flash.policy.interleaveNext % 16 * 16
  else if 0x2800000000 ≤ off ∧ off < 0x2800800000 then
    s.bsuSpaceWord ((off - 0x2800000000) / 0x100000) ((off - 0x2800000000) % 0x100000)
  else if 0x4000000000 ≤ off ∧ off < 0x4800000000 then
    ((s.g4e[(off - 0x4000000000) / 0x40]?).map fun g => g.word (off % 0x40)).getD 0
  else if 0x4800000000 ≤ off ∧ off < 0x4800000100 then s.stateBlockWord (off - 0x4800000000)
  else if 0x4800000100 ≤ off ∧ off < 0x4800000200 then s.sweepWord (off - 0x4800000100)
  else if 0x5000100000 ≤ off ∧ off < 0x5000101000 then (s.ftc.getD 2 {}).word (off - 0x5000100000)
  else if 0x5001000000 ≤ off ∧ off < 0x5001080000 then
    (s.port ((off - 0x5001000000) / 0x10000)).word s.now (off % 0x10000)
  else if 0x5002000000 ≤ off ∧ off < 0x5002000100 then s.beacon.word (off - 0x5002000000)
  else if 0x5800000000 ≤ off ∧ off < 0x5800000100 then s.faultWord (off - 0x5800000000)
  else if 0x6000000000 ≤ off ∧ off < 0x6000000100 then s.securityWord (off - 0x6000000000)
  else if 0x6800000000 ≤ off ∧ off < 0x6800000100 then s.pilotWord (off - 0x6800000000)
  else if 0x7000000000 ≤ off ∧ off < 0x7000005000 then s.telemetryWord (off - 0x7000000000)
  else 0

/-- A word of space 0xF: a register, or Beacon buffer memory (R552). -/
def State.spaceFWord (s : State) (a : Nat) : Nat :=
  if beaconBase ≤ a ∧ a + 4 ≤ beaconBase + beaconBytes then s.devNat a 4 else s.controlWord (a % 2 ^ 40)

/-! ### BAR 0 (R585, R600 to R602, R637, R638)

No row of the table reads BAR 0; this is how its registers follow from the state. -/

/-- CXL.cache is in use (R577): never at 16 GT/s (R576). -/
def State.cxlCache (s : State) : Bool := s.floor.getLsbD 16 && s.host.cxlTrained && s.host.cxlEnabled && s.host.speed != 4

def State.hostWord (s : State) (off : Nat) : Nat :=
  let h := s.host
  blockWord
    [(0, h.speed % 8 + h.width % 32 * 2 ^ 3 + bool01 h.flitMode * 2 ^ 8 + bool01 s.cxlCache * 2 ^ 9 +
        bool01 h.detached * 2 ^ 10),
      (0x18, if h.errValid then h.errKind.code + 8 * bool01 h.errWrite + 2 ^ 31 else 0)]
    ([(8, h.memwinPage.toNat * 4096), (0x10, h.intStatus.toNat), (0x20, h.errAddr)] ++
      wideFrom 0x100 [h.retrains, h.linkLosses, h.windowErrors, h.dmaBytesToDevice, h.dmaBytesToHost]) off

def DmaChannel.word (c : DmaChannel) (off : Nat) : Nat :=
  blockWord
    [(8, c.ringLog2 % 16 + 16 * bool01 c.enable), (0xC, c.tail % 2 ^ 15), (0x10, c.head % 2 ^ 15),
      (0x14, c.state.code + Status.code c.lastStatus * 2 ^ 16)]
    [(0, c.ringBase % 2 ^ 44)] off

/-- LAMP_STATUS and the doorbell page. -/
def State.doorbellWord (s : State) (off : Nat) : Nat :=
  if 0x100 ≤ off ∧ off < 0x180 then (if off % 8 = 0 then (s.mbox ((off - 0x100) / 8)).state.code else 0)
  else
    blockWord
      [(0x200, DevState.code s.dev + 8 * bool01 s.host.detached + 16 * bool01 s.flash.ownerDigest.isSome +
          32 * bool01 s.lockedOut + s.lamp.faultReason.code * 2 ^ 16)]
      (wideFrom 0x300 [s.lamp.commands, s.lamp.commandsRefused, s.lamp.authFailures, s.lamp.doorbellOverruns,
        s.lamp.restarts]) off

/-- The response header and inline result of a mailbox (R607, R609). -/
def Response.bytes (r : Response) : List Byte :=
  leBytes 2 (Status.code r.status) ++ leBytes 2 (bool01 r.final + 2 * bool01 r.truncated + 4 * bool01 r.external) ++
    leBytes 4 r.sequence.toNat ++ leBytes 2 r.opcode ++ zeros 2 ++ leBytes 4 r.resultLength ++ leBytes 8 r.eventSeq ++
    zeros 40 ++ r.inline

/-- The request as the driver wrote it (R608). -/
def Mailbox.requestBytes (m : Mailbox) : List Byte :=
  let r := m.request
  leBytes 2 m.opcode ++ leBytes 2 r.flags.toNat ++ leBytes 4 r.sequence.toNat ++ leBytes 4 r.payloadLength ++
    leBytes 4 r.resultCapacity ++ leBytes 8 r.payloadAddr.toNat ++ leBytes 8 r.resultAddr.toNat ++ leBytes 1 r.role ++
    leBytes 15 r.reserved.toNat ++ leBytes 16 r.credential.toNat ++ r.payload

def Mailbox.word (m : Mailbox) (off : Nat) : Nat :=
  if off < 0x800 then bytesWord m.requestBytes off else bytesWord m.response.bytes (off - 0x800)

/-- One MSI-X table entry. -/
def MsixEntry.word (e : MsixEntry) (off : Nat) : Nat :=
  blockWord [(8, e.data.toNat), (0xC, e.control.toNat)] [(0, e.addr.toNat)] off

/-- The 32-bit word at an aligned BAR 0 offset. -/
def State.bar0Word (s : State) (off : Nat) : Nat :=
  if 0x1000 ≤ off ∧ off < 0x2000 then bytesWord s.identityBlock (off - 0x1000)
  else if 0x10000 ≤ off ∧ off < 0x11000 then s.hostWord (off - 0x10000)
  else if 0x20000 ≤ off ∧ off < 0x20800 then (s.dmaCh ((off - 0x20000) / 0x100)).word (off % 0x100)
  else if 0x30000 ≤ off ∧ off < 0x30400 then (s.host.msix.getD ((off - 0x30000) / 16) {}).word (off % 16)
  else if 0x31000 ≤ off ∧ off < 0x31008 then s.host.pba.toNat / 2 ^ (8 * (off % 8)) % 2 ^ 32
  else if 0x40000 ≤ off ∧ off < 0x41000 then s.doorbellWord (off - 0x40000)
  else if 0x100000 ≤ off ∧ off < 0x110000 then (s.mbox ((off - 0x100000) / 0x1000)).word (off % 0x1000)
  else 0

end Sys2Proof.Machine
end

