-- ==== Sys2Proof/Machine/Quant.lean ====
section
/-! DEFINITION. Re-quantisation of a G4E group and the scale guard (R283 to R285, R299 to R301), and the planes of
both arrangements (R287, R288). Scales are BF16 codes. -/

namespace Sys2Proof.Machine

/-! ### Numbers -/

def bf16 (c : Nat) : Fp := bf16Spec.decode c

/-- round_BF16_RNE. -/
def toBf16 (v : Fp) : Nat := bf16Spec.rne v

/-- A positive normal BF16 value. -/
def normalScale (c : Nat) : Bool := decide (0x80 ≤ c) && decide (c < 0x7F80)

/-- n / d to the nearest integer, ties to even. -/
def rneNat (n d : Nat) : Nat :=
  let q := n / max d 1
  let r := n % max d 1
  if d < 2 * r ∨ (2 * r = d ∧ q % 2 = 1) then q + 1 else q

/-- |w / s| rounded to an integer, for a finite `w`; an infinity is above every code, and a NaN has none. -/
def quotient (w : Fp) (s : Nat) : Option Nat :=
  match w, bf16 s with
  | .fin _ m e, .fin _ n f => some (rneNat (m * 2 ^ (e - f).toNat) (n * 2 ^ (f - e).toNat))
  | .inf _, _ => some (2 ^ 300)
  | _, _ => none

/-! ### One group (R299) -/

/-- A group as it is written: codes by position, the scale, the side entries by slot, and the scale master. -/
structure GroupOut where
  codes : List Nat
  scale : Nat
  slots : List Nat
  master : BitVec 32
  deriving DecidableEq, Repr

/-- What a group adds to the counters of R304. -/
structure QuantCount where
  saturated : Nat := 0
  underflow : Nat := 0
  escapes : Nat := 0
  up : Nat := 0
  down : Nat := 0
  limited : Nat := 0
  fixups : Nat := 0
  deriving DecidableEq, Repr

def QuantCount.plus (a b : QuantCount) : QuantCount :=
  { saturated := a.saturated + b.saturated, underflow := a.underflow + b.underflow, escapes := a.escapes + b.escapes
    up := a.up + b.up, down := a.down + b.down, limited := a.limited + b.limited, fixups := a.fixups + b.fixups }

/-- What the guard is allowed: limits in units of 2⁻¹⁶, 0 for a test that is off. -/
structure Guard where
  on : Bool
  underflow : Nat
  sat : Nat
  deriving DecidableEq, Repr

def overIn (w : List Fp) (s : Nat) : List Nat :=
  ((w.zipIdx).filter fun e => (quotient e.1 s).any fun q => decide (7 < q)).map (·.2)

def satAt (w : List Fp) (c s : Nat) : Nat := (overIn w s).length - c

def underAt (w : List Fp) (s : Nat) : Nat := (w.filter fun x => !x.isZero && quotient x s == some 0).length

/-- The guard's search: the scale, the moves made, their direction (true is up), and whether it stopped outside a
limit. -/
def guardLoop (gd : Guard) (w : List Fp) (c : Nat) : Nat → Nat → Nat → Option Bool → Nat × Nat × Option Bool × Bool
  | 0, s, moves, dir => (s, moves, dir, false)
  | fuel + 1, s, moves, dir =>
    let n := w.length
    let satOver := fun x => gd.sat != 0 && decide (gd.sat * n < satAt w c x * 65536)
    if gd.on ∧ satOver s ∧ dir ≠ some false then
      if moves < 8 ∧ normalScale (s + 0x80) then guardLoop gd w c fuel (s + 0x80) (moves + 1) (some true)
      else (s, moves, dir, true)
    else if gd.on ∧ gd.underflow ≠ 0 ∧ gd.underflow * n < underAt w s * 65536 ∧ dir ≠ some true then
      if moves < 8 ∧ normalScale (s - 0x80) ∧ !satOver (s - 0x80) then guardLoop gd w c fuel (s - 0x80) (moves + 1) (some false)
      else (s, moves, dir, true)
    else (s, moves, dir, false)

/-- Puts a position where the largest magnitudes come first, ties to the lower position. -/
def insertMag (w : List Fp) (p : Nat) : List Nat → List Nat
  | [] => [p]
  | x :: l => if ((w.getD x .zero).abs).lt (w.getD p .zero).abs then p :: x :: l else x :: insertMag w p l

def byMagnitude (w : List Fp) (l : List Nat) : List Nat := l.foldl (fun acc p => insertMag w p acc) []

def Fp.negative : Fp → Bool
  | .fin s m _ => s && m != 0
  | .inf s => s
  | .nan => false

/-- The scale that a bad one is reseeded with: from the largest weight. -/
def reseed (w : List Fp) : Nat :=
  let a := w.foldl (fun x y => if x.lt y.abs then y.abs else x) .zero
  if a.isZero then toBf16 .one
  else if a.nonFinite then toBf16 (.pow2 127)
  else toBf16 (.pow2 (max (-126) (min 127 (a.log2 - 2))))

/-- A side entry (R284). -/
def sideEntry (v pos : Nat) : Nat := v + pos * 2 ^ 16 + 2 ^ 23

/-- requantise(o, j): `nan` is the code of a weight that is not a number, which the spec does not give. -/
def requantise (gd : Guard) (c : Nat) (nan : Nat → Nat) (w : List Fp) (master : BitVec 32) : GroupOut × QuantCount :=
  let s0 := toBf16 (fp32 master)
  let bad := !normalScale s0
  let s1 := if bad then reseed w else s0
  let m1 := if bad then toFp32 (bf16 s1) else master
  let (s, moves, dir, out) := guardLoop gd w c 10 s1 0 none
  let outside := overIn w s
  let esc := (byMagnitude w outside).take c
  let code := fun (e : Fp × Nat) =>
    let sign := if e.1.negative then 8 else 0
    if esc.contains e.2 then 8
    else if outside.contains e.2 then sign + 7
    else match quotient e.1 s with
      | some 0 => 0
      | some q => sign + q
      | none => nan e.2 % 16
  let inOrder := (List.range w.length).filter fun p => esc.contains p
  let entries := inOrder.map fun p => sideEntry (toBf16 (w.getD p .zero)) p
  let up := dir == some true
  ({ codes := (w.zipIdx).map code
     scale := s
     slots := entries ++ List.replicate (c - entries.length) 0
     master := if moves = 0 then m1 else toFp32 ((fp32 m1).mul (.pow2 (if up then moves else -(moves : Int)))) },
   { saturated := outside.length - esc.length, underflow := underAt w s, escapes := esc.length
     up := if up then moves else 0, down := if dir = some false then moves else 0, limited := bool01 out, fixups := bool01 bad })

/-! ### The planes (R287, R288) -/

/-- The shape of a stored matrix: inputs, outputs, group size and side capacity. -/
structure G4eShape where
  ins : Nat
  outs : Nat
  g : Nat
  cap : Nat
  deriving DecidableEq, Repr

def G4eShape.perCol (x : G4eShape) : Nat := x.ins / max x.g 1
def G4eShape.groups (x : G4eShape) : Nat := x.outs * x.perCol
def G4eShape.scalePlane (x : G4eShape) : Nat := x.ins * x.outs / 2
def G4eShape.sidePlane (x : G4eShape) : Nat := x.scalePlane + 2 * x.groups

/-- Scale and side index of group (o, j) in the forward arrangement, and the group of an index. -/
def G4eShape.fwdIndex (x : G4eShape) (o j : Nat) : Nat := o / 4 * 4 * x.perCol + 4 * j + o % 4

def G4eShape.fwdGroup (x : G4eShape) (k : Nat) : Nat × Nat :=
  let n := 4 * max x.perCol 1
  (4 * (k / n) + k % 4, k % n / 4)

/-- The same in the transposed arrangement. -/
def G4eShape.traIndex (x : G4eShape) (o j : Nat) : Nat := j * x.outs + o

def G4eShape.traGroup (x : G4eShape) (k : Nat) : Nat × Nat := (k % max x.outs 1, k / max x.outs 1)

/-- Byte of the code plane that holds W[i, o], and which half of it. -/
def G4eShape.codePlace (x : G4eShape) (forward : Bool) (i o : Nat) : Nat × Bool :=
  let blk := if forward then o / 4 * (x.ins / 4) + i / 4 else i / 4 * (x.outs / 4) + o / 4
  let e := if forward then 4 * (i % 4) + o % 4 else 4 * (o % 4) + i % 4
  (8 * blk + e / 2, e % 2 == 1)

/-- The element whose code is nibble `e` of block `blk`. -/
def G4eShape.codeElem (x : G4eShape) (forward : Bool) (blk e : Nat) : Nat × Nat :=
  if forward then
    let n := max (x.ins / 4) 1
    (4 * (blk % n) + e / 4, 4 * (blk / n) + e % 4)
  else
    let n := max (x.outs / 4) 1
    (4 * (blk / n) + e % 4, 4 * (blk % n) + e / 4)

/-- The bytes of an arrangement, from the groups in forward order. -/
def G4eShape.image (x : G4eShape) (forward : Bool) (gs : List GroupOut) : List Byte :=
  let group := fun (o j : Nat) => gs.getD (x.fwdIndex o j) { codes := [], scale := 0, slots := [], master := 0 }
  let code := fun (blk e : Nat) =>
    let (i, o) := x.codeElem forward blk e
    (group o (i / max x.g 1)).codes.getD (i % max x.g 1) 0
  let codes := (List.range x.scalePlane).map fun b => BitVec.ofNat 8 (code (b / 8) (b % 8 * 2) + 16 * code (b / 8) (b % 8 * 2 + 1))
  let index := fun k => if forward then x.fwdGroup k else x.traGroup k
  let scales := (List.range x.groups).flatMap fun k => leBytes 2 (group (index k).1 (index k).2).scale
  let sides := (List.range x.groups).flatMap fun k =>
    (List.range x.cap).flatMap fun t => leBytes 4 ((group (index k).1 (index k).2).slots.getD t 0)
  codes ++ scales ++ sides

/-- The signed magnitude of a code for the scale gradient (R297): +0 for zero and for an escape. -/
def codeMagnitude (c : Nat) : Fp :=
  if c % 8 = 0 then .zero else .fin (decide (8 ≤ c)) (c % 8) 0

/-- The codes of group (o, j) in a forward arrangement. -/
def G4eShape.groupCodes (x : G4eShape) (b : List Byte) (o j : Nat) : List Nat :=
  (List.range x.g).map fun p =>
    let (k, high) := x.codePlace true (j * x.g + p) o
    let v := (b.getD k 0).toNat
    if high then v / 16 else v % 16

end Sys2Proof.Machine
end

