-- ==== Sys2Proof/Machine/Fabric.lean ====
section
/-! DEFINITION. Packets that reach a port (R533 to R535, R541 to R545, R559 to R568): the checks, forwarding, PUT and
its answers, collective data and flags, aborts. A row names a packet that has arrived whole: its flits are FLIT_RECEIVE's. -/

namespace Sys2Proof.Machine

/-! ### NACK reasons (R544) -/

def nackPartition : Nat := 1
def nackNoRoute : Nat := 2
def nackE2e : Nat := 3
def nackProtection : Nat := 4
def nackMemory : Nat := 5
def nackStale : Nat := 6

/-- An answer to a packet: ACK or NACK, to its source. -/
def State.answer (s : State) (ptype reason : Nat) (p : Packet) : State :=
  let a := s.packet ptype 4
  let q : Packet :=
    { a with
      dstRank := p.srcRank
      step := p.step
      entry := p.entry
      sequence := p.sequence
      address := BitVec.ofNat 64 (p.msgId.toNat + reason * 2 ^ 32) }
  s.route q.sealed q.dstRank

def State.nack (s : State) (reason : Nat) (p : Packet) : State := s.answer 0x03 reason p

/-- PUT and COLL_DATA are answered with NACK PARTITION (R543). -/
def answered (p : Packet) : Bool := p.ptype == 0x01 || p.ptype == 0x10

/-- A port that takes packets in: Torcor, and in service. -/
def State.takesPackets (s : State) (n : Nat) : Bool :=
  !(s.port n).ethernet && ((s.port n).state == .up || (s.port n).state == .degraded)

/-- A packet's place in the receive buffer is free again, and its credits go back (R538). -/
def State.freed (s : State) (n : Nat) (p : Packet) : State :=
  s.modPort n fun x => { x with creditsDue := modAt x.creditsDue p.vc (· + p.credits) }

/-- What the first checks make of a packet: the partition key, then for one that is for this device E2E_CRC. -/
def State.letIn (s : State) (n : Nat) (p : Packet) : State × Bool :=
  if !s.flash.protection.keys.contains p.key then
    let s1 := s.modPort n fun x => { x with partitionDrops := satAdd x.partitionDrops 1 }
    (if answered p then s1.nack nackPartition p else s1, false)
  else if p.crcOf ≠ p.e2eCrc then
    let s1 := s.modPort n fun x => { x with e2eCrcErrors := satAdd x.e2eCrcErrors 1 }
    (s1.nack nackE2e p, false)
  else (s.modPort n fun x => { x with bytes := x.bytes + p.payload.length }, true)

/-- The packet is for this device. -/
def State.isMine (s : State) (p : Packet) : Bool := p.neighbour || p.dstRank == s.rank

/-- A row for a packet of a type that is for this device. -/
def State.packetRow (s : State) (n : Nat) (p : Packet) (ptype : Nat) (f : State → State) : Host.Outcome State Fault Refusal :=
  if n < 8 then
    .next
      (if s.takesPackets n && p.ptype == ptype && s.isMine p then
        match (s.freed n p).letIn n p with
        | (s1, true) => f s1
        | (s1, false) => s1
      else s)
  else .fault .noSuchUnit

/-! ### Forwarding (R533, R535, R541, R543) -/

/-- A packet goes on towards its destination. -/
def State.forward (s : State) (p : Packet) : State :=
  match s.topo.bind fun t => t.nextPort s.rank p.dstRank p.vc (if p.ptype = 0x10 ∧ chainPacket s p then p.address.toNat / 4096 else p.dstRank) with
  | none => s
  | some (n, vc) =>
    match (s.port n).state with
    | .failed | .miswired => s.nack nackNoRoute p
    | .down | .training | .up | .degraded | .ethernetUp | .ethernetDown =>
      (s.sendOn n true ({ p with hops := (p.hops + 1) % 256 }.withVc vc)).modPort n fun x =>
        { x with packetsForwarded := satAdd x.packetsForwarded 1 }
where
  /-- A forwarding device sees a chain reduction by the kind of the packet's plan entry (R533). -/
  chainPacket (s : State) (p : Packet) : Bool := (s.planEntry p.entry).reduces

/-- PACKET_FORWARD (R535): a packet that is not for this device. -/
def execPacketForward (port : Nat) (pkt : Packet) (s : State) : Host.Outcome State Fault Refusal :=
  if port < 8 then
    .next
      (if s.takesPackets port && !s.isMine pkt then
        let s0 := s.freed port pkt
        if s.flash.protection.keys.contains pkt.key then s0.forward pkt
        else
          let s1 := s0.modPort port fun x => { x with partitionDrops := satAdd x.partitionDrops 1 }
          if answered pkt then s1.nack nackPartition pkt else s1
      else s)
  else .fault .noSuchUnit

/-! ### PUT (R544, R545, R695) -/

/-- The NACK reason of a write that did not happen. -/
def Denial.nackReason : Denial → Nat
  | .protection | .unassigned => nackProtection
  | .retired | .halted | .memory | .hostLost => nackMemory

/-- The fabric peer class and the region table: a Beacon buffer lies in no region, and its first 24 MiB serve
programs. -/
def State.peerCheck (s : State) (a n : Nat) : Option Denial :=
  if beaconBase ≤ a ∧ a + n ≤ beaconBase + beaconProgramBytes then none else s.checkIod (some 4) true a n

/-- The write of a PUT, with the outcome of what it must read of sectors covered in part. -/
def State.putWrite (s : State) (a : Nat) (bs : List Byte) (ecc : Ecc) : State × Option Denial :=
  match s.peerCheck a bs.length with
  | some d => (s.countDenial d, some d)
  | none =>
    s.serveWrite a bs ecc

/-- PUT_RECEIVE (R545). -/
def execPutReceive (port : Nat) (pkt : Packet) (ecc : Ecc) (s : State) : Host.Outcome State Fault Refusal :=
  s.packetRow port pkt 0x01 fun t =>
    match t.unwire pkt with
    | (t1, none) => t1.nack nackMemory pkt
    | (t1, some bs) =>
      match t1.putWrite (pkt.address.toNat % 2 ^ 44) bs ecc with
      | (t2, some d) => t2.nack d.nackReason pkt
      | (t2, none) => t2.answer 0x02 0 pkt

/-- The instance that waits for a message's acknowledgement. -/
def State.instOfMsg (s : State) (id : Nat) : Option CollInst := s.beacon.instances.find? fun i => i.unacked.contains id

/-- PACKET_ACK_RECEIVE (R545). -/
def execPacketAckReceive (port : Nat) (pkt : Packet) (s : State) : Host.Outcome State Fault Refusal :=
  s.packetRow port pkt 0x02 fun t =>
    let id := pkt.address.toNat % 2 ^ 32
    match t.instOfMsg id with
    | none => t
    | some i =>
      let j := { i with unacked := i.unacked.filter (· != id), lastActivity := t.now }
      let t1 := t.modInst i.entry i.sequence fun _ => j
      if j.unacked.isEmpty && t1.stepOpen && !t1.stopped then t1.finishInst (t1.planEntry i.entry) j else t1

/-- NACK_RECEIVE (R544): a transfer or a collective of the running step ends; nothing happens at a device whose
step has ended (R565). -/
def execNackReceive (port : Nat) (pkt : Packet) (s : State) : Host.Outcome State Fault Refusal :=
  s.packetRow port pkt 0x03 fun t =>
    if t.stepOpen && pkt.step == stepWord t.stepNo then
      t.fabricFails port pkt.srcRank pkt.entry (bits pkt.address.toNat 47 32)
    else t

/-- PUT_TIMEOUT (R545). -/
def execPutTimeout (msgId : Nat) (s : State) : Host.Outcome State Fault Refusal :=
  match s.instOfMsg msgId with
  | none => .next s
  | some i =>
    if s.stepOpen then
      .next ((s.advanceTo (i.issuedAt + s.stallLimit)).fabricFails 0xFF (s.planEntry i.entry).peer i.entry rsNoProgress)
    else .next s

/-! ### Collective packets (R559, R563, R565) -/

/-- Where a packet's step stands. -/
inductive StepOrder where
  | now | later | stale
  deriving DecidableEq, Repr

/-- The step that the device is in, or was in last, if it has accepted any. -/
def State.lastStep (s : State) : Option Nat :=
  match s.run with
  | some r => some r.k
  | none => s.session.bind (·.lastAccepted)

def State.stepOrder (s : State) (p : Packet) : StepOrder :=
  match s.lastStep with
  | none => .later
  | some k =>
    if p.step = stepWord k then if s.stepOpen then .now else .stale
    else if (stepWord k).toNat < p.step.toNat then .later
    else .stale

/-- Bytes of the early-arrival reserve (R552), less the pages that replace failing ones (R641). -/
def State.earlyReserve (s : State) : Nat := 0x800000 - 4096 * s.beacon.pagesReplaced.length

/-- A packet is held until its instance is issued; one that the full reserve cannot take stays with its sender. -/
def State.holdEarly (s : State) (port : Nat) (p : Packet) : State :=
  if s.earlyReserve < s.beacon.earlyBytes + 48 + p.payload.length then s
  else
    { s with beacon := { s.beacon with early := s.beacon.early ++ [(port, p)], earlyHeld := satAdd s.beacon.earlyHeld 1 } }

/-- Collective data or a flag word. -/
def State.collPacket (s : State) (port : Nat) (p : Packet) : State :=
  match s.stepOrder p with
  | .stale => (s.modPort port fun x => { x with stalePackets := satAdd x.stalePackets 1 }).nack nackStale p
  | .later => s.holdEarly port p
  | .now =>
    match s.instance? p.entry p.sequence with
    | some i => s.takeColl port p i
    | none => if p.sequence < s.issueCount p.entry then s else s.holdEarly port p

/-- COLL_DATA_RECEIVE (R561). -/
def execCollDataReceive (port : Nat) (pkt : Packet) (s : State) : Host.Outcome State Fault Refusal :=
  s.packetRow port pkt 0x10 fun t => t.collPacket port pkt

/-- COLL_FLAG_RECEIVE (R561). -/
def execCollFlagReceive (port : Nat) (pkt : Packet) (s : State) : Host.Outcome State Fault Refusal :=
  s.packetRow port pkt 0x11 fun t => t.collPacket port pkt

/-! ### Aborts (R567) -/

/-- A token has been received for a step. -/
def State.tokenSeen (s : State) (k : Nat) : Bool := s.beacon.tokens.any fun t => t.step == k && !t.own

/-- This device has originated an abort of a step. -/
def State.ownAbort (s : State) (k : Nat) : Bool := s.beacon.tokens.any fun t => t.step == k && t.own

/-- The step number that a packet's 32 bits stand for: the running or last one, else as they are. -/
def State.fullStep (s : State) (p : Packet) : Nat :=
  match s.lastStep with
  | some k => if p.step = stepWord k then k else k / 2 ^ 32 * 2 ^ 32 + p.step.toNat
  | none => p.step.toNat

/-- The step of a token runs here, before its COMMITTED record. -/
def State.abortable (s : State) (k : Nat) : Bool := s.stepNo == k && (s.run.map fun r => !r.committed) == some true

/-- The first token of a step: it is recorded, passed on, and acted on where the step runs. One that comes back
from an abort of this device's own has had its effect already, and so has one for a step that this device has run
and left: it is not in an earlier step (DEDUCED). -/
def State.takeAbort (s : State) (port : Nat) (p : Packet) : State :=
  let k := s.fullStep p
  let a := p.address.toNat
  let t : AbortToken :=
    { step := k, origin := a % 2 ^ 14, cause := bits a 31 16, entry := bits a 47 32 % 4096
      acted := s.abortable k || s.ownAbort k || (s.lastStep.map fun l => decide (k ≤ l)).getD false }
  if s.tokenSeen k then s
  else
    let s1 : State :=
      { s with beacon := { s.beacon with tokens := s.beacon.tokens ++ [t], abortsReceived := satAdd s.beacon.abortsReceived 1 } }
    let s2 := s1.sendAborts k t.origin t.cause t.entry (some port)
    if s2.abortable k then
      let s3 : State :=
        { s2 with
          beacon :=
            if s2.beacon.originator then { s2.beacon with aborted := true }
            else { s2.beacon with aborted := true, abortRank := t.origin, abortCause := t.cause, abortStep := k } }
      s3.newCascade.abortBy { status := .collectiveAborted, kind := 3, detail := originDetail t.origin t.cause t.entry } t.origin
    else s2

/-- ABORT_RECEIVE (R567). -/
def execAbortReceive (port : Nat) (pkt : Packet) (s : State) : Host.Outcome State Fault Refusal :=
  s.packetRow port pkt 0x20 fun t => t.takeAbort port pkt

end Sys2Proof.Machine
end

