-- ==== Sys2Proof/Machine/ImageChecks.lean ====
section
/-! DEFINITION. What LOAD_PROGRAM checks in a program image by itself: check 3 of R144, the header, the
sections and every table. -/

namespace Sys2Proof.Machine

/-- A relation holds between every two elements. -/
def allPairs {α : Type} (r : α → α → Bool) : List α → Bool
  | [] => true
  | a :: l => l.all (r a) && allPairs r l

/-- No two elements are equal. -/
def distinct (l : List Nat) : Bool := allPairs (fun a b => a != b) l

/-- Ranges, as (first, bytes), that do not overlap. -/
def disjoint (l : List (Nat × Nat)) : Bool := allPairs (fun a b => !overlaps a.1 a.2 b.1 b.2) l

/-! ### Header and directory (R135 to R138) -/

/-- The program that an image's header and directory describe. -/
def programOf (b : List Byte) : Program :=
  { programId := field b 0x20 8, requiredFeatures := field b 0x10 8, tilesCd0 := field b 0x18 1, tilesCd1 := field b 0x19 1
    contextsUsed := field b 0x1A 1, modeFlags := field b 0x1B 1, mbDefault := field b 0x1E 2
    sections := (List.range (field b 0x1C 2)).map fun i =>
      let e := slice b (0x100 + 16 * i) 16
      (field e 0 2, slice b (field e 4 4) (field e 8 4), field e 0xC 4) }

/-- Feature bits of DIE_CAP (R49) that the rules of loading name. -/
def capUnevenAllToAll : Nat := 14
def capCompat : Nat := 17
def capDeterministic : Nat := 18
def capScaleGuard : Nat := 20

def Program.requires (g : Program) (cap : Nat) : Bool := bit g.requiredFeatures cap

/-- Check 1 of R144 on an image as read. -/
def imageSizeOk (b : List Byte) (size : Nat) : Bool :=
  decide (0x100 ≤ size) && b.length == size && field b 0 4 == 0x5056535A && field b 4 2 == 1 && field b 6 2 == 0x100 &&
    field b 8 8 == size && size % 64 == 0

/-- Check 2: SHAKE256 over the image with DIGEST read as zero. -/
def imageDigestOk (b : List Byte) : Bool := shake256 (b.take 0x40 ++ zeros 64 ++ b.drop 0x80) 64 == slice b 0x40 64

def imageHeaderOk (b : List Byte) (g : Program) : Bool :=
  allZero (slice b 0x28 24) && allZero (slice b 0x80 128) && decide (g.requiredFeatures < 2 ^ 21) &&
    decide (g.tilesCd0 ≤ 48) && decide (g.tilesCd1 ≤ 48) && g.tilesCd0 + g.tilesCd1 != 0 &&
    decide (1 ≤ g.contextsUsed) && decide (g.contextsUsed ≤ 8) && decide (g.modeFlags < 8) &&
    decide (1 ≤ g.sections.length) && decide (g.sections.length ≤ 64) && decide (1 ≤ g.mbDefault) &&
    decide (g.mbDefault ≤ 4095) && (!bit g.modeFlags 0 || g.requires capDeterministic) &&
    (!bit g.modeFlags 1 || g.requires capCompat)

/-- Entry size of a section type with entries of one size; none for the others. -/
def sectionEntry (ty : Nat) : Option Nat :=
  if ty = secTileDirectory ∨ ty = secSegments then some 16
  else if ty = secCode ∨ ty = secDescriptors then some 32
  else if ty = secBarriers then some 24
  else if ty = secTensors then some 64
  else if ty = secCollectivePlan then some 128
  else none

/-- The directory: types listed once each, sections in bounds and apart, the required ones there (R137, R138). -/
def directoryOk (b : List Byte) (g : Program) : Bool :=
  let n := g.sections.length
  let es := (List.range n).map fun i => slice b (0x100 + 16 * i) 16
  let spans := es.map fun e => (field e 4 4, field e 8 4)
  let types := g.sections.map (·.1)
  (es.all fun e => field e 2 2 == 0) && (types.all fun t => decide (1 ≤ t) && decide (t ≤ 0xB)) && distinct types &&
    ([1, 2, 3, 4, 6, 7].all types.contains) &&
    (spans.all fun x => x.1 % 64 == 0 && decide (x.1 + x.2 ≤ b.length)) && disjoint ((0, 0x100 + 16 * n) :: spans) &&
    g.sections.all fun x => ((sectionEntry x.1).map fun k => x.2.1.length == k * x.2.2).getD true

/-! ### Tiles, segments, barriers (R139, R140, R143) -/

def segmentOk (g : Program) (b : List Byte) : Bool :=
  let e := segEntryOf b
  e.codeOffset % 32 == 0 && decide (1 ≤ e.bundles) && decide (e.bundles ≤ 2048) &&
    decide (e.codeOffset + 32 * e.bundles ≤ (g.sec secCode).length) && allZero (slice b 8 8)

def tileEntryOk (g : Program) (e : TileEntry) : Bool :=
  decide (e.die ≤ 1) && decide (e.logical < g.tilesOn e.die) && decide (1 ≤ e.segments) && decide (e.segments ≤ 4096) &&
    decide (e.firstSegment + e.segments ≤ g.entries secSegments) && decide (e.entrySegment < e.segments) &&
    decide (e.descs ≤ 1024) && decide (e.firstDesc + e.descs ≤ g.entries secDescriptors) &&
    (List.range e.segments).all fun n =>
      let x := (g.segment e n).successor
      x == 0xFFFF || decide (x < e.segments)

/-- Every table of tiles and segments is valid, with one entry for each declared tile. -/
def tilesOk (g : Program) : Bool :=
  (List.range (g.entries secSegments)).all (fun i => segmentOk g (g.entry secSegments 16 i)) &&
    g.tileEntries.all (tileEntryOk g) && distinct (g.tileEntries.map fun e => 256 * e.die + e.logical) &&
    g.tileEntries.length == g.tilesCd0 + g.tilesCd1

def barriersOk (g : Program) : Bool :=
  distinct (g.barriers.map (·.id)) &&
    (List.range (g.entries secBarriers)).all fun i =>
      let b := g.entry secBarriers 24 i
      let e := barrierEntryOf b
      decide (e.id ≤ 31) && allZero (slice b 1 7) && decide (e.membersCd0 < 2 ^ g.tilesCd0) &&
        decide (e.membersCd1 < 2 ^ g.tilesCd1)

/-! ### Tensors (R141, R142, R238, R282, R287, R288, R432) -/

/-- The number of stacks of a mask is one that R345 and R432 allow. -/
def stackCountOk (mask : Nat) : Bool := [1, 2, 4, 8].contains (maskStacks mask).length

def dim (t : Tensor) (i : Nat) : Nat := t.dims.getD i 1

/-- Groups of a G4E tensor, and the offsets of its planes (R287). -/
def g4eGroups (t : Tensor) : Nat := dim t 0 * dim t 1 / max (groupSize t.g4eGroup) 1
def scaleOffset (t : Tensor) : Nat := dim t 0 * dim t 1 / 2
def sideOffset (t : Tensor) : Nat := scaleOffset t + 2 * g4eGroups t

def layoutBlockRow : Nat := 1
def layoutBlockCol : Nat := 2

/-- R282, R287, R288, R295. A trainable G4E tensor is banked, and R349 puts it in CHANNEL_SLAB; of the others R288 demands
a block arrangement (DEDUCED, log 36: the later rule is the exception). -/
def g4eTensorOk (t : Tensor) : Bool :=
  t.rank == 2 && dim t 0 % max (groupSize t.g4eGroup) 1 == 0 && dim t 1 % 16 == 0 && t.layout != 0 && (t.layout == layoutSlab) == (t.flags == 1) &&
    t.size == sideOffset t + 4 * t.sideCap * g4eGroups t && (t.flags == 1 || t.flags == 2)

def tensorSlabOk (t : Tensor) : Bool :=
  t.space == 0 && stackCountOk t.mask && t.size % (32 * 256 * (maskStacks t.mask).length) == 0 &&
    (maskStacks t.mask).head? == some (daStack t.base)

def tensorEntryOk (t : Tensor) : Bool :=
  t.reservedZero && decide (t.kind ≤ 7) && decide (t.fmt ≤ 0xC) && decide (t.layout ≤ 3) && decide (t.compression ≤ 1) &&
    decide (t.g4eGroup ≤ 3) && decide (t.sideCap ≤ 8) && decide (1 ≤ t.rank) && decide (t.rank ≤ 4) &&
    (t.dims.drop t.rank).all (· == 1) && decide (t.flags < 4) && (t.space == 0 || t.space == 9 || t.space == 0xC) &&
    daSpace t.base == t.space && (t.space == 0 || t.mask == 0) && (decide (t.fmt ≤ 0xA) || t.kind == 6 || t.kind == 7) &&
    (!(fmtOf t.fmt).isMx || decide (9 < t.fmt) || dim t 0 % 32 == 0) && (t.fmt == 0xA) == (t.g4eGroup != 0) &&
    (t.fmt != 0xA || g4eTensorOk t) && (t.layout != layoutSlab || tensorSlabOk t)

def tensorsOk (g : Program) : Bool := g.tensors.all tensorEntryOk && distinct (g.tensors.map (·.id))

/-! ### The font plan (R315 to R317) -/

def fontTensorOk (e : FontEntry) (t : Tensor) : Bool :=
  t.kind == 1 && t.space == 0 && t.mask == 0 && t.base == 0 && t.compression == 0 && t.region == 0xFFFF &&
    t.size == roundUp (e.fixedBytes + e.rowBytes * e.maxRows) 4096

def fontEntryOk (g : Program) (h : FontHeader) (e : FontEntry) : Bool :=
  e.reservedZero && decide (e.die ≤ 1) && decide (e.cls ≤ 2) && decide (e.place ≤ 1) && e.fixedBytes % 256 == 0 &&
    e.rowBytes % 32 == 0 && decide (32 ≤ e.rowBytes) && decide (e.rowBytes ≤ 2 ^ 20) && decide (1 ≤ e.maxRows) &&
    decide (e.maxRows ≤ 2 ^ 20) && h.main.getD e.die 0xFFFF != 0xFFFF && ((g.tensor e.tensor).map (fontTensorOk e)).getD false

def fontOk (g : Program) : Bool :=
  match g.section? secFontPlan with
  | none => true
  | some b =>
    let h := fontHeaderOf b
    let es := g.fontEntries
    h.reservedZero && decide (1 ≤ h.entries) && decide (h.entries ≤ 8192) && h.entries == g.entries secFontPlan &&
      b.length == 32 + 32 * h.entries && es.all (fontEntryOk g h) && distinct (es.map (·.tensor)) &&
      ([0, 1].all fun d => decide ((es.filter fun e => e.die == d && e.cls == 1).length ≤ 32)) &&
      (h.lengthTensor == noTensor || ((g.tensor h.lengthTensor).map fun t => t.kind == 6 && t.fmt == 0xB).getD false)

/-! ### Stream programs (R200 to R205, R214, R321) -/

/-- Bytes of a 4 × 4 block of a format that a transposed tee moves. -/
def teeFormat (t : Tensor) : Bool := t.layout == layoutBlockRow && decide (t.fmt ≤ 4)

/-- The nesting of loops: `open_` holds the LP of the loops around, innermost first. -/
def loopsOk : List StreamInstr → List Nat → Bool
  | [], open_ => open_.isEmpty
  | i :: l, open_ =>
    if i.op = opLoop ∨ i.op = opLoopq then decide (open_.length < 4) && loopsOk l (i.lp :: open_)
    else if i.op = opEndloop then
      match open_ with
      | lp :: rest => lp == i.lp && loopsOk l rest
      | [] => false
    else loopsOk l open_

def streamInstrOk (buffered : Bool) (tee : Option Nat) (i : StreamInstr) : Bool :=
  decide (i.op ≤ opIndex) && i.reserved == 0 && (i.op != opLoop || i.imm % 2 ^ 24 != 0) &&
    (i.op != opMove ||
      (let n := i.imm % 2 ^ 24
       n % 32 == 0 && decide (32 ≤ n) && bit i.imm 24 == buffered && (tee.map fun b => n % b == 0).getD true))

/-- The header fields of R202, and R200 and R321 on its tensors. -/
def streamHeadOk (g : Program) (h : StreamHead) : Bool :=
  let ring := if h.buffering = 0 then h.ringBlocks == 0 else if h.buffering = 1 then h.ringBlocks == 2
    else decide (3 ≤ h.ringBlocks) && decide (h.ringBlocks ≤ 64)
  let buffer :=
    if h.buffering = 0 then h.blockSize == 0 && h.bufBase == 0
    else h.blockSize % 256 == 0 && decide (256 ≤ h.blockSize) && decide (h.blockSize ≤ 2 ^ 20) && h.bufBase % 256 == 0 &&
      decide (h.bufBase + h.ringBlocks * h.blockSize ≤ tileBytes) && h.dstTier == tierTile
  let side := fun (id tier : Nat) => g.tensorOk id && ((g.fontIndex id).isNone || tier == tierStack)
  h.reservedZero && decide (1 ≤ h.count) && decide (h.count ≤ 32) && decide (h.srcTier ≤ 6) && decide (h.dstTier ≤ 7) &&
    decide (h.buffering ≤ 2) && decide (h.cls ≤ 2) && decide (h.flags < 16) && !(h.decodeFtc && h.encodeFtc) && ring && buffer &&
    decide (h.deadlineNs < 2 ^ 24) && (decide (h.indexSlot ≤ 126) || (h.indexSlot == 0xFF && h.indexLimit == 0)) &&
    (if h.dstTier = tierIndex then decide (h.fifoTarget ≤ 126) else h.fifoTarget == 0xFF) &&
    side h.srcTensor h.srcTier && side h.dstTensor h.dstTier &&
    ((g.tensor h.dstTensor).map fun t => t.kind != kindMaster && t.kind != kindMoment && t.kind != kindShard).getD true

/-- The block size that every MOVE of a TEE_TRANSPOSE stream must keep; none in a block where the rules of
R214 fail. -/
def teeBlock (g : Program) (h : StreamHead) : Option Nat :=
  match g.tensor (if h.srcTensor = noTensor then h.dstTensor else h.srcTensor) with
  | some t => if teeFormat t then some (fmtOf t.fmt).block else none
  | none => none

def streamOk (g : Program) (i : Nat) : Bool :=
  let off := g.streamOffset i
  let h := g.streamHead i
  let is := (List.range h.count).map (g.streamInstr i)
  let tee := if h.teeTranspose then teeBlock g h else none
  off % 16 == 0 && decide (roundUp (4 * g.entries secStreams) 16 ≤ off) &&
    decide (off + 48 + 8 * h.count ≤ (g.sec secStreams).length) && streamHeadOk g h && (!h.teeTranspose || tee.isSome) &&
    is.all (streamInstrOk h.buffered tee) && (is.getLast?.map (·.op)) == some opEnd && (is.dropLast.all fun x => x.op != opEnd) &&
    loopsOk is []

def streamsOk (g : Program) : Bool :=
  let n := g.entries secStreams
  decide (roundUp (4 * n) 16 ≤ (g.sec secStreams).length) &&
    allZero (slice (g.sec secStreams) (4 * n) (roundUp (4 * n) 16 - 4 * n)) && (List.range n).all (streamOk g)

/-! ### The update plan (R345 to R349, R379 to R382, R295, R296, R374) -/

/-- FP32 in [0, 1). -/
def unitFp (x : BitVec 32) : Bool := dropScalarOk x

/-- FP32 positive normal. -/
def posNormal (x : BitVec 32) : Bool :=
  match fp32 x with
  | .fin s m _ => !s && m != 0 && decide (2 ^ 23 ≤ x.toNat % 2 ^ 31)
  | .nan | .inf _ => false

/-- The used entries of PERMITTED_MB come first, ascending; the rest are zero. -/
def permittedOk (l : List Nat) : Bool :=
  let used := l.takeWhile (· != 0)
  !used.isEmpty && (l.drop used.length).all (· == 0) && allPairs (fun a b => decide (a < b)) used && used.all fun m => decide (m ≤ 4095)

def planHeaderOk (h : PlanHeader) : Bool :=
  h.reservedZero && decide (h.g4eCount ≤ 1024) && decide (h.deltaSink ≤ 2) && (h.deltaSink != 0 || h.deltaTarget == 0) && (h.deltaSink != 1 || decide (h.deltaTarget ≤ 15)) &&
    decide (1 ≤ h.growthInterval) && decide (1 ≤ h.steerInterval) && unitFp h.beta1 && unitFp h.beta2 && posNormal h.eps &&
    posNormal h.epsFactor && posNormal h.steerGain && permittedOk h.permittedMb

def flatLength (g : Program) : Nat := (g.flatRecords.map (·.elements)).sum

def stateHeaderOk (g : Program) (h : StateHeader) : Bool :=
  let named := fun (m r : Nat) => (r == 0xFFFF) == (m == 0)
  h.reservedZero && decide (1 ≤ h.shardGroup) && decide (h.shardGroup ≤ 16384) && decide (1 ≤ h.replicas) &&
    decide (h.replicas ≤ 16384) && [1, 2, 4, 8].contains h.split && decide (h.split * h.shardGroup * h.replicas ≤ 16384) &&
    decide (h.gradMode ≤ 1) && decide (1 ≤ h.momentKind) && decide (h.momentKind ≤ 3) && decide (h.momentFormat ≤ 1) &&
    (h.momentKind != 2 || h.momentFormat == 0) && decide (h.initLossExp ≤ 24) && (h.gradMode != 0 || h.initLossExp == 0) &&
    stackCountOk h.stackMask && named (h.stackMask % 16) h.regionCd0 && named (h.stackMask / 16) h.regionCd1 &&
    decide (h.recordCount ≤ 65536) && h.bankOffset % 4096 == 0 && h.vectorElements == flatLength g &&
    h.shardElements == shardSize h.vectorElements h.shardGroup && (decide (1 < h.split)) == bit g.modeFlags 1 &&
    (!bit g.modeFlags 1 || (h.shardGroup == 1 && g.flatRecords.isEmpty))

/-- RULE agrees with MOMENT_KIND (R382). -/
def ruleOk (rule kind : Nat) : Bool :=
  match rule with
  | 1 | 2 => kind == 1 || kind == 3
  | 3 => kind == 2 || kind == 3
  | 4 => kind == 3
  | _ => false

/-- A banked tensor of a kind and a format (R349). -/
def bankedOk (g : Program) (id kind fmt : Nat) : Bool :=
  ((g.tensor id).map fun t => t.kind == kind && t.fmt == fmt && t.layout == layoutSlab).getD false

/-- A gradient tensor: CHANNEL_SLAB, in the GRAD_MODE format. -/
def gradOk (g : Program) (h : StateHeader) (id : Nat) : Bool :=
  ((g.tensor id).map fun t => t.fmt == h.gradFmt && t.layout == layoutSlab).getD false

def flatTensorOk (t : Tensor) : Bool :=
  t.kind == kindShard && t.fmt == 1 && t.space == 0 && t.mask == 0 && t.base == 0 && t.size == 0 && t.region == 0xFFFF

/-- A record, of which those before it hold `flat` positions. -/
def recordOk (g : Program) (h : StateHeader) (flat : Nat) (r : ParamRecord) : Bool :=
  r.reservedZero && decide (r.placement ≤ 1) && ruleOk r.rule h.momentKind && decide (r.flags < 4) &&
    (!bit r.flags 0 || posNormal r.clip) && ((g.tensor r.param).map fun t => t.elements == r.elements).getD false &&
    if r.placed then
      r.flatOffset == 0 && bankedOk g r.param kindShard 1 && bankedOk g r.master kindMaster 0 && gradOk g h r.grad &&
        (if r.rule = 3 then r.moment == noTensor else bankedOk g r.moment kindMoment h.momentFmt) &&
        if 3 ≤ r.rule then bankedOk g r.factor kindMoment 0 else r.factor == noTensor
    else
      r.flatOffset == flat && [r.master, r.moment, r.grad, r.factor].all (· == noTensor) && ((g.tensor r.param).map flatTensorOk).getD false

/-- The records in order, with the flat length before each. -/
def recordsOk (g : Program) (h : StateHeader) : List ParamRecord → Nat → Bool
  | [], _ => true
  | r :: l, flat => recordOk g h flat r && recordsOk g h l (if r.placed then flat else flat + r.elements)

/-- A limit of a G4E record (R296). -/
def limitOk (x : Nat) : Bool := x == 0 || (decide (0x100 ≤ x) && decide (x ≤ 0x8000))

/-- A trainable arrangement: banked, so in channel-local layout (R349); its record tells which of the two it is (R296). -/
def arrangementOk (g : Program) (id : Nat) (like : Option Tensor) : Bool :=
  match g.tensor id with
  | none => false
  | some t =>
    t.fmt == 0xA && t.kind == kindShard && t.flags == 1 && t.layout == layoutSlab &&
      (like.map fun u => t.dims == u.dims && t.g4eGroup == u.g4eGroup && t.sideCap == u.sideCap).getD true

def g4eRecordOk (g : Program) (h : StateHeader) (r : G4eRecord) : Bool :=
  let full := r.mode == 2
  r.reservedZero && (r.mode == 1 || full) && decide (r.flags < 2) && (r.flags == 0 || (full && g.requires capScaleGuard)) &&
    limitOk r.underflowLimit && limitOk r.satLimit && arrangementOk g r.tensor none &&
    (r.transposed == noTensor || arrangementOk g r.transposed (g.tensor r.tensor)) &&
    (if full then bankedOk g r.weightMaster kindMaster 0 else r.weightMaster == noTensor) && bankedOk g r.scaleMaster kindMaster 0 &&
    gradOk g h r.weightGrad && ((g.tensor r.scaleGrad).map fun t => t.fmt == 0).getD false

/-- R295: a trainable G4E tensor is one that a record names, and a frozen one is not. -/
def g4eFlagsOk (g : Program) : Bool :=
  let rs := g.g4eRecords
  distinct (rs.map (·.tensor)) &&
    g.tensors.all fun t => t.fmt != 0xA || (t.flags == 1) == (rs.any fun r => r.tensor == t.id || r.transposed == t.id)

def planOk (g : Program) : Bool :=
  match g.section? secUpdatePlan with
  | none => !bit g.modeFlags 1
  | some b =>
    let h := planHeaderOf b
    let n := h.state.recordCount
    decide (128 ≤ b.length) && planHeaderOk h && decide (n ≤ 65536) && b.length == 128 + 64 * n + 32 * h.g4eCount &&
      g.entries secUpdatePlan == n + h.g4eCount && stateHeaderOk g h.state && recordsOk g h.state g.records 0 &&
      g.g4eRecords.all (g4eRecordOk g h.state)

/-! ### The expert table (R371) -/

/-- The home list: it ends with the last entry that a layer names (DESIGN CHOICE, log 102: no field gives its length). -/
def homeShards (b : List Byte) : List Nat :=
  let n := field b 0 2
  let used := (List.range n).foldl (fun m i => max m (field b (24 + 16 * i) 4 + field b (20 + 16 * i) 2)) 0
  (List.range used).map fun k => field (b.drop (16 + 16 * n)) (2 * k) 2

def expertsOk (g : Program) : Bool :=
  match g.section? secExperts with
  | none => true
  | some b =>
    let n := field b 0 2
    let layer := fun i => slice b (16 + 16 * i) 16
    let homes := b.drop (16 + 16 * n)
    let used := (homeShards b).length
    g.requires capUnevenAllToAll && decide (1 ≤ n) && decide (n ≤ 4096) && n == g.entries secExperts && allZero (slice b 2 14) &&
      decide (16 + 16 * n ≤ b.length) && b.length % 16 == 0 && decide (2 * used ≤ homes.length) && allZero (homes.drop (2 * used)) &&
      decide (homes.length < 2 * used + 16) &&
      ((List.range n).all fun i =>
        let e := layer i
        decide (1 ≤ field e 4 2) && decide (field e 4 2 ≤ 4096) && field e 6 2 == 0 && field e 0xC 4 == 0 &&
          (i == 0 || decide (field (layer (i - 1)) 0 4 < field e 0 4))) &&
      (homeShards b).all fun x => (g.plan.map fun h => decide (x < h.state.shardGroup)).getD true

/-! ### The collective plan (R554, R555, R321) -/

/-- A BSU operation of STREAM names no font tensor through its stream program (R321). -/
def bsuFontOk (g : Program) (e : CollEntry) : Bool :=
  let o := bsuDescOf e.params
  e.kind != ckBsuOp || !o.streams ||
    (let h := g.streamHead o.streamProgram
     (g.fontIndex h.srcTensor).isNone && (g.fontIndex h.dstTensor).isNone)

/-- The geometry that a state header gives by itself. -/
def planGeo (h : StateHeader) : Geo :=
  { k := h.split, n := h.shardGroup, h := h.replicas, d := h.split * h.shardGroup * h.replicas }

def collsOk (g : Program) : Bool :=
  decide (g.entries secCollectivePlan ≤ 4080) &&
    g.collEntries.all fun e =>
      collEntryOk g e && decide (e.tile < g.tilesOn e.die) && bsuFontOk g e &&
        (g.plan.map fun h => collSizesOk (planGeo h.state) e).getD true

/-- Check 3 of R144. -/
def imageTablesOk (b : List Byte) (g : Program) : Bool :=
  imageHeaderOk b g && directoryOk b g && tilesOk g && barriersOk g && tensorsOk g && fontOk g && streamsOk g && planOk g &&
    g4eFlagsOk g && expertsOk g && collsOk g

end Sys2Proof.Machine
end

