-- ==== Sys2Proof/Machine/BundleChecks.lean ====
section
/-! DEFINITION. Check 4 of LOAD_PROGRAM: every bundle decodes, and meets the static rules that rest on its
tile, its segment and the program's tables (R94, R145). -/

namespace Sys2Proof.Machine

/-- Whose bundle it is: die, logical tile, directory entry, and the bundles of the segment around it. -/
structure BundlePlace where
  die : Nat
  logical : Nat
  entry : TileEntry
  bundles : Nat

/-- An initial descriptor of the tile; none at or above DESC_COUNT, which the load does not check. -/
def initialDesc (g : Program) (e : TileEntry) (i : Nat) : Option (List Byte) :=
  if i < e.descs then some (g.entry secDescriptors 32 (e.firstDesc + i)) else none

/-- The descriptors that the slots name. -/
def slotDescsOk (g : Program) (x : BundlePlace) (b : BundleOps) : Bool :=
  let ok := fun (i : Nat) (f : List Byte → Bool) => ((initialDesc g x.entry i).map f).getD true
  (b.array.map fun a => ok a.desc (arrayDescOk a)).getD true &&
    ((vecOpcodeOf b.vector.vop).map fun o => ok b.vector.desc (vecDescOk o)).getD true &&
    match b.control with
    | .xfer desc _ => ok desc (xferDescOk x.die (g.tilesOn (1 - x.die)))
    | .nop | .wait .. | .signal .. | .yieldOp | .barrier _ | .coll .. | .fence _ | .halt => true

/-- The font side of a stream program names no font tensor of the other die (R321). -/
def fontOfDie (g : Program) (die id : Nat) : Bool :=
  match g.fontIndex id with
  | some i => ((g.fontEntries[i]?).map fun e => e.die == die).getD true
  | none => true

/-- A BIND names a stream program that the tile may bind. -/
def bindOk (g : Program) (die : Nat) (o : StreamOp) : Bool :=
  o.sop != 1 ||
    (decide (o.arg < g.entries secStreams) &&
      (let h := g.streamHead o.arg
       fontOfDie g die h.srcTensor && fontOfDie g die h.dstTensor))

/-- Targets of control operations. -/
def controlTargetsOk (g : Program) (x : BundlePlace) (c : ControlOp) : Bool :=
  match c with
  | .signal _ scope target _ =>
    match scope with
    | 1 => decide (target < g.tilesOn x.die)
    | 2 => decide (target < g.tilesOn (1 - x.die))
    | _ => true
  | .barrier id => g.barriers.any fun e => e.id == id && e.member x.die x.logical
  | .coll entry _ =>
    let e := g.collEntry entry
    decide (entry < g.entries secCollectivePlan) && e.die == x.die && e.tile == x.logical
  | .nop | .wait .. | .yieldOp | .xfer .. | .fence _ | .halt => true

/-- Targets of the sequencing field and its hint. -/
def sequenceTargetsOk (g : Program) (x : BundlePlace) (f : SeqField) : Bool :=
  (!(f.seq == 4 || f.seq == 8) || decide (f.imm % 2048 < x.bundles)) && (f.seq != 5 || decide (f.imm < x.entry.segments)) &&
    (f.hintClass != 1 || decide (f.hintTarget % 64 < g.tilesOn x.die))

def bundlePlacedOk (g : Program) (x : BundlePlace) (b : BundleOps) : Bool :=
  slotDescsOk g x b && bindOk g x.die b.stream0 && bindOk g x.die b.stream1 && controlTargetsOk g x b.control &&
    sequenceTargetsOk g x b.seq

/-! ### Features (R49, R94) -/

/-- The feature bit that covers an operand format of the arrays. -/
def formatFeature (c : Nat) : Nat := if c ≤ 2 then 0 else if c ≤ 4 then 1 else if c ≤ 9 then 2 else 3

/-- The feature bits that an array operation uses: its formats (DEDUCED from R145: an operation class of R49),
BACKWARD_PAIR and TRANSPOSED_READ. -/
def arrayFeatures (a : ArraySlot) : List Nat :=
  [formatFeature a.fmtA, formatFeature a.fmtB] ++ (if a.pair then [formatFeature a.fmtP, 4] else []) ++
    if a.transA || a.transB || oddFed a then [5] else []

/-- Those of a vector operation: an ACCUM into 16 bits rounds stochastically (R161). The descriptor decides, and one
that the program writes later is not seen at load (R158). -/
def vectorFeatures (g : Program) (e : TileEntry) (v : VecSlot) : List Nat :=
  if vecOpcodeOf v.vop = some .accum then
    ((initialDesc g e v.desc).map fun b => if (vecDescOf b).fmtD = 0 then [] else [7]).getD []
  else []

/-- Those of a stream operation: a BIND of a stream that an FTC unit serves (R213). -/
def streamFeatures (g : Program) (o : StreamOp) : List Nat :=
  let h := g.streamHead o.arg
  if o.sop = 1 ∧ (h.decodeFtc ∨ h.encodeFtc) then [13] else []

def bundleFeatures (g : Program) (e : TileEntry) (b : BundleOps) : List Nat :=
  (b.array.map arrayFeatures).getD [] ++ vectorFeatures g e b.vector ++ streamFeatures g b.stream0 ++ streamFeatures g b.stream1

/-! ### The check -/

def bundleWords (code : List Byte) (n : Nat) : List Nat := (List.range n).map fun i => leNat (slice code (32 * i) 32)

/-- The segments of the program, each with its place. -/
def placedSegments (g : Program) : List (BundlePlace × List Nat) :=
  g.tileEntries.flatMap fun e =>
    (List.range e.segments).map fun n =>
      let x := g.segment e n
      ({ die := e.die, logical := e.logical, entry := e, bundles := x.bundles }, bundleWords (g.segmentCode x) x.bundles)

/-- Check 4 of R144. -/
def imageCodeOk (g : Program) : Bool :=
  (bundleWords (g.sec secCode) ((g.sec secCode).length / 32)).all bundleOk &&
    (placedSegments g).all fun x =>
      x.2.all fun w =>
        let b := bundleOf w
        bundlePlacedOk g x.1 b && (bundleFeatures g x.1.entry b).all g.requires

end Sys2Proof.Machine
end

