-- ==== Sys2Proof/Machine/Load.lean ====
section
/-! DEFINITION. LOAD_PROGRAM (R144, R146, R314, R346, R356, R359, R376, R377, R400, R630): the checks that rest
on the device, the layout of the state, and the loaded program in place. -/

namespace Sys2Proof.Machine

/-! ### Where tensors lie (R349, R432, R433) -/

/-- The ranges of device addresses of a tensor, moved by a bank's displacement. -/
def State.tensorPieces (s : State) (t : Tensor) (shift : Nat) : List (Nat × Nat) :=
  if t.layout = layoutSlab then
    let clo := (cloOf s.ileave (daSo t.base)).2
    (maskStacks t.mask).flatMap fun st => (List.range 32).map fun ch => (cloAddr s.ileave st ch clo + shift, t.sliceBytes)
  else [(t.base + shift, t.size)]

/-- Both banks of a banked tensor, the one copy of another. -/
def State.bankedPieces (s : State) (g : Program) (t : Tensor) : List (Nat × Nat) :=
  s.tensorPieces t 0 ++ if g.banked.contains t.id then s.tensorPieces t ((g.plan.map fun h => h.state.bankOffset).getD 0) else []

/-- The slices of a CHANNEL_SLAB tensor stay in the channel-local part of their channels. -/
def State.slabFits (s : State) (t : Tensor) (shift : Nat) : Bool :=
  let c := cloOf s.ileave (daSo t.base)
  t.layout != layoutSlab ||
    (decide (s.ileave ≤ daSo t.base) && c.1 == 0 && decide (c.2 + shift + t.sliceBytes ≤ 2 * slabZ s.ileave))

/-- An entry holds `n` bytes from an address. -/
def Region.holds (i : Nat) (r : Region) (a n : Nat) : Bool :=
  if r.layout = 1 then
    let last := a + max n 1 - 1
    daSpace a == 0 && daStack a == daStack last && r.stackMask.testBit (daStack a) && decide (i ≤ daSo a) &&
      (let c := cloOf i (daSo a)
       let d := cloOf i (daSo last)
       let b := (cloOf i (daSo r.base)).2
       c.1 == d.1 && decide (b ≤ c.2) && decide (d.2 < b + r.size))
  else decide (r.base ≤ a) && decide (a + n ≤ r.base + r.size)

def State.region (s : State) (i : Nat) : Option Region := s.flash.protection.regions.getD i none

/-- Tensors that check 7 covers: all but font tensors and the logical tensors of FLAT records (R317, R348). -/
def Program.placedTensors (g : Program) : List Tensor :=
  g.tensors.filter fun t => (g.fontIndex t.id).isNone && !(g.flatRecords.any fun r => r.param == t.id)

/-- COMPRESSION of a tensor against its region's (R693). -/
def compressionOk (r : Region) (t : Tensor) : Bool := r.compression != (if t.compression = 1 then 1 else 2)

def State.tensorPlaced (s : State) (g : Program) (t : Tensor) : Bool :=
  match s.region t.region with
  | none => false
  | some r =>
    compressionOk r t && s.slabFits t 0 &&
      (!g.banked.contains t.id || s.slabFits t ((g.plan.map fun h => h.state.bankOffset).getD 0)) &&
      (s.bankedPieces g t).all fun p => r.holds s.ileave p.1 p.2

/-! ### Font pools and state regions (R314, R346, R356) -/

def poolRights (r : Region) : Bool := r.rights.getLsbD 2 && r.rights.getLsbD 3

/-- The stack of every byte of an entry lies on a die. -/
def Region.onDie (die : Nat) (r : Region) : Bool :=
  r.space == 0 && if r.layout = 1 then (maskStacks r.stackMask).all fun st => stackDie st == die else stackDie (daStack r.base) == die

def State.poolOk (s : State) (i : Nat) (place : Region → Bool) : Bool :=
  i == 0xFFFF ||
    match s.region i with
    | some r => poolRights r && place r
    | none => false

def State.fontPoolsOk (s : State) (g : Program) : Bool :=
  match g.fontHeader with
  | none => true
  | some h =>
    let pools := fun d => [h.front.getD d 0xFFFF, h.main.getD d 0xFFFF, h.overflow.getD d 0xFFFF].filter (· != 0xFFFF)
    ((pools 0).all fun i => !(pools 1).contains i) &&
      [0, 1].all fun d =>
        s.poolOk (h.front.getD d 0xFFFF) (fun r => r.space == 9 && bits r.base 32 32 == d) &&
          s.poolOk (h.main.getD d 0xFFFF) (Region.onDie d) &&
          s.poolOk (h.overflow.getD d 0xFFFF) fun r => r.space == 0 || r.space == 0xC

/-- Bytes of the flat state on channel `n`, factor area included. -/
def State.channelState (s : State) (g : Program) (h : StateHeader) (n : Nat) : Nat := h.factorOffset + s.factorArea g h n

/-- The address range of the flat state on each channel, in the geometry of a program. -/
def State.flatPieces (s : State) (g : Program) (h : StateHeader) : List (Nat × Nat) :=
  (List.range h.channels).map fun n => (s.stateAddr h n 0, s.channelState g h n)

/-- Every channel has room in its state region, and no tensor of the image lies over the flat layout. -/
def State.stateRegionsOk (s : State) (g : Program) : Bool :=
  match g.plan with
  | none => true
  | some p =>
    let h := p.state
    let fits := (List.range h.channels).all fun n =>
      let c := h.channel n
      match s.stateRange h c.1 c.2 with
      | some r => decide (s.channelState g h n ≤ r.2)
      | none => false
    let flat := s.flatPieces g h
    fits && g.placedTensors.all fun t => (s.bankedPieces g t).all fun x => flat.all fun y => !overlaps x.1 x.2 y.1 y.2

/-! ### Lost and absent places (check 8, R359) -/

/-- The regions that check 8 covers: of tensors, font pools and the flat state. -/
def Program.namedRegions (g : Program) : List Nat :=
  let font := (g.fontHeader.map fun h => h.front ++ h.main ++ h.overflow).getD []
  let state := (g.plan.map fun h => [h.state.regionCd0, h.state.regionCd1]).getD []
  ((g.placedTensors.map (·.region)) ++ (font ++ state).filter (· != 0xFFFF)).eraseDups

/-- A region is lost, or lies on a stack or die out of service. -/
def State.regionGone (s : State) (r : Region) : Bool :=
  r.lost ||
    match r.space with
    | 0 => if r.layout = 1 then (maskStacks r.stackMask).any fun st => !s.stackInService st else !s.stackInService (daStack r.base)
    | 9 => !s.dieInService (bits r.base 32 32)
    | _ => false

/-- Check 8 of R144, check 6 of R631. -/
def State.regionsGone (s : State) (g : Program) : Bool :=
  g.namedRegions.any fun i => ((s.region i).map s.regionGone).getD true

/-- Each die's available tiles suffice (R119). -/
def State.tilesSuffice (s : State) (g : Program) : Bool := [0, 1].all fun d => decide (g.tilesOn d ≤ s.availTiles d)

def State.placedOk (s : State) (g : Program) : Bool :=
  g.placedTensors.all (s.tensorPlaced g) && s.fontPoolsOk g && s.stateRegionsOk g && s.copiesFit g

/-- Fields of check 3 whose range rests on the device: DELTA_TARGET of a HOST sink names a region of space 0xC (R379, R380),
and without a plan every HOME_SHARD lies below the devices of the job (R371, R556). -/
def State.fieldsOk (s : State) (g : Program) : Bool :=
  match g.plan with
  | some p => p.deltaSink != 2 || ((s.region p.deltaTarget).map fun r => r.space == 0xC).getD false
  | none => ((g.section? secExperts).map fun b => (homeShards b).all fun x => decide (x < (geoOf g s.devices).n)).getD true

/-- The first check of R144 that an image fails, with its status. -/
def State.loadFailure (s : State) (b : List Byte) (size : Nat) : Option (Nat × Status) :=
  let g := programOf b
  let t : State := { s with program := some g }
  if !imageSizeOk b size then some (1, .programRejected)
  else if !imageDigestOk b then some (2, .programRejected)
  else if !imageTablesOk b g || !s.fieldsOk g then some (3, .programRejected)
  else if !imageCodeOk g then some (4, .programRejected)
  else if s.floor.toNat &&& g.requiredFeatures ≠ g.requiredFeatures then some (5, .featureMissing)
  else if !s.tilesSuffice g then some (6, .insufficientUnits)
  else if !t.placedOk g then some (7, .programRejected)
  else if s.regionsGone g then some (8, .unitRetired)
  else none

/-! ### The loaded program -/

/-- The map of logical tiles to available positions (R120). -/
def State.formMap (s : State) (g : Program) : State :=
  let pos := fun d => (List.range 50).filter fun p => (s.tile d p).state == .available
  { s with
    tiles := s.tiles.mapIdx fun i t =>
      let d := i / 50
      let l := (pos d).idxOf (i % 50)
      { t with logicalId := if t.state = .available ∧ s.dieInService d ∧ l < g.tilesOn d then some l else none } }

/-- The gradient tensors of placed and G4E records. -/
def Program.gradTensors (g : Program) : List Tensor :=
  ((g.records.filter (·.placed)).map (·.grad) ++ g.g4eRecords.flatMap fun r => [r.weightGrad, r.scaleGrad]).filterMap g.tensor

/-- Zeros over ranges of device memory. -/
def State.zeroPieces (s : State) (l : List (Nat × Nat)) : State := l.foldl (fun x p => x.writeDev p.1 (zeros p.2)) s

/-- CLEAR: +0 over every gradient copy (R369, R473). -/
def State.clearGradients (s : State) (g : Program) : State :=
  match g.plan with
  | none => s
  | some p =>
    let h := p.state
    let flat := (List.range h.channels).map fun n => (s.stateAddr h n (h.arrayOffset 0 .grad), h.gradBytes * h.perChannel)
    s.zeroPieces (flat ++ g.gradTensors.flatMap fun t => s.tensorPieces t 0)

/-- Positions of channel `n`'s slice that are padding: how many of its first are real (R351, R356). -/
def State.realOn (s : State) (h : StateHeader) (n : Nat) : Nat :=
  min h.perChannel (h.vectorElements - (s.shardIndex * h.shardElements + n * h.perChannel))

/-- +0 over every copy of the padding elements, in both banks (R352). -/
def State.clearPadding (s : State) (g : Program) : State :=
  match g.plan with
  | none => s
  | some p =>
    let h := p.state
    s.zeroPieces ((List.range h.channels).flatMap fun n =>
      let k := s.realOn h n
      if k = h.perChannel then []
      else [0, 1].flatMap fun bank => [Copy.master, .moment, .gather].map fun c =>
        (s.stateAddr h n (h.arrayOffset bank c + h.copyBytes c * k), h.copyBytes c * (h.perChannel - k)))

/-- Real elements of the shard (R351). -/
def State.realElements (s : State) (h : StateHeader) : Nat :=
  let r := shardRange h s.shardIndex
  min r.2 h.vectorElements - min r.1 h.vectorElements

/-- The state block after the layout (R376, R377). -/
def State.laidOut (s : State) (g : Program) : StateBlock :=
  match g.plan with
  | none => { s.stateBlock with laidOut := false, shardElements := 0, realElements := 0, flatBytes := 0, factorBytes := 0, placedBytes := 0 }
  | some p =>
    let h := p.state
    let banked := (g.banked.filterMap g.tensor).filter fun t => g.placedTensors.any fun u => u.id == t.id
    { s.stateBlock with
      laidOut := true
      shardElements := h.shardElements
      realElements := s.realElements h
      flatBytes := h.channels * h.factorOffset
      factorBytes := ((List.range h.channels).map (s.factorArea g h)).sum
      placedBytes := 2 * (banked.map (·.size)).sum + (g.gradTensors.map (·.size)).sum
      clearTime := 0 }

/-- The image takes the place of the loaded program. -/
def State.install (s : State) (g : Program) : State × Bool :=
  let t : State :=
    { s with program := some g, hbm := s.hbm.map (fun k => { k with bsus := k.bsus.map (Bsu.leaveUpdate s.now) }), fonts := [{}, {}], clearing := false, sweep := { s.sweep with diverged := false }
             g4e := g.g4eRecords.map fun r => { g4eId := r.tensor } }
  let u : State := (t.formMap g).writeCopies g
  ((({ u with stateBlock := u.laidOut g } : State).clearGradients g).clearPadding g).adoptArea g

/-! ### The command (R630) -/

/-- The bytes of an image, as far as Lamplighter can read them. -/
def State.readImage (s : State) (a size : Nat) (ecc : Ecc) : State × List Byte :=
  if size < 0x100 ∨ size % 64 ≠ 0 ∨ (s.checkAccess none false a size).isSome then (s, [])
  else
    match s.serveRead a size ecc with
    | (t, .ok b) => (t, b)
    | (t, .error _) => (t, [])

def State.loadResult (s : State) (id failed : Nat) (adopted : Bool) : List Byte :=
  leBytes 8 id ++ leBytes 8 s.committedStep ++ leBytes 1 failed ++ leBytes 1 (bool01 adopted) ++ leBytes 1 (s.availTiles 0) ++
    leBytes 1 (s.availTiles 1) ++ zeros 4

/-- LOAD_PROGRAM of an image at an address. A refusal has no effect but its response (R621). -/
def State.loadImage (s : State) (n a size : Nat) (ecc : Ecc) : State :=
  let (t, b) := s.readImage a size ecc
  match t.loadFailure b size with
  | some (k, st) => s.refuseWith n st (s.loadResult (field b 0x20 8) k false)
  | none =>
    let (u, adopted) := (t.respondPending n 0).install (programOf b)
    u.respond n .ok (u.loadResult (field b 0x20 8) 0 adopted)

def specLoadProgram : CmdSpec := { opcode := 0x20, states := readyOnly, cls := some .step, lengthOk := fun k => k == 16 }

/-- LOAD_PROGRAM (R144, R630). -/
def execLoadProgram (n : Nat) (r : Request) (ecc : Ecc) (s : State) : Host.Outcome State Fault Refusal :=
  onMailbox n (s.command n specLoadProgram r fun t p =>
    let a := field p 0 8
    if daSpace a = 0 ∨ daSpace a = 0xC then t.loadImage n a (field p 8 8) ecc else t.refuse n .badField)

end Sys2Proof.Machine
end

