-- ==== Sys2Proof/Machine/Font.lean ====
section
/-! DEFINITION. The font of a step (R314 to R332): row counts, placement and gate words. -/

namespace Sys2Proof.Machine

/-! ### Row counts (R319) -/

/-- Where micro-batch `m`'s row count lies. -/
def State.rowCountAddr (s : State) (t : Tensor) (m : Nat) : Nat := s.tensorByte t (4 * m)

/-- Lamplighter can read a row count. -/
def State.rowCountReadable (s : State) (t : Tensor) (m : Nat) : Bool :=
  let a := s.rowCountAddr t m
  (s.checkAccess none false a 4).isNone && !(daSpace a == 0 && s.failing a 4)

/-- The row counts of a step of `mb` micro-batches: none when the step is to be refused, and none inside where
every entry takes its MAX_ROWS. -/
def State.readRowCounts (s : State) (g : Program) (mb : Nat) : Option (Option (List Nat)) :=
  match g.fontHeader with
  | none => some none
  | some h =>
    if h.lengthTensor = noTensor then some none
    else
      match g.tensor h.lengthTensor with
      | none => none
      | some t =>
        if t.elements < mb ∨ !(List.range mb).all (s.rowCountReadable t) then none
        else
          let l := (List.range mb).map fun m => s.devNat (s.rowCountAddr t m) 4
          if g.fontEntries.all fun e => l.all fun r => decide (r ≤ e.maxRows) then some (some l) else none

/-! ### Placement (R320) -/

/-- Bytes of the pool that a region backs; none for a pool that the plan does not name. -/
def State.poolBytes (s : State) (region : Nat) : Nat :=
  match s.region region with
  | some r => if r.layout = 1 then r.size * 32 * (maskStacks r.stackMask).length else r.size
  | none => 0

/-- The largest of the row counts of a context's micro-batches; 0 when it has none. -/
def contextRows (counts : Option (List Nat)) (maxRows contexts mb n : Nat) : Nat :=
  let mine := (List.range mb).filter fun m => m % contexts == n
  (mine.map fun m => (counts.map fun l => l.getD m 0).getD maxRows).foldl max 0

/-- The regions of a die's pools, 0xFFFF for none. -/
structure Pools where
  front : Nat
  main : Nat
  overflow : Nat
  deriving DecidableEq, Repr

def FontHeader.pools (h : FontHeader) (d : Nat) : Pools :=
  { front := h.front.getD d 0xFFFF, main := h.main.getD d 0xFFFF, overflow := h.overflow.getD d 0xFFFF }

/-- One instance of a die's font: the font after it, or none when it cannot be placed. -/
def State.placeInstance (s : State) (p : Pools) (e : FontEntry) (i n size : Nat) (f : Font) : Option Font :=
  let put := fun (x : Font) (w : FontPlace) => some { x with instances := x.instances ++ [(i, n, w)] }
  let fits := fun (region used : Nat) => decide (used + size ≤ s.poolBytes region)
  if size = 0 then put f .empty
  else if e.place = 0 ∧ fits p.front f.frontUsed then
    put { f with frontUsed := f.frontUsed + size } (.placed p.front f.frontUsed size)
  else if fits p.main f.mainUsed then put { f with mainUsed := f.mainUsed + size } (.placed p.main f.mainUsed size)
  else if e.cls = 1 then put { f with dropped := f.dropped + 1 } .dropped
  else if e.cls = 2 ∧ fits p.overflow f.overflowUsed then
    put { f with overflowUsed := f.overflowUsed + size, spilled := f.spilled + 1 } (.placed p.overflow f.overflowUsed size)
  else none

/-- Placement so far: the state with its fonts, and the first instance that failed. -/
structure Placing where
  s : State
  failed : Option (Nat × Nat) := none

/-- One instance in plan order. After a failure only DEMAND goes on. -/
def Placing.step (h : FontHeader) (e : FontEntry) (i n size : Nat) (x : Placing) : Placing :=
  let s1 := x.s.modFont e.die fun f => { f with demand := f.demand + size }
  if x.failed.isSome then { x with s := s1 }
  else
    match s1.placeInstance (h.pools e.die) e i n size (s1.font e.die) with
    | some f => { x with s := s1.modFont e.die fun _ => f }
    | none => { s := s1, failed := some (i, n) }

def FontEntry.size (e : FontEntry) (rows : Nat) : Nat := roundUp (e.fixedBytes + e.rowBytes * rows) 4096

/-- Every instance, in plan order and ascending context. -/
def State.placeAll (s : State) (g : Program) (h : FontHeader) (counts : Option (List Nat)) (mb : Nat) : Placing :=
  (g.fontEntries.zipIdx).foldl
    (fun x e =>
      (List.range g.contextsUsed).foldl
        (fun y n => y.step h e.1 e.2 n (e.1.size (contextRows counts e.1.maxRows (max g.contextsUsed 1) mb n))) x)
    { s := s }

/-! ### Gate words (R324) -/

def gateWord (k n : Nat) : Nat := 0x1F5FE0 + 0x100 * k + 0x20 * n

/-- Plan indices of a die's RECOMPUTE entries. -/
def Program.gates (g : Program) (d : Nat) : List Nat :=
  ((g.fontEntries.zipIdx).filter fun e => e.1.die == d && e.1.cls == 1).map (·.2)

/-- The tiles that the program uses on a die, by position. -/
def State.usedTiles (s : State) (d : Nat) : List Nat := (List.range 50).filter fun p => s.usedTile d p

def State.writeGates (s : State) (g : Program) (d : Nat) : State :=
  ((g.gates d).zipIdx).foldl
    (fun x e =>
      (List.range g.contextsUsed).foldl
        (fun y n =>
          let word := List.replicate 32 (if y.fontPlace d e.1 n = .dropped then (0xFF : Byte) else 0)
          (y.usedTiles d).foldl (fun z p => z.tmWrite d p (gateWord e.2 n) word) y) x) s

/-! ### The whole (R320, R328, R331, R332) -/

/-- The per-step part of a font block. -/
def Font.newStep (f : Font) : Font :=
  { f with
    placed := false, stashFull := false, failedEntry := 0, failedContext := 0, frontUsed := 0, mainUsed := 0
    overflowUsed := 0, demand := 0, dropped := 0, spilled := 0, instances := [] }

def Font.counted (f : Font) : Font :=
  { f with
    demandHighWater := max f.demandHighWater f.demand
    recomputedSteps := if f.dropped = 0 then f.recomputedSteps else satAdd f.recomputedSteps 1 }

/-- DETAIL of kind 2 (R633). -/
def stashDetail (die entry layer demand : Nat) : List Byte :=
  leBytes 1 die ++ leBytes 1 0 ++ leBytes 2 entry ++ leBytes 4 layer ++ leBytes 8 demand

/-- The step cannot hold its font: it ends (R328, R329). -/
def State.stashFull (s : State) (g : Program) (i n : Nat) : State :=
  let e := g.fontEntries.getD i (fontEntryOf [])
  let t := s.modFont e.die fun f =>
    { f with stashFull := true, failedEntry := i, failedContext := n, stashFullSteps := satAdd f.stashFullSteps 1 }
  t.newCascade.abortStep { status := .stashFull, kind := 2, detail := stashDetail e.die i e.layer (t.font e.die).demand }

/-- Places the font of a step of `mb` micro-batches. -/
def State.placeFont (s : State) (counts : Option (List Nat)) (mb : Nat) : State :=
  match s.program with
  | none => s
  | some g =>
    match g.fontHeader with
    | none => s
    | some h =>
      let x := s.placeAll g h counts mb
      let t : State := { x.s with fonts := x.s.fonts.map Font.counted }
      match x.failed with
      | some (i, n) => t.stashFull g i n
      | none => (({ t with fonts := t.fonts.map fun f => { f with placed := true } } : State).writeGates g 0).writeGates g 1

end Sys2Proof.Machine
end

