-- ==== Sys2Proof/Machine/Issue.lean ====
section
/-! DEFINITION. Issue of a bundle as a whole (R150 to R152, R174). -/

namespace Sys2Proof.Machine

/-- Goes on while nothing has ended the step. -/
def State.goOn (s : State) (f : State → State) : State := if s.stopped then s else f s

/-- The condition of the bundle's WAIT; true without one. -/
def State.bundleWaitMet (s : State) (d p : Nat) (b : BundleOps) : Bool :=
  match b.control with
  | .wait counter threshold _ => (s.tile d p).waitMet counter threshold
  | .nop | .signal .. | .yieldOp | .barrier _ | .xfer .. | .coll .. | .fence _ | .halt => true

/-- An operation of the bundle finds its queue full (R151, R469, R553). -/
def State.bundleHolds (s : State) (d p : Nat) (b : BundleOps) : Bool :=
  let t := s.tile d p
  (b.array.isSome && t.arrayFull) || ((vecOpcodeOf b.vector.vop).isSome && t.vectorFull) ||
    match b.control with
    | .xfer .. => t.xferFull
    | .coll entry _ => s.collHolds entry
    | .nop | .wait .. | .signal .. | .yieldOp | .barrier _ | .fence _ | .halt => false

/-- The WAIT of the bundle blocks the context. -/
def State.bundleBlocks (s : State) (d p : Nat) (b : BundleOps) : State :=
  match b.control with
  | .wait counter threshold _ => s.blockOn d p (.wait counter threshold)
  | .nop | .signal .. | .yieldOp | .barrier _ | .xfer .. | .coll .. | .fence _ | .halt => s

/-- The WAIT takes its CONSUME. -/
def State.bundleConsumes (s : State) (d p : Nat) (b : BundleOps) : State :=
  match b.control with
  | .wait counter threshold consume => s.waitConsume d p counter threshold consume
  | .nop | .signal .. | .yieldOp | .barrier _ | .xfer .. | .coll .. | .fence _ | .halt => s

/-- The array slot, then the vector slot. The outcome of the reads at issue belongs to the first of them. -/
def State.bundleArith (s : State) (d p : Nat) (b : BundleOps) (ecc : Ecc) : State :=
  let s1 := match b.array with
    | some a => s.issueArray d p a ecc
    | none => s
  match vecOpcodeOf b.vector.vop with
  | some o => s1.goOn fun x => x.issueVector d p o b.vector.desc b.vector.done (if b.array.isSome then [] else ecc)
  | none => s1

/-- A control operation other than WAIT. -/
def State.bundleControl (s : State) (d p : Nat) (b : BundleOps) : State :=
  match b.control with
  | .nop | .wait .. | .yieldOp => s
  | .signal counter scope target increment => s.opSignal d p counter scope target increment
  | .barrier id => s.opBarrier d p id
  | .xfer desc done => s.issueXfer d p desc done
  | .coll entry done => s.opColl d p entry done
  | .fence scopes => s.opFence d p scopes
  | .halt => s.opHalt d p

/-- The sequencing field with its hint. A context at HALT has no next bundle (DEDUCED); YIELD switches after
the bundle. -/
def State.bundleSequence (s : State) (d p : Nat) (b : BundleOps) : State :=
  let s1 := s.hint d b.seq
  match b.control with
  | .halt => s1
  | .yieldOp => (s1.sequence d p b.seq).goOn fun x => x.yieldNow d p
  | .nop | .wait .. | .signal .. | .barrier _ | .xfer .. | .coll .. | .fence _ => s1.sequence d p b.seq

/-- The bundle issues: its slots take effect in the order of R152. -/
def State.bundleIssues (s : State) (d p : Nat) (b : BundleOps) (ecc : Ecc) : State :=
  let s1 := (s.modTile d p fun t => { t with bundlesIssued := satAdd t.bundlesIssued 1 }).bundleConsumes d p b
  ((((s1.bundleArith d p b ecc).goOn fun x => x.streamSlotOp d p b.stream0).goOn fun x => x.streamSlotOp d p b.stream1).goOn
    fun x => x.bundleControl d p b).goOn fun x => x.bundleSequence d p b

/-- The running context's bundle issues, blocks at its WAIT, or is held for a cycle. -/
def State.tryBundle (s : State) (d p : Nat) (b : BundleOps) (ecc : Ecc) : State :=
  if !s.bundleWaitMet d p b then s.bundleBlocks d p b
  else if s.bundleHolds d p b then s.issueHold d p
  else s.bundleIssues d p b ecc

/-- BUNDLE_ISSUE (R151). -/
def execBundleIssue (d p : Nat) (ecc : Ecc) (s : State) : Host.Outcome State Fault Refusal :=
  if tileExists d p then
    .next <|
      if s.canIssue d p then
        match s.fetchBundle d p with
        | some w => s.tryBundle d p (bundleOf w) ecc
        | none => s
      else s
  else .fault .noSuchUnit

end Sys2Proof.Machine
end

