-- ==== Sys2Proof/Machine/RunStep.lean ====
section
/-! DEFINITION. RUN_STEP and the start of a step (R147, R158, R172, R173, R182, R193, R360, R401 to R404, R414,
R418, R631, R633): the checks, acceptance, STEP_OPEN, the font, lighting and the first bundle. -/

namespace Sys2Proof.Machine

/-! ### The checks of R631 -/

/-- The payload of RUN_STEP: a micro-batch count of at most 4,095 and a finite LR_FACTOR that is not negative. -/
def stepPayloadOk (p : List Byte) : Bool :=
  let lr := fp32 (BitVec.ofNat 32 (field p 0xC 4))
  decide (field p 8 2 ≤ 4095) && field p 0xA 2 == 0 && !lr.nonFinite && !lr.lt .zero

/-- The steering mode of a step (R416); OFF without an UPDATE_PLAN. -/
def State.stepMode (s : State) (g : Program) : Nat := if g.hasUpdatePlan then s.flash.policy.steerMode else 0

/-- The micro-batch count of a step that names `mb`; none where R418 forbids it. -/
def State.stepMb (s : State) (g : Program) (mb : Nat) : Option Nat :=
  let next := s.commit.scalars.nextMb
  if s.stepMode g = 2 then if mb = 0 ∨ mb = next then some next else none
  else some (if mb = 0 then g.mbDefault else mb)

/-- Check 4, all but the micro-batch count: R343, R401 or R402, and the group sizes of R555. -/
def State.stepFits (s : State) (g : Program) (x : Session) (k : Nat) : Bool :=
  let geo := geoOf g s.devices
  (match g.plan with
   | some _ => geo.d == geo.k * geo.n * geo.h && s.acceptsStep k
   | none => (x.lastAccepted.map fun l => decide (l < k)).getD true) &&
    g.collEntries.all (collSizesOk geo)

/-- The first check of R631 that fails. -/
def State.stepFailure (s : State) (k mb : Nat) : Option (Nat × Status) :=
  match s.program, s.session with
  | some g, some x =>
    if s.sweep.diverged then some (2, .internal)
    else if s.clearing || s.commit.rebuild then some (3, .busy)
    else
      match if s.stepFits g x k then s.stepMb g mb else none with
      | none => some (4, .badField)
      | some m =>
        if !s.tilesSuffice g then some (5, .insufficientUnits)
        else if s.regionsGone g then some (6, .unitRetired)
        else if (s.readRowCounts g m).isNone then some (7, .badField)
        else none
  | _, _ => some (1, .wrongState)

/-! ### The result (R633) -/

def State.stepResult (s : State) (k outcome kind mb ns : Nat) (detail : List Byte) : List Byte :=
  leBytes 8 k ++ leBytes 8 s.committedStep ++ leBytes 1 outcome ++ leBytes 1 kind ++ leBytes 2 s.commit.scalars.nextMb ++
    leBytes 2 mb ++ leBytes 1 s.commit.scalars.lossExp ++ leBytes 1 0 ++ leBytes 8 ns ++ sliceZ detail 0 32

/-- The lowest-ranked member of this device's replica set. -/
def State.lowestReplica (s : State) : Nat := (s.geo.members groupReplicaSet s.rank).headD 0

/-- Refuses a step at a check. After check 7 its peers hear an abort, when the program holds a plan. -/
def State.refuseStep (s : State) (n k check : Nat) (st : Status) : State :=
  let low := check == 2
  let t := s.refuseWith n st (s.stepResult k 0 (if low then 6 else 0) 0 0 (if low then leBytes 2 s.lowestReplica else []))
  if check = 7 ∧ t.hasPlan then
    let u : State := { t with beacon := { t.beacon with abortsOriginated := satAdd t.beacon.abortsOriginated 1 } }
    u.sendAborts k u.rank Status.badField.code 0xFFF none
  else t

/-! ### Acceptance -/

/-- The slots of a tile at the start of a step (R193): 127 is bound to program refill. -/
def freshSlots : List StreamSlot := List.replicate 127 ({} : StreamSlot) ++ [{ state := .idle }]

/-- What RUN_STEP clears on a tile (R190, R234, R273). -/
def Tile.newStep (t : Tile) : Tile :=
  { t with fault := {}, slots := freshSlots, contexts := t.contexts.map fun c => { c with nf := {} } }

/-- What it clears on a BSU (R234, R498). -/
def Bsu.newStep (b : Bsu) : Bsu :=
  { b with nf := {}, cause := 0, ftcError := (0, 0, 0), slots := b.slots.mapIdx fun n x => if n = 7 then x else {} }

/-- Beacon at the start of step `k` (R565, R567, R573): early packets of ended steps and earlier tokens of the step
are dropped. -/
def Beacon.newStep (b : Beacon) (k : Nat) : Beacon :=
  { b with
    instances := []
    early := b.early.filter fun e => decide ((stepWord k).toNat ≤ e.2.step.toNat)
    issueCounts := []
    tokens := b.tokens.filter fun t => t.step != k
    aborted := false
    originator := false
    abortRank := 0
    abortCause := 0 }

/-- The device enters RUNNING. -/
def State.enterStep (s : State) (n k m named : Nat) (lr : BitVec 32) (g : Program) : State :=
  let t := ((if g.hasUpdatePlan then s.readEpoch else s).respondPending n k).traceStep k none
  let geo := geoOf g t.devices
  let u : State :=
    { t with
      dev := .running
      session := t.session.map fun x => { x with lastAccepted := some k }
      run := some {
        k := k, mb := m, mbNamed := named, lrFactor := lr, mailbox := n, acceptedNs := t.now
        stallLimitMs := t.flash.policy.stallLimitMs, steerMode := t.stepMode g, rowCounts := (t.readRowCounts g m).getD none }
      stopped := false
      fonts := t.fonts.map Font.newStep
      stateBlock := { t.stateBlock with shardIndex := geo.shard t.rank, replica := geo.replica t.rank, rounds := 0 }
      sweep := { t.sweep with phase := .idle, steerMode := t.stepMode g }
      tiles := t.tiles.map Tile.newStep
      hbm := t.hbm.map fun h => { h with bsus := h.bsus.map Bsu.newStep }
      beacon := t.beacon.newStep k
      barriers := t.barriers.map fun b => { id := b.id } }
  u.formMap g

def State.setPhase (s : State) (p : StepPhase) : State := { s with run := s.run.map fun r => { r with phase := p } }

/-- The step is in a phase, and nothing has ended it. -/
def State.inPhase (s : State) (p : StepPhase) : Bool :=
  s.stepOpen && !s.stopped && (s.run.map fun r => r.phase == p).getD false

/-! ### Placement and lighting (R182, R320) -/

def State.lightTiles (s : State) : State :=
  [0, 1].foldl (fun x d => (x.usedTiles d).foldl (fun y p => y.askLight d p) x) s

/-- Steps 2 of R631: the font is placed while the used tiles light. -/
def State.placeStep (s : State) : State :=
  match s.run with
  | none => s
  | some r => (s.lightTiles.setPhase .lighting).placeFont r.rowCounts r.mb

/-- A token for the step came before it: the step ends at once (R567). -/
def State.lateToken (s : State) (t : AbortToken) : State :=
  let u : State :=
    { s with beacon := { s.beacon with
        aborted := true, abortRank := t.origin, abortCause := t.cause, abortStep := t.step
        tokens := s.beacon.tokens ++ [{ t with acted := true }] } }
  u.newCascade.abortBy { status := .collectiveAborted, kind := 3, detail := originDetail t.origin t.cause t.entry } t.origin

/-- RUN_STEP of step `k` on mailbox `n`. -/
def State.runStep (s : State) (n k mb : Nat) (lr : BitVec 32) : State :=
  match s.stepFailure k mb, s.program with
  | some (c, st), _ => s.refuseStep n k c st
  | none, none => s
  | none, some g =>
    let token := s.beacon.tokens.find? fun t => t.step == k && !t.own && !t.acted
    let t := s.enterStep n k ((s.stepMb g mb).getD mb) mb lr g
    match token with
    | some x => t.lateToken x
    | none => if g.hasUpdatePlan then t.issueUpdate updOpen (leBytes 8 (t.openWord k)) 0 else t.placeStep

def specRunStep : CmdSpec := { opcode := 0x21, states := readyOnly, cls := some .step, lengthOk := fun k => k == 16 }

/-- RUN_STEP (R631). -/
def execRunStep (n : Nat) (r : Request) (s : State) : Host.Outcome State Fault Refusal :=
  onMailbox n (s.command n specRunStep r fun t p =>
    if stepPayloadOk p then t.runStep n (field p 0 8) (field p 8 2) (BitVec.ofNat 32 (field p 0xC 4)) else t.refuse n .badField)

/-! ### STEP_OPEN (R403, R404) -/

/-- No device can run the step: it ends without having run. -/
def State.notCurrent (s : State) : State :=
  { s with run := s.run.map fun r => { r with phase := .ended, skipReason := 2 } }

/-- The micro-batch count after STEP_OPEN: a step in doubt that rolled forward may have given NEXT_MB a new value,
and a RUN_STEP that named 0 takes it (R418). A count that the length table does not cover takes MAX_ROWS for every
row count (DESIGN CHOICE: the spec only says that the table must cover it). -/
def State.retakeMb (s : State) (g : Program) : State :=
  { s with run := s.run.map fun r =>
      if r.steerMode = 2 ∧ r.mbNamed = 0 ∧ r.mb ≠ s.commit.scalars.nextMb then
        { r with mb := s.commit.scalars.nextMb, rowCounts := (s.readRowCounts g s.commit.scalars.nextMb).getD none }
      else r }

/-- STEP_OPEN_COMPLETE (R404): the OR of all devices' words has formed. -/
def execStepOpenComplete (s : State) : Host.Outcome State Fault Refusal :=
  match s.program, s.program.bind Program.plan, s.updateWord updOpen with
  | some g, some h, some w =>
    if s.inPhase .opening then
      let t := (s.endUpdate updOpen).resolveDoubt h s.stepNo w
      .next (if bit w 0 then (t.retakeMb g).placeStep else t.notCurrent)
    else .next s
  | _, _, _ => .next s

/-! ### The first bundle (R147, R158, R172, R173, R360, R414, R631) -/

/-- A context at the start of a step; its counters go on. -/
def Context.atStart (c : Context) (used n entry mb k : Nat) : Context :=
  if n < used then
    { c with
      state := .ready, reason := .none, segment := entry, bundle := 0, loops := List.replicate 4 {}, nf := {}
      params := [BitVec.ofNat 32 n, BitVec.ofNat 32 mb, BitVec.ofNat 32 k] ++ List.replicate 13 0 }
  else { c with state := .idle, reason := .none, nf := {} }

/-- A tile at the start of a step, with its entry segment and that one's successor loaded. -/
def Tile.atStart (t : Tile) (used mb k entry : Nat) (b0 b1 : Option (Nat × List Byte)) : Tile :=
  { t with
    acc := [], held := [], arrayQueue := [], vectorQueue := [], xfers := [], segLoads := [], slots := freshSlots
    buffers := [b0, b1], counters := List.replicate 256 0, tags := List.replicate 256 .none
    contexts := t.contexts.mapIdx fun n c => c.atStart used n entry mb k
    running := 0, switching := none, stallSince := none, episode := none, fault := {} }

/-- The step constants of R360. -/
def State.stepConstants (s : State) (g : Program) (k mb : Nat) : List Byte :=
  let geo := geoOf g s.devices
  let e := if g.hasUpdatePlan then s.commit.scalars.lossExp else 0
  leBytes 4 (toFp32 (.pow2 e)).toNat ++ leBytes 4 (toFp32 (.pow2 (-(e : Int)))).toNat ++ leBytes 8 k ++ leBytes 4 mb ++
    leBytes 2 (geo.shard s.rank) ++ leBytes 2 (geo.replica s.rank) ++ leBytes 2 s.rank ++ leBytes 1 (geo.split s.rank) ++ zeros 5

/-- The initial descriptors of a tile, and zeros after them (R158). -/
def Program.descImage (g : Program) (e : TileEntry) : List Byte := sliceZ (slice (g.sec secDescriptors) (32 * e.firstDesc) (32 * e.descs)) 0 0x8000

def noiseCell (n : Nat) : Nat := 0x1F5FA0 + 4 * n

/-- Reads pieces of a program copy; a sector that cannot be read ends slot 127 of the tile in error (R149, R440). -/
def State.loadPieces (s : State) (d p : Nat) : List (Nat × Nat) → State × List Byte
  | [] => (s, [])
  | (a, n) :: l =>
    match s.serveRead a n [] with
    | (s1, .ok b) =>
      let (s2, r) := s1.loadPieces d p l
      (s2, b ++ r)
    | (s1, .error e) =>
      let s2 := s1.modSlot (.tile d p 127) fun x => { x with state := .running, ctx := 8 }
      (s2.streamFails (.tileSlot d p 127) e.reason 0 tierStack false, [])

/-- A buffer with a segment's code, none for a number that names no segment. -/
def State.loadSegment (s : State) (d p segments n : Nat) : State × Option (Nat × List Byte) :=
  if n < segments then
    let (t, b) := s.loadPieces d p (s.codePieces d p n)
    (t, some (n, b))
  else (s, none)

/-- What the device writes into a used tile before context 0 issues. -/
def State.startTile (s : State) (g : Program) (k mb d p : Nat) : State :=
  match s.entryOf d p with
  | none => s
  | some e =>
    let (u, b0) := s.loadSegment d p e.segments e.entrySegment
    let (v, b1) := u.loadSegment d p e.segments (s.segmentOf d p e.entrySegment).successor
    let t := v.modTile d p fun t => t.atStart g.contextsUsed mb k e.entrySegment b0 b1
    let t1 := (t.tmWrite d p 0x1F8000 (g.descImage e)).tmWrite d p (amaxCell 0) (zeros 32)
    t1.tmWrite d p 0x1F5FC0 (s.stepConstants g k mb)

/-- Every tile's eight noise cells are +0 (R414). -/
def State.clearNoise (s : State) : State :=
  (List.range 100).foldl
    (fun x i => if (x.tile (i / 50) (i % 50)).state = .available then x.tmWrite (i / 50) (i % 50) (noiseCell 0) (zeros 32) else x) s

def State.startTiles (s : State) (g : Program) (k mb : Nat) : State :=
  let t := [0, 1].foldl (fun x d => (x.usedTiles d).foldl (fun y p => y.startTile g k mb d p) x) s
  t.clearNoise

def State.tilesLit (s : State) : Bool := [0, 1].all fun d => (s.usedTiles d).all fun p => (s.tile d p).lit

/-- STEP_COMPUTE_START (R631): placement and lighting are complete; the step constants are written and context 0
issues. -/
def execStepComputeStart (s : State) : Host.Outcome State Fault Refusal :=
  match s.run, s.program with
  | some r, some g =>
    if s.inPhase .lighting && s.tilesLit then
      let t := s.startTiles g r.k r.mb
      .next { t with run := t.run.map fun x => { x with phase := .compute, contextsIssued := true } }
    else .next s
  | _, _ => .next s

end Sys2Proof.Machine
end

