-- ==== Sys2Proof/Machine/Stats.lean ====
section
/-! DEFINITION. The statistics of a step (R274, R297, R385 to R387, R414, R477): where each copy of a record's
elements lies, gradient norms, row and column sums, G4E scale gradients and the noise sum. -/

namespace Sys2Proof.Machine

/-- One FP32 operation, rounded to nearest even. -/
def r32 (v : Fp) : Fp := fp32Spec.round v

def fpNat (n : Nat) : Fp := .ofInt n

/-! ### Copies of a record's elements (R349, R355, R356) -/

/-- The tensor of a copy of a placed record. -/
def ParamRecord.copyTensor (r : ParamRecord) : Copy → Nat
  | .master => r.master
  | .moment => r.moment
  | .gather => r.param
  | .grad => r.grad

/-- Displacement of a bank of a placed tensor; a gradient has one copy. -/
def StateHeader.shift (h : StateHeader) (bank : Nat) (c : Copy) : Nat :=
  if bank = 1 ∧ c ≠ .grad then h.bankOffset else 0

/-- The address of a copy of element `e` of a record. -/
def State.copyAddr (s : State) (g : Program) (h : StateHeader) (r : ParamRecord) (bank : Nat) (c : Copy) (e : Nat) : Nat :=
  if r.placed then s.tensorByte (g.operand (r.copyTensor c)) (e * h.copyBytes c) + h.shift bank c
  else s.flatAddr h bank c (r.flatOffset + e)

/-- Format code of a copy. -/
def StateHeader.copyFmt (h : StateHeader) : Copy → Nat
  | .master => 0
  | .moment => h.momentFmt
  | .gather => 1
  | .grad => h.gradFmt

def State.copyValue (s : State) (g : Program) (h : StateHeader) (r : ParamRecord) (bank : Nat) (c : Copy) (e : Nat) : Fp :=
  (fmtOf (h.copyFmt c)).spec.decode (s.devNat (s.copyAddr g h r bank c e) (h.copyBytes c))

/-- Elements of a record on one channel: they lie one after another there. -/
structure ElemRun where
  stack : Nat
  channel : Nat
  first : Nat
  count : Nat
  deriving DecidableEq, Repr

/-- The elements of a CHANNEL_SLAB tensor by channel. -/
def slabRuns (t : Tensor) (elements bytes : Nat) : List ElemRun :=
  let per := t.sliceBytes / max bytes 1
  (List.range (32 * (maskStacks t.mask).length)).filterMap fun n =>
    let c := channelOf t.mask n
    let k := min per (elements - n * per)
    if 0 < k then some { stack := c.1, channel := c.2, first := n * per, count := k } else none

/-- The elements of a record that lie on this device, by channel, in ascending order. -/
def State.elemRuns (s : State) (g : Program) (h : StateHeader) (r : ParamRecord) : List ElemRun :=
  if r.placed then slabRuns (g.operand r.grad) r.elements h.gradBytes
  else
    let x := s.localRange h r
    (s.flatRuns h x.1 x.2).map fun f =>
      let c := h.channel f.channel
      { stack := c.1, channel := c.2, first := f.first - r.flatOffset, count := f.count }

def ElemRun.elems (x : ElemRun) : List Nat := (List.range x.count).map (x.first + ·)

/-! ### Partials by channel (R249, R477) -/

/-- Combines partials in ascending channel and then ascending stack order. -/
def combineRuns (l : List (Nat × Fp)) : Fp :=
  let chain := fun (x : List Fp) => (x.drop 1).foldl (fun a b => r32 (a.add b)) (x.getD 0 .zero)
  let stack := fun (st : Nat) => (l.filter fun p => p.1 == st).map (·.2)
  chain (((List.range 8).map stack).filter (fun x => !x.isEmpty) |>.map chain)

/-- INV_LOSS_SCALE of the step. -/
def State.invScale (s : State) : Fp := .pow2 (-(s.commit.scalars.lossExp : Int))

/-- A gradient without the loss scale (R364). -/
def State.descale (s : State) (v : Fp) : Fp := r32 (v.mul s.invScale)

/-- gd of an element. -/
def State.gradValue (s : State) (g : Program) (h : StateHeader) (r : ParamRecord) (e : Nat) : Fp :=
  s.descale (s.copyValue g h r 0 .grad e)

/-- Squares added one by one, ascending. -/
def sumSquares (l : List Fp) : Fp := l.foldl (fun a x => r32 (a.add (r32 (x.mul x)))) .zero

/-- The record keeps row and column sums. -/
def Program.keepsSums (g : Program) (r : ParamRecord) : Bool :=
  decide (2 ≤ g.rankOf r) && (r.rule == 3 || r.rule == 4)

/-- Pass 1 over one record. A placed factored record forms its sums here as well (DEDUCED: its kernel needs
them, and no other device holds its elements). -/
def State.recordStats (s : State) (g : Program) (h : StateHeader) (r : ParamRecord) : RecordStats :=
  let runs := (s.elemRuns g h r).map fun x => (x.stack, x.elems.map fun e => (e, s.gradValue g h r e))
  let n := g.colsOf r
  let part := fun (p : Nat → Bool) =>
    toFp32 (combineRuns (runs.map fun x => (x.1, sumSquares ((x.2.filter fun v => p v.1).map (·.2)))))
  { nsq := toFp32 (combineRuns (runs.map fun x => (x.1, dotChunks .zero (x.2.map fun v => v.2.mul v.2))))
    rows := if g.keepsSums r then (List.range (g.rowsOf r)).map fun i => part fun e => e / n == i else []
    cols := if g.keepsSums r then (List.range n).map fun j => part fun e => e % n == j else [] }

/-! ### G4E (R282, R297) -/

def Tensor.g4eShape (t : Tensor) : G4eShape :=
  { ins := t.dims.getD 0 1, outs := t.dims.getD 1 1, g := groupSize t.g4eGroup, cap := t.sideCap }

/-- Values of a tensor that is not banked, or of one bank. -/
def State.tensorValue (s : State) (t : Tensor) (shift i : Nat) : Fp :=
  let f := fmtOf t.fmt
  let w := f.bitsOf / 8
  f.spec.decode (leNat ((List.range w).map fun k => s.byteAt (s.tensorByte t (w * i + k) + shift)))

def State.putFp32 (s : State) (t : Tensor) (shift i : Nat) (v : BitVec 32) : State :=
  s.writeTensor t shift (4 * i) (leBytes 4 v.toNat)

/-- The element of a matrix in a tensor whose DIM[0] is the input axis. -/
def G4eShape.elem (x : G4eShape) (i o : Nat) : Nat := o * x.ins + i

/-- Displacement of the current bank, and of the other. -/
def State.bankNow (s : State) (h : StateHeader) : Nat := if s.commit.epochBank = 1 then h.bankOffset else 0
def State.bankNext (s : State) (h : StateHeader) : Nat := if s.commit.epochBank = 1 then 0 else h.bankOffset

/-- SCALE_GRAD of one record: the straight-through estimate of every group, in forward scale order. -/
def State.scaleGrad (s : State) (g : Program) (h : StateHeader) (r : G4eRecord) : State :=
  let t := g.operand r.tensor
  let x := t.g4eShape
  let codes := s.tensorBytes t (s.bankNow h) 0 x.scalePlane
  let grad := g.operand r.weightGrad
  (List.range x.groups).foldl
    (fun u k =>
      let (o, j) := x.fwdGroup k
      let terms := ((x.groupCodes codes o j).zipIdx).map fun c =>
        (s.tensorValue grad 0 (x.elem (j * x.g + c.2) o)).mul (codeMagnitude c.1)
      u.putFp32 (g.operand r.scaleGrad) 0 k (toFp32 (dotChunks .zero terms))) s

/-- The norm squared of a G4E gradient tensor, by channel as in R477. -/
def State.tensorNorm (s : State) (t : Tensor) (n : Nat) : BitVec 32 :=
  let runs := if t.layout = layoutSlab then slabRuns t n ((fmtOf t.fmt).bitsOf / 8) else [{ stack := 0, channel := 0, first := 0, count := n }]
  toFp32 (combineRuns (runs.map fun x =>
    (x.stack, dotChunks .zero (x.elems.map fun e => let v := s.descale (s.tensorValue t 0 e); v.mul v))))

def State.g4eNorm (s : State) (g : Program) (r : G4eRecord) : BitVec 32 × BitVec 32 :=
  let x := (g.operand r.tensor).g4eShape
  (s.tensorNorm (g.operand r.weightGrad) (x.ins * x.outs), s.tensorNorm (g.operand r.scaleGrad) x.groups)

/-! ### The step's sums -/

/-- f of R386: a context's flag or a BSU's (R274). -/
def State.deviceFlag (s : State) : Bool :=
  (s.tiles.any fun t => t.logicalId.isSome && t.contexts.any fun c => c.state != .idle && c.nf.nonFinite) ||
    s.hbm.any fun k => k.bsus.any fun b => b.nf.nonFinite

/-- The noise cells in ascending die, logical tile and context, summed (R414). -/
def State.noiseSum (s : State) : Fp :=
  let cells := [0, 1].flatMap fun d => (s.usedTiles d).flatMap fun p =>
    (List.range 8).map fun n => fp32 (BitVec.ofNat 32 (leNat (s.tmRead d p (noiseCell n) 4)))
  cells.foldl (fun a x => r32 (a.add x)) .zero

/-- Gl (R387): +0 but on replica 0. -/
def gradSum (replica : Nat) (stats : List RecordStats) (g4e : List (BitVec 32 × BitVec 32)) : BitVec 32 :=
  if replica = 0 then
    toFp32 ((stats.map (fun x => fp32 x.nsq) ++ g4e.map fun x => fp32 x.1).foldl (fun a x => r32 (a.add x)) .zero)
  else 0

/-! ### What the BSUs meet and count -/

/-- A range on a channel: stack, channel, address, bytes. -/
abbrev ChannelRange := Nat × Nat × Nat × Nat

/-- A range that the BSUs are to read fails: its stack is in HALT, or a sector of it stays uncorrectable. -/
def State.runFails (s : State) (addr bytes : Nat) : Option Nat :=
  if (s.stack (daStack addr)).stage = .halt then some Status.thermalHalt.code
  else if s.failing addr bytes then some Status.memoryError.code
  else none

/-- The first range of a list that fails: its stack, its channel and the reason. -/
def State.firstFailure (s : State) (l : List ChannelRange) : Option (Nat × Nat × Nat) :=
  l.findSome? fun x => (s.runFails x.2.2.1 x.2.2.2).map fun r => (x.1, x.2.1, r)

/-- The parts of tensors on their channels, moved by a bank's displacement; identifiers that name none have none. -/
def State.tensorRanges (s : State) (g : Program) (shift : Nat) (ids : List Nat) : List ChannelRange :=
  (ids.filterMap g.tensor).flatMap fun t =>
    if t.layout = layoutSlab then
      (slabRuns t t.size 1).map fun x => (x.stack, x.channel, s.tensorByte t x.first + shift, x.count)
    else [(daStack t.base, s.channelAt t.base, t.base + shift, t.size)]

def G4eRecord.grads (r : G4eRecord) : List Nat := [r.weightGrad, r.scaleGrad]
def G4eRecord.masters (r : G4eRecord) : List Nat := [r.weightMaster, r.scaleMaster]
def G4eRecord.arrangements (r : G4eRecord) : List Nat := [r.tensor, r.transposed]

/-- The gradient ranges of the parameter records, and of the G4E records. -/
def State.paramGrads (s : State) (g : Program) (h : StateHeader) : List ChannelRange :=
  g.records.flatMap fun r => (s.elemRuns g h r).map fun x =>
    (x.stack, x.channel, s.copyAddr g h r 0 .grad x.first, x.count * h.gradBytes)
def State.g4eGrads (s : State) (g : Program) : List ChannelRange := g.g4eRecords.flatMap fun r => s.tensorRanges g 0 r.grads

def State.gradRanges (s : State) (g : Program) (h : StateHeader) : List ChannelRange := s.paramGrads g h ++ s.g4eGrads g

/-- What SCALE_GRAD reads and writes: the code plane of a record's tensor, and both its gradient tensors (R297). -/
def State.scaleRanges (s : State) (g : Program) (h : StateHeader) : List ChannelRange :=
  g.g4eRecords.flatMap fun r =>
    let t := g.operand r.tensor
    ((slabRuns t t.g4eShape.scalePlane 1).map fun x => (x.stack, x.channel, s.tensorByte t x.first + s.bankNow h, x.count)) ++
      s.tensorRanges g 0 r.grads

/-- Copies of the parameter records in a bank. -/
def State.copyRanges (s : State) (g : Program) (h : StateHeader) (bank : Nat) (copies : List Copy) : List ChannelRange :=
  g.records.flatMap fun r => (s.elemRuns g h r).flatMap fun x =>
    (copies.filter fun c => h.copyBytes c != 0).map fun c =>
      (x.stack, x.channel, s.copyAddr g h r bank c x.first, x.count * h.copyBytes c)

/-- A channel's BSU has run a part of an update operation over so many bytes. -/
def Bsu.ranPart (bytes : Nat) (b : Bsu) : Bsu :=
  { b with
    operations := satAdd b.operations 1
    slices := satAdd b.slices (ceilDiv bytes 65536)
    internalBytes := satAdd b.internalBytes bytes }

/-- Counts one update operation on every BSU that holds a part of it. -/
def State.countParts (s : State) (l : List (Nat × Nat × Nat)) : State :=
  ((l.map fun x => (x.1, x.2.1)).eraseDups).foldl
    (fun u c => u.modBsu c.1 c.2 (Bsu.ranPart ((l.filter fun x => (x.1, x.2.1) == c).map (·.2.2)).sum)) s

end Sys2Proof.Machine
end

