-- ==== Sys2Proof/Machine/Digest.lean ====
section
/-! DEFINITION. The sections of a device's state (R411) and their digest (R406). -/

namespace Sys2Proof.Machine

/-- A section: KIND, ID and its raw bytes. -/
structure Section where
  kind : Nat
  id : Nat
  bytes : List Byte
  deriving DecidableEq, Repr

def flatId : Nat := 0xFFFFFFFF

/-- A copy of the whole shard in a bank, in ascending position; padding counts as zeros (R352). -/
def State.flatBytes (s : State) (h : StateHeader) (bank : Nat) (c : Copy) : List Byte :=
  (List.range h.channels).flatMap fun n =>
    let k := s.realOn h n
    s.readDev (s.stateAddr h n (h.arrayOffset bank c)) (h.copyBytes c * k) ++ zeros (h.copyBytes c * (h.perChannel - k))

/-- A tensor's bytes in a bank. -/
def State.bankTensor (s : State) (g : Program) (h : StateHeader) (bank id : Nat) : List Byte :=
  if id = noTensor then []
  else
    let t := g.operand id
    s.tensorBytes t (h.shift bank .master) 0 t.size

/-- The sections of a bank, in ascending kind and then ascending ID; only for state that the device holds. -/
def State.sections (s : State) (g : Program) (h : StateHeader) (bank : Nat) : List Section :=
  let records := g.records.zipIdx
  let placed := records.filter fun r => r.1.placed
  let factors := if h.factored then records.filter fun r => !r.1.placed && s.touches h r.1 else []
  let g4e := g.g4eRecords.zipIdx
  let flat := [Section.mk 1 flatId (s.flatBytes h bank .master), ⟨2, flatId, s.flatBytes h bank .moment⟩]
  let own := factors.map fun r => Section.mk 3 r.2 (s.readDev (s.factorAddr g h bank r.1) (4 * g.factorCount r.1))
  let of := fun (kind : Nat) (id : ParamRecord → Nat) => placed.map fun r => Section.mk kind r.2 (s.bankTensor g h bank (id r.1))
  let quant := fun (kind : Nat) (id : G4eRecord → Nat) => g4e.map fun r => Section.mk kind r.2 (s.bankTensor g h bank (id r.1))
  (flat ++ own ++ of 4 (·.master) ++ of 5 (·.moment) ++ of 6 (·.factor) ++
    quant 7 (fun r => if r.mode = 2 then r.weightMaster else noTensor) ++ quant 8 (·.scaleMaster) ++ quant 9 (·.tensor)).filter
    fun x => !x.bytes.isEmpty

/-- The 24-byte entry of a section. -/
def Section.entry (x : Section) : List Byte :=
  leBytes 4 x.kind ++ leBytes 4 x.id ++ leBytes 8 x.bytes.length ++ leBytes 8 (crc64xz x.bytes).toNat

/-- STATE_DIGEST. -/
def stateDigest (l : List Section) : List Byte := shake256 (l.flatMap Section.entry) 32

end Sys2Proof.Machine
end

