-- ==== Sys2Proof/Machine/Sweep.lean ====
section
/-! DEFINITION. The sweep (R383, R386, R388 to R391, R299 to R302): the optimiser over the local elements, from the
current bank into the shadow, and the G4E records. Every operation is FP32, rounded to nearest even, in the order
in which the table of R390 writes it. -/

namespace Sys2Proof.Machine

/-! ### Rates and clipping (R383, R389) -/

def addR (a b : Fp) : Fp := r32 (a.add b)
def subR (a b : Fp) : Fp := r32 (a.sub b)
def mulR (a b : Fp) : Fp := r32 (a.mul b)
def divR (a b : Fp) : Fp := r32 (a.div b)
def sqrtR (a : Fp) : Fp := r32 a.sqrt

/-- κ of a norm squared against a limit. -/
def clipFactor (on : Bool) (limit nsq : BitVec 32) : Fp :=
  let v := sqrtR (fp32 nsq)
  if on ∧ (fp32 limit).lt v then divR (fp32 limit) v else .one

/-- What the kernels of a record read besides its elements. -/
structure Hyper where
  lr : Fp
  decay : Fp
  beta1 : Fp
  beta2 : Fp
  eps : Fp
  epsFactor : Fp
  kappa : Fp

def hyperOf (h : PlanHeader) (factor : BitVec 32) (r : ParamRecord) (nsq : BitVec 32) : Hyper :=
  { lr := mulR (fp32 r.lr) (fp32 factor)
    decay := if bit r.flags 1 then fp32 r.decay else .zero
    beta1 := fp32 h.beta1, beta2 := fp32 h.beta2, eps := fp32 h.eps, epsFactor := fp32 h.epsFactor
    kappa := clipFactor (bit r.flags 0) r.clip nsq }

/-! ### Kernels (R390) -/

/-- β2·v + (1 − β2)·x. -/
def Hyper.decayed (y : Hyper) (v x : Fp) : Fp := addR (mulR y.beta2 v) (mulR (subR .one y.beta2) x)

/-- w′ = w − lr·(u + λ·w). -/
def Hyper.newMaster (y : Hyper) (w u : Fp) : Fp := subR w (mulR y.lr (addR u (mulR y.decay w)))

/-- v′ of RMS: β2·v + (1 − β2)·g′·g′. -/
def Hyper.rmsMoment (y : Hyper) (v g : Fp) : Fp := addR (mulR y.beta2 v) (mulR (mulR (subR .one y.beta2) g) g)

/-- R′ or C′ of a row or column: its sum of squares over so many elements. -/
def Hyper.newFactor (y : Hyper) (old sum : Fp) (n : Nat) : Fp :=
  y.decayed old (addR (divR (mulR (mulR y.kappa y.kappa) sum) (fpNat n)) y.epsFactor)

/-- v′ of a factored record of rank 1. -/
def Hyper.newVector (y : Hyper) (old g : Fp) : Fp := y.decayed old (addR (mulR g g) y.epsFactor)

/-- The direction of a factored record of rank 2 or more. -/
def factoredDirection (g row col mean : Fp) : Fp := divR g (sqrtR (divR (mulR row col) mean))

/-- What a kernel makes of an element: its direction, and the moment to store. -/
structure Kernel where
  u : Fp
  moment : Option Fp := none

/-- A rule on an element with its moment; `u0` is the direction of a factored rule. -/
def Hyper.kernel (y : Hyper) (rule : Nat) (g m u0 : Fp) : Kernel :=
  match rule with
  | 1 => let x := addR (mulR y.beta1 m) g
         { u := x, moment := some x }
  | 2 => let x := y.rmsMoment m g
         { u := divR g (addR (sqrtR x) y.eps), moment := some x }
  | 3 => { u := u0 }
  | _ => let x := addR (mulR y.beta1 m) (mulR (subR .one y.beta1) u0)
         { u := x, moment := some x }

/-! ### Factor vectors (R357, R390) -/

/-- The address of a factor value of a record in a bank. -/
def State.factorPlace (s : State) (g : Program) (h : StateHeader) (r : ParamRecord) (bank i : Nat) : Nat :=
  if r.placed then s.tensorByte (g.operand r.factor) (4 * i) + h.shift bank .master else s.factorAddr g h bank r + 4 * i

def State.factorValue (s : State) (g : Program) (h : StateHeader) (r : ParamRecord) (bank i : Nat) : Fp :=
  fp32 (BitVec.ofNat 32 (s.devNat (s.factorPlace g h r bank i) 4))

/-- Writes a word of state, and notes whether it is finite. -/
def putWord (x : State × Bool) (a : Nat) (v : Fp) : State × Bool :=
  (x.1.writeDev a (leBytes 4 (toFp32 v).toNat), x.2 && !v.nonFinite)

/-- Rows, then columns, of R′ and C′. -/
def State.newFactors (s : State) (g : Program) (h : StateHeader) (r : ParamRecord) (y : Hyper) (st : RecordStats) : List Fp :=
  let n := g.colsOf r
  let m := g.rowsOf r
  let bank := s.commit.epochBank
  ((List.range m).map fun i => y.newFactor (s.factorValue g h r bank i) (fp32 (st.rows.getD i 0)) n) ++
    (List.range n).map fun j => y.newFactor (s.factorValue g h r bank (m + j)) (fp32 (st.cols.getD j 0)) m

/-- R̄′: the rows' sum in the order of R251, over m. -/
def rowMean (rows : List Fp) : Fp := divR (dotChunks .zero rows) (fpNat rows.length)

/-! ### A parameter record -/

/-- The rule keeps factor vectors. -/
def ParamRecord.factored (r : ParamRecord) : Bool := r.rule == 3 || r.rule == 4

/-- One element: the kernel on it, the new master, moment and gather copy in the shadow, and +0 in its gradient. -/
def State.sweepElem (g : Program) (h : StateHeader) (r : ParamRecord) (y : Hyper) (rows cols : List Fp) (mean : Fp)
    (x : State × Bool) (e : Nat) : State × Bool :=
  let s := x.1
  let now := s.commit.epochBank
  let next := 1 - now
  let gr := mulR (s.gradValue g h r e) y.kappa
  let n := g.colsOf r
  let vec := r.factored && g.rankOf r == 1
  let v := y.newVector (s.factorValue g h r now e) gr
  let u0 := if vec then divR gr (sqrtR v) else factoredDirection gr (rows.getD (e / n) .zero) (cols.getD (e % n) .zero) mean
  let k := y.kernel r.rule gr (s.copyValue g h r now .moment e) u0
  let w := y.newMaster (s.copyValue g h r now .master e) k.u
  let x1 := if vec then putWord x (s.factorPlace g h r next e) v else x
  let x2 := putWord x1 (s.copyAddr g h r next .master e) w
  let f := (fmtOf h.momentFmt).spec
  let x3 := match k.moment with
    | some m => (x2.1.writeDev (s.copyAddr g h r next .moment e) (leBytes h.momentBytes (f.rne m)), x2.2 && !(f.round m).nonFinite)
    | none => x2
  let s4 := x3.1.writeDev (s.copyAddr g h r next .gather e) (leBytes 2 (toBf16 w))
  (s4.writeDev (s.copyAddr g h r next .grad e) (zeros h.gradBytes), x3.2)

/-- A record: whole factor vectors first, then its local elements in ascending order. -/
def State.sweepRecord (g : Program) (p : PlanHeader) (factor : BitVec 32) (x : State × Bool) (r : ParamRecord) (st : RecordStats) :
    State × Bool :=
  let h := p.state
  let es := (x.1.elemRuns g h r).flatMap ElemRun.elems
  if es.isEmpty then x
  else
    let y := hyperOf p factor r st.nsq
    let fs := if g.keepsSums r then x.1.newFactors g h r y st else []
    let x1 := (fs.zipIdx).foldl (fun z v => putWord z (x.1.factorPlace g h r (1 - x.1.commit.epochBank) v.2) v.1) x
    let rows := fs.take (g.rowsOf r)
    es.foldl (State.sweepElem g h r y rows (fs.drop (g.rowsOf r)) (rowMean rows)) x1

/-! ### G4E records (R299 to R302, R391) -/

/-- The update of a G4E master: w − lr·g. -/
def g4eStep (lr kappa w grad : Fp) : Fp := subR w (mulR lr (mulR grad kappa))

/-- The new scale masters in forward scale order. -/
def State.newScales (s : State) (g : Program) (p : PlanHeader) (factor : BitVec 32) (r : G4eRecord) (nsq : BitVec 32) : List Fp :=
  let lr := mulR (fp32 p.g4eScaleLr) (fp32 factor)
  let k := clipFactor (!(fp32 p.g4eClip).isZero) p.g4eClip nsq
  (List.range (g.operand r.tensor).g4eShape.groups).map fun i =>
    g4eStep lr k (s.tensorValue (g.operand r.scaleMaster) (s.bankNow p.state) i)
      (s.descale (s.tensorValue (g.operand r.scaleGrad) 0 i))

/-- The new weight masters by element. -/
def State.newWeights (s : State) (g : Program) (p : PlanHeader) (factor : BitVec 32) (r : G4eRecord) (nsq : BitVec 32) : List Fp :=
  let lr := mulR (fp32 p.g4eLr) (fp32 factor)
  let k := clipFactor (!(fp32 p.g4eClip).isZero) p.g4eClip nsq
  let x := (g.operand r.tensor).g4eShape
  (List.range (x.ins * x.outs)).map fun e =>
    g4eStep lr k (s.tensorValue (g.operand r.weightMaster) (s.bankNow p.state) e)
      (s.descale (s.tensorValue (g.operand r.weightGrad) 0 e))

/-- The groups of a FULL record after the optimiser, in forward order, with what they count. A weight that is not a
number has a free code: the spec gives none, and the shadow is then discarded. -/
def State.fullGroups (s : State) (g : Program) (r : G4eRecord) (scales ws : List Fp) : List (GroupOut × QuantCount) :=
  let x := (g.operand r.tensor).g4eShape
  let gd : Guard := { on := bit r.flags 0, underflow := r.underflowLimit, sat := r.satLimit }
  (List.range x.groups).map fun k =>
    let (o, j) := x.fwdGroup k
    let w := (List.range x.g).map fun p => ws.getD (x.elem (j * x.g + p) o) .zero
    requantise gd x.cap (fun p => (Config.freeByte s.freeCount (k * 128 + p)).toNat) w (toFp32 (scales.getD k .zero))

/-- The groups of a SCALES record: codes and side entries as they are, a bad scale restored (R301). -/
def State.scaleGroups (s : State) (g : Program) (h : StateHeader) (r : G4eRecord) (scales : List Fp) : List (GroupOut × QuantCount) :=
  let t := g.operand r.tensor
  let x := t.g4eShape
  let b := s.tensorBytes t (s.bankNow h) 0 t.size
  (List.range x.groups).map fun k =>
    let (o, j) := x.fwdGroup k
    let v := scales.getD k .zero
    let bad := !normalScale (toBf16 v)
    let sc := if bad then field b (x.scalePlane + 2 * k) 2 else toBf16 v
    ({ codes := x.groupCodes b o j, scale := sc
       slots := (List.range x.cap).map fun t => field b (x.sidePlane + 4 * (k * x.cap + t)) 4
       master := if bad then toFp32 (bf16 sc) else toFp32 v }, { fixups := bool01 bad })

/-- +0 over a gradient tensor. -/
def State.zeroTensor (s : State) (t : Tensor) : State := s.zeroPieces (s.tensorPieces t 0)

/-- What a record's counters gain (R303, R304). -/
def gainOf (r : G4eRecord) (c : QuantCount) : G4eCounters :=
  { g4eId := r.tensor, saturated := c.saturated, underflow := c.underflow, escapesLast := c.escapes, guardUp := c.up
    guardDown := c.down, guardLimited := c.limited, scaleFixups := c.fixups }

/-- A G4E record: masters and both arrangements into the shadow. The finite test covers masters and scales (R388). -/
def State.sweepG4e (g : Program) (p : PlanHeader) (factor : BitVec 32) (x : State × Bool × List G4eCounters)
    (e : G4eRecord × BitVec 32 × BitVec 32) : State × Bool × List G4eCounters :=
  let (s, ok, gain) := x
  let (r, wn, sn) := e
  let h := p.state
  let t := g.operand r.tensor
  let shape := t.g4eShape
  let next := s.bankNext h
  let full := r.mode == 2
  let scales := s.newScales g p factor r sn
  let ws := if full then s.newWeights g p factor r wn else []
  let gs := if full then s.fullGroups g r scales ws else s.scaleGroups g h r scales
  let outs := gs.map (·.1)
  let s1 := (ws.zipIdx).foldl (fun u w => u.putFp32 (g.operand r.weightMaster) next w.2 (toFp32 w.1)) s
  let s2 := (outs.zipIdx).foldl (fun u o => u.putFp32 (g.operand r.scaleMaster) next o.2 o.1.master) s1
  let s3 := s2.writeTensor t next 0 (shape.image true outs)
  let s4 := if r.transposed = noTensor then s3 else s3.writeTensor (g.operand r.transposed) next 0 (shape.image false outs)
  let s5 := (s4.zeroTensor (g.operand r.weightGrad)).zeroTensor (g.operand r.scaleGrad)
  let fine := ws.all (fun w => !w.nonFinite) && outs.all fun o => !(fp32 o.master).nonFinite && !(bf16 o.scale).nonFinite
  (s5.takeFree, ok && fine, gain ++ [gainOf r ((gs.map (·.2)).foldl QuantCount.plus {})])

/-! ### What a sweep reads and writes (R302, R388, R421) -/

/-- The factor vectors of the parameter records in a bank. -/
def State.factorRanges (s : State) (g : Program) (h : StateHeader) (bank : Nat) : List ChannelRange :=
  (g.records.zip (g.records.map (s.elemRuns g h))).flatMap fun x =>
    if x.2.isEmpty || !g.keepsSums x.1 then []
    else if x.1.placed then s.tensorRanges g (h.shift bank .master) [x.1.factor]
    else
      let a := s.factorPlace g h x.1 bank 0
      [(daStack a, s.channelAt a, a, 4 * (g.rowsOf x.1 + g.colsOf x.1))]

/-- What SWEEP reads of the current bank, and REQUANT: a SCALES record's arrangements are copied, and a FULL record's are
formed from its masters. -/
def State.paramState (s : State) (g : Program) (h : StateHeader) : List ChannelRange :=
  s.copyRanges g h s.commit.epochBank [.master, .moment] ++ s.factorRanges g h s.commit.epochBank
def State.g4eState (s : State) (g : Program) (h : StateHeader) : List ChannelRange :=
  g.g4eRecords.flatMap fun r => s.tensorRanges g (s.bankNow h) (r.masters ++ if r.mode == 2 then [] else r.arrangements)

/-- All that the pass reads. -/
def State.sweepReads (s : State) (g : Program) (h : StateHeader) : List ChannelRange :=
  s.gradRanges g h ++ s.paramState g h ++ s.g4eState g h

/-- What each of the two reads and writes: the gradients twice, the current bank and the other. -/
def State.paramRanges (s : State) (g : Program) (h : StateHeader) : List ChannelRange :=
  let bank := 1 - s.commit.epochBank
  s.paramGrads g h ++ s.paramGrads g h ++ s.paramState g h ++ s.copyRanges g h bank [.master, .moment, .gather] ++ s.factorRanges g h bank
def State.g4eRanges (s : State) (g : Program) (h : StateHeader) : List ChannelRange :=
  s.g4eGrads g ++ s.g4eGrads g ++ s.g4eState g h ++
    g.g4eRecords.flatMap fun r => s.tensorRanges g (s.bankNext h) (r.masters ++ r.arrangements)

/-- The part of an operation that a range is: its BSU and its bytes. -/
def ChannelRange.part (x : ChannelRange) : Nat × Nat × Nat := (x.1, x.2.1, x.2.2.2)

/-! ### The whole pass -/

/-- Pass 2 of R386: the state with its shadow written, whether all of it is finite, and the counters' gain. -/
def State.sweepAll (s : State) (g : Program) (p : PlanHeader) (r : RunStep) : State × Bool × List G4eCounters :=
  let x := ((g.records.zip r.stats)).foldl (fun x e => State.sweepRecord g p r.lrFactor x e.1 e.2) (s, true)
  ((g.g4eRecords.zip r.g4eNorms)).foldl (State.sweepG4e g p r.lrFactor) (x.1, x.2, [])

end Sys2Proof.Machine
end

