-- ==== Sys2Proof/Machine/Update.lean ====
section
/-! DEFINITION. From the last HALT to the end of the step (R179, R384 to R394, R398, R399, R406, R407, R414 to R417,
R623, R633, R650): statistics, the sweep, the vote, the commit and RUN_STEP's FINAL response. -/

namespace Sys2Proof.Machine

/-! ### Statistics -/

/-- FP32 words of a message. -/
def wordBytes (l : List (BitVec 32)) : List Byte := l.flatMap fun x => leBytes 4 x.toNat
def wordAt (b : List Byte) (i : Nat) : BitVec 32 := BitVec.ofNat 32 (field b (4 * i) 4)

/-- The channels of ranges. -/
def channelsOf (l : List ChannelRange) : List (Nat × Nat) := (l.map fun x => (x.1, x.2.1)).eraseDups

/-- The operation that Lamplighter has given the BSU fails a step: not CLEAR, which runs between steps (R495). -/
def Bsu.failsStep (b : Bsu) : Bool := decide (0x20 ≤ b.updateOp) && decide (b.updateOp ≤ 0x23)

/-- The trailer bit of a steering mode (R385). -/
def modeBit (mode : Nat) : Nat := 2 * 2 ^ mode

/-- This device's trailer flag word of STEP_STATS. -/
def State.statsWord (s : State) : Nat := (s.run.map fun r => bool01 r.nonFinite + modeBit r.steerMode).getD 0

/-- The partials of the statistics pass on the rings: every channel that holds a part but the last of its stack sends one of
each sum of the record (R477, R482). -/
def State.countStatsRing (s : State) (g : Program) (h : StateHeader) : State :=
  let send := fun (u : State) (words : Nat) (cs : List (Nat × Nat)) =>
    cs.foldl
      (fun (x : State) c =>
        if cs.any fun y => y.1 == c.1 && decide (c.2 < y.2) then
          x.modBsu c.1 c.2 fun b => { b with ringBytes := satAdd b.ringBytes (4 * words) }
        else x) u
  let params := g.records.foldl
    (fun u r =>
      let sums := if g.keepsSums r then g.rowsOf r + g.colsOf r else 0
      send u (1 + sums) ((s.elemRuns g h r).map fun x => (x.stack, x.channel)).eraseDups) s
  g.g4eRecords.foldl (fun u r => r.grads.foldl (fun v i => send v 1 (channelsOf (s.tensorRanges g 0 [i]))) u) params

/-- Pass 1 of the update, after SCALE_GRAD; STEP_STATS is issued. -/
def State.formStats (s : State) (g : Program) (h : StateHeader) : State :=
  let s1 := g.g4eRecords.foldl (fun u r => u.scaleGrad g h r) s
  let stats := g.records.map (s1.recordStats g h)
  let norms := g.g4eRecords.map (s1.g4eNorm g)
  let a := s1.descale (s1.descale s1.noiseSum)
  let scaled := s1.scaleRanges g h
  let read := s1.gradRanges g h
  let s2 := ((s1.countParts (scaled.map ChannelRange.part)).countParts (read.map ChannelRange.part)).countStatsRing g h
  let s3 : State :=
    { s2 with
      run := s2.run.map fun r =>
        { r with
          phase := .stats, nonFinite := s.deviceFlag, stats := stats, g4eNorms := norms, statsStart := s.now }
      sweep := { s2.sweep with phase := .stats } }
  (s3.startUpdateOp 0x20 (channelsOf read)).issueUpdate updStats
    (wordBytes [toFp32 a, gradSum (s1.geo.replica s1.rank) stats norms]) (BitVec.ofNat 8 s3.statsWord)

/-- The compute phase has ended (R179, R402). -/
def State.endCompute (s : State) : State :=
  match s.program with
  | none => s
  | some g =>
    match g.plan with
    | none => s.setPhase .ended
    | some p =>
      match s.firstFailure (s.gradRanges g p.state) with
      | some (st, ch, why) => (s.setPhase .stats).bsuDeviceFails st ch why false
      | none => s.formStats g p.state

/-- Every used context of every used tile is HALTED. -/
def State.allHalted (s : State) : Bool :=
  [0, 1].all fun d => (s.usedTiles d).all fun p => (List.range s.contextsUsed).all fun n => ((s.tile d p).ctx n).state == .halted

/-- CONTEXT_HALTED (R164, R179): a context at HALT has nothing in flight any more. -/
def execContextHalted (d p ctx : Nat) (s : State) : Host.Outcome State Fault Refusal :=
  if tileExists d p && decide (ctx < 8) then
    let c := (s.tile d p).ctx ctx
    if s.computing && s.usedTile d p && c.state == .blocked && c.reason == .halt && s.ctxQuiet d p ctx then
      let t := s.unblock d p ctx .halted
      .next (if t.allHalted then t.endCompute else t)
    else .next s
  else .fault .noSuchUnit

/-! ### STEP_STATS (R385, R386, R415, R416) -/

def lowestMode (word : Nat) : Nat := if bit word 1 then 0 else if bit word 2 then 1 else if bit word 3 then 2 else 0

def modesIn (word : Nat) : Nat := bool01 (bit word 1) + bool01 (bit word 2) + bool01 (bit word 3)

/-- More than one mode was signalled (R416). -/
def State.noteModes (s : State) (word : Nat) : State :=
  if 1 < modesIn word then
    (({ s with sweep := { s.sweep with modeMismatches := satAdd s.sweep.modeMismatches 1 } } : State).newCascade.raise
      { code := .steerModeMismatch, unit := deviceUnit, value := word / 2 % 8 * 2 }).inCascade none
  else s

/-- The noise registers of a step (R415, R420). Under OFF no estimate is formed. -/
def State.noteNoise (s : State) (mode mb : Nat) (a g : BitVec 32) : State :=
  let m := mb * s.devices / max s.geo.k 1
  let (est, b) := noiseEstimate a g m
  let on := mode != 0
  let valid := if on then b else none
  { s with
    sweep := { s.sweep with
      steerMode := mode, noiseA := if on then toFp64 est else 0, noiseG2 := toFp64 (fp32 g)
      noiseB := valid.getD (BitVec.allOnes 64) }
    run := s.run.map fun r => { r with modeApplied := mode, noiseB := valid } }

/-! ### The vote (R386, R392, R398, R406, R407) -/

/-- PREPARED is written, then the vote is contributed. -/
def State.castVote (s : State) (vote : Nat) (digest : List Byte) : State :=
  match s.run with
  | none => s
  | some r =>
    let t := s.writePrepared r.k vote digest r.noiseB r.modeApplied
    let u : State :=
      { t with
        commit := { t.commit with gain := r.g4eGain }
        run := some { r with phase := .voting, vote := vote, stateDigest := digest }
        sweep := { t.sweep with phase := .vote, vote := vote } }
    u.issueUpdate updReady (leBytes 8 vote) 0

/-- The vote after a sweep. -/
def RunStep.sweepVote (r : RunStep) : Nat := 1 + 2 * bool01 r.sweepFinite + 4 * bool01 r.digestOk

/-- SWEEP goes to the BSUs that hold parameter records, and REQUANT to the others that hold G4E records (R473). -/
def State.startSweep (s : State) : State :=
  match s.program, s.program.bind Program.plan with
  | some g, some p =>
    let params := channelsOf (s.paramRanges g p.state)
    let g4e := (channelsOf (s.g4eRanges g p.state)).filter fun c => !params.contains c
    (s.startUpdateOp 0x21 params).startUpdateOp 0x22 g4e
  | _, _ => s

/-- The sweep may begin: an export before it must be complete first (R409). -/
def State.beginSweep (s : State) : State :=
  let wait := !s.exports.isEmpty
  let t : State :=
    { s with
      run := s.run.map fun r =>
        { r with phase := .sweeping, sweepStart := s.now, exportWaitSince := if wait then some s.now else none }
      sweep := { s.sweep with phase := .sweep, exportWaitNs := 0 } }
  if wait then t else t.startSweep

/-- How long the statistics pass took is known no better than that it lies between the last HALT and the completion of
STEP_STATS (R420, R421): a free value. -/
def State.noteStatsPass (s : State) : State :=
  { s.takeFree with
    run := s.run.map fun r => { r with statsNs := (Config.freeWord s.freeCount).toNat % (s.now - r.statsStart + 1) } }

/-! ### Errors of BSU operations as they come (R494, R495) -/

/-- The reasons for which an operation ends in error. -/
def bsuReasonOk (r : Nat) : Bool :=
  [Status.memoryError.code, Status.unitRetired.code, Status.thermalHalt.code, rsIndexRange, 0x8006].contains r

/-- No object is under way at the moment. -/
def State.exportIdle (s : State) : State :=
  { s with sweep := { s.sweep with phase := if s.sweep.phase = .exporting then .idle else s.sweep.phase } }

/-- An export is over, and with the last of them the wait of a sweep for it. -/
def State.exportsDone (s0 : State) : State :=
  let s := s0.exportIdle
  if s.exports.isEmpty then
    match s.run.bind (·.exportWaitSince) with
    | some t =>
      ({ s with
        run := s.run.map fun r => { r with exportWaitSince := none, sweepStart := s.now }
        sweep := { s.sweep with exportWaitNs := s.now - t } } : State).startSweep
    | none => s
  else s

/-- The object of an export is abandoned; the commit stands (R495). -/
def State.exportFails (s : State) (st ch : Nat) (reason : Nat) : State :=
  let s1 := s.modBsu st ch fun b => { b with cause := BitVec.ofNat 32 (bsuCauseWord reason false) }
  s1.popExport.exportsDone.newCascade.raise
    { code := .deltaExportFailed, unit := deviceUnit, status := deviceReason reason, value := ((s.exports.head?.map (·.step)).getD 0) % 2 ^ 32 }

/-- BSU_OPERATION_ERROR (R494, R495): the operation of a program that has this identifier; failing that, the
landing, the update operation or the export that the BSU is at. -/
def execBsuOperationError (id st ch reason : Nat) (s : State) : Host.Outcome State Fault Refusal :=
  if bsuExists st ch then
    let b := s.bsu st ch
    let part := (s.bsuOp id).bind fun o => (o.part st ch).map fun _ => o.desc
    .next
      (if !bsuReasonOk reason || b.state == .retired then s
      else
        match part with
        | some o => if s.stepOpen && !s.stopped then s.bsuFails st ch o reason false else s
        | none =>
          if reason = rsIndexRange ∨ reason = 0x8006 then s
          else if s.stepOpen && !s.stopped && (!b.landings.isEmpty || b.failsStep) then s.bsuDeviceFails st ch reason false
          else if b.exportPending then s.exportFails st ch reason
          else s)
  else .fault .noSuchUnit

/-- This device's share of RECORD_STATS: for each FLAT record in plan order the norm squared, and the row and column sums. -/
def State.recordShare (s : State) (g : Program) : List Byte :=
  let stats := (s.run.map (·.stats)).getD []
  ((g.records.zip stats).filter fun x => !x.1.placed).flatMap fun x => wordBytes (x.2.nsq :: (x.2.rows ++ x.2.cols))

/-- STEP_STATS_COMPLETE (R386): the sums and the trailer words of all devices are there. -/
def execStepStatsComplete (s : State) : Host.Outcome State Fault Refusal :=
  match s.run, s.program, s.updateDone updStats with
  | some r, some g, some i =>
    if s.inPhase .stats && s.updateRuns then
      let word := i.trailer.toNat
      let t := ((s.endUpdate updStats).endUpdateOp.noteStatsPass.noteModes word).noteNoise (lowestMode word) r.mb (wordAt i.result 0)
        (wordAt i.result 1)
      if bit word 0 then
        let u : State := { t with run := t.run.map fun x => { x with nonFinite := true } }
        .next (u.castVote 5 u.commit.stateDigest)
      else if g.flatRecords.isEmpty then .next t.beginSweep
      else .next ((t.setPhase .recordStats).issueUpdate updRecords (t.recordShare g) 0)
    else .next s
  | _, _, _ => .next s

/-! ### RECORD_STATS -/

/-- The statistics of the FLAT records take the reduced values, in order; those of placed ones stay. -/
def withReduced : List ParamRecord → List RecordStats → List Byte → List RecordStats
  | r :: rs, x :: xs, b =>
    if r.placed then x :: withReduced rs xs b
    else
      let m := x.rows.length
      let n := x.cols.length
      { nsq := wordAt b 0, rows := (List.range m).map fun i => wordAt b (1 + i), cols := (List.range n).map fun i => wordAt b (1 + m + i) } ::
        withReduced rs xs (b.drop (4 * (1 + m + n)))
  | _, xs, _ => xs

/-- RECORD_STATS_COMPLETE (R386). -/
def execRecordStatsComplete (s : State) : Host.Outcome State Fault Refusal :=
  match s.run, s.program, s.updateDone updRecords with
  | some r, some g, some i =>
    if s.inPhase .recordStats then
      let t := s.endUpdate updRecords
      let u : State := { t with run := some { r with stats := withReduced g.records r.stats i.result } }
      .next u.beginSweep
    else .next s
  | _, _, _ => .next s

/-! ### The sweep's end -/

/-- Replica digests are compared in this step (R407). -/
def digestDue (p : PlanHeader) (k : Nat) : Bool :=
  decide (1 < p.state.replicas) && p.digestInterval != 0 && k % p.digestInterval == 0

/-- The shadow is written whole. -/
def State.finishSweep (s : State) (g : Program) (p : PlanHeader) (r : RunStep) : State :=
  let h := p.state
  let counted := (s.countParts ((s.paramRanges g h).map ChannelRange.part)).countParts ((s.g4eRanges g h).map ChannelRange.part)
  let (s1, fine, gain) := counted.endUpdateOp.sweepAll g p r
  let digest := stateDigest (s1.sections g h (1 - s1.commit.epochBank))
  let r1 := { r with swept := true, sweepFinite := fine, stateDigest := digest, g4eGain := gain }
  let s2 : State := { s1 with run := some r1, sweep := { s1.sweep with sweepNs := r.statsNs + (s1.now - r.sweepStart) } }
  if digestDue p r.k then (s2.setPhase .digest).issueUpdate updDigest (sliceZ digest 0 32) 0 else s2.castVote r1.sweepVote digest

/-- SWEEP_COMPLETE (R386). -/
def execSweepComplete (s : State) : Host.Outcome State Fault Refusal :=
  match s.run, s.program with
  | some r, some g =>
    match g.plan with
    | none => .next s
    | some p =>
      if s.inPhase .sweeping && s.exports.isEmpty && s.updateRuns then
        match s.firstFailure (s.sweepReads g p.state) with
        | some (st, ch, why) => .next (s.bsuDeviceFails st ch why false)
        | none => .next (s.finishSweep g p r)
      else .next s
  | _, _ => .next s

/-- DIGEST_EXCHANGE_COMPLETE (R407): the digests of the replica set are there, in ascending rank. -/
def execDigestExchangeComplete (s : State) : Host.Outcome State Fault Refusal :=
  match s.run, s.updateDone updDigest with
  | some r, some i =>
    let l := chunks 32 (i.result.length / 32) i.result
    if s.inPhase .digest then
      let r1 := { r with digestOk := l.all fun x => x == sliceZ r.stateDigest 0 32, lowestDigest := l.head? }
      let t := s.endUpdate updDigest
      let u : State :=
        { t with run := some r1, sweep := { t.sweep with digestComparisons := satAdd t.sweep.digestComparisons 1 } }
      .next (u.castVote r1.sweepVote r1.stateDigest)
    else .next s
  | _, _ => .next s

/-! ### The commit (R392, R393, R398, R408) -/

def outcomeOf (w : Nat) : StepOutcome := if !bit w 2 then .notCommitted else if bit w 1 then .update else .skip

/-- The step commits. -/
def State.commitStep (s : State) (p : PlanHeader) (r : RunStep) (rec : CommitRecord) (w : Nat) (o : StepOutcome) : State :=
  let t := s.writeCommitted p o w rec
  let u := t.owesExport p r.k o
  { u with
    run := some { r with committed := true, outcome := o, phase := .ended, skipReason := bool01 r.swept }
    sweep := { u.sweep with phase := .commit, outcome := o, result := w } }

/-- The replicas diverged: nothing commits. A device whose digest is not the lowest member's is DIVERGED. -/
def State.divergeStep (s : State) (r : RunStep) (w : Nat) (p : CommitRecord) : State :=
  let t := s.writeRolledBack p
  let bad := (r.lowestDigest.map fun x => x != r.stateDigest).getD false
  let u : State :=
    { t with
      run := some { r with outcome := .notCommitted, phase := .ended }
      sweep := { t.sweep with phase := .commit, outcome := .notCommitted, result := w, diverged := t.sweep.diverged || bad } }
  (u.newCascade.raise { code := .replicaDiverged, unit := deviceUnit, status := .internal, value := u.lowestReplica }).inCascade none

/-- COMMIT_READY_COMPLETE (R392): W is the AND of all devices' votes. -/
def execCommitReadyComplete (s : State) : Host.Outcome State Fault Refusal :=
  match s.run, s.prepared, s.program.bind Program.plan, s.updateWord updReady with
  | some r, some rec, some p, some w0 =>
    if s.inPhase .voting then
      let w := w0 % 256
      let t := s.endUpdate updReady
      match outcomeOf w with
      | .notCommitted => .next (t.divergeStep r w rec)
      | o => .next (t.commitStep p r rec w o)
    else .next s
  | _, _, _, _ => .next s

/-! ### The step's end (R394, R623, R633, R650) -/

/-- Status, DETAIL_KIND and DETAIL of a step. -/
def State.stepStatus (s : State) (r : RunStep) : Status × Nat × List Byte :=
  match r.abort with
  | some a => (a.status, a.detailKind, a.detail)
  | none =>
    match r.outcome with
    | .update => (.ok, 0, [])
    | .skip => (.stepSkipped, 5, leBytes 1 r.skipReason)
    | .notCommitted => (.internal, 6, leBytes 2 s.lowestReplica)
    | .none => if s.hasUpdatePlan then (.stepSkipped, 5, leBytes 1 r.skipReason) else (.ok, 0, [])

/-- The OUTCOME that the result reports. -/
def RunStep.reported (r : RunStep) : StepOutcome := if r.abort.isSome then .none else r.outcome

/-- RUN_STEP's FINAL response. -/
def State.answerStep (s : State) (r : RunStep) : State :=
  let (st, kind, detail) := s.stepStatus r
  (s.traceStep r.k (some st)).respond r.mailbox st
    (s.stepResult r.k r.reported.code kind (if r.contextsIssued then r.mb else 0) (s.now - r.acceptedNs) detail)

/-- The device leaves the step: READY, or MAINTENANCE when a DRAIN named it. -/
def State.leaveStep (s : State) : State :=
  let l := { s.lamp with drain := none, linkDrain := false }
  match s.lamp.drain with
  | some (n, true) => ({ s with dev := .maintenance, lamp := { l with maintReason := .requested } } : State).respond n .ok []
  | some (n, false) => ({ s with dev := .ready, lamp := l } : State).respond n .ok []
  | none => { s with dev := .ready, lamp := l }

/-- CLEAR goes to the BSUs that hold gradient copies (R369). -/
def State.startClear (s : State) : State :=
  match s.program, s.program.bind Program.plan with
  | some g, some p => s.startUpdateOp 0x25 (channelsOf (s.gradRanges g p.state))
  | _, _ => s

/-- The end of a step. -/
def State.endStep (s : State) (r : RunStep) : State :=
  let t := if r.committed then s.flip else s
  let u := (t.inCascade (r.abort.map (·.root))).answerStep r
  let dirty := u.hasUpdatePlan && r.reported != .update
  let v : State :=
    { u with
      run := none
      clearing := u.clearing || dirty
      clearSince := if dirty then u.now else u.clearSince
      sweep := { u.sweep with phase := .idle } }
  (((if dirty then v.startClear else v).inCascade r.serviceRoot).leaveStep.applyService).inCascade none

/-- STEP_END (R623). -/
def execStepEnd (s : State) : Host.Outcome State Fault Refusal :=
  match s.run with
  | none => .next s
  | some r => .next (if r.abort.isSome || r.phase == .ended then s.endStep r else s)

/-! ### Gradient clearing (R369) -/

/-- GRADIENT_CLEAR_COMPLETE: the BSUs have written +0 over every gradient copy. -/
def execGradientClearComplete (s : State) : Host.Outcome State Fault Refusal :=
  match s.program with
  | some g =>
    .next
      (if s.clearing && s.updateRuns then
        let ranges := ((g.plan.map fun p => s.gradRanges g p.state).getD []).map ChannelRange.part
        let t := (s.countParts ranges).endUpdateOp.clearGradients g
        { t with clearing := false, stateBlock := { t.stateBlock with clearTime := t.now - t.clearSince } }
      else s)
  | none => .next s

end Sys2Proof.Machine
end

