-- ==== Sys2Proof/Machine/HostIf.lean ====
section
/-! DEFINITION. The host interface (R576 to R603): the registers that the host writes, the memory window, the
DMA channels, and the host link's retraining, loss and return. -/

namespace Sys2Proof.Machine

/-- The IOD is lit, and so the host interface serves the host. -/
def State.hostServed (s : State) : Bool := s.dev.lit

/-! ### DMA channels (R591 to R594) -/

/-- Entries of a ring; RING_LOG2 below 1 names none. -/
def DmaChannel.entries (c : DmaChannel) : Nat := if c.ringLog2 = 0 then 0 else 2 ^ c.ringLog2

/-- Device address of the descriptor at a ring index. -/
def DmaChannel.descAddr (c : DmaChannel) (i : Nat) : Nat := c.ringBase + 32 * i

/-- A descriptor waits: the channel is enabled and idle, and HEAD has not reached TAIL. -/
def DmaChannel.ready (c : DmaChannel) : Bool :=
  c.enable && c.state == .idle && c.entries != 0 && c.head % c.entries != c.tail % c.entries

/-- A descriptor from its 32 bytes (R592). -/
def descriptorOf (b : List Byte) : Descriptor :=
  { src := field b 0 8, dst := field b 8 8, length := field b 0x10 4, flags := field b 0x14 2
    reserved := field b 0x16 2 != 0 || field b 0x1B 1 != 0 }

/-- Spaces that the device side of a descriptor may lie in. -/
def deviceSpace (a : Nat) : Bool := daSpace a == 0 || daSpace a == 8 || daSpace a == 9

/-- Every field is valid (R592). An address that spells no space is in none of the four. -/
def Descriptor.valid (d : Descriptor) : Bool :=
  ((d.toDevice && deviceSpace d.dst) || (daSpace d.dst == 0xC && deviceSpace d.src)) &&
    d.length % 4 == 0 && decide (4 ≤ d.length) && decide (d.length ≤ 268435456) && decide (d.flags < 2) && !d.reserved

/-- The bit of RIGHTS that the device side needs (R695). -/
def Descriptor.right (d : Descriptor) : Nat := if d.toDevice then 1 else 0

/-- The checks made when the channel starts a descriptor (R594, R698): the side that fails, and why. -/
def State.descriptorDenied (s : State) (d : Descriptor) : Option (Bool × Denial) :=
  let device := (s.checkAccess (some d.right) d.toDevice d.deviceAddr d.length).filter fun x =>
    x == .unassigned || x == .protection || s.regionCheck d.right d.deviceAddr d.length == .lost
  let host := if s.hostAllowed (!d.toDevice) (if d.toDevice then d.src else d.dst) d.length then none else some Denial.protection
  match device, host with
  | some x, _ => some (d.toDevice, x)
  | none, some x => some (!d.toDevice, x)
  | none, none => none

/-- A channel takes up its next descriptor. A ring that no window lets the device read gives none: the channel
ends it as a window failure. -/
def State.dmaStart (s : State) (n : Nat) : State :=
  let c := s.dmaCh n
  let i := c.head % c.entries
  let job : State × DmaJob :=
    match s.hostRead (c.descAddr i) 32 with
    | none =>
      let d : Descriptor := { src := 0, dst := 0, length := 0, flags := 0, reserved := false }
      (s.countDenial .protection, { desc := d, index := i, failed := some (dmaStatus false 6 .protection) })
    | some b =>
      let d := descriptorOf b
      if !d.valid then (s, { desc := d, index := i, failed := some (.badField, 0) })
      else
        match s.descriptorDenied d with
        | none => (s, { desc := d, index := i })
        | some (dst, e) =>
          ((s.countDenial e).takeFree, { desc := d, index := i, failed := some (dmaStatus dst (s.dmaTier d dst) e) })
  (job.1.modDma n fun x => { x with state := .active, current := some job.2 }).dmaSplit n maxOutstanding

/-- A channel starts its next descriptor when it can: the link carries host traffic (R596). -/
def State.dmaKick (s : State) (n : Nat) : State :=
  if (s.dmaCh n).ready && s.host.speed != 0 && !s.host.retraining then s.dmaStart n else s

def State.dmaKickAll (s : State) : State := (List.range 8).foldl State.dmaKick s

/-- tRFCpb (R464), and the debt at which a refresh is forced (R445). -/
def refreshNs : Nat := 190
def maxDebt : Nat := 8

/-- The pause of a BSU ends: every bank of its channel has paid its debt, and the BSU goes on (R492). -/
def State.endPause (s : State) (st ch : Nat) : State :=
  let ks := (s.stack st).indebted ch
  let debts := ks.map fun k => (assocGet ({} : Bank) (s.stack st).banks k).debt
  let t := s.advanceTo (s.now + refreshNs * debts.foldl max 0)
  let s1 := t.chargeAll.modStack st fun k =>
    { k with
      banks := ks.foldl (fun l i => bankSet l i { activations := (assocGet ({} : Bank) l i).activations }) k.banks
      refreshForced := satAdd k.refreshForced (debts.filter fun d => decide (maxDebt ≤ d)).length }
  (s1.modBsu st ch fun b =>
    { b with
      paused := false, refreshPauses := satAdd b.refreshPauses 1
      stalls := modAt b.stalls StallCause.refreshPause.code (satAdd · (s1.now - b.waitSince.getD s.now))
      waitSince := none, stallSince := s1.now }).kickBsu st ch

/-- A forced refresh of one bank completes, and its requests go on. -/
def State.endForced (s : State) (st pch bank : Nat) : State :=
  let b := s.bank st pch bank
  ((s.advanceTo (s.now + refreshNs)).chargeAll.setBank st pch bank { debt := b.debt - 1, held := false, activations := b.activations }).modStack st
    fun k => { k with refreshForced := satAdd k.refreshForced 1 }

/-- The refresh of a held bank, or the pause that holds it, completes. -/
def State.endHold (s : State) (st pch bank : Nat) : State :=
  if (s.bsu st (pch / 2)).paused then s.endPause st (pch / 2) else s.endForced st pch bank

/-- An access waits for a bank that a refresh holds, and for a pseudo-channel in PHY calibration (R445, R744). -/
def State.awaitBank (s : State) (a : Nat) : State :=
  let t := match s.pch a with
    | some (q, pla) => if s.bankHeld a then s.endHold (daStack a) q (plaBank pla) else s
    | none => s
  if t.calibrating a then t.advanceTo (((t.stack (daStack a)).calibrating.map (·.2)).getD 0) else t

/-- Ends the slices whose footprints a range meets and the holds of its banks: an access to them waits that long
(R445, R489). -/
def State.awaitSlices (s : State) (a n : Nat) : State :=
  (granules a n).foldl
    (fun t0 g =>
      let t := t0.awaitBank g.1
      if t.claimed g.1 g.2 then
        match t.pch g.1 with
        | none => t
        | some (q, _) =>
          let st := daStack g.1
          let u := t.modBsu st (q / 2) fun b => { b with heldRequests := satAdd b.heldRequests 1 }
          match (u.bsu st (q / 2)).slice with
          | some (.op id) => u.endSlice st (q / 2) id []
          | some .landing => u.landSlice st (q / 2) []
          | some .exportOut => (u.releaseSlice st (q / 2) 65536).boundary st (q / 2)
          | none => u
      else t) s

/-- The device writes STATUS, CAUSE and DONE in place (R592, R593); a window that denies the write drops them. -/
def State.writeBack (s : State) (n index : Nat) (st : Status) (cause : Nat) : State :=
  let a := (s.dmaCh n).descAddr index + 0x18
  if s.hostAllowed true a 8 then
    s.hostWrite a (leBytes 2 (Status.code st) ++ [1] ++ ((s.hostRead (a + 3) 1).getD [0]) ++ leBytes 4 cause)
  else s

/-- A descriptor completes: its status is written, HEAD advances, and the channel goes on or enters HALTED. -/
def State.dmaFinish (s : State) (n : Nat) (job : DmaJob) (st : Status) (cause : Nat) : State :=
  let c := s.dmaCh n
  let halted := st != .ok
  let s1 := ((s.writeBack n job.index st cause).dmaDrop n).modDma n fun x =>
    { x with
      head := (job.index + 1) % c.entries, lastStatus := st, current := none
      state := if halted then .halted else if x.enable then .idle else .disabled }
  let s2 := if halted || job.desc.flags % 2 == 1 then s1.signal (16 + n) else s1
  s2.dmaKick n

/-- The transfer of a channel ends: as a request of it has failed, or when every byte has landed, or with the host
link. -/
def State.dmaEnd (s : State) (n : Nat) (job : DmaJob) (out : XferOutcome) : State :=
  match job.failed, out with
  | some (st, cause), _ => s.dmaFinish n job st cause
  | none, .hostLinkLost => s.dmaFinish n job .hostLinkLost 0
  | none, .ok => if job.moved = job.desc.length then s.dmaFinish n job .ok 0 else s

def onChannel (n : Nat) (t : State) : Host.Outcome State Fault Refusal :=
  if n < 8 then .next t else .fault .noSuchUnit

/-- TAIL is written, and the channel may start (R591). -/
def State.writeTail (s : State) (n : Nat) (v : Nat) : State :=
  (s.modDma n fun c => { c with tail := v % 2 ^ 15 }).dmaKick n

/-- RESTART: a HALTED channel resumes at HEAD (R594, R602). -/
def State.dmaResume (s : State) (n : Nat) : State :=
  (s.modDma n fun c =>
    if c.state = .halted then { c with state := if c.enable then .idle else .disabled } else c).dmaKick n

/-- RING_CTRL's lasting fields. Clearing ENABLE lets a descriptor in progress complete. -/
def State.writeRingCtrl (s : State) (n v : Nat) : State :=
  let enable := bit v 4
  (s.modDma n fun c =>
    { c with
      ringLog2 := v % 16, enable := enable
      state := match c.state with
        | .disabled | .idle => if enable then .idle else .disabled
        | .active => .active
        | .halted => .halted }).dmaKick n

/-- DMA_TAIL_WRITE (R591). -/
def execDmaTailWrite (n : Nat) (v : BitVec 32) (s : State) : Host.Outcome State Fault Refusal :=
  onChannel n (if s.hostServed then s.writeTail n v.toNat else s)

/-- DMA_RESTART (R602). -/
def execDmaRestart (n : Nat) (s : State) : Host.Outcome State Fault Refusal :=
  onChannel n (if s.hostServed then s.dmaResume n else s)

/-- DMA_DESCRIPTOR_COMPLETE (R593, R594). While the link retrains a channel pauses (R596). -/
def execDmaDescriptorComplete (n : Nat) (out : XferOutcome) (s : State) : Host.Outcome State Fault Refusal :=
  onChannel n
    (match (s.dmaCh n).current with
     | some job => if s.host.retraining then s else s.newCascade.dmaEnd n job out
     | none => s)

/-! ### The memory window (R586 to R589) -/

/-- Device address of a BAR 2 offset. -/
def State.windowAddr (s : State) (off : Nat) : Nat := s.host.memwinPage.toNat * 4096 + off

/-- Records a BAR 2 access that the device cannot serve. -/
def State.hostError (s : State) (kind : HostErrKind) (write : Bool) (a : Nat) : State :=
  s.modHost fun h =>
    { h with
      errKind := kind, errWrite := write, errValid := true, errAddr := a
      windowErrors := satAdd h.windowErrors 1 }

/-- HOST_ERR KIND of a denial (R589). An unassigned address counts as UNMAPPED (DEDUCED). -/
def Denial.hostErr : Denial → HostErrKind
  | .unassigned | .hostLost => .unmapped
  | .protection => .denied
  | .retired => .retired
  | .halted => .halt
  | .memory => .uncorrectable

/-- The check on a BAR 2 access. -/
def State.checkWindow (s : State) (write : Bool) (a n : Nat) : Option Denial :=
  if !deviceSpace a then some .unassigned else s.checkIod (some (bool01 write)) write a n

/-- The completion of a BAR 2 read. -/
def State.complete (s : State) (data : List Byte) (poisoned : Bool) : State :=
  s.modHost fun h => { h with bar2Data := data, bar2Poisoned := poisoned }

/-- Data of a poisoned completion: the manual states none. -/
def State.poisonData (s : State) (n : Nat) : List Byte := (List.range n).map (Config.freeByte s.freeCount)

/-- A BAR 2 read. One that a die in stand-alone test mode ignores has no completion: no data stand there (R59). -/
def State.windowRead (s : State) (off n : Nat) (ecc : Ecc) : State :=
  let a := s.windowAddr off
  match s.checkWindow false a n with
  | some e => ((s.countDenial e).hostError e.hostErr false a).complete (List.replicate n 0xFF) false
  | none =>
    if s.iodIgnored a then s.complete [] false
    else
    match ((s.awaitSlices a n).countIod a n).serveRead a n ecc with
    | (s1, .ok b) => s1.complete b false
    | (s1, .error e) => ((s1.hostError e.hostErr false a).complete (s1.poisonData n) true).takeFree

/-- A BAR 2 write. -/
def State.windowWrite (s : State) (off : Nat) (data : List Byte) (ecc : Ecc) : State :=
  let a := s.windowAddr off
  match s.checkWindow true a data.length with
  | some e => (s.countDenial e).hostError e.hostErr true a
  | none =>
    if s.iodIgnored a then s
    else
    match ((s.awaitSlices a data.length).countIod a data.length).serveWrite a data ecc with
    | (s1, none) => s1
    | (s1, some e) => s1.hostError e.hostErr true a

/-- The access lies in the BAR. -/
def inWindowBar (off n : Nat) : Bool := decide (0 < n) && decide (off + n ≤ 2 ^ 36)

/-- BAR2_READ (R588, R589). -/
def execBar2Read (off n : Nat) (ecc : Ecc) (s : State) : Host.Outcome State Fault Refusal :=
  .next (if s.hostServed && inWindowBar off n then (s.newCascade.windowRead off n ecc).inCascade none else s)

/-- BAR2_WRITE (R588, R589). -/
def execBar2Write (off : Nat) (data : List Byte) (ecc : Ecc) (s : State) : Host.Outcome State Fault Refusal :=
  .next (if s.hostServed && inWindowBar off data.length then (s.newCascade.windowWrite off data ecc).inCascade none else s)

/-! ### Registers (R5, R600 to R602) -/

/-- MEMWIN_BASE: PAGE is bits [43:12] (R601). -/
def State.writeMemwin (s : State) (v : Nat) : State := s.modHost fun h => { h with memwinPage := BitVec.ofNat 32 (bits v 43 12) }

def State.clearInt (s : State) (v : Nat) : State :=
  s.modHost fun h => { h with intStatus := h.intStatus &&& ~~~ (BitVec.ofNat 27 v) }

/-- HOST_ERR: writing 1 to VALID clears the whole record. -/
def State.clearHostErr (s : State) (v : Nat) : State :=
  if bit v 31 then s.modHost fun h => { h with errKind := .none, errWrite := false, errValid := false, errAddr := 0 } else s

/-- A message that waited is sent: its pending bit clears (PRESUMED from PCI Express). -/
def HostIf.sendPending (h : HostIf) : HostIf :=
  let sent := BitVec.ofNat 64 (maskOf 64 fun v => h.msixEnabled && !(h.msix.getD v {}).control.getLsbD 0)
  { h with pba := h.pba &&& ~~~ sent }

/-- A word of an MSI-X table entry. -/
def MsixEntry.write (e : MsixEntry) (off : Nat) (v : BitVec 32) : MsixEntry :=
  match off with
  | 0 => { e with addr := e.addr.extractLsb' 32 32 ++ v }
  | 4 => { e with addr := v ++ e.addr.extractLsb' 0 32 }
  | 8 => { e with data := v }
  | _ => { e with control := v &&& 1#32 }

/-- The two 32-bit halves of a 64-bit value, one of them written. -/
def mergeHalf (old : Nat) (high : Bool) (v : Nat) : Nat :=
  if high then old % 2 ^ 32 + v * 2 ^ 32 else old / 2 ^ 32 * 2 ^ 32 + v

/-- A word of a DMA channel's registers. -/
def State.writeChannel (s : State) (n off : Nat) (v : BitVec 32) : State :=
  let base := (s.dmaCh n).ringBase
  match off with
  | 0 => s.modDma n fun c => { c with ringBase := mergeHalf base false v.toNat % 2 ^ 44 }
  | 4 => s.modDma n fun c => { c with ringBase := mergeHalf base true v.toNat % 2 ^ 44 }
  | 8 =>
    let s1 := s.writeRingCtrl n v.toNat
    if v.getLsbD 5 then s1.dmaResume n else s1
  | 0xC => s.writeTail n v.toNat
  | _ => s

/-- A 32-bit write of the host interface registers. -/
def State.writeHostWord (s : State) (off : Nat) (v : BitVec 32) : State :=
  let base := s.host.memwinPage.toNat * 4096
  match off with
  | 8 => s.writeMemwin (mergeHalf base false v.toNat)
  | 0xC => s.writeMemwin (mergeHalf base true v.toNat)
  | 0x10 => s.clearInt v.toNat
  | 0x18 => s.clearHostErr v.toNat
  | _ => s

/-- A 32-bit write to BAR 0, under the access type of what stands there: RO fields and offsets that the table
of R585 does not assign ignore it. A mailbox's request and its doorbell are one row of the command table. -/
def State.writeBar0 (s : State) (off : Nat) (v : BitVec 32) : State :=
  if off % 4 ≠ 0 then s
  else if 0x10000 ≤ off ∧ off < 0x11000 then s.writeHostWord (off - 0x10000) v
  else if 0x20000 ≤ off ∧ off < 0x20800 then s.writeChannel ((off - 0x20000) / 0x100) (off % 0x100) v
  else if 0x30000 ≤ off ∧ off < 0x30400 then
    s.modHost fun h => HostIf.sendPending { h with msix := modAt h.msix ((off - 0x30000) / 16) fun e => e.write (off % 16) v }
  else s

/-- REGISTER_WRITE (R5): BAR 0, and the two bits of configuration space that the manual names (R577, R590). -/
def execRegisterWrite (target : RegTarget) (v : BitVec 32) (s : State) : Host.Outcome State Fault Refusal :=
  .next
    (if s.hostServed then
      match target with
      | .bar0 off => s.writeBar0 off v
      | .configMsixEnable => s.modHost fun h => HostIf.sendPending { h with msixEnabled := v.getLsbD 0 }
      | .configCxlCacheEnable => s.modHost fun h => { h with cxlEnabled := v.getLsbD 0 }
    else s)

/-- MEMWIN_BASE_WRITE (R587). -/
def execMemwinBaseWrite (v : BitVec 64) (s : State) : Host.Outcome State Fault Refusal :=
  .next (if s.hostServed then s.writeMemwin v.toNat else s)

/-- INT_STATUS_CLEAR (R601). -/
def execIntStatusClear (v : BitVec 64) (s : State) : Host.Outcome State Fault Refusal :=
  .next (if s.hostServed then s.clearInt v.toNat else s)

/-- HOST_ERR_CLEAR (R601). -/
def execHostErrClear (v : BitVec 32) (s : State) : Host.Outcome State Fault Refusal :=
  .next (if s.hostServed then s.clearHostErr v.toNat else s)

/-- HOST_SNOOP (R580): answered with RspIHitI; the device holds no host line. -/
def execHostSnoop (s : State) : Host.Outcome State Fault Refusal :=
  .next (if s.hostServed && s.cxlCache then s.modHost fun h => { h with snoopsAnswered := h.snoopsAnswered + 1 } else s)

/-! ### Reads of host memory that do not complete (R584) -/

/-- The oldest read of host memory that a stream has in flight ends so. -/
def State.readLost (s : State) (o : ReqOwner) : State :=
  match s.requests.find? fun q => q.owner == o && !q.discarded && q.data.isNone && daSpace q.src == 0xC with
  | some q => s.requestFails q .hostLost false
  | none => s

/-- A read of host memory ends with HOST_LINK_LOST. -/
def State.hostReadLost (s : State) : HostRead → State
  | .dma n =>
    match (s.dmaCh n).current with
    | some job => if job.failed.isNone && job.desc.toDevice then s.dmaFinish n job .hostLinkLost 0 else s
    | none => s
  | .tileStream d p n => s.readLost (.tileSlot d p n)
  | .bsuStream st ch n => s.readLost (.bsuSlot st ch n)
  | .mailbox n => if (s.mbox n).state = .submitted then s.respond n .hostLinkLost [] else s

def hostReadExists : HostRead → Bool
  | .dma n => decide (n < 8)
  | .tileStream d p n => tileExists d p && decide (n < 128)
  | .bsuStream st ch n => decide (st < 8) && decide (ch < 32) && decide (n < 16)
  | .mailbox n => decide (n < 16)

/-- HOST_READ_TIMEOUT (R584). -/
def execHostReadTimeout (r : HostRead) (s : State) : Host.Outcome State Fault Refusal :=
  if hostReadExists r then .next (s.hostReadLost r) else .fault .noSuchUnit

/-! ### Retraining, loss and return (R596 to R599) -/

/-- HOST_LINK_RETRAINING (R596). -/
def execHostLinkRetraining (s : State) : Host.Outcome State Fault Refusal :=
  .next
    (if s.host.speed != 0 && !s.host.retraining then
      s.modHost fun h => { h with retraining := true, retrains := satAdd h.retrains 1 }
    else s)

/-- HOST_LINK_RETRAIN_COMPLETE (R596): nothing is lost, and what waited goes on. -/
def execHostLinkRetrainComplete (s : State) : Host.Outcome State Fault Refusal :=
  .next (if s.host.retraining then (s.modHost fun h => { h with retraining := false }).dmaKickAll else s)

/-- A descriptor in flight completes internally with HOST_LINK_LOST: what has landed stays, and the rest is
discarded. -/
def State.dmaLost (s : State) (n : Nat) : State :=
  match (s.dmaCh n).current with
  | none => s
  | some job => (s.dmaDrop n).modDma n fun c => { c with held := some (job.index, .hostLinkLost) }

/-- The owners of streams and XFERs that touch the HOST tier. -/
def State.hostOwners (s : State) : List ReqOwner :=
  let touches := fun (h : StreamHead) => h.srcTier == 6 || h.dstTier == 6
  let ofSlots := fun (mk : Nat → ReqOwner) (l : List StreamSlot) =>
    ((l.zipIdx).filter fun e => e.1.state == .running && touches (s.slotHead e.1)).map fun e => mk e.2
  ((List.range 100).flatMap fun i =>
      ofSlots (ReqOwner.tileSlot (i / 50) (i % 50)) ((s.tile (i / 50) (i % 50)).slots.take 127)) ++
    (List.range 256).flatMap fun i =>
      ofSlots (ReqOwner.bsuSlot (i / 32) (i % 32)) (s.bsu (i / 32) (i % 32)).slots

/-- Every stream that touches the HOST tier ends, and the step aborts (R229). -/
def State.hostStreamsEnd (s : State) : State :=
  let cause := fun (o : ReqOwner) => ((ownerRef o).map fun r => (s.headOf r).srcTier != 6).getD false
  let l := s.hostOwners.map fun o => (o, causeWord Denial.hostLost.reason 0 6 (cause o))
  if l.isEmpty then s else s.newCascade.endAllInError l

/-- What a mailbox keeps through a link loss: the entry that ATTACH returns, in place of a response. -/
def Mailbox.lose (m : Mailbox) : Mailbox :=
  if m.heldRunning then { m with state := .free }
  else
    match m.state with
    | .free => { held := m.held }
    | .submitted | .pending | .done =>
      let running := m.state != .done
      let r := m.response
      { opcode := if running then m.opcode else 0
        request := if running then m.request else {}
        held := some
          { opcode := m.opcode, status := if running then .pending else r.status, sequence := m.request.sequence
            resultLength := if running then 0 else r.resultLength, running := running
            result := if running then zeros 64 else r.front } }

/-- A DMA channel at reset, with what ATTACH returns of it. -/
def DmaChannel.lose (c : DmaChannel) : DmaChannel := { held := c.held }

/-- The host interface after a loss: registers and configuration space at reset (R597). -/
def HostIf.lose (h : HostIf) : HostIf :=
  { h with
    speed := 0, width := 0, flitMode := false, cxlTrained := false, cxlEnabled := false, retraining := false
    detached := true, memwinPage := 0, msixEnabled := false, msix := List.replicate 64 {}, pba := 0
    dma := h.dma.map DmaChannel.lose }

/-- The five actions of R597, in order. -/
def State.loseHost (s : State) : State :=
  let s1 := ((List.range 8).foldl State.dmaLost s).hostStreamsEnd
  let s2 : State :=
    { s1 with
      host := s1.host.lose
      lamp := { s1.lamp with mailboxes := s1.lamp.mailboxes.map Mailbox.lose } }
  if s2.dev = .running then { s2 with dev := .draining, lamp := { s2.lamp with linkDrain := true } } else s2

/-- HOST_LINK_LOSS (R597). -/
def execHostLinkLoss (s : State) : Host.Outcome State Fault Refusal :=
  .next
    (if s.hostServed && s.host.speed != 0 then
      ((s.newCascade.modHost fun h => { h with linkLosses := satAdd h.linkLosses 1 }).loseHost).inCascade none
    else s)

/-- PERST_ASSERT (R597): handled as a link loss. -/
def execPerstAssert (s : State) : Host.Outcome State Fault Refusal :=
  let s1 : State := { s with pilot := { s.pilot with perstAsserted := true } }
  .next
    (if s1.hostServed then
      (((s1.newCascade.loseHost).modHost fun h => { h with perstSeen := true }).inCascade none)
    else s1)

/-- The link trains. After a loss without PERST# the device signals vector 26 (R599): its pending bit waits
until MSI-X is enabled again. -/
def State.hostReturns (s : State) (speed width : Nat) (cxl : Bool) : State :=
  let s1 : State := { s with pilot := { s.pilot with perstAsserted := false } }
  let s2 := s1.modHost fun h =>
    { h with speed := speed, width := width, flitMode := speed == 6, cxlTrained := cxl && speed != 4 }
  if s2.host.detached && !s2.host.perstSeen then s2.signal 26 else s2

/-- Link speeds and widths of R576, as HOST_LINK_STATUS codes them. -/
def hostLinkForm (speed width : Nat) : Bool :=
  (speed == 4 || speed == 5 || speed == 6) && (width == 4 || width == 8 || width == 16)

/-- HOST_LINK_RETURN (R599): also the link's first training after a boot. -/
def execHostLinkReturn (speed width : Nat) (cxl : Bool) (s : State) : Host.Outcome State Fault Refusal :=
  .next (if s.hostServed && s.host.speed == 0 && hostLinkForm speed width then s.hostReturns speed width cxl else s)

end Sys2Proof.Machine
end

