-- ==== Sys2Proof/Machine/Thermal.lean ====
section
/-! DEFINITION. Refresh, the patrol scrubber and the thermal stages of the stacks (R442 to R452, R492, R493),
and the dark and lit quarters of the shared buffers (R719, R720). -/

namespace Sys2Proof.Machine

/-- The stack is in service: its MBD refreshes, samples and scrubs. -/
def stackRow (st : Nat) (s t : State) : Host.Outcome State Fault Refusal :=
  if st < 8 then .next (if s.stackInService st then t else s) else .fault .noSuchUnit

/-! ### Refresh (R444 to R446, R492) -/

def bankExists (st pch bank : Nat) : Bool := decide (st < 8) && decide (pch < 64) && decide (bank < 64)

/-- An address lies in a bank of a stack. -/
def State.inBank (s : State) (st pch bank a : Nat) : Bool :=
  daSpace a == 0 && daStack a == st && ((s.pch a).map fun k => k.1 == pch && plaBank k.2 == bank).getD false

/-- The bank holds a granule of the running slice's footprint, or of a transfer (R492). -/
def State.bankBusy (s : State) (st pch bank : Nat) : Bool :=
  let b := s.bsu st (pch / 2)
  (b.slice.isSome && b.footprint.any (s.inBank st pch bank)) ||
    s.requests.any fun q => q.points.head? == some (.pseudoChannel st pch) && s.inBank st pch bank q.endAt

/-- A refresh is postponed. At a debt of 8 the next one is forced: the BSU pauses at its slice boundary, or with
no operation in progress the bank holds its requests. -/
def State.postpone (s : State) (st pch bank : Nat) : State :=
  let b := s.bank st pch bank
  let ch := pch / 2
  if maxDebt ≤ b.debt then s
  else
    let d := b.debt + 1
    let s1 := (s.setBank st pch bank { b with debt := d }).modStack st fun k =>
      { k with refreshPostponed := satAdd k.refreshPostponed 1, maxDebt := max k.maxDebt d }
    if d < maxDebt then s1
    else if (s.bsu st ch).busy then
      let s2 := s1.modBsu st ch fun x => { x with pauseRequested := true }
      if (s2.bsu st ch).slice.isNone then s2.boundary st ch else s2
    else s1.chargeAll.setBank st pch bank { b with debt := d, held := true }

/-- A refresh is issued. While the channel's BSU has no operation in progress the MBD has paid the debt. -/
def State.refreshNow (s : State) (st pch bank : Nat) : State :=
  let b := s.bank st pch bank
  if (s.bsu st (pch / 2)).busy || b.held then s else s.setBank st pch bank { b with debt := 0, row := none }

/-- REFRESH_DUE (R444, R445, R492). -/
def execRefreshDue (st pch bank : Nat) (s : State) : Host.Outcome State Fault Refusal :=
  if bankExists st pch bank then
    stackRow st s (if s.bankBusy st pch bank then s.postpone st pch bank else s.refreshNow st pch bank)
  else .fault .noSuchUnit

/-- REFRESH_FORCED (R445, R492): the bank's refresh, or the pause that holds it. -/
def execRefreshForced (st pch bank : Nat) (s : State) : Host.Outcome State Fault Refusal :=
  if bankExists st pch bank then
    stackRow st s
      (if !(s.bank st pch bank).held then s
       else s.endHold st pch bank)
  else .fault .noSuchUnit

/-- The bank's activations have reached the threshold of the identification data (R446). -/
def State.activationsDue (s : State) (st pch bank : Nat) : Bool :=
  decide ((s.stack st).activationThreshold ≤ (s.bank st pch bank).activations)

/-- REFRESH_MANAGEMENT (R446): the command holds the bank as a forced refresh does, and its count starts again. -/
def execRefreshManagement (st pch bank : Nat) (s : State) : Host.Outcome State Fault Refusal :=
  if bankExists st pch bank then
    let b := s.bank st pch bank
    let s1 := s.chargeAll.setBank st pch bank { b with held := true }
    let s2 := (s1.advanceTo (s.now + refreshNs)).chargeAll.setBank st pch bank { b with row := none, activations := 0 }
    stackRow st s
      (if s.activationsDue st pch bank then s2.modStack st fun k => { k with rfmIssued := satAdd k.rfmIssued 1 } else s)
  else .fault .noSuchUnit

/-! ### Patrol scrub (R442, R443) -/

/-- The stack offset that reaches a PLA of a pseudo-channel (the inverse of R429 and R430). -/
def offsetOf (i : Nat) (red : List (Nat × Option Nat)) (q pla : Nat) : Nat :=
  let interleaved := fun (l p : Nat) =>
    let j := p / 256
    j * 16384 + (l ^^^ bits j 5 0 ^^^ bits j 11 6) * 256 + p % 256
  if pla < i / 64 then interleaved q pla
  else
    match if 2 ^ 31 - i / 64 ≤ pla then red.find? (fun e => e.2 == some q) else none with
    | some (l, _) => interleaved l (pla - (2 ^ 31 - i / 64))
    | none => i + q * slabZ i + (pla - i / 64)

/-- Pseudo-channels in service of a stack. -/
def Stack.scrubs (k : Stack) : List Nat := (List.range 64).filter fun q => !(k.channels.getD (q / 2) {}).retired

/-- The position moves on when every pseudo-channel in service has been visited there. A cycle that completes on time
clears SCRUB_LATE; the next one follows it, or starts at the end of a late one. -/
def Stack.scrubOn (now : Nat) (k : Stack) : Stack :=
  if k.scrubs.all k.scrubbed.contains then
    if k.scrubPosition + 32 < 2 ^ 31 then { k with scrubbed := [], scrubPosition := k.scrubPosition + 32 }
    else
      let due := k.scrubStart + 24 * hourNs
      { k with
        scrubbed := [], scrubPosition := 0, scrubCycles := satAdd k.scrubCycles 1
        scrubLate := if now ≤ due then false else k.scrubLate, scrubStart := max now due, scrubRaised := false }
  else k

/-- The scrubber has visited a sector. -/
def Stack.visited (now pch : Nat) (k : Stack) : Stack := Stack.scrubOn now { k with scrubbed := pch :: k.scrubbed }

/-- One sector is read, and written back when it was corrected. -/
def State.scrubSector (s : State) (st pch : Nat) (ecc : Ecc) : State :=
  let k := s.stack st
  let a := st * 2 ^ 37 + offsetOf s.ileave k.redirect pch k.scrubPosition
  let s1 := (((s.awaitSlices a 32).activate a).eccRead a 32 ecc).1
  let s2 :=
    if (eccAt ecc 0).contains .corrected && !s.failing a 32 then s1.modStack st fun x => { x with scrubCorrected := satAdd x.scrubCorrected 1 }
    else s1
  s2.modStack st (Stack.visited s2.now pch)

/-- PATROL_SCRUB_SECTOR (R442): not in HALT, not on a retired channel, and each sector once a cycle. A channel that has
retired meanwhile may have been the last one that the position waited for. -/
def execPatrolScrubSector (st pch : Nat) (ecc : Ecc) (s0 : State) : Host.Outcome State Fault Refusal :=
  if pch < 64 then
    let s := if (s0.stack st).stage = .halt then s0 else s0.modStack st (Stack.scrubOn s0.now)
    let k := s.stack st
    stackRow st s0
      (if k.stage = .halt || (k.channels.getD (pch / 2) {}).retired || k.scrubbed.contains pch then s
       else (s.newCascade.scrubSector st pch ecc).inCascade none)
  else .fault .noSuchUnit

/-- SCRUB_LATE (R443): once for each cycle that is late. -/
def execScrubLate (st : Nat) (s : State) : Host.Outcome State Fault Refusal :=
  let s1 := s.advanceTo ((s.stack st).scrubStart + 24 * hourNs)
  stackRow st s
    (if (s.stack st).scrubRaised then s
     else ((s1.modStack st fun k => { k with scrubLate := true, scrubRaised := true }).newCascade.raise
       { code := .scrubLate, unit := stackUnit st, value := (s1.now - (s.stack st).scrubStart) / hourNs }).inCascade none)

/-! ### Thermal stages (R448 to R452) -/

def Stage.below : Stage → Stage
  | .normal | .warn => .normal
  | .throttle => .warn
  | .halt => .throttle

/-- Threshold of a stage in 1/16 °C; NORMAL has none. -/
def Stack.stageLimit (k : Stack) : Stage → Int
  | .normal => 0
  | .warn => 16 * (k.threshEffective.getD 0 0 : Int)
  | .throttle => 16 * (k.threshEffective.getD 1 0 : Int)
  | .halt => 16 * (k.threshEffective.getD 2 0 : Int)

/-- The highest stage whose threshold a temperature exceeds. -/
def Stack.stageOf (k : Stack) (t : Int) : Stage :=
  if k.stageLimit .halt < t then .halt
  else if k.stageLimit .throttle < t then .throttle
  else if k.stageLimit .warn < t then .warn
  else .normal

/-- Governing temperatures of layers 0 to 15: the sensors of layers −1 to 14. -/
def governing (temps : List Int) : List Int := temps.take 16

/-- Every governing temperature is at least 3 °C below the present stage's threshold (R450). -/
def Stack.calm (k : Stack) : Bool :=
  k.stage != .normal && (governing k.layerTemp).all fun t => decide (t + 48 ≤ k.stageLimit k.stage)

/-- Closes the time of the stage that ends. -/
def Stack.leaveStage (now : Nat) (k : Stack) : Stack :=
  { k with
    warnNs := k.stageNs now .warn k.warnNs, throttleNs := k.stageNs now .throttle k.throttleNs
    haltNs := k.stageNs now .halt k.haltNs, stageSince := now }

/-- Enters a stage. -/
def Stack.enterStage (now : Nat) (g : Stage) (k : Stack) : Stack := { k.leaveStage now with stage := g, calmSince := none }

/-- The fall condition begins, holds on, or ends. -/
def Stack.noteCalm (now : Nat) (k : Stack) : Stack :=
  { k with calmSince := if k.calm then some (k.calmSince.getD now) else none }

/-- A sample of every sensor: temperatures, HOT_REFRESH, a rise of the stage. -/
def Stack.sample (now : Nat) (temps : List Int) (k : Stack) : Stack :=
  let k1 := { k with
    layerTemp := temps, lastSample := now
    hotRefresh := (temps.drop 1).any fun t => decide (16 * (k.thresh.getD 3 0 : Int) < t) }
  let stages := (governing temps).map k1.stageOf
  let top := stages.foldl (fun a b => if a.code < b.code then b else a) .normal
  let hot := (stages.findIdx? (· == top)).getD 0
  let k2 := if k.stage.code < top.code then k1.enterStage now top else k1
  (if k2.stage = top then { k2 with hotLayer := if top = .normal then 0 else hot } else k2).noteCalm now

/-- Requests in flight to a stack end with THERMAL_HALT (R452). -/
def State.haltRequests (s : State) (st : Nat) : State :=
  let on := fun (a : Nat) => daSpace a == 0 && daStack a == st
  s.requests.foldl
    (fun t q =>
      if q.discarded then t
      else if q.data.isNone && on q.src then t.requestFails q .halted false
      else if on q.dst then t.requestFails q .halted true
      else t) s

/-- Running slices stop, write nothing further, and their operations end with THERMAL_HALT (R493). -/
def State.haltSlices (s : State) (st : Nat) : State :=
  (List.range 32).foldl
    (fun t ch =>
      match (t.bsu st ch).slice with
      | some (.op id) =>
        match t.bsuOp id with
        | some op => t.bsuFails st ch op.desc Status.thermalHalt.code false
        | none => t
      | some .landing => t.bsuDeviceFails st ch Status.thermalHalt.code true
      | some .exportOut => t.exportFails st ch Status.thermalHalt.code
      | none => if (t.bsu st ch).failsStep then t.bsuDeviceFails st ch Status.thermalHalt.code true else t) s

/-- Entry to HALT. -/
def State.enterHalt (s : State) (st : Nat) : State :=
  let s1 := (s.modStack st fun k => { k with haltEntries := satAdd k.haltEntries 1 }).newCascade.raise
    { code := .thermalHaltEntered, unit := stackUnit st, value := (s.stack st).hotLayer }
  (s1.haltRequests st).haltSlices st

/-- STACK_SENSOR_SAMPLE (R448, R450, R452): the temperatures of layers −1 to 15, in 1/16 °C. -/
def execStackSensorSample (st : Nat) (temps : List Int) (s : State) : Host.Outcome State Fault Refusal :=
  let s1 := s.advanceTo ((s.stack st).lastSample + 50 * usNs)
  let s2 := s1.modStack st (Stack.sample s1.now temps)
  stackRow st s
    (if temps.length ≠ 17 || temps.any fun t => decide (t < -32768) || decide (32767 < t) then s
     else if (s.stack st).stage ≠ .halt ∧ (s2.stack st).stage = .halt then (s2.enterHalt st).inCascade none
     else s2)

/-- STAGE_FALL (R450): 10 ms after the later of the condition's beginning and the stage's entry. -/
def execStageFall (st : Nat) (s : State) : Host.Outcome State Fault Refusal :=
  let k := s.stack st
  stackRow st s
    (match k.calmSince with
     | none => s
     | some t =>
       let s1 := s.advanceTo (max t k.stageSince + 10 * msNs)
       let fall := fun (x : Stack) =>
         let y := x.enterStage s1.now x.stage.below
         Stack.noteCalm s1.now { y with hotLayer := if y.stage = .normal then 0 else y.hotLayer }
       (List.range 32).foldl (fun u ch => u.kickBsu st ch) (s1.modStack st fall))

/-! ### Shared-buffer quarters (R718 to R720) -/

def quarterExists (d q : Nat) : Bool := decide (d < 2) && decide (q < 4)

/-- An address lies in a quarter. -/
def inQuarter (d q a : Nat) : Bool := daSpace a == 9 && bits a 32 32 == d && a % 2 ^ 32 / 0xC00000 == q

/-- SHARED_QUARTER_DARK (R719): 100 µs without an access. -/
def execSharedQuarterDark (d q : Nat) (s : State) : Host.Outcome State Fault Refusal :=
  if quarterExists d q then
    let i := 4 * d + q
    .next
      (if s.sharedLit.getD i false then
        { s.advanceTo (s.sharedAccess.getD i 0 + 100 * usNs) with sharedLit := modAt s.sharedLit i fun _ => false }
      else s)
  else .fault .noSuchUnit

/-- SHARED_QUARTER_LIT (R720): a request waits for the dark quarter. -/
def execSharedQuarterLit (d q : Nat) (s : State) : Host.Outcome State Fault Refusal :=
  if quarterExists d q then
    let i := 4 * d + q
    let asked := s.requests.any fun r => !r.discarded && (inQuarter d q r.src || inQuarter d q r.dst)
    .next
      (if s.dieInService d && !s.sharedLit.getD i false && asked then
        { s with sharedLit := modAt s.sharedLit i fun _ => true, sharedAccess := modAt s.sharedAccess i fun _ => s.now }
      else s)
  else .fault .noSuchUnit

end Sys2Proof.Machine
end

