-- ==== Sys2Proof/Machine/Debug.lean ====
section
/-! DEFINITION. Tinder, JTAG debug, the debug fuse and the stand-alone test mode (R59, R700 to R706). -/

namespace Sys2Proof.Machine

def State.modTinder (s : State) (f : Tinder → Tinder) : State := { s with tinder := f s.tinder }

/-! ### Reading and writing by address (R702, R705) -/

/-- The address is a register of control space, not a memory. -/
def isRegister (a : Nat) : Bool :=
  daSpace a == 0xF && !(decide (beaconBase ≤ a) && decide (a < beaconBase + beaconBytes))

/-- Spaces that tinder and JTAG reach. -/
def debugSpace (a : Nat) : Bool := deviceSpace a || daSpace a == 0xF

/-- The status that an access ends with. -/
def Denial.status : Denial → Status
  | .unassigned => .badField
  | .protection => .notPrivileged
  | .retired => .unitRetired
  | .halted => .thermalHalt
  | .memory => .memoryError
  | .hostLost => .hostLinkLost

/-- A byte of a register. -/
def State.registerByte (s : State) (a : Nat) : Byte := BitVec.ofNat 8 (s.spaceFWord (a / 4 * 4) / 2 ^ (8 * (a % 4)))

/-- Reads bytes: registers have no effect of reading; memory meets no region rule (R695). -/
def State.debugRead (s : State) (a n : Nat) (ecc : Ecc := []) : State × Except Status (List Byte) :=
  if !debugSpace a || !debugSpace (a + n - 1) then (s, .error .badField)
  else if isRegister a then (s, .ok ((List.range n).map fun i => s.registerByte (a + i)))
  else
    match s.checkIod none false a n with
    | some e => (s, .error e.status)
    | none =>
      match (s.awaitSlices a n).serveRead a n ecc with
      | (s1, .ok b) => (s1, .ok b)
      | (s1, .error e) => (s1, .error e.status)

/-- Writes bytes: every field of a register is RO, and ignores it (R5). -/
def State.debugWrite (s : State) (a : Nat) (bs : List Byte) : State × Option Status :=
  if !debugSpace a then (s, some .badField)
  else if isRegister a then (s, none)
  else
    match s.checkIod none true a bs.length with
    | some e => (s, some e.status)
    | none =>
      match (s.awaitSlices a bs.length).serveWrite a bs with
      | (s1, none) => (s1, none)
      | (s1, some e) => (s1, some e.status)

/-! ### Replies (R700) -/

def crLf : List Byte := [13, 10]

/-- A line of bytes in hexadecimal. -/
def hexLine (b : List Byte) : List Byte := (b.flatMap fun x => hexDigits 2 x.toNat) ++ crLf

/-- The reply lines, and the final line: OK, or ERR with a code. -/
def State.reply (s : State) (lines : List Byte) (st : Status) : State :=
  let last := if st = .ok then ascii "OK" else ascii "ERR " ++ hexDigits 4 (Status.code st)
  s.modTinder fun t => { t with reply := lines ++ last ++ crLf }

/-- Tinder answers: Lamplighter runs, and the debug fuse is not blown (R700, R706). -/
def State.tinderUp (s : State) : Bool := s.lampServes && !s.fuses.debugBlown

/-- Tinder is locked (R701). -/
def State.tinderLocked (s : State) : Bool := s.flash.ownerDigest.isSome && !s.tinder.unlocked

/-- A command that a locked tinder accepts. -/
def tinderOpen (s t : State) : Host.Outcome State Fault Refusal := .next (if s.tinderUp then t else s)

/-- A command that a locked tinder does not accept. -/
def tinderCommand (s t : State) : Host.Outcome State Fault Refusal :=
  .next (if !s.tinderUp then s else if s.tinderLocked then s.reply [] .notPrivileged else t)

/-! ### The commands (R702) -/

/-- The commands that HELP lists. -/
def tinderNames : List String :=
  ["HELP", "STATUS", "UNLOCK", "PEEK", "POKE", "DUMP", "TRACE", "BREAK", "GO", "FUSE DEBUG"]

/-- TINDER_HELP. -/
def execTinderHelp (s : State) : Host.Outcome State Fault Refusal :=
  tinderOpen s (s.reply (tinderNames.flatMap fun n => ascii n ++ crLf) .ok)

/-- TINDER_STATUS: the state record of R634. -/
def execTinderStatus (s : State) : Host.Outcome State Fault Refusal :=
  tinderOpen s (s.reply (hexLine s.stateRecord) .ok)

/-- TINDER_UNLOCK (R701): a failure counts under R620, and the lockout applies. With no Owner digest tinder is
not locked. -/
def execTinderUnlock (credential : BitVec 128) (s : State) : Host.Outcome State Fault Refusal :=
  tinderOpen s
    (match s.flash.ownerDigest with
     | none => s.reply [] .ok
     | some d =>
       if s.lockedOut then s.reply [] .notPrivileged
       else if credentialDigest credential = d then (s.modTinder fun t => { t with unlocked := true }).reply [] .ok
       else s.authFailed.reply [] .notPrivileged)

/-- TINDER_PEEK: 1 to 64 aligned words, one a line. -/
def execTinderPeek (addr words : Nat) (s : State) : Host.Outcome State Fault Refusal :=
  tinderCommand s
    (if addr % 4 ≠ 0 ∨ words = 0 ∨ 64 < words then s.reply [] .badField
     else
       match s.debugRead addr (4 * words) with
       | (s1, .error e) => s1.reply [] e
       | (s1, .ok b) => s1.reply ((List.range words).flatMap fun i => hexDigits 8 (field b (4 * i) 4) ++ crLf) .ok)

/-- TINDER_POKE (R704): one aligned word; the device is TAINTED. -/
def execTinderPoke (addr : Nat) (v : BitVec 32) (s : State) : Host.Outcome State Fault Refusal :=
  tinderCommand s
    (if addr % 4 ≠ 0 ∨ !debugSpace addr then s.reply [] .badField
     else
       match (s.modTinder fun t => { t with tainted := true }).debugWrite addr (leBytes 4 v.toNat) with
       | (s1, none) => s1.reply [] .ok
       | (s1, some e) => s1.reply [] e)

/-- TINDER_DUMP: up to 1 MiB, 16 bytes a line. -/
def execTinderDump (addr len : Nat) (ecc : Ecc) (s : State) : Host.Outcome State Fault Refusal :=
  tinderCommand s
    (if len = 0 ∨ 2 ^ 20 < len then s.reply [] .badField
     else
       match s.debugRead addr len ecc with
       | (s1, .error e) => s1.reply [] e
       | (s1, .ok b) => s1.reply ((chunks 16 (len / 16 + 1) b).flatMap hexLine) .ok)

/-- TINDER_TRACE. -/
def execTinderTrace (mode : TraceMode) (s : State) : Host.Outcome State Fault Refusal :=
  tinderCommand s ((s.modTinder fun t => { t with trace := mode }).reply [] .ok)

/-- A change at every tile position. -/
def State.eachTile (s : State) (f : State → Nat → Nat → State) : State :=
  (List.range 100).foldl (fun t i => f t (i / 50) (i % 50)) s

/-- A BREAK begins: stalls are charged up to now, and none after (R178, R703). -/
def State.startBreak (s : State) : State :=
  if s.tinder.broken then s
  else (s.eachTile State.endStall).modTinder fun t => { t with broken := true, breakSince := s.now, tainted := true }

/-- TINDER_BREAK (R703): no tile issues after its present bundle, and no BSU starts a slice. -/
def execTinderBreak (s : State) : Host.Outcome State Fault Refusal :=
  tinderCommand s (s.startBreak.reply [] .ok)

/-- A tile goes on after a BREAK: the stall of a blocked context begins again. -/
def State.resumeTile (s : State) (d p : Nat) : State :=
  (s.modTile d p fun t =>
    { t with stallSince :=
        if t.current.state = .blocked && t.switching.isNone && !t.thermalHold then some s.now else t.stallSince }).settle d p

/-- A BREAK ends. -/
def State.endBreak (s : State) : State :=
  if s.tinder.broken then
    let s1 := s.modTinder fun t => { t with broken := false, breakNs := satAdd t.breakNs (s.now - t.breakSince) }
    let s2 := s1.eachTile fun t d p => if t.usedTile d p then t.resumeTile d p else t
    (List.range 256).foldl (fun t i => t.kickBsu (i / 32) (i % 32)) s2
  else s

/-- TINDER_GO. -/
def execTinderGo (s : State) : Host.Outcome State Fault Refusal :=
  tinderCommand s (s.endBreak.reply [] .ok)

/-! ### The debug fuse (R706) -/

/-- The fuse is blown: tinder is disabled, and JTAG debug decodes as BYPASS. -/
def State.blowDebug (s : State) : State :=
  ({ s with fuses := { s.fuses with debugBlown := true } } : State).modTinder fun t =>
    { t with unlocked := false, trace := .off, traceBuffer := [], coreHalted := [] }

/-- TINDER_FUSE_DEBUG: only with the identifier of the present unit. -/
def execTinderFuseDebug (unitId : BitVec 128) (s : State) : Host.Outcome State Fault Refusal :=
  tinderCommand s (if unitId = s.fuses.unitId then (s.reply [] .ok).blowDebug else s.reply [] .badField)

/-! ### JTAG debug (R705) -/

/-- The debug instructions are decoded: the fuse is not blown, and the device has its supplies. Afterwards they
are BYPASS, which shifts nothing of the device out. -/
def jtagDebug (s t : State) : Host.Outcome State Fault Refusal :=
  .next (if !s.dev.answers then s else if s.fuses.debugBlown then s.modTinder fun x => { x with jtagOut := [] } else t)

/-- JTAG_FUSE_DEBUG. -/
def execJtagFuseDebug (s : State) : Host.Outcome State Fault Refusal := jtagDebug s s.blowDebug

/-- What a debug access shifts out when it moves no data: the manual states nothing. -/
def State.jtagNothing (s : State) : State :=
  (s.modTinder fun t => { t with jtagOut := leBytes 4 (Config.freeWord s.freeCount).toNat }).takeFree

/-- A debug access to one aligned word. -/
def State.debugAccess (s : State) (addr : Nat) (v : Option (BitVec 32)) : State :=
  if addr % 4 ≠ 0 then s.jtagNothing
  else
    match v with
    | none =>
      match s.debugRead addr 4 with
      | (s1, .ok b) => s1.modTinder fun t => { t with jtagOut := b }
      | (s1, .error _) => s1.jtagNothing
    | some w => ((s.debugWrite addr (leBytes 4 w.toNat)).1).modTinder fun t => { t with jtagOut := [] }

/-- DEBUG_ACCESS: register and memory access, in the lit states. -/
def execDebugAccess (addr : Nat) (v : Option (BitVec 32)) (s : State) : Host.Outcome State Fault Refusal :=
  jtagDebug s (if s.dev.lit then s.debugAccess addr v else s.jtagNothing)

/-- CORE_HALT: the cores are the two of Lamplighter (R604). What follows from a halted core the manual does not
say. -/
def execCoreHalt (core : Nat) (s : State) : Host.Outcome State Fault Refusal :=
  if core < 2 then
    jtagDebug s (s.modTinder fun t => { t with coreHalted := if t.coreHalted.contains core then t.coreHalted else t.coreHalted ++ [core] })
  else .fault .noSuchUnit

/-- SCAN_DUMP: the manual states neither the length nor the order of the scan chains. -/
def execScanDump (s : State) : Host.Outcome State Fault Refusal :=
  jtagDebug s
    ((s.modTinder fun t =>
      { t with jtagOut := (List.range (Config.freeWord s.freeCount).toNat).map (Config.freeByte s.freeCount) }).takeFree)

/-! ### The stand-alone test mode (R59) -/

/-- The optical links that end at a die. -/
def linksOf (die : Nat) : List Nat := (List.range 3).filter fun k => (linkEnds k).1 == die || (linkEnds k).2 == die

/-- The electrical loop-backs that a die in stand-alone mode offers at its ports (R59): the last loop-back of each
lane of its optical links (R65). -/
def State.loopPorts (s : State) (die : Nat) (tests : List LaneTest) : State :=
  ((linksOf die).flatMap fun k => (List.range (linkLaneCount k)).map (LaneRef.die k)).foldl
    (fun t r => t.modLane r fun l =>
      { l with test := (laneReport tests r).electrical, testStage := .electrical, testedNs := t.now }) s

/-- The memories that a compute die's own memory tests write over are left undefined (DEDUCED from R734). -/
def State.scrambleDie (s : State) (die : Nat) : State :=
  if die < 2 then ((List.range 50).foldl (fun t p => t.scramble die p) s).scrambleShared die else s

/-- Stand-alone test mode: the die ignores its links from here on, runs its own memory and logic tests, and loops
back its ports (R59). -/
def State.isolate (s : State) (die : Nat) (passed : Bool) (tests : List LaneTest) : State :=
  ((s.modDie die fun d => { d with isolated := true, ownTests := if passed then .pass else .fail }).scrambleDie die).loopPorts die tests

/-- DIE_ISOLATE: remains after the debug fuse is blown (R706). -/
def execDieIsolate (die : Nat) (passed : Bool) (tests : List LaneTest) (s : State) : Host.Outcome State Fault Refusal :=
  if die < 11 then .next (if s.dev.answers then s.isolate die passed tests else s)
  else .fault .noSuchUnit

end Sys2Proof.Machine
end

