-- ==== Sys2Proof/Machine/Export.lean ====
section
/-! DEFINITION. Delta export (R408 to R412, R550) and the rebuilding of a lost copy of the commit or program area
(R457). -/

namespace Sys2Proof.Machine

/-! ### The object (R410 to R412) -/

/-- The section as it is stored: the XOR of new and old bytes, as one FTC stream. -/
def storedSection (new old : List Byte) : List FtcBlock := ftcEncodeAll (List.zipWith (· ^^^ ·) new old)

/-- A table entry of a section at an offset of the payload. -/
def deltaEntry (x : Section) (offset stored : Nat) : List Byte :=
  leBytes 1 x.kind ++ zeros 3 ++ leBytes 4 x.id ++ leBytes 8 x.bytes.length ++ leBytes 8 offset ++ leBytes 8 stored

/-- The section table and the payload, each stream at the next multiple of 256. -/
def packSections : List (Section × List Byte) → List Byte → List Byte × List Byte
  | [], payload => ([], payload)
  | (x, stored) :: l, payload =>
    let at256 := payload ++ zeros (align256 payload.length - payload.length)
    let (table, rest) := packSections l (at256 ++ stored)
    (deltaEntry x at256.length stored.length ++ table, rest)

/-- The header, with its CHECK. -/
def State.deltaHeader (s : State) (x : Export) (sections payload : Nat) : List Byte :=
  let geo := s.geo
  let h := ascii "ZSVD" ++ leBytes 2 1 ++ leBytes 2 0xC0 ++ leBytes 8 s.commit.jobId ++ leBytes 8 x.step ++
    leBytes 8 ((x.step + word64 - 1) % word64) ++ leBytes 2 (geo.shard s.rank) ++ leBytes 1 (geo.split s.rank) ++
    leBytes 1 x.kind.code ++ leBytes 4 sections ++ leBytes 8 payload ++ x.scalars.bytes ++ sliceZ x.digest 0 32 ++
    leBytes 8 s.commit.programId ++ zeros 36
  h ++ leBytes 4 (crc32c h).toNat

/-- The sections of an UPDATE object with their FTC blocks; a SKIP object has none. -/
def State.deltaSections (s : State) (g : Program) (h : StateHeader) (x : Export) : List (Section × List FtcBlock) :=
  if x.kind = .update then
    let bank := s.commit.epochBank
    List.zipWith (fun n o => (n, storedSection n.bytes o.bytes)) (s.sections g h bank) (s.sections g h (1 - bank))
  else []

/-- The whole object. -/
def State.deltaObject (s : State) (x : Export) (l : List (Section × List FtcBlock)) : List Byte :=
  let (table, payload) := packSections (l.map fun e => (e.1, e.2.flatMap (·.bytes))) []
  s.deltaHeader x l.length payload.length ++ table ++ payload

/-- The encoder's counters. -/
def State.countEncoded (s : State) (die : Nat) (x : Section) (bs : List FtcBlock) : State :=
  let stored := (bs.map fun b => b.bytes.length).sum
  s.modFtc die fun f =>
    { f with
      blocksEncoded := satAdd f.blocksEncoded bs.length
      rawBlocksEncoded := satAdd f.rawBlocksEncoded (bs.filter fun b => b.table.isNone).length
      encRawBytes := satAdd f.encRawBytes x.bytes.length
      encStoredBytes := satAdd f.encStoredBytes stored
      tableUse := bs.foldl (fun u b => match b.table with
        | some i => modAt u i (satAdd · 1)
        | none => u) f.tableUse }

/-! ### Start and completion (R409, R550) -/

/-- The ranges of both banks that XOR_DELTA reads, with their channels. -/
def State.bankRanges (s : State) (g : Program) (h : StateHeader) (bank : Nat) : List ChannelRange :=
  s.copyRanges g h bank [.master, .moment] ++ s.factorRanges g h bank ++
    g.g4eRecords.flatMap fun r => s.tensorRanges g (if bank = 1 then h.bankOffset else 0) (r.masters ++ [r.tensor])

/-- The queue of an ETHERNET sink. -/
def State.exportQueue (s : State) (p : PlanHeader) : Option ExportQueue :=
  s.flash.policy.exportQueues.find? fun q => q.queue == p.deltaTarget

/-- The sink takes an object now: the host link is up, or the queue's port is. -/
def State.sinkUp (s : State) (p : PlanHeader) : Bool :=
  if p.deltaSink = 2 then s.host.speed != 0 && !s.host.retraining
  else ((s.exportQueue p).map fun q => (s.port q.port).state == .ethernetUp).getD false

/-- The sink can never hold the object: it is larger than the queue's capacity (R550), or the region and the
host windows do not take it (DEDUCED). -/
def State.sinkRefuses (s : State) (p : PlanHeader) (size : Nat) : Bool :=
  if p.deltaSink = 2 then
    match s.region p.deltaTarget with
    | some r => decide (r.size < size) || !s.hostAllowed true r.base size
    | none => true
  else ((s.exportQueue p).map fun q => decide (q.capacity < size)).getD false

/-- The oldest object is given up (R495, R550). -/
def State.dropExport (s : State) (x : Export) (st : Status) : State :=
  ((s.popExport.newCascade.raise { code := .deltaExportFailed, unit := deviceUnit, status := st, value := x.step % 2 ^ 32 }).inCascade
    none).exportsDone

/-- The BSUs that hold state of the program take export slices. -/
def State.askExport (s : State) (l : List ChannelRange) : State :=
  ((l.map fun x => (x.1, x.2.1)).eraseDups).foldl
    (fun u c => u.wakeBsu c.1 c.2) (((l.map fun x => (x.1, x.2.1)).eraseDups).foldl
      (fun u c => u.modBsu c.1 c.2 fun b => { b with exportPending := true, slicesSinceExport := 0 }) s)

/-- The device may export: it works, the flip of the step is done, and no interrupted step is still to end (R399, R408,
R409). -/
def State.exportsNow (s : State) : Bool := working s.dev && !s.flipPending && !(s.run.isSome && s.stopped)

/-- Slot 7 under whose key an object takes or awaits the encoder for its sections, one after another (R520; DESIGN
CHOICE, log 116: that of the first BSU with a part, and the encoder of its die). -/
def exportRef (l : List ChannelRange) : Option StreamRef := l.head?.map fun x => .bsu x.1 x.2.1 7

/-- It takes the encoder, or joins the queue for it. -/
def State.takeEncoder (s : State) (r : StreamRef) : State :=
  if (s.slotAt r).ftcUnit || (s.slotAt r).wait == .ftcUnit then s else s.takeUnit r true

/-- An object that needs no encoder, or has it. -/
def State.hasEncoder (s : State) (r : Option StreamRef) : Bool := (r.map fun x => (s.slotAt x).ftcUnit).getD true

/-- EXPORT_START (R408, R409): the object of the oldest step is formed from both banks. -/
def execExportStart (s : State) : Host.Outcome State Fault Refusal :=
  match s.exports, s.program with
  | x :: rest, some g =>
    match g.plan with
    | none => .next s
    | some p =>
      let h := p.state
      if x.started || !s.exportsNow || !s.adopts g || p.deltaSink == 0 then .next s
      else
        let bank := s.commit.epochBank
        let ranges := if x.kind = .update then s.bankRanges g h bank ++ s.bankRanges g h (1 - bank) else []
        match s.firstFailure ranges with
        | some (st, ch, why) => .next ((s.exportFails st ch why).inCascade none)
        | none =>
          let l := s.deltaSections g h x
          let object := s.deltaObject x l
          if s.sinkRefuses p object.length then .next (s.dropExport x .ok)
          else
            let ref := exportRef ranges
            let s1 := (ref.map s.takeEncoder).getD s
            if !s1.hasEncoder ref then .next s1
            else
              let t := l.foldl (fun u e => u.countEncoded ((ref.map refDie).getD 0) e.1 e.2) s1
              let u : State :=
                { t with
                  exports := { x with started := true, object := object } :: rest
                  sweep := { t.sweep with phase := if t.run.isNone then .exporting else t.sweep.phase } }
              .next (u.askExport ranges)
  | _, _ => .next s

/-- The BSUs that have a part of the object are lit. -/
def State.exportRuns (s : State) : Bool := !s.tinder.broken && s.hbm.all fun k => k.bsus.all fun b => !b.exportPending || b.state != .dark

/-- EXPORT_COMPLETE (R409): the object is complete at its sink. -/
def execExportComplete (s : State) : Host.Outcome State Fault Refusal :=
  match s.exports, s.program.bind Program.plan with
  | x :: _, some p =>
    if x.started && s.sinkUp p && s.exportRuns then
      let t :=
        if p.deltaSink = 2 then s.hostWrite (((s.region p.deltaTarget).map (·.base)).getD 0) x.object
        else
          match s.exportQueue p with
          | some q => s.modPort q.port fun a => { a with ethFramesSent := satAdd a.ethFramesSent (ceilDiv x.object.length 4096) }
          | none => s
      let u : State := { t with sweep := { t.sweep with exportBytes := x.object.length } }
      .next u.popExport.exportsDone
    else .next s
  | _, _ => .next s

/-! ### Lost copies (R457) -/

/-- A new copy of the commit area, taken from the surviving one. -/
def State.copyArea (s : State) (old : List (Nat × Nat)) (c : Nat × Nat) : State :=
  match old.find? fun x => s.stackInService x.1 && !(s.channel x.1 x.2).retired && x != c with
  | some x => s.putArea 0 (s.readDev (s.reserveAddr x.1 x.2 0) commitBytes) c
  | none => s

/-- COMMIT_COPY_REBUILT: the new copies are written; one whose read-back fails is written again. -/
def execCommitCopyRebuilt (readBack : Bool) (s : State) : Host.Outcome State Fault Refusal :=
  if s.commit.rebuild && readBack then
    let commits := if s.commit.present then s.commitPlaces else []
    let programs := (s.program.map fun g => s.copyPlaces g 0 ++ s.copyPlaces g 1).getD []
    let gone := commits.filter fun c => !s.commit.copies.contains c || (s.recordsAt c).isEmpty
    let fresh := (gone ++ (programs.filter fun c => !s.copyChannels.contains c).map fun c => (c.1, c.2.1)).eraseDups
    let s1 := gone.foldl (fun (u : State) c => u.copyArea (s.commit.copies.filter fun x => !gone.contains x) c) s
    let u : State := { s1 with commit := { s1.commit with copies := commits, rebuild := false } }
    let t := (s.program.map u.writeCopies).getD u
    .next ((fresh.foldl (fun u c => u.raise { code := .commitCopyRebuilt, unit := channelUnit c.1 c.2, value := c.1 }) t.newCascade).inCascade none)
  else .next s

end Sys2Proof.Machine
end

