-- ==== Sys2Proof/Machine/I3cBus.lean ====
section
/-! DEFINITION. The I3C target: out-of-band reads and the commands of the bus (R755 to R757). -/

namespace Sys2Proof.Machine

/-- The bytes of the private read, and whether the command was served. -/
def State.i3cReply (s : State) (served : Bool) (b : List Byte) : State :=
  { s with
    i3c := { s.i3c with reply := b }
    tele := if served then { s.tele with i3cTransfers := satAdd s.tele.i3cTransfers 1 } else s.tele }

/-- An unknown command, an argument out of range, or a command outside its states. -/
def State.i3cRefuse (s : State) : State := s.i3cReply false [0xFF]

/-- What STATUS returns. -/
def State.i3cStatusBytes (s : State) : List Byte :=
  leBytes 4 s.pilot.statusWord ++ leBytes 4 s.snufferWord ++ leInt 2 s.pilot.dieTempMax ++
    (List.range 8).flatMap (fun st => leInt 2 (if s.stackInService st then (s.stack st).hottest else 0)) ++
    (if s.dev.lit then s.stateRecord else zeros 64)

/-- I3C_STATUS (R756): served in every state but DARK. -/
def execI3cStatus (s : State) : Host.Outcome State Fault Refusal :=
  if s.dev.answers then .next (s.i3cReply true s.i3cStatusBytes) else .next s

/-- I3C_RECORDS (R756, R753, R757): the target keeps its own cursor. -/
def execI3cRecords (fromSeq count : Nat) (s : State) : Host.Outcome State Fault Refusal :=
  if !s.dev.answers then .next s
  else if !s.dev.lit ∨ count = 0 ∨ 8 < count then .next s.i3cRefuse
  else
    let (res, next) := s.telemetryResult fromSeq count
    .next (({ s with i3c := { s.i3c with cursor := next, signalled := s.i3c.signalled && decide (s.tele.threshold < s.tele.nextSeq - next) } } : State).i3cReply true res)

/-- I3C_EVENTS (R756, R668): the SRAM ring, with no acknowledgement. -/
def execI3cEvents (fromSeq count : Nat) (s : State) : Host.Outcome State Fault Refusal :=
  if !s.dev.answers then .next s
  else if !s.dev.lit ∨ count = 0 ∨ 16 < count then .next s.i3cRefuse
  else .next (s.i3cReply true (eventsResult s.events.ring s.events.nextSeq fromSeq count))

/-- I3C_REGISTER (R756): aligned words of control space. -/
def execI3cRegister (addr words : Nat) (s : State) : Host.Outcome State Fault Refusal :=
  if !s.dev.answers then .next s
  else if !s.dev.lit ∨ words = 0 ∨ 16 < words ∨ addr % 4 ≠ 0 ∨ daSpace addr ≠ 0xF then .next s.i3cRefuse
  else .next (s.i3cReply true ((List.range words).flatMap fun i => leBytes 4 (s.spaceFWord (addr + 4 * i))))

/-- I3C_DISEC (R757): the in-band interrupts stay disabled from now on. -/
def execI3cDisec (s : State) : Host.Outcome State Fault Refusal :=
  if s.dev.answers then .next { s with i3c := { s.i3c with ibiEnabled := false, ibiPending := [] } } else .next s

/-- I3C_SETDASA (R755): a target that has no dynamic address takes the one given. -/
def execI3cSetdasa (addr : BitVec 7) (s : State) : Host.Outcome State Fault Refusal :=
  if s.dev.answers && s.i3c.dynamicAddr.isNone then .next { s with i3c := { s.i3c with dynamicAddr := some addr } }
  else .next s

/-- I3C_ENTDAA (R755): the address that the procedure gives a target without one. -/
def execI3cEntdaa (addr : BitVec 7) (s : State) : Host.Outcome State Fault Refusal :=
  if s.dev.answers && s.i3c.dynamicAddr.isNone then .next { s with i3c := { s.i3c with dynamicAddr := some addr } }
  else .next s

/-- The static address: 0x60 + 2 × ADDR1 + ADDR0, as sampled (R764, R768). -/
def State.i3cStatic (s : State) : Nat := 0x60 + s.pilot.straps.toNat

end Sys2Proof.Machine
end

