-- ==== Sys2Proof/Machine/Ports.lean ====
section
/-! DEFINITION. Ports (R525 to R529, R536 to R539, R547 to R549, R779, R780): flits, control messages, HELLO, training,
loss and return of the peer, and Ethernet mode. -/

namespace Sys2Proof.Machine

/-! ### Flits (R536, R537, R538) -/

/-- The 252 bytes of a flit that its CRC covers. -/
def flitBytes (f : Flit) : List Byte :=
  leBytes 1 f.kind ++ leBytes 1 f.creditVc ++ leBytes 2 f.creditCount ++ leBytes 2 f.seq ++
    leBytes 2 (f.ack % 4096 + bool01 f.ackValid * 2 ^ 14 + bool01 f.nak * 2 ^ 15) ++ sliceZ f.body 0 244

/-- Flits up to a sequence number have arrived: they leave the replay buffer. -/
def Port.acked (pt : Port) (seq : Nat) : Port :=
  if pt.replay.any fun f => f.seq == seq then { pt with replay := (pt.replay.dropWhile fun f => f.seq != seq).drop 1 } else pt

/-- The flits that wait for acknowledgement go out again. -/
def Port.replayAll (now : Nat) (pt : Port) : Port :=
  { pt with replayedFlits := satAdd pt.replayedFlits pt.replay.length, lastSent := now }

/-- The answers and the credits that a good flit carries. -/
def Port.takeFlit (now : Nat) (f : Flit) (pt : Port) : Port :=
  let p1 := if f.ackValid || f.nak then pt.acked f.ack else pt
  let p2 := if f.nak then p1.replayAll now else p1
  Port.pump now { p2 with txCredits := modAt p2.txCredits f.creditVc (· + f.creditCount) }

/-- A good flit: IDLE carries no sequence number; DATA and CONTROL are accepted in sequence. -/
def Port.goodFlit (now : Nat) (f : Flit) (pt : Port) : Port :=
  let p1 := pt.takeFlit now f
  if f.kind = 0 then p1
  else if f.seq = p1.rxSeq then
    { p1 with rxSeq := (p1.rxSeq + 1) % 4096, flitsReceived := satAdd p1.flitsReceived 1, ackDue := true, nakDue := false }
  else { p1 with nakDue := true }

/-- A port whose Torcor link layer runs. -/
def Port.linked (pt : Port) : Bool :=
  !pt.ethernet && (pt.state == .up || pt.state == .degraded || pt.state == .training || pt.state == .miswired)

/-- FLIT_RECEIVE (R537): a flit that fails its CRC is discarded, and NAK goes back. -/
def execFlitReceive (port : Nat) (flit : Flit) (s : State) : Host.Outcome State Fault Refusal :=
  if port < 8 then
    let good := crc32c (flitBytes flit) == flit.crc && decide (flit.kind ≤ 2) && decide (flit.creditVc < 5)
    .next
      (if (s.port port).linked then
        s.modPort port fun p =>
          if good then p.goodFlit s.now flit else { p with flitCrcErrors := satAdd p.flitCrcErrors 1, nakDue := true }
      else s)
  else .fault .noSuchUnit

/-- FLIT_ACK_TIMEOUT (R537): 2 µs after the last flit that waits for an acknowledgement. -/
def execFlitAckTimeout (port : Nat) (s : State) : Host.Outcome State Fault Refusal :=
  if port < 8 then
    let p := s.port port
    .next (if p.linked && !p.replay.isEmpty then (s.advanceTo (p.lastSent + 2000)).modPort port (Port.replayAll (max s.now (p.lastSent + 2000))) else s)
  else .fault .noSuchUnit

/-! ### Control messages (R527, R539) -/

/-- A port that takes control messages. -/
def Port.inService (pt : Port) : Bool := !pt.ethernet && (pt.state == .up || pt.state == .degraded)

def State.addPeerChange (s : State) (n : Nat) (c : LaneChange) : State :=
  s.modPort n fun p => { p with peerChanges := p.peerChanges ++ [c] }

/-- LANE_CHANGE (R527): the far end takes a lane out. This end's lane leaves the active set with it, as SUSPECT. -/
def execLaneChange (port lane width : Nat) (s : State) : Host.Outcome State Fault Refusal :=
  if port < 8 && decide (lane < 5) then
    let p := s.port port
    if p.inService && decide (2 ≤ width) && decide (width ≤ p.width) then
      let r := LaneRef.port port lane
      let s1 := if (s.lane r).state = .active then s.modLane r (Lane.enter s.now .suspect) else s
      .next (s1.addPeerChange port (if width < p.width then .narrow width else .vacated lane none .none))
    else .next s
  else .fault .noSuchUnit

/-- RETRAIN_REQUEST (R539). -/
def execRetrainRequest (port lane : Nat) (s : State) : Host.Outcome State Fault Refusal :=
  if port < 8 && decide (lane < 5) then .next (if (s.port port).inService then s.addPeerChange port (.retrain lane) else s)
  else .fault .noSuchUnit

/-- QUIESCE (R31, R539): the sender issues no new flit until the quiesce point. -/
def execQuiesce (port : Nat) (s : State) : Host.Outcome State Fault Refusal :=
  if port < 8 then .next (if (s.port port).inService then s.modPort port fun p => { p with quiesceAsked := true } else s)
  else .fault .noSuchUnit

/-! ### HELLO (R529, R542, R780) -/

def stateOfWidth (w : Nat) : PortState := if w < 4 then .degraded else .up

/-- A HELLO names its sender: the peer that the map expects puts the port in service, another one makes it MISWIRED. -/
def State.takeHello (s : State) (n rank port : Nat) : State :=
  let s1 := s.modPort n fun p => { p with peerRank := rank, peerPort := port }
  let expected := s.topo.bind fun t => if (t.ports s.rank).contains n then t.peer s.rank n else none
  let wrong := (expected.map fun e => e != (rank, port)).getD false
  if wrong then
    if (s.port n).state = .miswired then s1
    else
      (s1.modPort n fun p => { p with state := .miswired }).newCascade.raise
        { code := .portMiswired, unit := { kind := .port, link := n }, value := rank % 2 ^ 14 + port % 8 * 2 ^ 16 }
  else if (s.port n).state = .miswired then s1.modPort n fun p => { p with state := stateOfWidth p.width }
  else s1

/-- A HELLO answers this end's own, or is answered; without a session it is owed an answer. -/
def State.helloTurn (s : State) (n : Nat) : State :=
  let p := s.port n
  if s.session.isNone then s.modPort n fun x => { x with helloOwed := true }
  else if p.helloSent && !p.helloReceived then s.modPort n fun x => { x with helloReceived := true }
  else s.sendOn n false (s.helloPacket n)

/-- HELLO_RECEIVE (R529). OPEN_SESSION completes when every mapped port has answered. -/
def execHelloReceive (port : Nat) (pkt : Packet) (s : State) : Host.Outcome State Fault Refusal :=
  if port < 8 then
    if (s.port port).linked && pkt.ptype == 0x30 then
      match (s.freed port pkt).letIn port pkt with
      | (s1, false) => .next s1
      | (s1, true) =>
        let a := pkt.address.toNat
        .next ((s1.takeHello port (a % 2 ^ 14) (bits a 18 16)).helloTurn port).checkHello
    else .next s
  else .fault .noSuchUnit

/-! ### Training, loss and return (R26, R27, R528, R575, R779) -/

/-- The link layer begins afresh. -/
def Port.freshLink (pt : Port) : Port :=
  { pt with
    txSeq := 0, replay := [], rxSeq := 0, ackDue := false, nakDue := false, txCredits := [1024, 1024, 1024, 1024, 64]
    creditsDue := [0, 0, 0, 0, 0], helloSent := false, helloReceived := false
    helloOwed := false }

/-- A port that comes back after the loss of its peer (R779, R780): the rank is that of the last HELLO, since a peer
that has just booted has no session yet (DEDUCED). -/
def State.portBack (s : State) (n : Nat) : State :=
  if (s.port n).peerLost then
    (s.modPort n fun p => { p with peerLost := false }).raise
      { code := .portRestored, unit := { kind := .port, link := n }, value := (s.port n).peerRank }
  else s

/-- PORT_TRAINING_COMPLETE (R575). -/
def execPortTrainingComplete (port : Nat) (tests : List LaneTest) (s : State) : Host.Outcome State Fault Refusal :=
  if port < 8 then
    if (s.port port).state == .training && !(s.port port).ethernet then
      let (s1, w) := s.newCascade.trainGroup tests (.port port 0)
      if w < 2 then .next ((s1.raiseNewlyRetired s (.port port 0)).failPort port .selfTest)
      else
        let s2 := (s1.modPort port fun p => { p.freshLink with width := w, state := stateOfWidth w }).raiseNewlyRetired s (.port port 0)
        let s3 := if w < 4 then s2.raise (narrowEvent (.port port 0) w .selfTest) else s2
        .next ((s3.portBack port).sendHello port)
    else .next s
  else .fault .noSuchUnit

/-- PORT_PEER_LOSS (R779): no lane is charged. -/
def execPortPeerLoss (port : Nat) (s : State) : Host.Outcome State Fault Refusal :=
  if port < 8 then
    let p := s.port port
    if !p.ethernet && (p.state == .up || p.state == .degraded || p.state == .miswired) then
      .next ((s.newCascade.failPort port .lossOfSignal).modPort port fun x => { x with peerLost := true })
    else .next s
  else .fault .noSuchUnit

/-- PORT_LIGHT_RETURN (R779): the port trains again from DOWN. -/
def execPortLightReturn (port : Nat) (s : State) : Host.Outcome State Fault Refusal :=
  if port < 8 then
    .next
      (if (s.port port).state == .failed && (s.port port).peerLost then s.modPort port fun p => { p with state := .training }
      else s)
  else .fault .noSuchUnit

/-! ### Ethernet mode (R547 to R549) -/

/-- ETHERNET_LINK_UP (R547). -/
def execEthernetLinkUp (port : Nat) (s : State) : Host.Outcome State Fault Refusal :=
  if port < 8 then
    .next
      (if (s.port port).state == .training && (s.port port).ethernet then
        s.modPort port fun p => { p with state := .ethernetUp, width := 4 }
      else s)
  else .fault .noSuchUnit

/-- The export queue of the program's delta sink uses a port (R550). -/
def State.exportsOn (s : State) (port : Nat) : Bool :=
  match s.program.bind Program.plan with
  | some h => h.deltaSink == 1 && s.flash.policy.exportQueues.any fun q => q.queue == h.deltaTarget && q.port == port
  | none => false

/-- ETHERNET_LANE_FAILURE (R549): the link goes down, and an object on its way restarts (R550). -/
def execEthernetLaneFailure (port lane : Nat) (s : State) : Host.Outcome State Fault Refusal :=
  if port < 8 && decide (lane < 5) then
    if (s.port port).state == .ethernetUp && decide (lane < 4) then
      let s1 := s.modPort port fun p => { p with state := .ethernetDown, width := 0, retryAt := s.now + 10 * secNs }
      let s2 : State :=
        if s1.exportsOn port then s1.cutExports else s1
      .next (s2.newCascade.raise { code := .portDown, unit := { kind := .port, link := port } })
    else .next s
  else .fault .noSuchUnit

/-- ETHERNET_RETRAIN (R549): every 10 s. -/
def execEthernetRetrain (port : Nat) (passed : Bool) (s : State) : Host.Outcome State Fault Refusal :=
  if port < 8 then
    if (s.port port).state == .ethernetDown then
      let s1 := s.advanceTo (s.port port).retryAt
      .next (s1.modPort port fun p =>
        if passed then { p with state := .ethernetUp, width := 4 } else { p with retryAt := s1.now + 10 * secNs })
    else .next s
  else .fault .noSuchUnit

/-- A frame arrives on an Ethernet port that is up, and `f` is what the port does beside counting it. -/
def State.frame (s : State) (port : Nat) (answered : Bool) (f : Port → Port) : Host.Outcome State Fault Refusal :=
  if port < 8 then
    .next
      (if (s.port port).state == .ethernetUp then
        s.modPort port fun p =>
          { f p with
            ethFramesReceived := satAdd p.ethFramesReceived 1
            ethFramesSent := satAdd p.ethFramesSent (bool01 answered) }
      else s)
  else .fault .noSuchUnit

/-- CNP_RECEIVE (R548): the sending rate falls; to what, the manual does not state. -/
def execCnpReceive (port : Nat) (s : State) : Host.Outcome State Fault Refusal :=
  s.takeFree.frame port false fun p =>
    { p with ethCnpReceived := satAdd p.ethCnpReceived 1, ethRate := some (Config.freeWord s.freeCount) }

/-- ETHERNET_INBOUND_REQUEST (R548): a remote-access NAK answers it. -/
def execEthernetInboundRequest (port : Nat) (s : State) : Host.Outcome State Fault Refusal :=
  s.frame port true fun p => { p with naksSent := satAdd p.naksSent 1 }

/-- ARP_AND_NEIGHBOUR_DISCOVERY (R548). -/
def execArpAndNeighbourDiscovery (port : Nat) (s : State) : Host.Outcome State Fault Refusal :=
  s.frame port true fun p => { p with arpAnswered := satAdd p.arpAnswered 1 }

/-- ECN_MARKED_TRAFFIC (R548): a congestion notification packet answers it. -/
def execEcnMarkedTraffic (port : Nat) (s : State) : Host.Outcome State Fault Refusal :=
  s.frame port true fun p => { p with cnpSent := satAdd p.cnpSent 1 }

end Sys2Proof.Machine
end

