-- ==== Sys2Proof/Machine/Snuffer.lean ====
section
/-! DEFINITION. Snuffer and the thermal alarm (R736 to R739). Temperatures are in 1/16 °C. -/

namespace Sys2Proof.Machine

/-- BSU duty cap of a level (R737). -/
def levelCap : Nat → DutyCap
  | 0 => .full
  | 1 => .threeQuarters
  | 2 | 3 => .half
  | _ => .quarter

/-- Tile hold of a level in each 10 µs window, in ns (R737). -/
def levelHold : Nat → Nat
  | 0 | 1 => 0
  | 2 => 2500
  | 3 => 5000
  | _ => 7500

/-- Works at a level from now on. -/
def State.setLevel (s : State) (n : Nat) : State :=
  { s with
    pilot := { s.pilot with level := n }
    hbm := s.hbm.map fun k => { k with dutyCap := levelCap n } }

/-- P over L. -/
def State.overPower (s : State) : Bool := decide (s.flash.policy.powerLimitW * 1000 < s.pilot.powerMw)

/-- Since when a condition holds: from `start` when it begins now. -/
def keepSince (holds : Bool) (start : Nat) (old : Option Nat) : Option Nat :=
  if holds then some (old.getD start) else none

/-- The samples at the end of a window, and since when the conditions of R737 and R739 hold. -/
def State.snuffSample (s : State) (powerMw : Nat) (cd iod : Int) : State :=
  let limit := s.flash.policy.powerLimitW * 1000
  let hot := if cd < iod then iod else cd
  let start := s.now - 100 * usNs
  { s with pilot := { s.pilot with
      powerMw := powerMw, cdTempMax := cd, dieTempMax := hot
      calmSince := keepSince (decide (powerMw * 100 < 95 * limit) && decide (cd < 95 * 16)) start s.pilot.calmSince
      overSince := keepSince (s.pilot.level == 4 && decide (limit < powerMw)) start s.pilot.overSince
      coolSince := keepSince (decide (hot < 100 * 16) && decide (powerMw < limit)) start s.pilot.coolSince } }

/-- Raises the level by one (R737). -/
def State.raiseLevel (s : State) (byPower byTemp : Bool) : State :=
  if s.pilot.level < 4 then
    ({ s with pilot := { s.pilot with
        byPower := byPower, byTemperature := byTemp, levelRaises := satAdd s.pilot.levelRaises 1
        calmSince := none } } : State).setLevel (s.pilot.level + 1)
  else s

/-- SNUFFER_WINDOW (R737): the end of a 100 µs window. -/
def execSnufferWindow (powerMw : Nat) (cdTempMax iodTemp : Int) (s : State) : Host.Outcome State Fault Refusal :=
  if s.dev.answers then
    let s1 := (s.advanceTo (nextTick (100 * usNs) s.now)).snuffSample powerMw cdTempMax iodTemp
    let hot := decide (100 * 16 < cdTempMax)
    if s.dev.lit && (s1.overPower || hot) then .next (s1.raiseLevel s1.overPower hot) else .next s1
  else .next s

/-- SNUFFER_LOWER (R737): 1 ms below 0.95 L and 95 °C. -/
def execSnufferLower (s : State) : Host.Outcome State Fault Refusal :=
  match s.pilot.calmSince with
  | some t =>
    if s.dev.lit && 0 < s.pilot.level then
      let s1 := (s.advanceTo (t + msNs)).setLevel (s.pilot.level - 1)
      .next { s1 with pilot := { s1.pilot with calmSince := some s1.now } }
    else .next s
  | none => .next s

/-- When the next hold of tile position `p` begins: (p mod 4) × 2.5 µs into a 10 µs window (R738). Windows are counted
on BOOT_NS, like those of R737. -/
def holdStart (now p : Nat) : Nat :=
  let off := p % 4 * 2500
  ceilDiv (now - off) 10000 * 10000 + off

/-- TILE_HOLD (R738): a hold starts at a level of 2 or more; its end counts under THERMAL_HOLD and the
tile ramps again. -/
def execTileHold (d p : Nat) (start : Bool) (s : State) : Host.Outcome State Fault Refusal :=
  if tileExists d p then
    let t := s.tile d p
    if start then
      if s.dev.lit && 2 ≤ s.pilot.level && t.lit && !t.thermalHold then
        let u := s.advanceTo (holdStart s.now p)
        .next ((u.endStall d p).modTile d p fun x => { x with thermalHold := true, holdSince := u.now })
      else .next s
    else if t.thermalHold then
      let s1 := s.advanceTo (t.holdSince + levelHold s.pilot.level)
      let ns := s1.now - t.holdSince
      let s2 := if s1.stepOpen then s1.addStall d p t.running .thermalHold (cyclesIn ns) else s1
      let s3 := s2.modTile d p fun x =>
        { x with
          thermalHold := false, rampDue := true
          stallSince := if x.current.state = .blocked && x.switching.isNone then some s1.now else none }
      .next (({ s3 with pilot := { s3.pilot with holdNs := satAdd s3.pilot.holdNs ns } } : State).settle d p)
    else .next s
  else .fault .noSuchUnit

/-- THERM_ASSERT (R739): a sensor at 110 °C, or 10 ms at level 4 with P over L. -/
def execThermAssert (s : State) : Host.Outcome State Fault Refusal :=
  if s.dev.answers && !s.pilot.therm then
    let assert := fun (t : State) => Host.Outcome.next
      { t with pilot := { t.pilot with therm := true, coolSince := none, thermAssertions := satAdd t.pilot.thermAssertions 1 } }
    if 110 * 16 ≤ s.pilot.dieTempMax then assert s
    else
      match s.pilot.overSince with
      | some t => assert (s.advanceTo (t + 10 * msNs))
      | none => .next s
  else .next s

/-- THERM_RELEASE (R739): 10 ms with every sensor below 100 °C and P below L. -/
def execThermRelease (s : State) : Host.Outcome State Fault Refusal :=
  match s.pilot.coolSince with
  | some t =>
    if s.dev.answers && s.pilot.therm then
      .next { s.advanceTo (t + 10 * msNs) with pilot := { s.pilot with therm := false } }
    else .next s
  | none => .next s

end Sys2Proof.Machine
end

