-- ==== Sys2Proof/Machine/Dispatch.lean ====
section
/-! DEFINITION. Which meaning each command calls: one arm for each constructor. -/

namespace Sys2Proof.Machine

open Sys2Proof

def exec (i : Instr) (s : State) : Host.Outcome State Fault Refusal :=
  match i with
  | .queryIdentity n r => Sys2Proof.Machine.execQueryIdentity n r s
  | .queryState n r => Sys2Proof.Machine.execQueryState n r s
  | .attach n r => Sys2Proof.Machine.execAttach n r s
  | .readTelemetry n r => Sys2Proof.Machine.execReadTelemetry n r s
  | .readEvents n r => Sys2Proof.Machine.execReadEvents n r s
  | .openSession n r => Sys2Proof.Machine.execOpenSession n r s
  | .setProtection n r => Sys2Proof.Machine.execSetProtection n r s
  | .mapRegion n r => Sys2Proof.Machine.execMapRegion n r s
  | .setPolicy n r => Sys2Proof.Machine.execSetPolicy n r s
  | .setCredential n r => Sys2Proof.Machine.execSetCredential n r s
  | .loadProgram n r ecc => Sys2Proof.Machine.execLoadProgram n r ecc s
  | .runStep n r => Sys2Proof.Machine.execRunStep n r s
  | .abortStep n r => Sys2Proof.Machine.execAbortStep n r s
  | .drain n r => Sys2Proof.Machine.execDrain n r s
  | .resume n r => Sys2Proof.Machine.execResume n r s
  | .selfTest n r rep => Sys2Proof.Machine.execSelfTest n r rep s
  | .retireUnitRetire n r => Sys2Proof.Machine.execRetireUnitRetire n r s
  | .retireUnitRestore n r => Sys2Proof.Machine.execRetireUnitRestore n r s
  | .stageBundle n r => Sys2Proof.Machine.execStageBundle n r s
  | .activateBundle n r => Sys2Proof.Machine.execActivateBundle n r s
  | .activateBundleCancel n r => Sys2Proof.Machine.execActivateBundleCancel n r s
  | .attest n r => Sys2Proof.Machine.execAttest n r s
  | .resetDevice n r => Sys2Proof.Machine.execResetDevice n r s
  | .ownerLockoutExpiry => Sys2Proof.Machine.execOwnerLockoutExpiry s
  | .doorbellOverrun n => Sys2Proof.Machine.execDoorbellOverrun n s
  | .registerWrite target value => Sys2Proof.Machine.execRegisterWrite target value s
  | .memwinBaseWrite value => Sys2Proof.Machine.execMemwinBaseWrite value s
  | .intStatusClear value => Sys2Proof.Machine.execIntStatusClear value s
  | .hostErrClear value => Sys2Proof.Machine.execHostErrClear value s
  | .dmaTailWrite ch value => Sys2Proof.Machine.execDmaTailWrite ch value s
  | .dmaRestart ch => Sys2Proof.Machine.execDmaRestart ch s
  | .dmaDescriptorComplete ch outcome => Sys2Proof.Machine.execDmaDescriptorComplete ch outcome s
  | .bar2Read offset len ecc => Sys2Proof.Machine.execBar2Read offset len ecc s
  | .bar2Write offset data ecc => Sys2Proof.Machine.execBar2Write offset data ecc s
  | .hostReadTimeout read => Sys2Proof.Machine.execHostReadTimeout read s
  | .hostLinkRetrainComplete => Sys2Proof.Machine.execHostLinkRetrainComplete s
  | .hostLinkLoss => Sys2Proof.Machine.execHostLinkLoss s
  | .perstAssert => Sys2Proof.Machine.execPerstAssert s
  | .hostLinkReturn speed width cxl => Sys2Proof.Machine.execHostLinkReturn speed width cxl s
  | .vddPilotUp => Sys2Proof.Machine.execVddPilotUp s
  | .vddPilotLoss => Sys2Proof.Machine.execVddPilotLoss s
  | .devResetNRelease rails straps => Sys2Proof.Machine.execDevResetNRelease rails straps s
  | .devResetNAssert => Sys2Proof.Machine.execDevResetNAssert s
  | .railExcursion rail => Sys2Proof.Machine.execRailExcursion rail s
  | .railsRestored => Sys2Proof.Machine.execRailsRestored s
  | .wake rep => Sys2Proof.Machine.execWake rep s
  | .partStartupTimeout => Sys2Proof.Machine.execPartStartupTimeout s
  | .partStartupPass rep => Sys2Proof.Machine.execPartStartupPass rep s
  | .linkTrainingComplete rep => Sys2Proof.Machine.execLinkTrainingComplete rep s
  | .ringTuningTick link lane role heater detune tuning => Sys2Proof.Machine.execRingTuningTick link lane role heater detune tuning s
  | .ringOutOfLock link lane role => Sys2Proof.Machine.execRingOutOfLock link lane role s
  | .laneThresholdCrossing lane bitErrors codewords => Sys2Proof.Machine.execLaneThresholdCrossing lane bitErrors codewords s
  | .laneLossOfSignal lane => Sys2Proof.Machine.execLaneLossOfSignal lane s
  | .quiescePoint link => Sys2Proof.Machine.execQuiescePoint link s
  | .laneRetrainComplete lane passed => Sys2Proof.Machine.execLaneRetrainComplete lane passed s
  | .backgroundRetrain lane passed => Sys2Proof.Machine.execBackgroundRetrain lane passed s
  | .spareLaneRotation link => Sys2Proof.Machine.execSpareLaneRotation link s
  | .bundleIssue d p ecc => Sys2Proof.Machine.execBundleIssue d p ecc s
  | .arrayNop d p => Sys2Proof.Machine.execArrayNop d p s
  | .matmul d p slot ecc => Sys2Proof.Machine.execMatmul d p slot ecc s
  | .pairBackward d p slot ecc => Sys2Proof.Machine.execPairBackward d p slot ecc s
  | .arrayPassWriteBack d p upsets => Sys2Proof.Machine.execArrayPassWriteBack d p upsets s
  | .arrayOpComplete d p => Sys2Proof.Machine.execArrayOpComplete d p s
  | .flickerReplay d p => Sys2Proof.Machine.execFlickerReplay d p s
  | .arrayRetired d p a => Sys2Proof.Machine.execArrayRetired d p a s
  | .spareSubstitutionComplete d p => Sys2Proof.Machine.execSpareSubstitutionComplete d p s
  | .tileRetired d p => Sys2Proof.Machine.execTileRetired d p s
  | .vectorNop d p => Sys2Proof.Machine.execVectorNop d p s
  | .vectorAdd d p desc done ecc => Sys2Proof.Machine.execVectorAdd d p desc done ecc s
  | .vectorSub d p desc done ecc => Sys2Proof.Machine.execVectorSub d p desc done ecc s
  | .vectorMul d p desc done ecc => Sys2Proof.Machine.execVectorMul d p desc done ecc s
  | .vectorFma d p desc done ecc => Sys2Proof.Machine.execVectorFma d p desc done ecc s
  | .vectorAxpy d p desc done ecc => Sys2Proof.Machine.execVectorAxpy d p desc done ecc s
  | .vectorMax d p desc done ecc => Sys2Proof.Machine.execVectorMax d p desc done ecc s
  | .vectorMin d p desc done ecc => Sys2Proof.Machine.execVectorMin d p desc done ecc s
  | .vectorExp d p desc done ecc => Sys2Proof.Machine.execVectorExp d p desc done ecc s
  | .vectorLog d p desc done ecc => Sys2Proof.Machine.execVectorLog d p desc done ecc s
  | .vectorRcp d p desc done ecc => Sys2Proof.Machine.execVectorRcp d p desc done ecc s
  | .vectorRsqrt d p desc done ecc => Sys2Proof.Machine.execVectorRsqrt d p desc done ecc s
  | .vectorSum d p desc done ecc => Sys2Proof.Machine.execVectorSum d p desc done ecc s
  | .vectorAmax d p desc done ecc => Sys2Proof.Machine.execVectorAmax d p desc done ecc s
  | .vectorConvert d p desc done ecc => Sys2Proof.Machine.execVectorConvert d p desc done ecc s
  | .vectorAccum d p desc done ecc => Sys2Proof.Machine.execVectorAccum d p desc done ecc s
  | .vectorDropout d p desc done ecc => Sys2Proof.Machine.execVectorDropout d p desc done ecc s
  | .vectorCopy d p desc done ecc => Sys2Proof.Machine.execVectorCopy d p desc done ecc s
  | .vectorOpComplete d p => Sys2Proof.Machine.execVectorOpComplete d p s
  | .streamSlotNop d p => Sys2Proof.Machine.execStreamSlotNop d p s
  | .bind d p slot prog => Sys2Proof.Machine.execBind d p slot prog s
  | .start d p slot arg done => Sys2Proof.Machine.execStart d p slot arg done s
  | .consume d p slot blocks => Sys2Proof.Machine.execConsume d p slot blocks s
  | .unbind d p slot => Sys2Proof.Machine.execUnbind d p slot s
  | .controlNop d p => Sys2Proof.Machine.execControlNop d p s
  | .wait d p counter threshold consume => Sys2Proof.Machine.execWait d p counter threshold consume s
  | .signal d p counter scope target increment => Sys2Proof.Machine.execSignal d p counter scope target increment s
  | .signalArrival fromDie fromPos toDie toPos counter => Sys2Proof.Machine.execSignalArrival fromDie fromPos toDie toPos counter s
  | .yieldPoint d p => Sys2Proof.Machine.execYieldPoint d p s
  | .barrier d p id => Sys2Proof.Machine.execBarrier d p id s
  | .barrierOpen id => Sys2Proof.Machine.execBarrierOpen id s
  | .xfer d p desc done => Sys2Proof.Machine.execXfer d p desc done s
  | .xferComplete d p => Sys2Proof.Machine.execXferComplete d p s
  | .coll d p entry done => Sys2Proof.Machine.execColl d p entry done s
  | .fence d p scopes => Sys2Proof.Machine.execFence d p scopes s
  | .fenceComplete d p ctx => Sys2Proof.Machine.execFenceComplete d p ctx s
  | .halt d p => Sys2Proof.Machine.execHalt d p s
  | .contextHalted d p ctx => Sys2Proof.Machine.execContextHalted d p ctx s
  | .nextBundle d p => Sys2Proof.Machine.execNextBundle d p s
  | .loopBegin d p reg imm => Sys2Proof.Machine.execLoopBegin d p reg imm s
  | .loopBeginP d p reg imm => Sys2Proof.Machine.execLoopBeginP d p reg imm s
  | .loopEnd d p reg => Sys2Proof.Machine.execLoopEnd d p reg s
  | .jump d p imm => Sys2Proof.Machine.execJump d p imm s
  | .segment d p imm => Sys2Proof.Machine.execSegment d p imm s
  | .segmentLoadComplete d p => Sys2Proof.Machine.execSegmentLoadComplete d p s
  | .padd d p reg imm => Sys2Proof.Machine.execPadd d p reg imm s
  | .pset d p reg imm => Sys2Proof.Machine.execPset d p reg imm s
  | .jumpIfGe d p reg imm => Sys2Proof.Machine.execJumpIfGe d p reg imm s
  | .contextSwitchComplete d p => Sys2Proof.Machine.execContextSwitchComplete d p s
  | .tileIdleDark d p => Sys2Proof.Machine.execTileIdleDark d p s
  | .tileLit d p => Sys2Proof.Machine.execTileLit d p s
  | .streamEnd r => Sys2Proof.Machine.execStreamEnd r s
  | .streamSeta r => Sys2Proof.Machine.execStreamSeta r s
  | .streamSets r => Sys2Proof.Machine.execStreamSets r s
  | .streamAdds r => Sys2Proof.Machine.execStreamAdds r s
  | .streamAddq r => Sys2Proof.Machine.execStreamAddq r s
  | .streamLoop r => Sys2Proof.Machine.execStreamLoop r s
  | .streamLoopq r => Sys2Proof.Machine.execStreamLoopq r s
  | .streamEndloop r => Sys2Proof.Machine.execStreamEndloop r s
  | .streamMove r => Sys2Proof.Machine.execStreamMove r s
  | .streamIndex r => Sys2Proof.Machine.execStreamIndex r s
  | .streamBackPressureResume r => Sys2Proof.Machine.execStreamBackPressureResume r s
  | .requestLanded owner seq ecc => Sys2Proof.Machine.execRequestLanded owner seq ecc s
  | .streamError r reason tier destSide => Sys2Proof.Machine.execStreamError r reason tier destSide s
  | .noProgress owner => Sys2Proof.Machine.execNoProgress owner s
  | .arbiterGrant pt ecc => Sys2Proof.Machine.execArbiterGrant pt ecc s
  | .ftcUnitGrant die encoder => Sys2Proof.Machine.execFtcUnitGrant die encoder s
  | .stepComputeStart => Sys2Proof.Machine.execStepComputeStart s
  | .stepOpenComplete => Sys2Proof.Machine.execStepOpenComplete s
  | .stepStatsComplete => Sys2Proof.Machine.execStepStatsComplete s
  | .recordStatsComplete => Sys2Proof.Machine.execRecordStatsComplete s
  | .sweepComplete => Sys2Proof.Machine.execSweepComplete s
  | .digestExchangeComplete => Sys2Proof.Machine.execDigestExchangeComplete s
  | .commitReadyComplete => Sys2Proof.Machine.execCommitReadyComplete s
  | .stepEnd => Sys2Proof.Machine.execStepEnd s
  | .exportStart => Sys2Proof.Machine.execExportStart s
  | .exportComplete => Sys2Proof.Machine.execExportComplete s
  | .gradientClearComplete => Sys2Proof.Machine.execGradientClearComplete s
  | .commitCopyRebuilt readBack => Sys2Proof.Machine.execCommitCopyRebuilt readBack s
  | .bsuAdd d p done desc => Sys2Proof.Machine.execBsuAdd d p done desc s
  | .bsuMul d p done desc => Sys2Proof.Machine.execBsuMul d p done desc s
  | .bsuAxpy d p done desc => Sys2Proof.Machine.execBsuAxpy d p done desc s
  | .bsuScale d p done desc => Sys2Proof.Machine.execBsuScale d p done desc s
  | .bsuFill d p done desc => Sys2Proof.Machine.execBsuFill d p done desc s
  | .bsuCopy d p done desc => Sys2Proof.Machine.execBsuCopy d p done desc s
  | .bsuConvert d p done desc => Sys2Proof.Machine.execBsuConvert d p done desc s
  | .bsuAccum d p done desc => Sys2Proof.Machine.execBsuAccum d p done desc s
  | .bsuSum d p done desc => Sys2Proof.Machine.execBsuSum d p done desc s
  | .bsuNorm2 d p done desc => Sys2Proof.Machine.execBsuNorm2 d p done desc s
  | .bsuAmax d p done desc => Sys2Proof.Machine.execBsuAmax d p done desc s
  | .bsuGather d p done desc => Sys2Proof.Machine.execBsuGather d p done desc s
  | .bsuScatterAdd d p done desc => Sys2Proof.Machine.execBsuScatterAdd d p done desc s
  | .bsuStream d p done desc => Sys2Proof.Machine.execBsuStream d p done desc s
  | .landingAccum st ch ecc => Sys2Proof.Machine.execLandingAccum st ch ecc s
  | .bsuSliceEnd st ch ecc => Sys2Proof.Machine.execBsuSliceEnd st ch ecc s
  | .bsuOperationComplete id => Sys2Proof.Machine.execBsuOperationComplete id s
  | .bsuOperationError id st ch reason => Sys2Proof.Machine.execBsuOperationError id st ch reason s
  | .bsuIdleDark st ch => Sys2Proof.Machine.execBsuIdleDark st ch s
  | .bsuLit st ch => Sys2Proof.Machine.execBsuLit st ch s
  | .bsuDutyWindow st ch => Sys2Proof.Machine.execBsuDutyWindow st ch s
  | .refreshDue st pch bank => Sys2Proof.Machine.execRefreshDue st pch bank s
  | .refreshForced st pch bank => Sys2Proof.Machine.execRefreshForced st pch bank s
  | .refreshManagement st pch bank => Sys2Proof.Machine.execRefreshManagement st pch bank s
  | .patrolScrubSector st pch ecc => Sys2Proof.Machine.execPatrolScrubSector st pch ecc s
  | .scrubLate st => Sys2Proof.Machine.execScrubLate st s
  | .stackSensorSample st temps => Sys2Proof.Machine.execStackSensorSample st temps s
  | .stageFall st => Sys2Proof.Machine.execStageFall st s
  | .channelRetired st ch threshold => Sys2Proof.Machine.execChannelRetired st ch threshold s
  | .phyCalibration st pch => Sys2Proof.Machine.execPhyCalibration st pch s
  | .sharedPageRetired die page => Sys2Proof.Machine.execSharedPageRetired die page s
  | .beaconPageReplaced page => Sys2Proof.Machine.execBeaconPageReplaced page s
  | .sharedQuarterDark die quarter => Sys2Proof.Machine.execSharedQuarterDark die quarter s
  | .sharedQuarterLit die quarter => Sys2Proof.Machine.execSharedQuarterLit die quarter s
  | .sramScrubWord word ecc passDone => Sys2Proof.Machine.execSramScrubWord word ecc passDone s
  | .laserTracking source drive output temp => Sys2Proof.Machine.execLaserTracking source drive output temp s
  | .laserOutputDrop source output => Sys2Proof.Machine.execLaserOutputDrop source output s
  | .flashRelocation block eraseOk => Sys2Proof.Machine.execFlashRelocation block eraseOk s
  | .telemetrySample meanPowerMw => Sys2Proof.Machine.execTelemetrySample meanPowerMw s
  | .snufferWindow powerMw cdTempMax iodTemp => Sys2Proof.Machine.execSnufferWindow powerMw cdTempMax iodTemp s
  | .snufferLower => Sys2Proof.Machine.execSnufferLower s
  | .tileHold d p start => Sys2Proof.Machine.execTileHold d p start s
  | .thermAssert => Sys2Proof.Machine.execThermAssert s
  | .thermRelease => Sys2Proof.Machine.execThermRelease s
  | .lamplighterRestart cause => Sys2Proof.Machine.execLamplighterRestart cause s
  | .uncontained cause => Sys2Proof.Machine.execUncontained cause s
  | .flitReceive port flit => Sys2Proof.Machine.execFlitReceive port flit s
  | .flitAckTimeout port => Sys2Proof.Machine.execFlitAckTimeout port s
  | .laneChange port lane width => Sys2Proof.Machine.execLaneChange port lane width s
  | .retrainRequest port lane => Sys2Proof.Machine.execRetrainRequest port lane s
  | .quiesce port => Sys2Proof.Machine.execQuiesce port s
  | .packetForward port pkt => Sys2Proof.Machine.execPacketForward port pkt s
  | .putReceive port pkt ecc => Sys2Proof.Machine.execPutReceive port pkt ecc s
  | .packetAckReceive port pkt => Sys2Proof.Machine.execPacketAckReceive port pkt s
  | .nackReceive port pkt => Sys2Proof.Machine.execNackReceive port pkt s
  | .collDataReceive port pkt => Sys2Proof.Machine.execCollDataReceive port pkt s
  | .collFlagReceive port pkt => Sys2Proof.Machine.execCollFlagReceive port pkt s
  | .abortReceive port pkt => Sys2Proof.Machine.execAbortReceive port pkt s
  | .helloReceive port pkt => Sys2Proof.Machine.execHelloReceive port pkt s
  | .putTimeout msgId => Sys2Proof.Machine.execPutTimeout msgId s
  | .collectiveStall entry sequence => Sys2Proof.Machine.execCollectiveStall entry sequence s
  | .collectiveComplete entry sequence => Sys2Proof.Machine.execCollectiveComplete entry sequence s
  | .portPeerLoss port => Sys2Proof.Machine.execPortPeerLoss port s
  | .portTrainingComplete port tests => Sys2Proof.Machine.execPortTrainingComplete port tests s
  | .ethernetLinkUp port => Sys2Proof.Machine.execEthernetLinkUp port s
  | .ethernetLaneFailure port lane => Sys2Proof.Machine.execEthernetLaneFailure port lane s
  | .ethernetRetrain port passed => Sys2Proof.Machine.execEthernetRetrain port passed s
  | .cnpReceive port => Sys2Proof.Machine.execCnpReceive port s
  | .ethernetInboundRequest port => Sys2Proof.Machine.execEthernetInboundRequest port s
  | .ethReadComplete entry sequence data => Sys2Proof.Machine.execEthReadComplete entry sequence data s
  | .i3cStatus => Sys2Proof.Machine.execI3cStatus s
  | .i3cRecords fromSeq count => Sys2Proof.Machine.execI3cRecords fromSeq count s
  | .i3cEvents fromSeq count => Sys2Proof.Machine.execI3cEvents fromSeq count s
  | .i3cRegister addr words => Sys2Proof.Machine.execI3cRegister addr words s
  | .i3cDisec => Sys2Proof.Machine.execI3cDisec s
  | .i3cSetdasa addr => Sys2Proof.Machine.execI3cSetdasa addr s
  | .i3cEntdaa addr => Sys2Proof.Machine.execI3cEntdaa addr s
  | .tinderHelp => Sys2Proof.Machine.execTinderHelp s
  | .tinderStatus => Sys2Proof.Machine.execTinderStatus s
  | .tinderUnlock credential => Sys2Proof.Machine.execTinderUnlock credential s
  | .tinderPeek addr words => Sys2Proof.Machine.execTinderPeek addr words s
  | .tinderPoke addr value => Sys2Proof.Machine.execTinderPoke addr value s
  | .tinderDump addr len ecc => Sys2Proof.Machine.execTinderDump addr len ecc s
  | .tinderTrace mode => Sys2Proof.Machine.execTinderTrace mode s
  | .tinderBreak => Sys2Proof.Machine.execTinderBreak s
  | .tinderGo => Sys2Proof.Machine.execTinderGo s
  | .tinderFuseDebug unitId => Sys2Proof.Machine.execTinderFuseDebug unitId s
  | .jtagFuseDebug => Sys2Proof.Machine.execJtagFuseDebug s
  | .debugAccess addr value => Sys2Proof.Machine.execDebugAccess addr value s
  | .coreHalt core => Sys2Proof.Machine.execCoreHalt core s
  | .scanDump => Sys2Proof.Machine.execScanDump s
  | .dieIsolate die passed tests => Sys2Proof.Machine.execDieIsolate die passed tests s
  | .hostLinkRetraining => Sys2Proof.Machine.execHostLinkRetraining s
  | .openSessionHelloTimeout => Sys2Proof.Machine.execOpenSessionHelloTimeout s
  | .hostSnoop => Sys2Proof.Machine.execHostSnoop s
  | .arpAndNeighbourDiscovery port => Sys2Proof.Machine.execArpAndNeighbourDiscovery port s
  | .ecnMarkedTraffic port => Sys2Proof.Machine.execEcnMarkedTraffic port s
  | .portLightReturn port => Sys2Proof.Machine.execPortLightReturn port s
  | .badOpcode n opcode r => Sys2Proof.Machine.execBadOpcode n opcode r s
  | .flashAppendComplete ok => Sys2Proof.Machine.execFlashAppendComplete ok s

end Sys2Proof.Machine
end

