-- ==== Sys2Proof/Safety.lean ====
section
/-! DEFINITION. What holds of every state that a command leaves: the tables of units keep the sizes that the manual
gives, event counters fit their registers, memory keeps its canonical form, and the event rings keep their order and
their bounds. Statements that need a unit of a table to be there take `State.Inv` as their premise. -/

namespace Sys2Proof.Machine

/-- A context has four loop registers and sixteen parameters (R172). -/
structure Context.Shape (c : Context) : Prop where
  loops : c.loops.length = 4
  params : c.params.length = 16

/-- A tile has eight contexts (R172), 256 event counters of 16 bits (R165) and 128 stream slots (R192). -/
structure Tile.Shape (t : Tile) : Prop where
  contexts : t.contexts.length = 8
  context : ∀ c ∈ t.contexts, c.Shape
  counters : t.counters.length = 256
  bound : ∀ v ∈ t.counters, v ≤ 0xFFFF
  slots : t.slots.length = 128

/-- A bank-side unit has 16 stream slots (R481). -/
structure Bsu.Shape (b : Bsu) : Prop where
  slots : b.slots.length = 16

/-- A stack has 32 channels, each with one bank-side unit (R465). -/
structure Stack.Shape (k : Stack) : Prop where
  channels : k.channels.length = 32
  bsus : k.bsus.length = 32
  bsu : ∀ b ∈ k.bsus, b.Shape

/-- A port has five lanes (R525). -/
structure Port.Shape (p : Port) : Prop where
  lanes : p.lanes.length = 5

/-- An event ring holds at most `n` records, in strictly rising order of SEQ, all below the next one (R663). -/
structure RingOk (n next : Nat) (l : List EventRecord) : Prop where
  bound : l.length ≤ n
  order : (l.map (·.seq)).Pairwise (· < ·)
  below : ∀ q ∈ l.map (·.seq), q < next

/-- The tables of units and the registers of fixed number. -/
structure State.Shape (s : State) : Prop where
  tiles : s.tiles.length = 100
  tile : ∀ t ∈ s.tiles, t.Shape
  hbm : s.hbm.length = 8
  stack : ∀ k ∈ s.hbm, k.Shape
  ports : s.ports.length = 8
  port : ∀ p ∈ s.ports, p.Shape
  links : s.links.map (·.lanes.length) = [44, 22, 22]
  dies : s.dies.length = 11
  lasers : s.lasers.length = 20
  ftc : s.ftc.length = 3
  barriers : s.barriers.length = 32
  mailboxes : s.lamp.mailboxes.length = 16
  dma : s.host.dma.length = 8
  msix : s.host.msix.length = 64

/-- What every command keeps. -/
structure State.Inv (s : State) : Prop where
  shape : s.Shape
  mem : Mem.wf s.mem = true
  hostMem : Mem.wf s.hostMem = true
  ring : RingOk 4096 s.events.nextSeq s.events.ring
  flashRing : RingOk 1024 s.events.nextSeq s.flash.eventRing

/-- Host memory that a window opens to the device for writing (R579). -/
def Protection.opens (p : Protection) (a : Nat) : Prop :=
  ∃ w ∈ p.windows, w.write = true ∧ w.hostBase ≤ a ∧ a < w.hostBase + w.size

/-- What fuses say of a die: type, revision, protocol versions and capabilities (R46, R47). -/
def Die.identity (d : Die) : Nat × Nat × Nat × BitVec 16 × BitVec 64 := (d.dieType, d.major, d.minor, d.protoSupported, d.cap)

/-- The fuses of `t` are those of `s`, with at most more of them blown: the unit identity stays, the rollback counter
never falls, a revoked key stays revoked and debug access stays shut (R685, R686, R706). -/
structure Fuses.Grow (a b : Fuses) : Prop where
  unitId : b.unitId = a.unitId
  rollback : a.rollbackCounter ≤ b.rollbackCounter
  revoked : a.keysRevoked &&& b.keysRevoked = a.keysRevoked
  debug : a.debugBlown = true → b.debugBlown = true

end Sys2Proof.Machine
end

