-- ==== Sys2Proof/Claims.lean ====
section
/-! DEFINITION. The terms in which the statements about mailbox commands are written: when a request passes the checks,
what a response holds, and what a command leaves alone. -/

namespace Sys2Proof.Machine

/-- The doorbell of mailbox `n` is taken, and the request passes every common check of R621, with payload `p`. -/
structure State.Accepts (s : State) (n : Nat) (spec : CmdSpec) (r : Request) (p : List Byte) : Prop where
  there : n < 16
  serves : s.lampServes = true
  free : (s.mbox n).open_ = true
  header : headerOk spec r = true
  role : (s.checkRole spec r).2 = true
  attached : s.host.detached = false ∨ spec.detachedOk = true
  allowed : spec.states s.dev = true
  image : s.bundle.running = .r → s.dev = .booting ∨ spec.recovery = true
  conflict : s.conflicts n spec.cls = false
  payload : s.payload r = some p
  result : s.resultOk r = true

/-- The mailbox commands: the mailbox, what the command table says of the command, and the request. -/
def mailboxCommand : Instr → Option (Nat × CmdSpec × Request)
  | .queryIdentity n r => some (n, specQueryIdentity, r)
  | .queryState n r => some (n, specQueryState, r)
  | .attach n r => some (n, specAttach, r)
  | .readTelemetry n r => some (n, specReadTelemetry, r)
  | .readEvents n r => some (n, specReadEvents, r)
  | .openSession n r => some (n, specOpenSession, r)
  | .setProtection n r => some (n, specSetProtection, r)
  | .mapRegion n r => some (n, specMapRegion, r)
  | .setPolicy n r => some (n, specSetPolicy, r)
  | .setCredential n r => some (n, specSetCredential, r)
  | .loadProgram n r _ => some (n, specLoadProgram, r)
  | .runStep n r => some (n, specRunStep, r)
  | .abortStep n r => some (n, specAbortStep, r)
  | .drain n r => some (n, specDrain, r)
  | .resume n r => some (n, specResume, r)
  | .selfTest n r _ => some (n, specSelfTest, r)
  | .retireUnitRetire n r => some (n, specRetireUnit, r)
  | .retireUnitRestore n r => some (n, specRetireUnit, r)
  | .stageBundle n r => some (n, specStageBundle, r)
  | .activateBundle n r => some (n, specActivateBundle, r)
  | .activateBundleCancel n r => some (n, specActivateBundle, r)
  | .attest n r => some (n, specAttest, r)
  | .resetDevice n r => some (n, specResetDevice, r)
  | _ => none

/-- The state once Lamplighter has copied the request (R612). -/
def State.copied (s : State) (n : Nat) (spec : CmdSpec) (r : Request) : State := s.newCascade.submit n spec.opcode r

/-- Mailbox `n` holds the FINAL response to request `r` (R609, R610, R613). `b` is the state in which the windows let
the result through. -/
structure Answered (n : Nat) (r : Request) (opcode : Nat) (st : Status) (result : List Byte) (b t : State) : Prop where
  state : (t.mbox n).state = .done
  final : (t.mbox n).response.final = true
  status : (t.mbox n).response.status = st
  sequence : (t.mbox n).response.sequence = r.sequence
  opcode : (t.mbox n).response.opcode = opcode
  length : (t.mbox n).response.resultLength = result.length
  external : (t.mbox n).response.external = r.flags.getLsbD 1
  truncated : (t.mbox n).response.truncated =
    decide ((if r.flags.getLsbD 1 then r.resultCapacity else 1984) < result.length)
  inline : r.flags.getLsbD 1 = false → (t.mbox n).response.inline = result.take 1984
  hostMem : t.hostMem =
    if r.flags.getLsbD 1 = true ∧ b.host.speed ≠ 0 then
      (b.hostWrite r.resultAddr.toNat (result.take r.resultCapacity)).hostMem
    else b.hostMem
  vector : t.host.intStatus = b.host.intStatus ||| BitVec.ofNat 27 (1 <<< n)

/-- What a mailbox command that only answers leaves alone: everything but its own mailbox, the count of commands, the
pending bit of its vector and host memory at the result. -/
structure KeepsRest (n : Nat) (s t : State) : Prop where
  state : { t with events := s.events, host := s.host, lamp := s.lamp, hostMem := s.hostMem } = s
  events : { t.events with cascade := s.events.cascade } = s.events
  host : { t.host with intStatus := s.host.intStatus, pba := s.host.pba } = s.host
  lamp : { t.lamp with mailboxes := s.lamp.mailboxes, commands := s.lamp.commands } = s.lamp
  count : t.lamp.commands = satAdd s.lamp.commands 1
  others : ∀ m, m ≠ n → t.mbox m = s.mbox m

end Sys2Proof.Machine
end

