-- ==== Sys2Proof/Machine/Domains.lean ====
section
/-! DEFINITION. What the board and the clock tree see of the state: the output pins of R766 and the lit clock domains
of R718 and R719. No row of the table reads them; they follow from the state. -/

namespace Sys2Proof.Machine

/-! ### Output pins (R606, R764, R766) -/

/-- What an output does: it drives low or high, or leaves the level to the board resistor. -/
inductive PinOut where
  | low | high | hiZ
  deriving DecidableEq, Repr

/-- An open-drain output that is asserted low. -/
def openDrain (asserted : Bool) : PinOut := if asserted then .low else .hiZ

/-- FAULT_N: Lamplighter holds it asserted for as long as the device is FAULTED (R606, R646). -/
def State.faultN (s : State) : PinOut := openDrain (s.dev == .faulted)

/-- THERM_N, in every state but DARK (R739). -/
def State.thermN (s : State) : PinOut := openDrain (s.dev.answers && s.pilot.therm)

/-- ALERT_N, in the lit states (R666, R767). -/
def State.alertN (s : State) : PinOut := openDrain s.alert

/-- PRESENT_N is tied to package ground (R764). -/
def State.presentN (_ : State) : PinOut := .low

/-- UART_TX: idle high while tinder is available; high-impedance outside the lit states and after R706. -/
def State.uartTx (s : State) : PinOut := if s.dev.lit && !s.fuses.debugBlown then .high else .hiZ

/-- The optical outputs emit light: the OPTICAL_ENGINE part has started the lasers (R673, R724). -/
def State.opticalOn (s : State) : Bool :=
  s.dev.lit && !s.lamp.dead && s.bundle.running != .r &&
    match s.pilot.boot with
    | some b => !(b.toLoad.contains .opticalEngine || b.loading == some .lampMain || b.loading == some .policyTable ||
        b.loading == some .opticalEngine)
    | none => true

/-! ### Clock domains (R718, R719) -/

/-- The fabric of a compute die, and the HBM4 PHY of a stack: lit while the die is in service. -/
def State.fabricLit (s : State) (d : Nat) : Bool := s.dev.lit && s.dieInService d

def State.phyLit (s : State) (st : Nat) : Bool := s.fabricLit (stackDie st)

/-- MBD control: lit while its stack is in service. -/
def State.mbdLit (s : State) (st : Nat) : Bool := s.dev.lit && s.stackInService st

/-- Group `g` of four lanes at either end of a die-to-die link; the last group of a CD–IOD link has two. -/
def State.laneGroupLit (s : State) (k g : Nat) : Bool :=
  let x := s.link k
  s.dev.lit && s.linkLit k && x.state != .failed && (((x.lanes.drop (4 * g)).take 4).any fun l =>
    l.state == .active || l.state == .spare || l.state == .suspect)

/-- A port lane: ACTIVE or SPARE in Torcor mode, or one of the four lanes of an Ethernet link (R548). -/
def State.portLaneLit (s : State) (n l : Nat) : Bool :=
  let p := s.port n
  let x := (p.lanes.getD l {}).state
  s.dev.lit && if p.ethernet then decide (l < 4) && x == .active else x == .active || x == .spare

/-- Lamplighter, the host interface and Beacon: lit in every lit state. -/
def State.iodLit (s : State) : Bool := s.dev.lit

end Sys2Proof.Machine
end

