-- ==== Sys2Proof/WellFormed.lean ====
section
/-! DEFINITION. Which commands are well formed: every unit that a command names is one the package has. A command that
names another cannot arise, and the machine faults on it by name. -/

namespace Sys2Proof

/-- A tile position: 2 compute dies of 50 positions (R67). -/
def tileWf (d p : Nat) : Bool := decide (d < 2) && decide (p < 50)

/-- A bank-side unit: 8 stacks of 32 channels (R465). -/
def bsuWf (st ch : Nat) : Bool := decide (st < 8) && decide (ch < 32)

/-- Lanes, spares counted, of a die-to-die link: 40 + 4 between the compute dies, 20 + 2 to the IOD (R23). -/
def lanesOfLink : Nat → Nat
  | 0 => 44
  | _ => 22

/-- A lane of one of the 3 links or of one of the 8 ports with 4 + 1 lanes (R23, R525). -/
def LaneRef.wf : LaneRef → Bool
  | .die k l => decide (k < 3) && decide (l < lanesOfLink k)
  | .port n l => decide (n < 8) && decide (l < 5)

/-- A stream slot: 128 on a tile, 16 on a bank-side unit (R193, R481). -/
def StreamRef.wf : StreamRef → Bool
  | .tile d p n => tileWf d p && decide (n < 128)
  | .bsu st ch n => bsuWf st ch && decide (n < 16)

/-- The owner of a request. -/
def ReqOwner.wf : ReqOwner → Bool
  | .tileSlot d p n => tileWf d p && decide (n < 128)
  | .bsuSlot st ch n => bsuWf st ch && decide (n < 16)
  | .xfer d p _ => tileWf d p
  | .dma n => decide (n < 8)
  | .beacon _ | .event => true

/-- A shared point (R219). -/
def Point.wf : Point → Bool
  | .tilePort d p => tileWf d p
  | .diePort d n => decide (d < 2) && decide (n < 64)
  | .pseudoChannel st q => decide (st < 8) && decide (q < 64)
  | .linkCc d => decide (d < 2)
  | .linkCi d _ => decide (d < 2)
  | .beaconPort | .hostOut => true

/-- The unit that reads host memory. -/
def HostRead.wf : HostRead → Bool
  | .dma n => decide (n < 8)
  | .tileStream d p n => tileWf d p && decide (n < 128)
  | .bsuStream st ch n => bsuWf st ch && decide (n < 16)
  | .mailbox n => decide (n < 16)

/-- An on-chip memory (R743). -/
def SramRef.wf : SramRef → Bool
  | .tileMemory d p => tileWf d p
  | .sharedBuffer die page => decide (die < 2) && decide (page < 12288)
  | .bsuSram st ch => bsuWf st ch
  | .beaconBuffer page => decide (page < 8192)
  | .lamplighter => true

/-- Every unit that the command names exists. -/
def Instr.wf : Instr → Bool
  | .queryIdentity n _ | .queryState n _ | .attach n _ | .readTelemetry n _ | .readEvents n _
  | .openSession n _ | .setProtection n _ | .mapRegion n _ | .setPolicy n _ | .setCredential n _
  | .loadProgram n _ _ | .runStep n _ | .abortStep n _ | .drain n _ | .resume n _ | .selfTest n _ _
  | .retireUnitRetire n _ | .retireUnitRestore n _ | .stageBundle n _ | .activateBundle n _
  | .activateBundleCancel n _ | .attest n _ | .resetDevice n _ => decide (n < 16)
  | .ownerLockoutExpiry => true
  | .doorbellOverrun n => decide (n < 16)
  | .registerWrite _ _ | .memwinBaseWrite _ | .intStatusClear _ | .hostErrClear _ => true
  | .dmaTailWrite ch _ | .dmaRestart ch | .dmaDescriptorComplete ch _ => decide (ch < 8)
  | .bar2Read _ _ _ | .bar2Write _ _ _ => true
  | .hostReadTimeout read => read.wf
  | .hostLinkRetrainComplete | .hostLinkLoss | .perstAssert | .hostLinkReturn _ _ _ | .vddPilotUp
  | .vddPilotLoss | .devResetNRelease _ _ | .devResetNAssert | .railExcursion _ | .railsRestored | .wake _
  | .partStartupTimeout | .partStartupPass _ | .linkTrainingComplete _ => true
  | .ringTuningTick link lane role _ _ _ | .ringOutOfLock link lane role => LaneRef.wf (.die link lane) && decide (role < 5)
  | .laneThresholdCrossing lane _ _ | .laneLossOfSignal lane => lane.wf
  | .quiescePoint link => link.wf
  | .laneRetrainComplete lane _ | .backgroundRetrain lane _ => lane.wf
  | .spareLaneRotation link => decide (link < 3)
  | .bundleIssue d p _ | .arrayNop d p | .matmul d p _ _ | .pairBackward d p _ _ | .arrayPassWriteBack d p _
  | .arrayOpComplete d p | .flickerReplay d p => tileWf d p
  | .arrayRetired d p a => tileWf d p && decide (a < 17)
  | .spareSubstitutionComplete d p | .tileRetired d p | .vectorNop d p | .vectorAdd d p _ _ _
  | .vectorSub d p _ _ _ | .vectorMul d p _ _ _ | .vectorFma d p _ _ _ | .vectorAxpy d p _ _ _
  | .vectorMax d p _ _ _ | .vectorMin d p _ _ _ | .vectorExp d p _ _ _ | .vectorLog d p _ _ _
  | .vectorRcp d p _ _ _ | .vectorRsqrt d p _ _ _ | .vectorSum d p _ _ _ | .vectorAmax d p _ _ _
  | .vectorConvert d p _ _ _ | .vectorAccum d p _ _ _ | .vectorDropout d p _ _ _ | .vectorCopy d p _ _ _
  | .vectorOpComplete d p | .streamSlotNop d p | .bind d p _ _ | .start d p _ _ _ | .consume d p _ _
  | .unbind d p _ | .controlNop d p | .wait d p _ _ _ | .signal d p _ _ _ _ => tileWf d p
  | .signalArrival fromDie fromPos toDie toPos counter => tileWf fromDie fromPos && tileWf toDie toPos && decide (counter < 256)
  | .yieldPoint d p => tileWf d p
  | .barrier d p id => tileWf d p && decide (id < 32)
  | .barrierOpen id => decide (id < 32)
  | .xfer d p _ _ | .xferComplete d p | .coll d p _ _ | .fence d p _ => tileWf d p
  | .fenceComplete d p ctx => tileWf d p && decide (ctx < 8)
  | .halt d p => tileWf d p
  | .contextHalted d p ctx => tileWf d p && decide (ctx < 8)
  | .nextBundle d p | .loopBegin d p _ _ | .loopBeginP d p _ _ | .loopEnd d p _ | .jump d p _
  | .segment d p _ | .segmentLoadComplete d p | .padd d p _ _ | .pset d p _ _ | .jumpIfGe d p _ _
  | .contextSwitchComplete d p | .tileIdleDark d p | .tileLit d p => tileWf d p
  | .streamEnd r | .streamSeta r | .streamSets r | .streamAdds r | .streamAddq r | .streamLoop r
  | .streamLoopq r | .streamEndloop r | .streamMove r | .streamIndex r | .streamBackPressureResume r => r.wf
  | .requestLanded owner _ _ => owner.wf
  | .streamError r _ _ _ => r.wf
  | .noProgress owner => owner.wf
  | .arbiterGrant pt _ => pt.wf
  | .ftcUnitGrant die _ => decide (die < 3)
  | .stepComputeStart | .stepOpenComplete | .stepStatsComplete | .recordStatsComplete | .sweepComplete
  | .digestExchangeComplete | .commitReadyComplete | .stepEnd | .exportStart | .exportComplete
  | .gradientClearComplete | .commitCopyRebuilt _ => true
  | .bsuAdd d p _ _ | .bsuMul d p _ _ | .bsuAxpy d p _ _ | .bsuScale d p _ _ | .bsuFill d p _ _
  | .bsuCopy d p _ _ | .bsuConvert d p _ _ | .bsuAccum d p _ _ | .bsuSum d p _ _ | .bsuNorm2 d p _ _
  | .bsuAmax d p _ _ | .bsuGather d p _ _ | .bsuScatterAdd d p _ _ | .bsuStream d p _ _ => tileWf d p
  | .landingAccum st ch _ | .bsuSliceEnd st ch _ => bsuWf st ch
  | .bsuOperationComplete _ => true
  | .bsuOperationError _ st ch _ | .bsuIdleDark st ch | .bsuLit st ch | .bsuDutyWindow st ch => bsuWf st ch
  | .refreshDue st pch bank | .refreshForced st pch bank | .refreshManagement st pch bank => decide (st < 8) && decide (pch < 64) && decide (bank < 64)
  | .patrolScrubSector st pch _ => decide (st < 8) && decide (pch < 64)
  | .scrubLate st | .stackSensorSample st _ | .stageFall st => decide (st < 8)
  | .channelRetired st ch _ => decide (st < 8) && decide (ch < 32)
  | .phyCalibration st pch => decide (st < 8) && decide (pch < 64)
  | .sharedPageRetired die page => decide (die < 2) && decide (page < 12288)
  | .beaconPageReplaced page => decide (page < 8192)
  | .sharedQuarterDark die quarter | .sharedQuarterLit die quarter => decide (die < 2) && decide (quarter < 4)
  | .sramScrubWord word _ _ => word.wf
  | .laserTracking source _ _ _ | .laserOutputDrop source _ => decide (source < 20)
  | .flashRelocation block _ => decide (block < 256)
  | .telemetrySample _ | .snufferWindow _ _ _ | .snufferLower => true
  | .tileHold d p _ => tileWf d p
  | .thermAssert | .thermRelease | .lamplighterRestart _ | .uncontained _ => true
  | .flitReceive port _ | .flitAckTimeout port => decide (port < 8)
  | .laneChange port lane _ | .retrainRequest port lane => decide (port < 8) && decide (lane < 5)
  | .quiesce port | .packetForward port _ | .putReceive port _ _ | .packetAckReceive port _
  | .nackReceive port _ | .collDataReceive port _ | .collFlagReceive port _ | .abortReceive port _
  | .helloReceive port _ => decide (port < 8)
  | .putTimeout _ | .collectiveStall _ _ | .collectiveComplete _ _ => true
  | .portPeerLoss port | .portTrainingComplete port _ | .ethernetLinkUp port => decide (port < 8)
  | .ethernetLaneFailure port lane => decide (port < 8) && decide (lane < 5)
  | .ethernetRetrain port _ | .cnpReceive port | .ethernetInboundRequest port => decide (port < 8)
  | .ethReadComplete _ _ _ | .i3cStatus | .i3cRecords _ _ | .i3cEvents _ _ | .i3cRegister _ _ | .i3cDisec
  | .i3cSetdasa _ | .i3cEntdaa _ | .tinderHelp | .tinderStatus | .tinderUnlock _ | .tinderPeek _ _
  | .tinderPoke _ _ | .tinderDump _ _ _ | .tinderTrace _ | .tinderBreak | .tinderGo | .tinderFuseDebug _
  | .jtagFuseDebug | .debugAccess _ _ => true
  | .coreHalt core => decide (core < 2)
  | .scanDump => true
  | .dieIsolate die _ _ => decide (die < 11)
  | .hostLinkRetraining | .openSessionHelloTimeout | .hostSnoop => true
  | .arpAndNeighbourDiscovery port | .ecnMarkedTraffic port | .portLightReturn port => decide (port < 8)
  | .badOpcode n _ _ => decide (n < 16)
  | .flashAppendComplete _ => true

end Sys2Proof
end

