-- ==== Sys2Proof/Certificates/Slice0/Obligations.lean ====
section
/-! DEFINITION. The statements for the provers. Each docstring names the rules it formalises; where a clause rests on a
choice of the model it says so and names the log entry. -/

open Sys2Proof Sys2Proof.Machine

/-- For every command c and state s, a step of s with c at the front of its queue is exec of c on s with the rest of the
queue. That commands wait in one queue, first in first out, is the block model's own form (log entry 1); the
sections named give the commands. (R535, R612) -/
def Obligations.StepRunsTheFrontCommand : Prop :=
  ∀ (c : Instr) (rest : List Instr) (s : State),
    step { s with pending := c :: rest } = exec c { s with pending := rest }

/-- With an empty queue a step answers a next state in which BOOT_NS has advanced by 40 ns; a device that is DARK with
every supply up and DEV_RESET_N released passes to PILOT; nothing else changes. That an empty queue ticks this clock
is the model's choice (log entry 2). (R623, R715) -/
def Obligations.EmptyQueueOnlyLetsTimePass : Prop :=
  ∀ s : State, s.pending = [] →
    (¬(s.dev = .dark ∧ s.pilot.vddPilot = true ∧ s.pilot.devResetN = true ∧ s.pilot.railsUp = 0xFF#8) →
      step s = .next { s with now := s.now + 40 }) ∧
    (s.dev = .dark ∧ s.pilot.vddPilot = true ∧ s.pilot.devResetN = true ∧ s.pilot.railsUp = 0xFF#8 →
      step s = .next { s with dev := .pilot, now := s.now + 40 })

/-- The reset state meets State.Inv: every table of units has the size the manual gives, event counters fit 16 bits,
both memories are in canonical form, and the event rings are in order and within their bounds. (R23, R66, R165,
R172, R192, R465, R525, R663) -/
def Obligations.ResetStateMeetsTheInvariant : Prop := State.reset.Inv

/-- From every state that meets State.Inv, a step that answers a next state gives a state that meets it: the tables of
units keep their sizes, every event counter of every tile stays within 16 bits, memory and host memory keep their
canonical form, and the event ring and the flash ring hold at most 4,096 and 1,024 records in strictly rising order
of SEQ, all below the next SEQ. (R23, R66, R165, R172, R192, R465, R525, R663) -/
def Obligations.EveryStepKeepsTheInvariant : Prop := ∀ s t : State, s.Inv → step s = .next t → t.Inv

/-- Whatever the command does, the queue after a step is the queue before it without its front command: no command puts
a command in the queue, removes another, or reorders the queue. The queue is the model's own (log entry 1). (R535,
R612) -/
def Obligations.StepsConsumeTheQueueFromTheFront : Prop :=
  ∀ s t : State, step s = .next t → t.pending = s.pending.tail

/-- In every step the rollback counter does not fall. Beside that rule the statement says of the other fuses that a
revoked key slot stays revoked, a blown debug fuse stays blown, the unit identity stays, and so do the fused type,
revision, protocol versions and capabilities of every die. (R686) -/
def Obligations.FusesAreOnlyEverBlown : Prop :=
  ∀ s t : State, step s = .next t →
    s.fuses.rollbackCounter ≤ t.fuses.rollbackCounter ∧
    (∀ i, s.fuses.keysRevoked.getLsbD i = true → t.fuses.keysRevoked.getLsbD i = true) ∧
    (s.fuses.debugBlown = true → t.fuses.debugBlown = true) ∧
    t.fuses.unitId = s.fuses.unitId ∧
    t.dies.map Die.identity = s.dies.map Die.identity

/-- In every step the next SEQ does not fall, and where the two event rings were in strictly rising order of SEQ, below
the next SEQ and within 4,096 and 1,024 records before the step, they are so after it. Through resets too: SEQ
continues across boots. (R663) -/
def Obligations.EventSequenceNumbersNeverRepeat : Prop :=
  ∀ s t : State, step s = .next t →
    s.events.nextSeq ≤ t.events.nextSeq ∧
    (RingOk 4096 s.events.nextSeq s.events.ring → RingOk 4096 t.events.nextSeq t.events.ring) ∧
    (RingOk 1024 s.events.nextSeq s.flash.eventRing → RingOk 1024 t.events.nextSeq t.flash.eventRing)

/-- From every state whose host memory is in canonical form, no command but SET_PROTECTION changes a byte of host memory
that no window of the protection set-up opens for writing, nor any window. Whatever the block does - results, DMA,
streams, exports, interrupts - it cannot reach host memory outside the write windows. (SET_PROTECTION itself writes
its result under the set it installs.) (R579, R697) -/
def Obligations.HostMemoryIsWrittenOnlyThroughWindows : Prop :=
  ∀ s t : State, Mem.wf s.hostMem = true →
    (∀ (n : Nat) (r : Request), s.pending.head? ≠ some (.setProtection n r)) → step s = .next t →
    t.flash.protection.windows = s.flash.protection.windows ∧
    ∀ a : Nat,
      (¬∃ w ∈ s.flash.protection.windows, w.write = true ∧ w.hostBase ≤ a ∧ a < w.hostBase + w.size) →
      Mem.get t.hostMem a = Mem.get s.hostMem a

/-- On every state a command whose named units all exist answers a next state, never a fault and never a refusal; a
command that names a unit the package does not have (a tile position of 50 or above, a ninth stack, a mailbox 16)
faults with noSuchUnit on every state. The fault is the model's own way to say that no such command can arise (log
entry 3). (R66, R192, R23, R465, R525) -/
def Obligations.WellFormedCommandsRun : Prop :=
  ∀ i : Instr,
    (i.wf = true → ∀ s : State, ∃ t, exec i s = .next t) ∧
    (i.wf = false → ∀ s : State, exec i s = .fault .noSuchUnit)

/-- Where the request passes the checks of R621, each of these commands completes: the mailbox holds a FINAL response
with status OK, the request's sequence, and the command's result computed from the state the command found (inline,
or through the windows at RESULT_ADDR); the mailbox's vector is signalled. Nothing else changes but the count of
commands and, for ATTEST, the count of attestations. The layout of the identity result's tail is the model's (log
entry 58). (R609, R610, R613, R621, R627, R634, R689) -/
def Obligations.QueriesAnswerAndChangeNothingElse : Prop :=
  ∀ (s : State) (n : Nat) (r : Request) (p : List Byte), s.Inv →
    (s.Accepts n specQueryIdentity r p → ∃ t, exec (.queryIdentity n r) s = .next t ∧
      Answered n r 0x01 .ok s.identityResult s t ∧ KeepsRest n s t) ∧
    (s.Accepts n specQueryState r p → ∃ t, exec (.queryState n r) s = .next t ∧
      Answered n r 0x02 .ok s.stateRecord s t ∧ KeepsRest n s t) ∧
    (s.Accepts n specAttest r p → field p 32 1 ≤ 1 → field p 33 7 = 0 → ∃ t, exec (.attest n r) s = .next t ∧
      Answered n r 0x42 .ok (s.attestResult (slice p 0 32) (field p 32 1 == 1)) s t ∧
      t.bundle = { s.bundle with attestations := satAdd s.bundle.attestations 1 } ∧
      KeepsRest n s { t with bundle := s.bundle })

/-- Where the request and its payload fields are valid, READ_TELEMETRY answers OK with the header and the records from
FROM_SEQ, sets the mailbox reader's cursor behind them and, with bit 0 of FLAGS, the threshold; vector 25 may be
signalled again once no more records than the threshold wait behind the cursor (log entry 122); READ_EVENTS answers
OK with the records of the ring that bit 1 of FLAGS selects and, with bit 0, marks every record below FROM_SEQ
acknowledged in both rings. Nothing else changes. (R609, R621, R668, R753) -/
def Obligations.RecordReadsReturnTheRecordsFromASequenceNumber : Prop :=
  ∀ (s : State) (n : Nat) (r : Request) (p : List Byte), s.Inv →
    (s.Accepts n specReadTelemetry r p → 1 ≤ field p 8 2 → field p 8 2 ≤ 2048 → field p 10 1 ≤ 1 → field p 11 1 = 0 →
      field p 14 2 = 0 → (field p 10 1 = 1 → 1 ≤ field p 12 2 ∧ field p 12 2 ≤ 2047) →
      ∃ t, exec (.readTelemetry n r) s = .next t ∧
        Answered n r 0x04 .ok (s.telemetryResult (field p 0 8) (field p 8 2)).1 s t ∧
        t.tele = { s.tele with
          cursor := (s.telemetryResult (field p 0 8) (field p 8 2)).2
          signalled := s.tele.signalled &&
            decide ((if field p 10 1 = 1 then field p 12 2 else s.tele.threshold) <
              s.tele.nextSeq - (s.telemetryResult (field p 0 8) (field p 8 2)).2)
          threshold := if field p 10 1 = 1 then field p 12 2 else s.tele.threshold } ∧
        KeepsRest n s { t with tele := s.tele }) ∧
    (s.Accepts n specReadEvents r p → 1 ≤ field p 8 2 → field p 8 2 ≤ 1024 → field p 10 1 ≤ 3 → field p 11 5 = 0 →
      ∃ t, exec (.readEvents n r) s = .next t ∧
        Answered n r 0x05 .ok
          (eventsResult (if bit (field p 10 1) 1 then t.flash.eventRing else t.events.ring) s.events.nextSeq (field p 0 8)
            (field p 8 2)) s t ∧
        (let ack := fun (e : EventRecord) =>
          if bit (field p 10 1) 0 = true ∧ e.seq < field p 0 8 then { e with acknowledged := true } else e
         t.events.ring = s.events.ring.map ack ∧ t.flash.eventRing = s.flash.eventRing.map ack) ∧
        t.flash = { s.flash with eventRing := t.flash.eventRing } ∧
        KeepsRest n s { t with events := { t.events with ring := s.events.ring }, flash := s.flash })

/-- An accepted ATTACH answers OK with the record of R635 as the state stood before it; DETACHED is cleared, and so is
what every DMA channel and every mailbox held for it; a mailbox whose command still runs returns to PENDING. That
PERST_SEEN is cleared with it is the model's reading (log entry 57). (R597, R598, R635) -/
def Obligations.AttachEndsDetachmentAndReleasesWhatWasHeld : Prop :=
  ∀ (s : State) (n : Nat) (r : Request) (p : List Byte), s.Inv → s.Accepts n specAttach r p →
    ∃ t, exec (.attach n r) s = .next t ∧
      (t.mbox n).state = .done ∧ (t.mbox n).response.status = .ok ∧ (t.mbox n).response.final = true ∧
      (t.mbox n).response.resultLength = s.attachRecord.length ∧
      (r.flags.getLsbD 1 = false → (t.mbox n).response.inline = s.attachRecord.take 1984) ∧
      t.host.detached = false ∧ t.host.perstSeen = false ∧
      t.host.dma = s.host.dma.map (fun c => { c with held := none }) ∧
      (∀ m, m ≠ n → t.mbox m = (s.mbox m).attach) ∧ (t.mbox n).held = none ∧
      { t with events := s.events, host := s.host, lamp := s.lamp, hostMem := s.hostMem } = s ∧
      (r.flags.getLsbD 1 = false → t.hostMem = s.hostMem)

/-- Where the request passes the checks and the payload its own, SET_CREDENTIAL stores the digest of the new credential;
SET_PROTECTION replaces all windows and keys at once and keeps the regions; MAP_REGION applies its operations in
order and keeps windows and keys; both raise the epoch by 1 and return it; SET_POLICY puts the new policy in force.
Nothing else changes, but stacks and ports where SET_POLICY reaches them (thermal thresholds, Ethernet mode). That
the epoch wraps at 64 bits is the model's (log entry 56). (R579, R617, R619, R621, R636, R696, R697, R698) -/
def Obligations.OwnerCommandsReplaceTheSetUp : Prop :=
  ∀ (s : State) (n : Nat) (r : Request) (p : List Byte), s.Inv →
    (s.Accepts n specSetCredential r p → ∃ t, exec (.setCredential n r) s = .next t ∧
      Answered n r 0x14 .ok [] s t ∧ t.flash = { s.flash with ownerDigest := some (shake256 p 32) } ∧
      KeepsRest n s { t with flash := s.flash }) ∧
    (∀ ws : List Window, s.Accepts n specSetProtection r p → field p 0 2 ≤ 64 → field p 2 2 ≤ 16 → field p 4 4 = 0 →
      p.length = 8 + 32 * field p 0 2 + 8 * field p 2 2 → windowsOf p (field p 0 2) = some ws →
      noPair (fun a b => overlaps a.base a.size b.base b.size) ws = true →
      0 ∉ keysOf p (field p 0 2) (field p 2 2) → noPair (· == ·) (keysOf p (field p 0 2) (field p 2 2)) = true →
      (∀ d, s.topo = some d → BitVec.ofNat 64 d.key ∈ keysOf p (field p 0 2) (field p 2 2)) →
      ∃ t, exec (.setProtection n r) s = .next t ∧
        t.flash = { s.flash with protection :=
          { windows := ws, keys := keysOf p (field p 0 2) (field p 2 2), regions := s.flash.protection.regions
            epoch := (s.flash.protection.epoch + 1) % 2 ^ 64 } } ∧
        Answered n r 0x11 .ok (leBytes 8 t.flash.protection.epoch) { s with flash := t.flash } t ∧
        KeepsRest n s { t with flash := s.flash }) ∧
    (∀ ops : List MapOp, s.Accepts n specMapRegion r p → 1 ≤ field p 0 2 →
      field p 0 2 ≤ (if r.flags.getLsbD 0 = true then 1638 else 48) → field p 2 6 = 0 → p.length = 8 + 40 * field p 0 2 →
      s.mapOps p (field p 0 2) = some ops →
      s.tableDisjoint (applyMapOps s.flash.protection.regions ops) ops = true →
      (∀ o ∈ ops, ∀ e, o.entry = some e → s.regionUnavailable e = false) →
      ∃ t, exec (.mapRegion n r) s = .next t ∧
        t.flash = { s.flash with protection :=
          { s.flash.protection with
            regions := applyMapOps s.flash.protection.regions ops
            epoch := (s.flash.protection.epoch + 1) % 2 ^ 64 } } ∧
        Answered n r 0x12 .ok (leBytes 8 t.flash.protection.epoch) s t ∧ KeepsRest n s { t with flash := s.flash }) ∧
    (∀ (items : List (Nat × List Byte)) (q : Policy), s.Accepts n specSetPolicy r p →
      policyItems p.length p = some items → s.applyItems items s.flash.policy = .ok q → berRule q = true →
      s.thermalRule q = true →
      ∃ t, exec (.setPolicy n r) s = .next t ∧ Answered n r 0x13 .ok [] s t ∧
        t.flash = { s.flash with policy := q } ∧
        t.hbm = s.hbm.map (fun k => { k with threshEffective := lowered k.thresh q.thermalOffsets }) ∧
        t.ports = (s.switchPorts q.ethernetMode).ports ∧
        KeepsRest n s { t with flash := s.flash, hbm := s.hbm, ports := s.ports })

/-- OPEN_SESSION with a valid payload records the session, unloads the program, forgets abort tokens and early packets
of an earlier session, sends HELLO on every mapped port, and completes at once if every one has answered;
LOAD_PROGRAM reads the image and installs the first one that passes every check, with a PENDING and then a FINAL
response; RUN_STEP that passes its checks enters the step and begins STEP_OPEN if the program has an update plan or
placement if not (or aborts at once on an abort token that came first). When 100 ms pass with HELLO missing,
OPEN_SESSION answers OK with the ports that are up and the bad ones. That tokens and early packets are forgotten is
the model's choice (log entry 55). (R144, R332, R403, R625, R628, R631) -/
def Obligations.SessionAndProgramCommandsInstallWhatTheyCheck : Prop :=
  ∀ (s : State) (n : Nat) (r : Request) (p : List Byte), s.Inv →
    (s.Accepts n specOpenSession r p → field p 0x1A 6 = 0 → (topoOf (slice p 0x20 64)).valid = true →
      field p 0x18 2 < (topoOf (slice p 0x20 64)).devices →
      s.ethernetClash ((topoOf (slice p 0x20 64)).ports (field p 0x18 2)) = false →
      s.flash.protection.keys.contains (BitVec.ofNat 64 (topoOf (slice p 0x20 64)).key) = true →
      ∃ u : State,
        u = { s.copied n specOpenSession r with
          program := none
          fonts := [{}, {}]
          tiles := s.tiles.map (fun t => { t with logicalId := none })
          session := some
            { jobId := field p 0 8, seed := field p 8 8, firstStep := field p 0x10 8, rank := field p 0x18 2
              topology := slice p 0x20 64 }
          lamp := { (s.copied n specOpenSession r).lamp with helloWait := some n }
          beacon := { s.beacon with tokens := [], early := [] } } ∧
        exec (.openSession n r) s = .next ((u.torcorPorts.foldl State.sendHello u).checkHello.inCascade none)) ∧
    (∀ (t : State) (b : List Byte) (ecc : Ecc), s.Accepts n specLoadProgram r p → (daSpace (field p 0 8) = 0 ∨ daSpace (field p 0 8) = 0xC) →
      (s.copied n specLoadProgram r).readImage (field p 0 8) (field p 8 8) ecc = (t, b) →
      t.loadFailure b (field p 8 8) = none →
      ∃ (u : State) (adopted : Bool), (u, adopted) = (t.respondPending n 0).install (programOf b) ∧
        exec (.loadProgram n r ecc) s =
          .next ((u.respond n .ok (u.loadResult (field b 0x20 8) 0 adopted)).inCascade none)) ∧
    (∀ g : Program, s.Accepts n specRunStep r p → stepPayloadOk p = true → s.program = some g →
      (s.copied n specRunStep r).stepFailure (field p 0 8) (field p 8 2) = none →
      ∃ t : State,
        t = (s.copied n specRunStep r).enterStep n (field p 0 8) ((s.stepMb g (field p 8 2)).getD (field p 8 2))
          (field p 8 2) (BitVec.ofNat 32 (field p 0xC 4)) g ∧
        exec (.runStep n r) s = .next
          (match s.beacon.tokens.find? fun x => x.step == field p 0 8 && !x.own && !x.acted with
           | some x => (t.lateToken x).inCascade none
           | none => (if g.hasUpdatePlan then t.issueUpdate updOpen (leBytes 8 (t.openWord (field p 0 8))) 0
               else t.placeStep).inCascade none)) ∧
    (s.lamp.helloWait = some n → exec .openSessionHelloTimeout s = .next
      (({ s with lamp := { s.lamp with helloWait := none } } : State).respond n .ok
        (leBytes 1 s.portsMask ++ leBytes 1 s.portsBad ++ zeros 6)))

/-- DRAIN in READY answers PENDING and then OK and, with TARGET 1, moves to MAINTENANCE; in RUNNING it moves to DRAINING
and leaves PENDING. RESUME with minimum service returns to READY. ABORT_STEP naming the running step answers 1 where
the COMMITTED record is written, and else aborts the step and answers 0. RESET_DEVICE answers OK and resets.
ACTIVATE_BUNDLE writes PENDING, with CANCEL clears it. But for ABORT_STEP and RESET_DEVICE the statement says that
nothing else changes than the mailbox, its vector, the counters of commands and host memory at the result. That
DRAIN to READY answers OK even below minimum service is the model's reading (log entry 54). (R623, R627, R629, R632,
R684, R726) -/
def Obligations.StepAndStateCommandsMoveTheDevice : Prop :=
  ∀ (s : State) (n : Nat) (r : Request) (p : List Byte), s.Inv →
    (s.Accepts n specDrain r p → field p 0 1 ≤ 1 → field p 1 7 = 0 → s.dev = .ready →
      ∃ t, exec (.drain n r) s = .next t ∧ (t.mbox n).state = .done ∧ (t.mbox n).response.status = .ok ∧
        (t.mbox n).response.final = true ∧
        t.dev = (if field p 0 1 = 0 then .ready else .maintenance) ∧
        t.lamp.maintReason = (if field p 0 1 = 0 then s.lamp.maintReason else .requested) ∧
        (∀ m, m ≠ n → t.mbox m = s.mbox m) ∧
        { t with dev := s.dev, events := s.events, host := s.host, lamp := s.lamp, hostMem := s.hostMem } = s) ∧
    (s.Accepts n specDrain r p → field p 0 1 ≤ 1 → field p 1 7 = 0 → s.dev = .running →
      ∃ t, exec (.drain n r) s = .next t ∧ (t.mbox n).state = .pending ∧ (t.mbox n).response.status = .pending ∧
        (t.mbox n).response.final = false ∧ t.dev = .draining ∧ t.lamp.drain = some (n, field p 0 1 == 1) ∧
        (∀ m, m ≠ n → t.mbox m = s.mbox m) ∧
        { t with dev := s.dev, events := s.events, host := s.host, lamp := s.lamp, hostMem := s.hostMem } = s) ∧
    (s.Accepts n specResume r p → s.givesService = true →
      ∃ t, exec (.resume n r) s = .next t ∧ Answered n r 0x24 .ok [] s t ∧ t.dev = .ready ∧ t.lamp.maintReason = .none ∧
        KeepsRest n s { t with dev := s.dev, lamp := { t.lamp with maintReason := s.lamp.maintReason } }) ∧
    (∀ x : RunStep, s.Accepts n specAbortStep r p → s.run = some x → field p 0 8 = x.k →
      exec (.abortStep n r) s = .next
        (if x.committed then ((s.copied n specAbortStep r).respond n .ok (leBytes 8 1)).inCascade none
         else ((((s.copied n specAbortStep r).abortStep
          { status := .stepSkipped, kind := 5, detail := leBytes 1 3 }).respond n .ok (leBytes 8 0)).inCascade none))) ∧
    (s.Accepts n specResetDevice r p →
      exec (.resetDevice n r) s =
        .next ((((s.copied n specResetDevice r).respond n .ok []).markReset.toDark false).inCascade none)) ∧
    (∀ k : Slot, s.Accepts n specActivateBundle r p → slotCode (field p 0 1) = some k → field p 1 1 ≤ 1 →
      field p 2 6 = 0 → k ≠ s.bundle.running → s.fuses.rollbackCounter ≤ (s.flash.slot k).rollbackIndex →
      (s.flash.slot k).state ≠ .empty → (s.flash.slot k).state ≠ .invalid → (s.flash.slot k).state ≠ .failedBoot →
      ∃ t, exec (.activateBundle n r) s = .next t ∧ Answered n r 0x41 .ok [] s t ∧
        t.flash = { s.flash with pendingSlot := some k } ∧ KeepsRest n s { t with flash := s.flash }) ∧
    (s.Accepts n specActivateBundle r p → field p 1 1 ≤ 1 → field p 2 6 = 0 →
      ∃ t, exec (.activateBundleCancel n r) s = .next t ∧ Answered n r 0x41 .ok [] s t ∧
        t.flash = { s.flash with pendingSlot := none } ∧ KeepsRest n s { t with flash := s.flash })

/-- SELF_TEST with a valid SCOPE answers PENDING, runs the items, and answers OK with the lane results; RETIRE_UNIT
retires a retirable unit in service, or with RESTORE appends the RESTORE entry and raises UNIT_RESTORE_PENDING, and
answers OK with the first SEQ it raised; a valid block of STAGE_BUNDLE in turn is fetched through the windows and
written, after block 0 has erased the slot. In the model SELF_TEST ends at once (log entry 53). (R660, R661, R681,
R682, R734, R735) -/
def Obligations.ServiceCommandsTestRetireAndStage : Prop :=
  ∀ (s : State) (n : Nat) (r : Request) (p : List Byte),
    (∀ rep : SelfTestReport, s.Accepts n specSelfTest r p → 1 ≤ field p 0 1 → field p 0 1 ≤ 15 → field p 1 7 = 0 →
      ∃ u v : State, u = (s.copied n specSelfTest r).respondPending n 0 ∧ v = u.runSelfTest (field p 0 1) rep ∧
        exec (.selfTest n r rep) s = .next ((v.respond n .ok (selfTestResult u v (field p 0 1) rep)).inCascade none)) ∧
    (∀ u : UnitAddr, s.Accepts n specRetireUnit r p → field p 0 1 = 0 → field p 1 7 = 0 → unitOfBytes (slice p 8 8) = some u →
      (s.copied n specRetireUnit r).retirable u = true → (s.copied n specRetireUnit r).unitRetired u = false →
      exec (.retireUnitRetire n r) s = .next
        ((((s.copied n specRetireUnit r).retireUnit u).respond n .ok (retireResult 0 s.events.nextSeq)).inCascade none)) ∧
    (∀ u : UnitAddr, s.Accepts n specRetireUnit r p → field p 0 1 = 1 → field p 1 7 = 0 → unitOfBytes (slice p 8 8) = some u →
      (s.copied n specRetireUnit r).retirable u = true → (s.copied n specRetireUnit r).unitRetired u = true →
      exec (.retireUnitRestore n r) s = .next
        (((((s.copied n specRetireUnit r).logAppend u .restore).raise { code := .unitRestorePending, unit := u }).respond n
          .ok (retireResult 1 s.events.nextSeq)).inCascade none)) ∧
    (∀ b : List Byte, s.Accepts n specStageBundle r p → r.flags.getLsbD 0 = false → 1 ≤ field p 4 4 → field p 4 4 ≤ 1024 →
      field p 0 4 < field p 4 4 → field p 0x18 8 = 0 → daSpace (field p 0x10 8) = 0xC →
      (field p 0 4 + 1 ≠ field p 4 4 → field p 8 4 = 65536) → 1 ≤ field p 8 4 → field p 8 4 ≤ 65536 → field p 8 4 % 64 = 0 →
      (field p 0 4 = 0 ∨ s.bundle.stage = .staging ∧ field p 0 4 = s.bundle.nextIndex ∧ field p 4 4 = s.bundle.blockCount) →
      s.hostRead (field p 0x10 8) (field p 8 4) = some b →
      (crc32c b).toNat = field p 0xC 4 → (field p 0 4 = 0 → stageHeaderOk b (field p 4 4) = true) →
      ∃ (s1 s2 : State) (cancelled : Bool),
        (s1, cancelled) = (if field p 0 4 = 0 then (s.copied n specStageBundle r).startStaging (field p 4 4)
          else (s.copied n specStageBundle r, false)) ∧
        s2 = s1.writeBlock b ∧
        exec (.stageBundle n r) s = .next
          ((if field p 0 4 + 1 = field p 4 4 then (s2.respondPending n 0).finishStaging n cancelled
            else s2.respond n .ok (stageResult s2.bundle.nextIndex cancelled)).inCascade none))

/-- For every mailbox command whose doorbell is taken by a Lamplighter that runs: where one of the common checks fails
(header, role, DETACHED rule, device state, conflict, payload address), the command answers FINAL with the status of
the check that failed, COMMANDS_REFUSED rises by 1, and all the rest of the state is as the checks left it; with a
status other than NOT_PRIVILEGED that is the state before, and so it is for a request that claims no credential; the
failure of a credential is counted (and may lock OWNER requests out, R620). (R621) -/
def Obligations.RefusedRequestsHaveNoEffectButTheResponse : Prop :=
  ∀ (i : Instr) (n : Nat) (spec : CmdSpec) (r : Request) (s s1 : State) (st : Status), s.Inv →
    mailboxCommand i = some (n, spec, r) → n < 16 → s.lampServes = true → (s.mbox n).open_ = true →
    (s.copied n spec r).checks n spec r = (s1, .error st) →
    ∃ t, exec i s = .next t ∧ Answered n r spec.opcode st [] s1 t ∧
      t.lamp.commandsRefused = satAdd s.lamp.commandsRefused 1 ∧
      { t with events := s1.events, host := s1.host, lamp := s1.lamp, hostMem := s1.hostMem } = s1 ∧
      (st ≠ .notPrivileged ∨ r.role = 0 → s1 = s.copied n spec r ∧
        KeepsRest n s { t with lamp := { t.lamp with commandsRefused := s.lamp.commandsRefused } })

/-- While OWNER requests are locked out, a request of any mailbox command that names the OWNER role and has a valid
header is answered NOT_PRIVILEGED whatever its credential, and changes nothing but its mailbox and the two command
counters: the credential digest, protection, policy, program and step stay, and no further failure is counted.
(R620) -/
def Obligations.LockoutShutsOutEveryOwnerRequest : Prop :=
  (∀ (i : Instr) (n : Nat) (spec : CmdSpec) (r : Request) (s : State), s.Inv →
    mailboxCommand i = some (n, spec, r) → n < 16 → s.lampServes = true → (s.mbox n).open_ = true →
    s.lockedOut = true → r.role = 1 → headerOk spec r = true →
    ∃ t, exec i s = .next t ∧ Answered n r spec.opcode .notPrivileged [] s t ∧
      t.lamp.commandsRefused = satAdd s.lamp.commandsRefused 1 ∧
      KeepsRest n s { t with lamp := { t.lamp with commandsRefused := s.lamp.commandsRefused } }) ∧
  (∀ s : State, 15 ≤ (inWindow s.now minNs s.lamp.authFails).length →
    s.authFailed.lockedOut = true ∧ s.authFailed.lamp.lockoutUntil = some (s.now + 60000000000) ∧
    ((s.authFailed.events.ring.getLast?).map (·.code)) = some .ownerLockout)

/-- Lamplighter does not run in DARK and PILOT, and where its own SRAM failed its test it serves nothing until reset:
there no mailbox command, valid or not, changes anything. What a dead Lamplighter serves is the model's reading (log
entry 119). (R11, R612, R623, R730) -/
def Obligations.UnlitDeviceTakesNoMailboxCommand : Prop :=
  ∀ (i : Instr) (n : Nat) (spec : CmdSpec) (r : Request) (s : State),
    mailboxCommand i = some (n, spec, r) → n < 16 → (s.dev = .dark ∨ s.dev = .pilot ∨ s.lamp.dead = true) → exec i s = .next s

/-- A doorbell on a mailbox that is SUBMITTED or PENDING is ignored and counted, and nothing else changes; every listed
command on such a mailbox does only that too. An unlisted OPCODE on an open mailbox is answered FINAL with
BAD_OPCODE. The lockout ends at its time. (R612, R620, R621) -/
def Obligations.DoorbellsOnABusyMailboxAreCounted : Prop :=
  ∀ (s : State) (n : Nat), n < 16 → s.Inv →
    (s.lampServes = true → (s.mbox n).open_ = false →
      exec (.doorbellOverrun n) s =
        .next { s with lamp := { s.lamp with doorbellOverruns := satAdd s.lamp.doorbellOverruns 1 } } ∧
      ∀ (i : Instr) (spec : CmdSpec) (r : Request), mailboxCommand i = some (n, spec, r) →
        exec i s = .next { s with lamp := { s.lamp with doorbellOverruns := satAdd s.lamp.doorbellOverruns 1 } }) ∧
    (∀ (op : Nat) (r : Request), s.lampServes = true → (s.mbox n).open_ = true →
      ∃ t, exec (.badOpcode n op r) s = .next t ∧ Answered n r op .badOpcode [] s t ∧
        t.lamp.commandsRefused = satAdd s.lamp.commandsRefused 1 ∧
        KeepsRest n s { t with lamp := { t.lamp with commandsRefused := s.lamp.commandsRefused } }) ∧
    (∀ t : Nat, s.lamp.lockoutUntil = some t →
      exec .ownerLockoutExpiry s = .next { s with now := max s.now t, lamp := { s.lamp with lockoutUntil := none } })

/-- In a lit device: MEMWIN_BASE takes PAGE from bits 43:12; writing 1 to bits of INT_STATUS clears exactly them;
writing 1 to VALID clears HOST_ERR's record, in the model with its address (log entry 122), and writing 0 leaves it;
a REGISTER_WRITE of INT_STATUS, HOST_ERR or TAIL acts as the row of its own; the two halves of MEMWIN_BASE are
written apart; RO registers (HOST_LINK_STATUS, HOST_ERR_ADDR, the counters, HEAD, CHAN_STATUS) and unaligned offsets
ignore the write; MSI-X enable sends what waits unmasked. Nothing else changes. That bits of sent messages clear in
the pending bit array, and the form of 32-bit writes, are the model's (log entries 41 and 42). (R5, R577, R585,
R587, R590, R600, R601, R602) -/
def Obligations.HostRegisterWritesFollowTheirAccessType : Prop :=
  ∀ s : State, s.dev.lit = true →
    (∀ v : BitVec 64, exec (.memwinBaseWrite v) s =
      .next { s with host := { s.host with memwinPage := v.extractLsb' 12 32 } }) ∧
    (∀ v : BitVec 64, exec (.intStatusClear v) s =
      .next { s with host := { s.host with intStatus := s.host.intStatus &&& ~~~ v.setWidth 27 } }) ∧
    (∀ v : BitVec 32, exec (.hostErrClear v) s = .next
      (if v.getLsbD 31 = true then
        { s with host := { s.host with errKind := .none, errWrite := false, errValid := false, errAddr := 0 } } else s)) ∧
    (∀ v : BitVec 32,
      exec (.registerWrite (.bar0 0x10010) v) s = exec (.intStatusClear (v.setWidth 64)) s ∧
      exec (.registerWrite (.bar0 0x10018) v) s = exec (.hostErrClear v) s ∧
      exec (.registerWrite (.bar0 0x10008) v) s = .next { s with host := { s.host with
        memwinPage := s.host.memwinPage.extractLsb' 20 12 ++ v.extractLsb' 12 20 } } ∧
      exec (.registerWrite (.bar0 0x1000C) v) s = .next { s with host := { s.host with
        memwinPage := v.extractLsb' 0 12 ++ s.host.memwinPage.extractLsb' 0 20 } } ∧
      exec (.registerWrite .configMsixEnable v) s = 
        .next { s with host := HostIf.sendPending { s.host with msixEnabled := v.getLsbD 0 } } ∧
      exec (.registerWrite .configCxlCacheEnable v) s = 
        .next { s with host := { s.host with cxlEnabled := v.getLsbD 0 } }) ∧
    (∀ (n : Nat) (v : BitVec 32), n < 8 →
      exec (.registerWrite (.bar0 (0x20000 + 0x100 * n + 0xC)) v) s = exec (.dmaTailWrite n v) s ∧
      exec (.registerWrite (.bar0 (0x20000 + 0x100 * n + 0x10)) v) s = .next s ∧
      exec (.registerWrite (.bar0 (0x20000 + 0x100 * n + 0x14)) v) s = .next s) ∧
    (∀ (off : Nat) (v : BitVec 32), (off % 4 ≠ 0 ∨ off = 0x10000 ∨ (0x10020 ≤ off ∧ off < 0x11000)) →
      exec (.registerWrite (.bar0 off) v) s = .next s)

/-- DMA_TAIL_WRITE stores TAIL; a channel that is enabled, IDLE, with HEAD short of TAIL and the link in service becomes
ACTIVE with the descriptor at HEAD, and any other is left alone. DMA_RESTART takes a HALTED channel out of HALTED. A
descriptor that failed completes with its status, and one whose bytes have all landed with OK; while bytes are on
their way the row ends nothing. Completion advances HEAD past the descriptor and records its status; with OK the
channel is IDLE again or goes on to its next descriptor, with any other status it is HALTED and vector 16 + n is
signalled. Other channels stay as they are. How a ring index is taken and what a clear of ENABLE does are the
model's (log entry 43). (R591, R593, R594, R602) -/
def Obligations.DmaChannelsProcessDescriptorsInOrder : Prop :=
  ∀ (s : State) (n : Nat), s.Inv → n < 8 →
    (∀ v : BitVec 32, s.dev.lit = true → ∃ u t : State, exec (.dmaTailWrite n v) s = .next t ∧
      u = s.modDma n (fun c => { c with tail := v.toNat % 2 ^ 15 }) ∧
      ((u.dmaCh n).ready = false ∨ s.host.speed = 0 ∨ s.host.retraining = true → t = u) ∧
      ((u.dmaCh n).ready = true → s.host.speed ≠ 0 → s.host.retraining = false →
        (t.dmaCh n).state = .active ∧ (t.dmaCh n).head = (u.dmaCh n).head ∧
        ∃ job, (t.dmaCh n).current = some job ∧ job.index = (u.dmaCh n).head % (u.dmaCh n).entries ∧
          ∀ b, s.hostRead ((u.dmaCh n).descAddr job.index) 32 = some b → job.desc = descriptorOf b) ∧
      ∀ m, m ≠ n → t.dmaCh m = s.dmaCh m) ∧
    (s.dev.lit = true → (s.dmaCh n).state = .halted → ∃ u : State,
      u = s.modDma n (fun c => { c with state := if c.enable then .idle else .disabled }) ∧
      exec (.dmaRestart n) s = .next
        (if (u.dmaCh n).ready && s.host.speed != 0 && !s.host.retraining then u.dmaStart n else u)) ∧
    (∀ (job : DmaJob) (out : XferOutcome), (s.dmaCh n).current = some job → s.host.retraining = false →
      (∀ st cause, job.failed = some (st, cause) →
        exec (.dmaDescriptorComplete n out) s = .next (s.newCascade.dmaFinish n job st cause)) ∧
      (job.failed = none →
        exec (.dmaDescriptorComplete n .ok) s = .next
          (if job.moved = job.desc.length then s.newCascade.dmaFinish n job .ok 0 else s.newCascade) ∧
        exec (.dmaDescriptorComplete n .hostLinkLost) s = .next (s.newCascade.dmaFinish n job .hostLinkLost 0))) ∧
    (∀ (job : DmaJob) (st : Status) (cause : Nat), st ≠ .ok →
      ((s.dmaFinish n job st cause).dmaCh n).state = .halted ∧
      ((s.dmaFinish n job st cause).dmaCh n).head = (job.index + 1) % (s.dmaCh n).entries ∧
      ((s.dmaFinish n job st cause).dmaCh n).lastStatus = st ∧
      ((s.dmaFinish n job st cause).dmaCh n).current = none ∧
      (s.dmaFinish n job st cause).host.intStatus = s.host.intStatus ||| BitVec.ofNat 27 (1 <<< (16 + n)) ∧
      ∀ m, m ≠ n → (s.dmaFinish n job st cause).dmaCh m = s.dmaCh m)

/-- A BAR 2 access goes to the device address MEMWIN_BASE + offset. A read that the device cannot serve returns all ones
and records kind and address in HOST_ERR; a write is dropped and recorded; one that it can serve, of memory behind
no isolated die, returns or writes the bytes. A snoop is answered while CXL.cache is enabled and changes nothing but
the count. A read of host memory with no completion ends with HOST_LINK_LOST: a DMA channel's descriptor, a stream's
request, or the request of a mailbox. (R580, R584, R586, R588, R589) -/
def Obligations.MemoryWindowServesOrRecordsAnError : Prop :=
  ∀ s : State,
    (∀ (off n : Nat) (ecc : Ecc) (e : Denial), s.dev.lit = true → 0 < n → off + n ≤ 2 ^ 36 →
      s.newCascade.checkWindow false (s.host.memwinPage.toNat * 4096 + off) n = some e →
      ∃ t, exec (.bar2Read off n ecc) s = .next t ∧ t.host.bar2Data = List.replicate n 0xFF ∧
        t.host.bar2Poisoned = false ∧ t.host.errKind = e.hostErr ∧ t.host.errWrite = false ∧ t.host.errValid = true ∧
        t.host.errAddr = s.host.memwinPage.toNat * 4096 + off ∧ t.mem = s.mem ∧ t.hostMem = s.hostMem) ∧
    (∀ (off n : Nat) (ecc : Ecc) (s1 : State) (b : List Byte), s.dev.lit = true → 0 < n → off + n ≤ 2 ^ 36 →
      s.newCascade.checkWindow false (s.host.memwinPage.toNat * 4096 + off) n = none →
      s.iodIgnored (s.host.memwinPage.toNat * 4096 + off) = false →
      ((s.newCascade.awaitSlices (s.host.memwinPage.toNat * 4096 + off) n).countIod
        (s.host.memwinPage.toNat * 4096 + off) n).serveRead (s.host.memwinPage.toNat * 4096 + off) n ecc = (s1, .ok b) →
      exec (.bar2Read off n ecc) s =
        .next (({ s1 with host := { s1.host with bar2Data := b, bar2Poisoned := false } } : State).inCascade none)) ∧
    (∀ (off : Nat) (data : List Byte) (ecc : Ecc) (e : Denial), s.dev.lit = true → 0 < data.length → off + data.length ≤ 2 ^ 36 →
      s.newCascade.checkWindow true (s.host.memwinPage.toNat * 4096 + off) data.length = some e →
      ∃ t, exec (.bar2Write off data ecc) s = .next t ∧ t.host.errKind = e.hostErr ∧ t.host.errWrite = true ∧
        t.host.errValid = true ∧ t.host.errAddr = s.host.memwinPage.toNat * 4096 + off ∧ t.mem = s.mem ∧
        t.hostMem = s.hostMem) ∧
    (∀ (off : Nat) (data : List Byte) (ecc : Ecc) (s1 : State), s.dev.lit = true → 0 < data.length → off + data.length ≤ 2 ^ 36 →
      s.newCascade.checkWindow true (s.host.memwinPage.toNat * 4096 + off) data.length = none →
      s.iodIgnored (s.host.memwinPage.toNat * 4096 + off) = false →
      ((s.newCascade.awaitSlices (s.host.memwinPage.toNat * 4096 + off) data.length).countIod
        (s.host.memwinPage.toNat * 4096 + off) data.length).serveWrite (s.host.memwinPage.toNat * 4096 + off) data ecc =
          (s1, none) →
      exec (.bar2Write off data ecc) s = .next (s1.inCascade none)) ∧
    (s.dev.lit = true → s.cxlCache = true →
      exec .hostSnoop s = .next { s with host := { s.host with snoopsAnswered := s.host.snoopsAnswered + 1 } }) ∧
    (∀ n, n < 16 → (s.mbox n).state = .submitted →
      exec (.hostReadTimeout (.mailbox n)) s = .next (s.respond n .hostLinkLost [])) ∧
    (∀ (n : Nat) (job : DmaJob), n < 8 → (s.dmaCh n).current = some job → job.failed = none → job.desc.toDevice = true →
      exec (.hostReadTimeout (.dma n)) s = .next (s.dmaFinish n job .hostLinkLost 0)) ∧
    (∀ (d p k : Nat) (q : Req), d < 2 → p < 50 → k < 128 →
      (s.requests.find? fun q => q.owner == .tileSlot d p k && !q.discarded && q.data.isNone && daSpace q.src == 0xC) = some q →
      exec (.hostReadTimeout (.tileStream d p k)) s = .next (s.requestFails q .hostLost false))

/-- Retraining is counted and ends with nothing lost, and channels that waited go on. After a loss or PERST# the link is
DOWN, DETACHED is set, MEMWIN_BASE, MSI-X state and every DMA register are at their reset values, every mailbox is
FREE, and the device is not RUNNING: a running step goes on in DRAINING. On its return the link has its new speed
and width, and after a loss without PERST# vector 26's source is pending. That LINK_LOSSES does not count PERST#,
and that HOST_LINK_RETURN is also the first training, are the model's (log entry 44). (R576, R596, R597, R599, R601) -/
def Obligations.HostLinkLossResetsTheHostInterfaceOnly : Prop :=
  ∀ s : State,
    (s.host.speed ≠ 0 → s.host.retraining = false →
      exec .hostLinkRetraining s =
        .next { s with host := { s.host with retraining := true, retrains := satAdd s.host.retrains 1 } }) ∧
    (s.host.retraining = true → exec .hostLinkRetrainComplete s = .next
      (({ s with host := { s.host with retraining := false } } : State).dmaKickAll)) ∧
    (s.dev.lit = true → s.host.speed ≠ 0 → exec .hostLinkLoss s = .next
      ((({ s.newCascade with host := { s.host with linkLosses := satAdd s.host.linkLosses 1 } } : State).loseHost).inCascade
        none)) ∧
    (s.dev.lit = true → ∃ u t : State, exec .perstAssert s = .next t ∧
      u = ({ s.newCascade with pilot := { s.pilot with perstAsserted := true } } : State).loseHost ∧
      t = { u with host := { u.host with perstSeen := true }, events := { u.events with cascade := none } }) ∧
    (s.loseHost.host.speed = 0 ∧ s.loseHost.host.width = 0 ∧ s.loseHost.host.detached = true ∧
      s.loseHost.host.memwinPage = 0 ∧ s.loseHost.host.msixEnabled = false ∧ s.loseHost.host.pba = 0 ∧
      s.loseHost.host.msix = List.replicate 64 {} ∧ (∀ c ∈ s.loseHost.host.dma, c = { held := c.held }) ∧
      (∀ m ∈ s.loseHost.lamp.mailboxes, m.state = .free) ∧ s.loseHost.dev ≠ .running) ∧
    (∀ (speed width : Nat) (cxl : Bool), s.dev.lit = true → s.host.speed = 0 →
      speed ∈ [4, 5, 6] → width ∈ [4, 8, 16] →
      exec (.hostLinkReturn speed width cxl) s = .next
        (let u : State := { s with
          pilot := { s.pilot with perstAsserted := false }
          host := { s.host with
            speed := speed
            width := width
            flitMode := speed == 6
            cxlTrained := cxl && speed != 4 } }
         if s.host.detached = true ∧ s.host.perstSeen = false then u.signal 26 else u))

/-- VDD_PILOT_UP starts an empty retention store. VDD_PILOT_LOSS leaves a DARK device with the pilot domain, the stacks
and all on-chip memory lost. DEV_RESET_N_ASSERT leaves it DARK, the retention store and the stacks' contents kept,
the places of the commit area with them. The release starts BOOT_NS from zero and reaches PILOT when every rail is
up. A rail excursion while DEV_RESET_N is released sets the rail's bit of RAIL_FAULT, acts as an assertion, and
costs the stacks their contents only for an HBM rail; the return of the rails reaches PILOT. No reset touches a
fuse, host memory or a completed fault log entry. An event that repeats what holds changes nothing. WAKE outside
PILOT changes nothing. (R623, R671, R686, R715, R716, R717, R722, R725, R726, R727, R728, R768) -/
def Obligations.ResetSourcesKeepWhatTheirTableKeeps : Prop :=
  ∀ s : State,
    exec .vddPilotUp s = .next (if s.pilot.vddPilot = true then s else { s with
      pilot := { s.pilot with
        vddPilot := true, origin := .powerUp, warm := none, railFault := 0, lastBootOnMain := false, faultedSince := false }
      tele := { s.tele with series := 0 } }) ∧
    (∃ t : State, exec .vddPilotLoss s = .next t ∧ (s.pilot.vddPilot = false → t = s) ∧
      (s.pilot.vddPilot = true → t.dev = .dark ∧ t.pilot = {} ∧ t.mem = [] ∧ t.badSectors = [] ∧ t.commit = {} ∧
        t.program = none ∧ t.session = none ∧ t.fuses = s.fuses ∧ t.hostMem = s.hostMem ∧
        t.flash = s.flash.afterReset)) ∧
    (∀ (rails : BitVec 8) (straps : BitVec 2),
      exec (.devResetNRelease rails straps) s = .next
        (if s.pilot.vddPilot = true ∧ s.pilot.devResetN = false then
          { s with
            now := 0
            pilot := { s.pilot with devResetN := true, railsUp := rails, straps := straps }
            dev := if s.dev = .dark ∧ rails = 0xFF then .pilot else s.dev }
        else s)) ∧
    (∃ t : State, exec .devResetNAssert s = .next t ∧ (s.pilot.devResetN = false → t = s) ∧
      (s.pilot.devResetN = true → t.dev = .dark ∧ t.pilot.devResetN = false ∧ t.pilot.warm = s.pilot.warm ∧
        t.pilot.railFault = s.pilot.railFault ∧ t.pilot.railsUp = s.pilot.railsUp ∧
        t.pilot.lastBootOnMain = s.pilot.lastBootOnMain ∧ t.pilot.boot = none ∧ t.lamp = {} ∧ t.host = {} ∧
        t.program = none ∧ t.session = none ∧ t.run = none ∧ t.mem = s.mem ∧
        t.commit = { copies := s.commit.copies } ∧
        t.fuses = s.fuses ∧ t.hostMem = s.hostMem ∧ t.flash = s.flash.afterReset)) ∧
    (∀ r : Rail, ∃ t : State, exec (.railExcursion r) s = .next t ∧
      (s.pilot.vddPilot = false → t = s) ∧
      (s.pilot.vddPilot = true → t.pilot.railsUp = s.pilot.railsUp &&& ~~~ (1#8 <<< r.bit) ∧
        t.fuses = s.fuses ∧ t.hostMem = s.hostMem ∧
        (s.pilot.devResetN = true → t.dev = .dark ∧ t.pilot.origin = .excursion ∧ t.program = none ∧
          t.pilot.warm = s.pilot.warm ∧ t.pilot.railFault = s.pilot.railFault ||| 1#8 <<< r.bit) ∧
        (r = .vppHbm ∨ r = .vddHbm ∨ r = .vddqHbm →
          t.commit = {} ∧ t.mem = s.mem.filter fun c => 2 ^ 40 ≤ c.1) ∧
        (r ≠ .vppHbm → r ≠ .vddHbm → r ≠ .vddqHbm → t.mem = s.mem ∧
          t.commit = if s.pilot.devResetN = true then { copies := s.commit.copies } else s.commit))) ∧
    exec .railsRestored s = .next
      (if s.pilot.vddPilot = true ∧ s.dev = .dark then
        { s with
          now := 0
          pilot := { s.pilot with railsUp := 0xFF }
          dev := if s.pilot.devResetN = true then .pilot else .dark }
      else s)

/-- WAKE in PILOT begins a boot: BOOT_COUNT rises, the cold cause is the first condition of R728 that fails; a warm boot
keeps the on-chip memories and runs LAST_GOOD's retained images; a cold boot loses them and tries PENDING, then
LAST_GOOD; a failed SRAM test leaves FAULTED. A part's PASS loads the next part; the last one makes its slot
LAST_GOOD, clears PENDING, and only then raises the rollback counter and the revoked keys. A timeout marks the slot
FAILED_BOOT, sets REVERTED and FAILED_PART, changes no fuse and tries the next slot. LINK_TRAINING_COMPLETE ends the
boot in READY or MAINTENANCE. Outside such a boot these four change nothing. (R623, R673, R685, R686, R717, R728,
R729, R730) -/
def Obligations.BootRunsBundlesUntilOneStarts : Prop :=
  ∀ s : State,
    (∀ rep : WakeReport, ∃ t : State, exec (.wake rep) s = .next t ∧
      (s.pilotStart.dev ≠ .pilot → t = s) ∧
      (s.pilotStart.dev = .pilot →
        t.flash.bootCount = s.flash.bootCount + 1 ∧ t.pilot.coldCause = s.coldCause rep ∧ t.fuses = s.fuses ∧
        (s.coldCause rep = .none → t.dev = .booting ∧ t.pilot.bootKind = .warm ∧ t.mem = s.mem ∧
          t.bundle.running = s.flash.lastGood) ∧
        (s.coldCause rep ≠ .none → t.mem = s.mem.filter (fun c => c.1 < 2 ^ 40) ∧
          (rep.sramTestPass = false → t.dev = .faulted ∧ t.lamp.faultReason = .sramUncorrectable)))) ∧
    (∀ b : Boot, s.pilot.boot = some b → ∀ p : Part, b.loading = some p →
      exec .partStartupTimeout s = .next (s.partFails b p) ∧
      (s.partFails b p).fuses = s.fuses ∧ (s.partFails b p).bundle.reverted = true ∧
      (s.partFails b p).bundle.failedPart = p.code ∧
      ((s.partFails b p).flash.slot b.slot).state = .failedBoot ∧
      ∀ rep : PartReport, ∃ t : State, exec (.partStartupPass rep) s = .next t ∧
        (p = .mbdFirmware → t.flash.lastGood = b.slot ∧ t.flash.pendingSlot = none ∧ t.bundle.running = b.slot ∧
          t.fuses.rollbackCounter = max s.fuses.rollbackCounter (s.flash.slot b.slot).rollbackIndex ∧
          t.fuses.keysRevoked = s.fuses.keysRevoked ||| BitVec.ofNat 4 (s.flash.slot b.slot).revokeMask) ∧
        (p ≠ .mbdFirmware → t.fuses = s.fuses) ∧
        (p = .lampMain → inWindowOf (s.flash.slot b.slot).ranges (s.die 2) = false →
          t = s.partFails b .lampMain) ∧
        (p = .lampMain → inWindowOf (s.flash.slot b.slot).ranges (s.die 2) = true →
          t = { s with
            tele := { series := s.tele.series + 1, sampling := true, lastSample := s.now }
            i3c := { s.i3c with cursor := 0, signalled := false }
            pilot := { s.pilot with boot := some { b with loading := b.toLoad.head?, toLoad := b.toLoad.tail } } }) ∧
        (p ≠ .mbdFirmware → p ≠ .lampMain → t = { s with pilot := { s.pilot with
          boot := some { b with loading := b.toLoad.head?, toLoad := b.toLoad.tail } } })) ∧
    ((∀ b, s.pilot.boot = some b → b.loading = none) → exec .partStartupTimeout s = .next s ∧
      ∀ rep : PartReport, exec (.partStartupPass rep) s = .next s) ∧
    (∀ rep : SelfTestReport,
      (∀ b : Boot, s.dev = .booting → s.pilot.boot = some b → b.partsDone = true →
        exec (.linkTrainingComplete rep) s = .next (s.finishBoot b rep) ∧
        (s.finishBoot b rep).pilot.boot = none ∧
        ((s.finishBoot b rep).dev = .ready ∨ (s.finishBoot b rep).dev = .maintenance)) ∧
      ((∀ b, s.pilot.boot = some b → b.partsDone = true → s.dev ≠ .booting) →
        exec (.linkTrainingComplete rep) s = .next s))

/-- RING_TUNING_TICK stores the ring's codes in a lit device; a heater at 98 % of full range, or a report of
RANGE_LIMIT, is RANGE_LIMIT and a permanent crossing of the lane; the loop-back ring stays OFF, detuned (DEDUCED
from R18). A ring out of lock is a transient crossing; rates and codewords above their thresholds are permanent or
transient ones; loss of signal is a failed retrain. A retrain that passes leaves the lane as it was; a failed one is
handled. A background retrain that passes makes the lane SPARE and clears its suspicion. Rotation waits for a link
with no pending change and no retrain, and is counted as deferred. A lane that carries nothing has no events. (R19,
R20, R29, R30, R33, R34, R35, R21, R752) -/
def Obligations.LinksHandleTheirLanesAsTheSparingProcedureSays : Prop :=
  ∀ s : State,
    (∀ (link lane role : Nat) (heater detune : BitVec 16) (tuning : Tuning),
      link < 3 → lane < linkLaneCount link → role < 5 →
      (let put := fun v => s.modLane (.die link lane) fun l =>
        { l with rings := modAt l.rings role fun _ => { heater := heater, detune := detune, tuning := v } }
      exec (.ringTuningTick link lane role heater detune tuning) s = .next
        (if s.dev.lit = true then
          if 65535 * 98 ≤ heater.toNat * 100 ∨ tuning = .rangeLimit then
            ((put .rangeLimit).newCascade.handleLane (.die link lane) .permanent .rangeLimit).inCascade none
          else put (if role = 4 then .off else tuning)
        else s)) ∧
      exec (.ringOutOfLock link lane role) s = .next
        (if s.watched (.die link lane) = true then
          (s.newCascade.handleLane (.die link lane) .transient .transient).inCascade none else s)) ∧
    (∀ l : LaneRef, laneExists l = true →
      (∀ errs words : Nat,
        let s1 := (s.countFec l errs words).newCascade
        exec (.laneThresholdCrossing l errs words) s = .next
          (if s.watched l = true then
            (if berAbove s.flash.policy.lanePermanentBer errs = true then s1.handleLane l .permanent .permanentRate
              else if s.flash.policy.laneUncorrectable < words then s1.handleLane l .permanent .uncorrectable
              else if berAbove s.flash.policy.laneTransientBer errs = true then s1.handleLane l .transient .transient
              else s1).inCascade none
          else s)) ∧
      exec (.laneLossOfSignal l) s = .next
        (if s.watched l = true then (s.newCascade.handleLane l .retrainFailed .lossOfSignal).inCascade none else s) ∧
      exec (.quiescePoint l) s = .next (if s.watched l = true then s.quiesceGroup l else s) ∧
      (∀ passed : Bool,
        exec (.laneRetrainComplete l passed) s = .next
          (let s1 := s.modLane l fun x => { x with retraining := false }
          if (s.lane l).retraining = false then s else if passed = true then s1
            else (s1.newCascade.handleLane l .retrainFailed .retrain).inCascade none) ∧
        (∀ due, (s.lane l).state = .suspect → (s.lane l).backgroundDue = some due →
          let s1 := (s.advanceTo due).modLane l fun x => { x with backgroundDue := none, retrains := x.retrains + 1 }
          exec (.backgroundRetrain l passed) s = .next
            (if passed = true then (s1.modLane l (Lane.enter s1.now .spare)).logAppend (laneUnit l) .cleared
            else (s1.newCascade.handleLane l .retrainFailed .retrain).inCascade none)) ∧
        ((s.lane l).state ≠ .suspect ∨ (s.lane l).backgroundDue = none →
          exec (.backgroundRetrain l passed) s = .next s))) ∧
    (∀ k : Nat, k < 3 → ∃ t : State, exec (.spareLaneRotation k) s = .next t ∧
      ((s.dev ≠ .ready ∧ s.dev ≠ .maintenance) ∨ (s.link k).state = .failed → t = s) ∧
      ((s.dev = .ready ∨ s.dev = .maintenance) → (s.link k).state ≠ .failed → ((s.link k).pending ≠ [] ∨ ((s.link k).lanes.any (·.retraining)) = true) →
        t = { s with tele := { s.tele with rotationsDeferred := satAdd s.tele.rotationsDeferred 1 } }))

/-- For a tile that can issue: NEXT and JUMP move the running context to a bundle of its segment; PSET and PADD write
one parameter register, PADD modulo 2^32 with the immediate sign-extended, and go on; JUMP_IF_GE compares with P1
unsigned; LOOP_BEGIN and LOOP_BEGIN_P set count, start and segment; LOOP_END counts down and goes back while the
count is not zero. A count of zero, a count above 4,095, a loop of another segment and a bundle past the segment's
last are program faults 5, 10, 6 and 7. The whole of the rest of the state stays. A tile that cannot issue is left
alone. (A LOOP_END at count 0 is not covered here: log entry 70.) (R153, R154, R155, R172) -/
def Obligations.SequencingOperationsActAsTheirTableGives : Prop :=
  ∀ (s : State) (d p : Nat), tileExists d p = true →
    (s.canIssue d p = true → ∀ reg imm : Nat, imm < 4096 →
      let t := s.tile d p
      let c := t.current
      let n := t.running
      let last := (s.segmentOf d p c.segment).bundles
      let fault := fun code => s.progFault d p n code 0
      let p1 := c.params.getD 1 0
      let pr := c.params.getD reg 0
      let loop := fun count => s.modCtx d p n fun x =>
        { x with
          loops := modAt x.loops reg fun _ => { count := count, start := c.bundle + 1, segment := c.segment }
          bundle := c.bundle + 1 }
      exec (.jump d p imm) s = .next
        (if imm % 2048 < last then s.modCtx d p n fun x => { x with bundle := imm % 2048 } else fault 7) ∧
      (c.bundle + 1 < last →
        exec (.nextBundle d p) s = .next (s.modCtx d p n fun x => { x with bundle := c.bundle + 1 }) ∧
        (reg < 16 →
          exec (.pset d p reg imm) s = .next (s.modCtx d p n fun x =>
            { x with params := modAt x.params reg fun _ => BitVec.ofNat 32 imm, bundle := c.bundle + 1 }) ∧
          exec (.padd d p reg imm) s = .next (s.modCtx d p n fun x =>
            { x with
              params := modAt x.params reg fun _ => pr + (BitVec.ofNat 12 imm).signExtend 32
              bundle := c.bundle + 1 }) ∧
          (pr < p1 → exec (.jumpIfGe d p reg imm) s = .next (s.modCtx d p n fun x => { x with bundle := c.bundle + 1 })) ∧
          (p1 ≤ pr → imm % 2048 < last →
            exec (.jumpIfGe d p reg imm) s = .next (s.modCtx d p n fun x => { x with bundle := imm % 2048 }))) ∧
        (reg < 4 →
          exec (.loopBegin d p reg imm) s = .next (if imm = 0 then fault 5 else loop imm) ∧
          (let count := (c.params.getD (imm % 16) 0).toNat
          exec (.loopBeginP d p reg imm) s = .next
            (if count = 0 then fault 5 else if 4095 < count then fault 10 else loop count)) ∧
          (let l := c.loops.getD reg {}
          (l.segment ≠ c.segment → exec (.loopEnd d p reg) s = .next (fault 6)) ∧
          (l.segment = c.segment → 0 < l.count → l.count < 4096 → l.start < last →
            exec (.loopEnd d p reg) s = .next (s.modCtx d p n fun x =>
              { x with
                loops := modAt x.loops reg fun y => { y with count := l.count - 1 }
                bundle := if l.count = 1 then c.bundle + 1 else l.start }))))) ∧
      (last ≤ c.bundle + 1 → exec (.nextBundle d p) s = .next (fault 7))) ∧
    (s.canIssue d p = false → ∀ reg imm : Nat,
      exec (.nextBundle d p) s = .next s ∧ exec (.jump d p imm) s = .next s ∧ exec (.pset d p reg imm) s = .next s ∧
      exec (.padd d p reg imm) s = .next s ∧ exec (.jumpIfGe d p reg imm) s = .next s ∧
      exec (.loopBegin d p reg imm) s = .next s ∧ exec (.loopBeginP d p reg imm) s = .next s ∧
      exec (.loopEnd d p reg) s = .next s)

/-- On a tile that can issue: a WAIT that is met goes on, with CONSUME subtracting the threshold, and else blocks;
SIGNAL sends one increment to the tile it names, or nothing when none is there, and one to the other die asks
LINK_CC for its passage; YIELD switches only with no accumulator block held; a first arrival at a barrier is noted
and blocks, a second is program fault 9; FENCE goes on when its scopes are quiet, else blocks; HALT blocks; SEGMENT
transfers control. A signal that has passed adds its increment, in issue order from one tile to one counter. A
segment load ends once its code has landed. A barrier opens when every member has arrived; a fence ends when met. A
switch takes 16 cycles and then the new context runs. A dark tile waits its 4,096 cycles; a lit one ramps. When the
tile cannot issue, or what is awaited does not hold, nothing changes. What a fence waits for of a buffered stream,
and where the quiet time of a tile begins, are the model's readings (log entries 108 and 109). (R149, R164, R165,
R166, R169, R170, R174, R176, R177, R180, R181, R183) -/
def Obligations.ControlOperationsHoldSignalAndSwitch : Prop :=
  ∀ (s : State) (d p : Nat), tileExists d p = true →
    let t := s.tile d p
    let go := s.canIssue d p = true
    exec (.controlNop d p) s = .next s ∧
    (∀ (counter threshold : Nat) (consume : Bool),
      exec (.wait d p counter threshold consume) s = .next
        (if go ∧ counter < 256 ∧ threshold < 65536 then
          if threshold ≤ t.counters.getD counter 0 then
            if consume = true then s.modTile d p fun x => { x with counters := modAt x.counters counter (· - threshold) }
            else s
          else s.blockOn d p (.wait counter threshold)
        else s)) ∧
    (∀ counter scope target inc : Nat, counter < 256 → scope < 3 → 1 ≤ inc → inc < 65536 → go →
      (∀ e q, s.signalTarget d p scope target = some (e, q) →
        let m : SignalMsg := { fromDie := d, fromPos := p, toDie := e, toPos := q, counter := counter, increment := inc }
        exec (.signal d p counter scope target inc) s = .next
          (if d = e then { s with signals := s.signals ++ [m] }
          else s.sendEvent d fun n x => { x with signals := x.signals ++ [{ m with passing := some n }] })) ∧
      (s.signalTarget d p scope target = none → exec (.signal d p counter scope target inc) s = .next s)) ∧
    (∀ e q counter : Nat, tileExists e q = true → counter < 256 →
      let hit := fun (m : SignalMsg) =>
        m.fromDie == d && m.fromPos == p && m.toDie == e && m.toPos == q && m.counter == counter
      (s.signals.find? hit = none → exec (.signalArrival d p e q counter) s = .next s) ∧
      (∀ m, s.signals.find? hit = some m →
        exec (.signalArrival d p e q counter) s = .next
          (if s.stopped = false ∧ s.eventPassing m.passing = false then
            ({ s with signals := s.signals.erase m } : State).bump e q counter m.increment
          else s))) ∧
    exec (.yieldPoint d p) s = .next
      (if go ∧ t.held = [] then
        match (List.range 8).find? fun n => n != t.running && (t.ctx n).state == .ready with
        | some m => s.switchTo d p m
        | none => s
      else s) ∧
    (∀ id : Nat, id < 32 →
      let b := s.barriers.getD id { id := id }
      (go → s.barrierMember d p id = true →
        exec (.barrier d p id) s = .next
          (if (d, p) ∈ b.arrived then s.progFault d p t.running 9 0
          else ({ s with barriers := modAt s.barriers id fun x => { x with arrived := x.arrived ++ [(d, p)] } } :
            State).blockOn d p (.barrier id b.opened))) ∧
      exec (.barrierOpen id) s = .next
        (if s.computing = true ∧ s.barrierTiles id ≠ [] ∧ ∀ m ∈ s.barrierTiles id, m ∈ b.arrived then s.openBarrier id
        else s)) ∧
    (∀ scopes : Nat, scopes < 32 → go →
      exec (.fence d p scopes) s = .next
        (if s.fenceMet d p t.running scopes s.nextReq = true then s else s.blockOn d p (.fence scopes s.nextReq))) ∧
    (∀ ctx scopes upTo : Nat, ctx < 8 → (t.ctx ctx).reason = .fence scopes upTo →
      exec (.fenceComplete d p ctx) s = .next
        (if s.stepOpen = true ∧ s.stopped = false ∧ (t.ctx ctx).state = .blocked ∧
          s.fenceMet d p ctx scopes upTo = true then s.unblock d p ctx .ready else s)) ∧
    exec (.halt d p) s = .next (if go then s.blockOn d p .halt else s) ∧
    (∀ imm : Nat, exec (.segment d p imm) s = .next
      (if go ∧ s.hasSegment d p imm = true then s.segmentTo d p imm else s)) ∧
    (∀ l rest, t.segLoads = l :: rest →
      exec (.segmentLoadComplete d p) s = .next
        (if s.stepOpen = true ∧ s.stopped = false ∧ s.loadLanded d p l = true then s.segmentLoaded d p l rest else s)) ∧
    (∀ m, t.switching = some m →
      exec (.contextSwitchComplete d p) s = .next
        (let s1 := s.advanceTo (s.now + nsOfCycles 16)
        (s1.modTile d p fun x => { x with running := m, switching := none, activeAt := s1.now }).settle d p)) ∧
    (t.switching = none → exec (.contextSwitchComplete d p) s = .next s) ∧
    exec (.tileIdleDark d p) s = .next
      (if s.computing = true ∧ s.usedTile d p = true ∧ t.lit = true ∧ s.keepLit = false ∧ s.allHeld t = true ∧
        s.tileQuiet d p = true then
        (s.advanceTo (t.activeAt + nsOfCycles 4096)).modTile d p fun x =>
          { x with lit := false, lighting := false }
      else s) ∧
    exec (.tileLit d p) s = .next
      (if t.lighting = true ∧ t.state = .available ∧ s.dieInService d = true then
        (s.modTile d p fun x => { x with lit := true, lighting := false, rampDue := true, activeAt := s.now }).settle d p
      else s)

/-- For every open step that is not being stopped and in which no program fault has come at this moment, an increment to
a counter of a used tile whose sum stays at or below 0xFFFF leaves that counter at the sum and every other counter
of every tile as it was; a sum above 0xFFFF is program fault COUNTER_OVERFLOW: the running context becomes FAULTED,
the fault record holds cause 3, and no counter changes. (R166) -/
def Obligations.EventsReachTheirCountersOrFault : Prop :=
  ∀ (s : State) (d p counter inc : Nat), s.Inv → tileExists d p = true → counter < 256 →
    s.stepOpen = true → s.stopped = false → s.faultedNow = false → s.usedTile d p = true →
    let v := (s.tile d p).counters.getD counter 0 + inc
    let u := s.bump d p counter inc
    (v ≤ 0xFFFF →
      (u.tile d p).counters.getD counter 0 = v ∧
      (∀ k, k ≠ counter → (u.tile d p).counters.getD k 0 = (s.tile d p).counters.getD k 0) ∧
      ∀ e q, tileExists e q = true → (e, q) ≠ (d, p) → (u.tile e q).counters = (s.tile e q).counters) ∧
    (0xFFFF < v → u = s.progFault d p (s.tile d p).running 3 0 ∧ u.stopped = true ∧
      (u.tile d p).counters = (s.tile d p).counters ∧ (u.tile d p).fault.valid = true ∧ (u.tile d p).fault.cause = 3)

/-- For each of the seventeen vector operations on a tile that can issue: while two operations are queued, one more
cycle of issue hold is counted and nothing else changes; a descriptor that fails its checks is program fault
BAD_DESCRIPTOR; otherwise the operation joins the end of the queue with the running context, its place, the
descriptor's fields, P13 to P15's element and addend and, for a derived scale, the amax read now, and DONE_EVENT's
counter takes the vector tag. A tile that cannot issue, and fields outside their widths, change nothing. NOP does
nothing. A word read with an uncorrectable error is counted and ends the step, and the operation does not join the
queue; a corrected word is counted and the operation joins. That a row stands for the slot of the running context's
bundle is the model's (log entry 60). (R86, R151, R160, R161, R171, R184, R265) -/
def Obligations.VectorRowsQueueTheirOperation : Prop :=
  ∀ (s : State) (d p : Nat), tileExists d p = true →
    exec (.vectorNop d p) s = .next s ∧
    s.tmEcc d p [] = (s, false) ∧
    (∀ k, s.tmEcc d p [(k, .corrected)] = (s.tmCorrectedWord d p, false) ∧
      s.tmEcc d p [(k, .uncorrectable)] = ((s.tmFailedRead d p).tmAbort d p, true)) ∧
    ∀ (desc done : Nat) (ecc : Ecc),
      ∀ row ∈ ([(.add, Instr.vectorAdd), (.sub, Instr.vectorSub), (.mul, Instr.vectorMul), (.fma, Instr.vectorFma),
        (.axpy, Instr.vectorAxpy), (.max, Instr.vectorMax), (.min, Instr.vectorMin), (.exp, Instr.vectorExp),
        (.log, Instr.vectorLog), (.rcp, Instr.vectorRcp), (.rsqrt, Instr.vectorRsqrt), (.sum, Instr.vectorSum),
        (.amax, Instr.vectorAmax), (.convert, Instr.vectorConvert), (.accum, Instr.vectorAccum),
        (.dropout, Instr.vectorDropout), (.copy, Instr.vectorCopy)] :
          List (VecOpcode × (Nat → Nat → Nat → Nat → Ecc → Instr))),
      let t := s.tile d p
      let b := s.tmRead d p (descOffset desc) 32
      let v := vecDescOf b
      (s.canIssue d p = false ∨ 1024 ≤ desc ∨ 256 ≤ done → exec (row.2 d p desc done ecc) s = .next s) ∧
      (s.canIssue d p = true → desc < 1024 → done < 256 →
        (2 ≤ t.vectorQueue.length → exec (row.2 d p desc done ecc) s =
          .next (s.modTile d p fun x => { x with issueHoldCycles := satAdd x.issueHoldCycles 1 })) ∧
        (t.vectorQueue.length < 2 →
          (vecDescOk row.1 b = false → exec (row.2 d p desc done ecc) s = .next (s.progFault d p t.running 4 0)) ∧
          (vecDescOk row.1 b = true →
            ((s.tmEcc d p ecc).2 = true → exec (row.2 d p desc done ecc) s = .next (s.tmEcc d p ecc).1) ∧
            ((s.tmEcc d p ecc).2 = false →
              let s1 := (s.tmEcc d p ecc).1
              let c := t.current
              exec (row.2 d p desc done ecc) s = .next ((s1.modTile d p fun x =>
                { x with vectorQueue := x.vectorQueue ++
                    [{ op := row.1, desc := v, done := done, ctx := t.running, segment := c.segment, bundle := c.bundle
                       elem := c.param 13 % 256 * 2 ^ 32 + c.param 14, addend := c.param 15 % 2 ^ 24
                       amaxIn := if v.derived row.1 = true then
                         BitVec.ofNat 32 (leNat (s.tmRead d p v.srcB 4)) else 0 }] }).tag d p done .vector)))))

/-- When the FP32 addition at the head of a running tile's queue completes, and no retention lock covers its
destination, the destination holds element by element the exact sum of the operands read before, rounded once, and
every byte of memory outside the destination reads as before, but for the context's amax cell where RECORD_AMAX is
set. A write into a locked range waits: nothing changes. (R168, R242, R251, R252, R239) -/
def Obligations.VectorAddWritesTheRoundedSums : Prop :=
  ∀ (s : State) (d p : Nat) (o : VecOp) (rest : List VecOp), s.Inv → tileExists d p = true → s.gridRuns d p = true →
    (s.tile d p).vectorQueue = o :: rest → o.op = .add →
    fmtOf o.desc.fmtA = .fp32 → fmtOf o.desc.fmtB = .fp32 → fmtOf o.desc.fmtD = .fp32 →
    let n := o.desc.length
    let sum := fun i => (flatElem (s.tmRead d p) .fp32 o.desc.srcA n i).add (flatElem (s.tmRead d p) .fp32 o.desc.srcB n i)
    ((s.tile d p).vecBlocked o = true → exec (.vectorOpComplete d p) s = .next s) ∧
    ((s.tile d p).vecBlocked o = false → ∃ t : State, exec (.vectorOpComplete d p) s = .next t ∧
      (o.desc.recordAmax = false ∨ o.desc.dst + 4 * n ≤ amaxCell o.ctx ∨ amaxCell o.ctx + 4 ≤ o.desc.dst →
        t.tmRead d p o.desc.dst (4 * n) =
          leBytes (4 * n) (packCodes 32 ((List.range n).map fun i => (Fmt.fp32.convert false (sum i)).code))) ∧
      ∀ a, a < tileBase d p + o.desc.dst ∨ tileBase d p + o.desc.dst + 4 * n ≤ a →
        o.desc.recordAmax = false ∨ a < tileBase d p + amaxCell o.ctx ∨ tileBase d p + amaxCell o.ctx + 4 ≤ a →
        Mem.get t.mem a = Mem.get s.mem a)

/-- MATMUL and PAIR_BACKWARD queue their operation or hold while two are queued; a pass of the operation at the head
writes back; an operation whose last pass is written completes; one that saw a flicker restarts from its snapshot,
with its executions and replay cycles counted, unless a retirement or a spare is due; a substitution puts the spare
in place. In any other phase, or on a tile whose grid does not run, nothing changes. The slot's PAIR bit is the
row's own. That the row mask is read at issue, and the readings of the checksum rules, are the model's (log entries
93 and 105). (R77, R78, R99, R109, R110, R113, R114, R151, R157, R158, R159) -/
def Obligations.ArrayOperationsRunTheirPassesAndReplays : Prop :=
  ∀ (s : State) (d p : Nat), tileExists d p = true →
    let t := s.tile d p
    exec (.arrayNop d p) s = .next s ∧
    (∀ (a : ArraySlot) (ecc : Ecc),
      let row := if s.canIssue d p = true ∧ arrayFieldsOk a = true then
          if 2 ≤ t.arrayQueue.length then s.modTile d p fun x => { x with issueHoldCycles := satAdd x.issueHoldCycles 1 }
          else s.issueArray d p a ecc
        else s
      (a.pair = false → exec (.matmul d p a ecc) s = .next row ∧ exec (.pairBackward d p a ecc) s = .next s) ∧
      (a.pair = true → exec (.pairBackward d p a ecc) s = .next row ∧ exec (.matmul d p a ecc) s = .next s)) ∧
    (t.arrayQueue = [] →
      (∀ fl, exec (.arrayPassWriteBack d p fl) s = .next s) ∧ exec (.arrayOpComplete d p) s = .next s ∧
      exec (.flickerReplay d p) s = .next s ∧ exec (.spareSubstitutionComplete d p) s = .next s) ∧
    (∀ o rest, t.arrayQueue = o :: rest →
      (∀ fl, exec (.arrayPassWriteBack d p fl) s = .next
        (if s.gridRuns d p = true ∧ o.phase = .passes then s.passWriteBack d p fl else s)) ∧
      exec (.arrayOpComplete d p) s = .next
        (if s.gridRuns d p = true ∧ o.phase = .finished then s.arrayDone d p o else s) ∧
      exec (.flickerReplay d p) s = .next
        (if s.gridRuns d p = true ∧ o.phase = .awaitReplay ∧ (o.executions < 3 ∨ o.flickers = []) ∧
          t.pendingSpare = [] ∧ s.retirementDue d p o = false then s.replay d p o else s) ∧
      (∀ a more, t.pendingSpare = a :: more → s.gridRuns d p = true → o.phase = .awaitReplay →
        t.spareAvailable = true →
        let cycles := cyclesIn (s.now - o.endedAt)
        exec (.spareSubstitutionComplete d p) s = .next
          (((s.chargeStall d p).addStall d p o.ctx .flickerReplay cycles).modTile d p fun x =>
            { x with spareFor := some a, arrayQueue := { o with endedAt := s.now } :: rest
                     replayCycles := satAdd x.replayCycles cycles })))

/-- An array, a tile, a channel, a shared-buffer page and a Beacon page retire when the count of their rule within its
window reaches the threshold that the policy or the rule sets, and not before. A restart cause and an uncontained
fault act on a lit device whose Lamplighter runs only (log entry 119). A flash append that completes is recorded in
the flash; one that fails on a log entry is a fault of the log. Threshold codes 1 to 4 of the channel's row are the
model's (log entry 62). That FLICKER_24H is named first is the model's (log entry 94). (R112, R114, R116, R605,
R640, R641, R645, R671) -/
def Obligations.UnitsRetireAtTheirThresholds : Prop :=
  ∀ s : State,
    let retired := fun (f : State → State) => (f s.newCascade).inCascade none
    (∀ d p, tileExists d p = true →
      (∀ a, a < 17 →
        (s.flickerThreshold d p a = none → exec (.arrayRetired d p a) s = .next s) ∧
        ∀ th, s.flickerThreshold d p a = some th →
          exec (.arrayRetired d p a) s = .next (retired fun x => x.retireArray d p a th)) ∧
      (let t := s.tile d p
      exec (.tileRetired d p) s = .next
        (if 2 ≤ (inWindow s.now hourNs t.tmUncorrectableTimes).length then retired fun x => x.retireTile d p .uncorrectable
        else if 1000 < ((inWindowN s.now hourNs t.tmCorrectedTimes).map (·.2)).sum then
          retired fun x => x.retireTile d p .correctedRate
        else if (t.arrayQueue.head?.map fun o => decide (3 ≤ o.executions) && !o.flickers.isEmpty) = some true then
          retired fun x => x.retireTile d p .replayLimit
        else s))) ∧
    (∀ st ch, st < 8 → ch < 32 →
      let c := s.channel st ch
      let p := s.flash.policy
      let row := fun code (due : Prop) (_ : Decidable due) th => exec (.channelRetired st ch code) s =
        .next (if due then retired fun x => x.retireChannel st ch th else s)
      row 1 (p.channelUncorrectable ≤ (inWindow s.now hourNs c.uncorrectableTimes).length) inferInstance .uncorrectable ∧
      row 2 (p.channelCorrected < ((inWindowN s.now hourNs c.correctedTimes).map (·.2)).sum) inferInstance .correctedRate ∧
      row 3 (p.channelTransient < (inWindow s.now hourNs c.transientTimes).length) inferInstance .transientRate ∧
      row 4 (2 ≤ (inWindow s.now hourNs (s.bsu st ch).sramTimes).length) inferInstance .uncorrectable ∧
      ∀ code, code = 0 ∨ 4 < code → exec (.channelRetired st ch code) s = .next s) ∧
    (∀ die page, die < 2 → page < 12288 → exec (.sharedPageRetired die page) s = .next
      (if 2 ≤ (s.sharedTimes.filter fun t => t.2.1 == die && t.2.2 == page && decide (s.now ≤ t.1 + hourNs)).length then
        retired fun x => x.retireSharedPage die page .uncorrectable else s)) ∧
    (∀ page, page < 8192 → exec (.beaconPageReplaced page) s = .next
      (if 2 ≤ (s.beacon.pageTimes.filter fun t => t.2 == page && decide (s.now ≤ t.1 + hourNs)).length then
        ((({ s with beacon := { s.beacon with pageTimes := s.beacon.pageTimes.filter fun t => t.2 != page } } :
          State).newCascade.replaceBeaconPage page .uncorrectable).inCascade none) else s)) ∧
    (∀ cause, exec (.lamplighterRestart cause) s = .next (if s.lampServes = true then s.lampRestart cause else s)) ∧
    (∀ cause, exec (.uncontained cause) s = .next
      (if s.lampServes = true then s.enterFaulted .uncontained .uncontained else s)) ∧
    (nextAppend s.events.appends = none → ∀ ok, exec (.flashAppendComplete ok) s = .next s) ∧
    (∀ a, nextAppend s.events.appends = some a →
      exec (.flashAppendComplete true) s = .next (s.appended a) ∧
      exec (.flashAppendComplete false) s = .next
        (if a.isLog = true ∧ s.dev.lit = true then s.logAppendFailed else s))

/-- A step that an abort or a fault has stopped, a BREAK, a thermal hold, a substitution that is due and a dark tile
each keep BUNDLE_ISSUE from changing anything. On a tile that can issue, the bundle at the running context's pc
blocks at its unmet WAIT, is held for a cycle by a full queue, or issues whole. (R151, R178, R185, R186, R703, R738) -/
def Obligations.NothingIssuesWhileTheTilesAreStopped : Prop :=
  ∀ (s : State) (d p : Nat) (ecc : Ecc), tileExists d p = true →
    let t := s.tile d p
    (s.stopped = true ∨ s.tinder.broken = true ∨ t.thermalHold = true ∨ t.lit = false ∨ s.run = none ∨ s.program = none ∨
      t.state ≠ .available ∨ t.switching ≠ none ∨ t.pendingSpare ≠ [] ∨ t.current.state ≠ .ready →
      exec (.bundleIssue d p ecc) s = .next s) ∧
    (s.canIssue d p = true → ∀ w, s.fetchBundle d p = some w →
      let b := bundleOf w
      (∀ k th c, b.control = .wait k th c → t.counters.getD k 0 < th →
        exec (.bundleIssue d p ecc) s = .next (s.blockOn d p (.wait k th))) ∧
      (s.bundleWaitMet d p b = true → exec (.bundleIssue d p ecc) s = .next
        (if s.bundleHolds d p b = true then s.modTile d p fun x => { x with issueHoldCycles := satAdd x.issueHoldCycles 1 }
        else s.bundleIssues d p b ecc)))

/-- On a tile that can issue, for slots 0 to 126: BIND binds an unbound or idle slot; START starts an idle slot, with Q0
to Q3 from the parameters named, and tags its events with the tier its data come from; UNBIND frees an idle slot;
CONSUME releases completed blocks, and more than there are is the stream's error CONSUME_EXCESS. A slot that runs or
is unbound makes the faults SLOT_RUNNING and SLOT_UNBOUND, with its number; a slot in ERROR ignores all four. On a
tile that cannot issue nothing changes. That BIND keeps the blocks of an idle slot is the model's (log entry 96).
(R162, R163, R171, R184, R192, R193, R206, R211) -/
def Obligations.SlotOperationsFollowTheStateOfTheirSlot : Prop :=
  ∀ (s : State) (d p : Nat), tileExists d p = true →
    exec (.streamSlotNop d p) s = .next s ∧
    ∀ n : Nat, n < 127 →
    let t := s.tile d p
    let x := t.slot n
    let r := StreamRef.tile d p n
    let fault := fun code => s.progFault d p t.running code n
    (s.canIssue d p = false → ∀ a b : Nat, exec (.bind d p n a) s = .next s ∧ exec (.start d p n a b) s = .next s ∧
      exec (.consume d p n a) s = .next s ∧ exec (.unbind d p n) s = .next s) ∧
    (s.canIssue d p = true →
      (∀ g prog, s.program = some g → prog < g.entries secStreams →
        exec (.bind d p n prog) s = .next (match x.state with
          | .unbound | .idle => s.modSlot r fun y => { y with state := .idle, program := prog }
          | .running => fault 2
          | .error => s)) ∧
      (∀ arg done : Nat, arg < 16 → done < 256 →
        let s1 := s.startSlot r t.running done
          ((List.range 4).map fun i => (t.current.params.getD ((arg % 16 + i) % 16) 0).zeroExtend 64)
        let h := s1.headOf r
        let g := CounterTag.stream n (s1.causeTierOf r)
        let s2 := (s1.pastTags d p n).tag d p done g
        exec (.start d p n arg done) s = .next (match x.state with
          | .unbound => fault 1
          | .running => fault 2
          | .error => s
          | .idle => if h.buffered = true then s2.tag d p h.blockEvent g else s2)) ∧
      (∀ blocks : Nat, 1 ≤ blocks → blocks < 4096 →
        (x.state = .unbound → exec (.consume d p n blocks) s = .next (fault 1)) ∧
        (x.state = .error → exec (.consume d p n blocks) s = .next s) ∧
        (x.state = .idle ∨ x.state = .running → blocks ≤ x.blocksHeld →
          exec (.consume d p n blocks) s = .next (s.modSlot r fun y =>
            { y with
              blocksHeld := y.blocksHeld - blocks
              heldBytes := y.heldBytes.drop blocks
              released := (s.now, (y.heldBytes.take blocks).sum) :: inWindowN s.now 8000 y.released })) ∧
        (x.state = .running → x.blocksHeld < blocks →
          exec (.consume d p n blocks) s = .next (s.streamFail r 0x8005 tierTile true)) ∧
        (x.state = .idle → x.blocksHeld < blocks → exec (.consume d p n blocks) s =
          .next ((s.modSlot r fun y => { y with state := .running }).streamFail r 0x8005 tierTile true))) ∧
      exec (.unbind d p n) s = .next (match x.state with
        | .unbound => fault 1
        | .running => fault 2
        | .error => s
        | .idle => s.modSlot r fun y => { y with state := .unbound }))

/-- The time a blocked context has waited is charged first. Then, for a running stream whose instruction at its pc is
the row's: SETA, SETS, ADDS and ADDQ write one address or stride register, addresses modulo 2^44; LOOP and LOOPQ set
a loop counter, and a LOOPQ of zero skips past its ENDLOOP; ENDLOOP counts down and goes back while the count is not
zero; INDEX pops the FIFO's next value, ends the stream on one at or above the limit, and waits on an empty FIFO
unless its index stream has completed; END lets no further request follow, and encodes the last block of an
ENCODE_FTC stream. All else of the state stays. Any other instruction's row, and a stream that does not run, change
nothing. (MOVE is stated by its own operation.) The side that the cause word of INDEX names is the model's (log
entry 98). (R203, R204, R207, R210, R215) -/
def Obligations.StreamInstructionsActAsTheirTableGives : Prop :=
  ∀ (s : State) (r : StreamRef), refExists r = true →
    let c := s.chargeOwner (refOwner r)
    let x := c.slotAt r
    let i := c.streamInstr r
    let at_ := fun (op : Nat) =>
      s.streamActs r = true ∧ (s.slotAt r).pc < (s.headOf r).count ∧ (s.streamInstr r).op = op
    let put := fun (f : StreamSlot → StreamSlot) => c.modSlot r fun y => f { y with pc := y.pc + 1 }
    (at_ 0x01 → exec (.streamSeta r) s =
      .next (put fun y => { y with a := modAt y.a i.ra fun _ => i.imm % 2 ^ 44 })) ∧
    (at_ 0x02 → exec (.streamSets r) s =
      .next (put fun y => { y with s := modAt y.s i.ra fun _ => signExtend 48 i.imm })) ∧
    (at_ 0x03 → exec (.streamAdds r) s = .next (put fun y =>
      { y with a := modAt y.a i.ra fun v => (((v : Int) + y.s.getD i.rb 0) % 2 ^ 44).toNat })) ∧
    (at_ 0x04 → exec (.streamAddq r) s = .next (put fun y =>
      { y with a := modAt y.a i.ra fun v => (v + (y.q.getD i.rb 0).toNat * (i.imm % 2 ^ 32)) % 2 ^ 44 })) ∧
    (at_ 0x05 → exec (.streamLoop r) s =
      .next (put fun y => { y with l := modAt y.l i.lp fun _ => i.imm % 2 ^ 24 })) ∧
    (at_ 0x06 → exec (.streamLoopq r) s = .next (c.modSlot r fun y =>
      let n := (y.q.getD i.rb 0).toNat % 2 ^ 24
      { y with l := modAt y.l i.lp fun _ => n, pc := if n = 0 then c.loopEnd y y.pc + 1 else y.pc + 1 })) ∧
    (at_ 0x07 → exec (.streamEndloop r) s = .next (c.modSlot r fun y =>
      let n := (y.l.getD i.lp 0 + 2 ^ 24 - 1) % 2 ^ 24
      { y with l := modAt y.l i.lp fun _ => n, pc := if n = 0 then y.pc + 1 else c.loopBody y })) ∧
    (at_ 0x08 → exec (.streamMove r) s = .next (c.doMove r)) ∧
    (at_ 0x09 →
      (∀ v rest, x.fifo = v :: rest → (c.headOf r).indexLimit ≤ v →
        exec (.streamIndex r) s = .next (c.streamFail r 0x8003 (c.headOf r).srcTier false)) ∧
      (∀ v rest, x.fifo = v :: rest → v < (c.headOf r).indexLimit →
        exec (.streamIndex r) s = .next (put fun y =>
          { y.resume c.now with
            fifo := rest
            a := modAt y.a i.ra fun _ => (y.a.getD i.rb 0 + v * (i.imm % 2 ^ 32)) % 2 ^ 44
            indexed := (c.now, 4) :: inWindowN c.now 8000 y.indexed })) ∧
      (x.fifo = [] → x.indexDone = true →
        exec (.streamIndex r) s = .next (c.streamFail r 0x8004 (c.headOf r).srcTier false)) ∧
      (x.fifo = [] → x.indexDone = false → exec (.streamIndex r) s = .next (c.streamWaits r .emptyFifo))) ∧
    (at_ 0x00 →
      let s1 := c.modSlot r fun y =>
        { y with ended := true, wait := .none, filling := y.filling.map fun b => { b with closed := true } }
      exec (.streamEnd r) s = .next ((s1.encodeRun r (c.headOf r) x.pc 3).streamCheck r) ∧
      ((c.headOf r).encodeFtc = false → exec (.streamEnd r) s = .next (s1.streamCheck r))) ∧
    (∀ row ∈ ([(0x00, Instr.streamEnd), (0x01, Instr.streamSeta), (0x02, Instr.streamSets), (0x03, Instr.streamAdds),
      (0x04, Instr.streamAddq), (0x05, Instr.streamLoop), (0x06, Instr.streamLoopq), (0x07, Instr.streamEndloop),
      (0x08, Instr.streamMove), (0x09, Instr.streamIndex)] : List (Nat × (StreamRef → Instr))),
      ¬ at_ row.1 → exec (row.2 r) s = .next s)

/-- XFER queues a copy, or holds while four are queued; its completion, once every byte has landed and its event has
crossed, raises both events together. A grant serves the best request at its point; a landing request leaves the
list of requests and places its bytes, and one of a stream in error is dropped. A stream that fails ends with its
reason, also one that the abort of the same moment has cut off; one that has made no progress for STALL_LIMIT fails
likewise. A stream under back-pressure goes on when there is room again. A free compression unit goes to the waiting
stream with the lowest slot key. (R151, R164, R207, R209, R210, R221, R228, R229, R231, R520, R781) -/
def Obligations.RequestsAreGrantedLandAndFailInTheirTurn : Prop :=
  ∀ s : State,
    (∀ d p : Nat, tileExists d p = true →
      (∀ desc done : Nat, exec (.xfer d p desc done) s = .next
        (if s.canIssue d p = true ∧ desc < 1024 ∧ done < 256 then
          if 4 ≤ (s.tile d p).xfers.length then
            s.modTile d p fun t => { t with issueHoldCycles := satAdd t.issueHoldCycles 1 }
          else s.issueXfer d p desc done
        else s)) ∧
      ((s.tile d p).xfers = [] → exec (.xferComplete d p) s = .next s) ∧
      (∀ x rest, (s.tile d p).xfers = x :: rest →
        (s.stepOpen = true → s.stopped = false → x.landed = x.length → s.eventPassing x.event = false →
          let s2 := (s.modTile d p fun t => { t with xfers := rest, activeAt := s.now }).bump d p x.done 1
          (∀ q, s2.posOf (1 - d) x.targetTile = some q →
            exec (.xferComplete d p) s = .next (s2.bump (1 - d) q x.targetEvent 1)) ∧
          (s2.posOf (1 - d) x.targetTile = none → exec (.xferComplete d p) s = .next s2)) ∧
        (s.stepOpen = false ∨ s.stopped = true ∨ x.landed ≠ x.length ∨ s.eventPassing x.event = true → exec (.xferComplete d p) s = .next s))) ∧
    (∀ (pt : Point) (ecc : Ecc), pointExists pt = true →
      exec (.arbiterGrant pt ecc) s = .next (s.grant pt ecc) ∧
      ((s.noteHeld pt).requests = [] → exec (.arbiterGrant pt ecc) s = .next ((s.spend pt none).noteHeld pt))) ∧
    (∀ (o : ReqOwner) (n : Nat) (ecc : Ecc), ownerExists o = true →
      (s.requests.find? (fun q => q.owner == o && q.seq == n) = none → exec (.requestLanded o n ecc) s = .next s) ∧
      (∀ q, s.requests.find? (fun q => q.owner == o && q.seq == n) = some q →
        exec (.requestLanded o n ecc) s = .next
          (if q.discarded = true then s.dropReq q
          else if s.mayLand q = true then s.land q (q.data.getD []) ecc else s.askAt q.dst)) ∧
      exec (.noProgress o) s = .next (s.noProgress o) ∧
      (s.stopped = true → exec (.noProgress o) s = .next s)) ∧
    (∀ r : StreamRef, refExists r = true →
      (∀ (reason tier : Nat) (dst : Bool), exec (.streamError r reason tier dst) s = .next
        (if reasonOk reason = false ∨ 8 ≤ tier then s
        else if s.stepOpen = true ∧ s.stopped = false ∧ (s.slotAt r).state = .running then s.streamFail r reason tier dst
        else if s.erredNow = true ∧ (s.slotAt r).cutOff = true then
          s.endInError (refOwner r) (causeWord reason (s.slotAt r).pc tier dst)
        else s)) ∧
      exec (.streamBackPressureResume r) s = .next
        (if s.streamActs r = true ∧ (s.slotAt r).wait = .backPressure ∧ s.hasRoom r = true then
          s.modSlot r fun x => { x with wait := .none, lastLanded :=
            if x.wait = .backPressure then x.lastLanded + (s.now - max x.waitSince x.lastLanded) else x.lastLanded }
        else s)) ∧
    (∀ (die : Nat) (enc : Bool), die < 3 →
      exec (.ftcUnitGrant die enc) s = .next (s.ftcGrant die enc) ∧
      (((s.ftc.getD die {}).waiting enc = [] ∨ ftcUnits die enc ≤ (s.ftc.getD die {}).busy enc) →
        exec (.ftcUnitGrant die enc) s = .next s))

/-- The compute phase starts when the used tiles are lit; a halted context ends the phase once it is the last; STEP_OPEN
either goes on to placement or finds the device not current; STEP_STATS with NONFINITE votes 0b101 without a sweep,
and otherwise leads to RECORD_STATS when there are FLAT records, else to the sweep; RECORD_STATS to the sweep; the
sweep's end to its vote unless a BSU fails; DIGEST_EXCHANGE compares the digests of the replica set. STEP_END ends a
step that was aborted or has reached its end. Context 0 issues only when placement and lighting are both over. An
operation on the BSUs completes only while none of them is held. A row outside its phase, or whose collective is not
complete, changes nothing. The place of the trailer word in its packets and the free time of the statistics pass are
the model's (log entry 83). (R179, R182, R369, R384, R385, R386, R392, R403, R407, R416, R623, R631) -/
def Obligations.StepPhasesFollowOneAnother : Prop :=
  ∀ s : State,
    (∀ d p ctx, tileExists d p = true → ctx < 8 →
      let c := (s.tile d p).ctx ctx
      let t := s.unblock d p ctx .halted
      exec (.contextHalted d p ctx) s = .next
        (if s.computing = true ∧ s.usedTile d p = true ∧ c.state = .blocked ∧ c.reason = .halt ∧ s.ctxQuiet d p ctx = true then
          if t.allHalted = true then t.endCompute else t
        else s)) ∧
    (∀ r g, s.run = some r → s.program = some g →
      exec .stepComputeStart s = .next
        (if s.inPhase .lighting = true ∧ s.tilesLit = true then
          let t := s.startTiles g r.k r.mb
          { t with run := t.run.map fun x => { x with phase := .compute, contextsIssued := true } }
        else s) ∧
      (s.updateDone updStats = none ∨ s.inPhase .stats = false ∨ s.updateRuns = false →
        exec .stepStatsComplete s = .next s) ∧
      (∀ i, s.updateDone updStats = some i → s.inPhase .stats = true → s.updateRuns = true →
        let word := i.trailer.toNat
        let t := ((s.endUpdate updStats).endUpdateOp.noteStatsPass.noteModes word).noteNoise (lowestMode word) r.mb
          (wordAt i.result 0) (wordAt i.result 1)
        exec .stepStatsComplete s = .next
          (if bit word 0 = true then
            let u : State := { t with run := t.run.map fun x => { x with nonFinite := true } }
            u.castVote 0b101 u.commit.stateDigest
          else if g.flatRecords = [] then t.beginSweep
          else (t.setPhase .recordStats).issueUpdate updRecords (t.recordShare g) 0)) ∧
      (s.updateDone updRecords = none ∨ s.inPhase .recordStats = false → exec .recordStatsComplete s = .next s) ∧
      (∀ i, s.updateDone updRecords = some i → s.inPhase .recordStats = true →
        exec .recordStatsComplete s = .next (State.beginSweep
          { s.endUpdate updRecords with run := some { r with stats := withReduced g.records r.stats i.result } })) ∧
      (∀ p, g.plan = some p →
        (s.updateWord updOpen = none ∨ s.inPhase .opening = false → exec .stepOpenComplete s = .next s) ∧
        (∀ w, s.updateWord updOpen = some w → s.inPhase .opening = true →
          let t := (s.endUpdate updOpen).resolveDoubt p s.stepNo w
          exec .stepOpenComplete s = .next (if bit w 0 = true then (t.retakeMb g).placeStep else t.notCurrent)) ∧
        (s.inPhase .sweeping = true → s.exports = [] → s.updateRuns = true →
          let failure := s.firstFailure (s.sweepReads g p.state)
          (failure = none → exec .sweepComplete s = .next (s.finishSweep g p r)) ∧
          ∀ st ch why, failure = some (st, ch, why) →
            exec .sweepComplete s = .next (s.bsuDeviceFails st ch why false)) ∧
        (s.inPhase .sweeping = false ∨ s.exports ≠ [] ∨ s.updateRuns = false → exec .sweepComplete s = .next s))) ∧
    (∀ r, s.run = some r →
      (s.updateDone updDigest = none ∨ s.inPhase .digest = false → exec .digestExchangeComplete s = .next s) ∧
      ∀ i, s.updateDone updDigest = some i → s.inPhase .digest = true →
        let l := chunks 32 (i.result.length / 32) i.result
        let t := s.endUpdate updDigest
        let r1 := { r with digestOk := l.all fun x => x == sliceZ r.stateDigest 0 32, lowestDigest := l.head? }
        exec .digestExchangeComplete s = .next (State.castVote
          { t with
            run := some r1
            sweep := { t.sweep with digestComparisons := satAdd t.sweep.digestComparisons 1 } } r1.sweepVote r1.stateDigest)) ∧
    (∀ r, s.run = some r →
      exec .stepEnd s = .next (if r.abort ≠ none ∨ r.phase = .ended then s.endStep r else s)) ∧
    (∀ g, s.program = some g → s.clearing = true → s.updateRuns = true → ∃ t : State, exec .gradientClearComplete s = .next t ∧
      t.clearing = false ∧ t.stateBlock.clearTime = t.now - t.clearSince) ∧
    (s.clearing = false ∨ s.program = none ∨ s.updateRuns = false → exec .gradientClearComplete s = .next s)

/-- With a PREPARED record, the step voting and COMMIT_READY complete, the vote word W is the AND of all devices' votes,
which the collective gives. Without DIGEST_OK nothing commits: the step ends NOT_COMMITTED, raising
REPLICA_DIVERGED. With DIGEST_OK the step commits as UPDATE when SWEEP_FINITE is set and as SKIP when it is not; the
sweep block holds the outcome and W. From then on ABORT_STEP's cause changes nothing. (R391, R392, R398, R399, R407,
R420) -/
def Obligations.VotesDecideWhetherAStepCommits : Prop :=
  ∀ (s : State) (w0 : Nat) (r : RunStep) (rec : CommitRecord) (p : PlanHeader),
    s.run = some r → s.prepared = some rec → s.program.bind Program.plan = some p → s.inPhase .voting = true →
    s.updateWord updReady = some w0 →
    let w := w0 % 256
    ∃ t : State, exec .commitReadyComplete s = .next t ∧ t.sweep.result = w ∧
      (bit w 2 = false → ∃ r', t.run = some r' ∧ r'.committed = r.committed ∧ r'.outcome = .notCommitted ∧
        t.sweep.outcome = .notCommitted ∧ t.events.nextSeq = s.events.nextSeq + 1) ∧
      (bit w 2 = true → ∃ r', t.run = some r' ∧ r'.committed = true ∧ r'.phase = .ended ∧
        r'.outcome = (if bit w 1 = true then .update else .skip) ∧ t.sweep.outcome = r'.outcome ∧
        ∀ (c : AbortCause) (origin : Nat), t.abortBy c origin = t)

/-- EXPORT_START begins the export of the oldest object unless it has begun, a BSU fails, the sink refuses it, or it has
to wait for an encoder; EXPORT_COMPLETE of a started object with its sink up takes it off the queue, records its
length and writes a host sink's bytes. COMMIT_COPY_REBUILT puts the copies where they belong and raises one event
for each new place, and writes no memory where no copy is missing; without a read-back nothing changes. Which
encoder an object takes is the model's (log entry 116). (R408, R409, R411, R420, R146, R400) -/
def Obligations.ExportsAndRebuildsCompleteInOrder : Prop :=
  ∀ s : State,
    (s.exports = [] → exec .exportStart s = .next s ∧ exec .exportComplete s = .next s) ∧
    (∀ x rest g p, s.exports = x :: rest → s.program = some g → g.plan = some p →
      (x.started = true ∨ s.exportsNow = false ∨ s.adopts g = false ∨ p.deltaSink = 0 → exec .exportStart s = .next s) ∧
      (x.started = false → s.exportsNow = true → s.adopts g = true → p.deltaSink ≠ 0 →
        let ranges := if x.kind = .update then
          s.bankRanges g p.state s.commit.epochBank ++ s.bankRanges g p.state (1 - s.commit.epochBank) else []
        (∀ st ch why, s.firstFailure ranges = some (st, ch, why) →
          exec .exportStart s = .next ((s.exportFails st ch why).inCascade none)) ∧
        (s.firstFailure ranges = none →
          let object := s.deltaObject x (s.deltaSections g p.state x)
          (s.sinkRefuses p object.length = true → exec .exportStart s = .next (s.dropExport x .ok)) ∧
          (s.sinkRefuses p object.length = false →
            let ref := exportRef ranges
            let s1 := (ref.map s.takeEncoder).getD s
            (s1.hasEncoder ref = false → exec .exportStart s = .next s1) ∧
            (s1.hasEncoder ref = true → ∃ t : State, exec .exportStart s = .next t ∧
              t.exports = { x with started := true, object := object } :: rest)))) ∧
      (x.started = false ∨ s.sinkUp p = false ∨ s.exportRuns = false → exec .exportComplete s = .next s) ∧
      (x.started = true → s.sinkUp p = true → s.exportRuns = true → p.deltaSink = 2 → ∃ u : State,
        exec .exportComplete s = .next u.exportsDone ∧ u.exports = rest ∧ u.sweep.exportBytes = x.object.length ∧
        u.hostMem = (s.hostWrite (((s.region p.deltaTarget).map (·.base)).getD 0) x.object).hostMem) ∧
      (x.started = true → s.sinkUp p = true → s.exportRuns = true → p.deltaSink ≠ 2 → ∃ u : State,
        exec .exportComplete s = .next u.exportsDone ∧ u.exports = rest ∧ u.sweep.exportBytes = x.object.length ∧
        u.hostMem = s.hostMem)) ∧
    (exec (.commitCopyRebuilt false) s = .next s) ∧
    (s.commit.rebuild = false → exec (.commitCopyRebuilt true) s = .next s) ∧
    (s.commit.rebuild = true → ∃ t : State, exec (.commitCopyRebuilt true) s = .next t ∧ t.commit.rebuild = false ∧
      t.commit.copies = (if s.commit.present = true then s.commitPlaces else []) ∧
      (s.program = none → (∀ c ∈ t.commit.copies, s.commit.copies.contains c = true ∧ s.recordsAt c ≠ []) → t.mem = s.mem))

/-- COLL of a bank-side entry goes to the BSUs; any other issues an instance and a command to Beacon, or is held while
64 run. An instance of a tile completes when its own part is done; one that has made no progress for STALL_LIMIT,
and one whose Ethernet read fails, aborts the step; an Ethernet read that arrives whole on its port in service is
deposited. Rows for instances that are not there, and rows in a step that has ended, change nothing. (R164, R231,
R469, R553, R558, R560, R566, R571) -/
def Obligations.CollectivesIssueStallAndComplete : Prop :=
  ∀ s : State,
    (∀ d p entry done, tileExists d p = true →
      let e := s.planEntry entry
      exec (.coll d p entry done) s = .next
        (if s.canIssue d p = true ∧ s.collOf d p entry = true ∧ done < 256 then
          if e.kind = ckBsuOp then s.bsuColl d p done (bsuDescOf e.params)
          else if 64 ≤ s.beacon.instances.length then
            s.modTile d p fun t => { t with issueHoldCycles := satAdd t.issueHoldCycles 1 }
          else ((s.tag d p done .coll).issueColl entry (.tile d p (s.tile d p).running done)).addReq
            { owner := .beacon entry, seq := s.nextReq, instr := 0, cls := 0, die := d, deadline := s.timer d, src := noPlace
              dst := noPlace, srcTier := tierTile, dstTier := tierBeacon, len := 0, points := [.linkCi d true, .beaconPort]
              data := some [] }
        else s)) ∧
    (∀ entry sequence, s.instance? entry sequence = none →
      exec (.collectiveStall entry sequence) s = .next s ∧ exec (.collectiveComplete entry sequence) s = .next s ∧
      ∀ data, exec (.ethReadComplete entry sequence data) s = .next s) ∧
    (∀ entry sequence i, s.instance? entry sequence = some i →
      let e := s.planEntry entry
      (s.stepOpen = false ∨ s.stopped = true → exec (.collectiveStall entry sequence) s = .next s ∧
        exec (.collectiveComplete entry sequence) s = .next s ∧
        ∀ data, exec (.ethReadComplete entry sequence data) s = .next s) ∧
      (s.stepOpen = true → s.stopped = false →
        exec (.collectiveStall entry sequence) s = .next
          (if e.grouped = true ∧ s.partDone e i = false then
            (s.advanceTo (i.lastActivity + s.stallLimit)).fabricFails 0xFF s.rank entry rsNoProgress else s) ∧
        exec (.collectiveComplete entry sequence) s = .next
          (if i.owner ≠ .update ∧ s.partDone e i = true then s.finishInst e i else s) ∧
        (e.kind = ckEthRead →
          let queue := s.flash.policy.exportQueues.find? fun q => q.queue == field e.params 0 1
          exec (.ethReadComplete entry sequence none) s =
            .next (s.fabricFails ((queue.map (·.port)).getD 0xFF) s.rank entry rsNoProgress) ∧
          ∀ bs q, queue = some q →
            (bs.length = e.length → (s.port q.port).state = .ethernetUp →
              let s2 := (s.deposit entry e.dstTensor e.dstOffset bs).modPort q.port fun p =>
                { p with ethFramesReceived := satAdd p.ethFramesReceived (ceilDiv bs.length 4096) }
              exec (.ethReadComplete entry sequence (some bs)) s =
                .next (if s2.stepOpen = true then s2.finishInst e i else s2)) ∧
            (bs.length ≠ e.length ∨ (s.port q.port).state ≠ .ethernetUp →
              exec (.ethReadComplete entry sequence (some bs)) s = .next s))))

/-- For each of the fourteen bank-side operations, on a tile that can issue, with DONE_EVENT a counter and a descriptor
that the loaded program's tables accept, the row dispatches the descriptor with the row's operation code in place of
the one it carries; with a descriptor they do not accept, or on a tile that cannot issue, nothing changes. (R465,
R466, R469, R470, R473, R484, R494) -/
def Obligations.BankSideRowsDispatchTheirOperation : Prop :=
  ∀ (s : State) (d p done : Nat) (o : BsuDesc), tileExists d p = true →
    ∀ row ∈ ([(0x01, Instr.bsuAdd), (0x02, Instr.bsuMul), (0x03, Instr.bsuAxpy), (0x04, Instr.bsuScale),
      (0x05, Instr.bsuFill), (0x06, Instr.bsuCopy), (0x07, Instr.bsuConvert), (0x08, Instr.bsuAccum),
      (0x09, Instr.bsuSum), (0x0A, Instr.bsuNorm2), (0x0B, Instr.bsuAmax), (0x0C, Instr.bsuGather),
      (0x0D, Instr.bsuScatterAdd), (0x0E, Instr.bsuStream)] : List (Nat × (Nat → Nat → Nat → BsuDesc → Instr))),
    (∀ g, s.program = some g → s.canIssue d p = true → done < 256 → bsuDescOk g { o with bop := row.1 } = true →
      exec (row.2 d p done o) s = .next (s.bsuColl d p done { o with bop := row.1 })) ∧
    (s.canIssue d p = false ∨ 256 ≤ done ∨ (∀ g, s.program = some g → bsuDescOk g { o with bop := row.1 } = false) →
      exec (row.2 d p done o) s = .next s)

/-- A slice of an operation, a landing or an export ends as its kind does; an operation completes once all its parts are
done, and the units that shared it go on; a failure ends what the unit was doing: its operation, an update, or an
export. An idle unit goes dark 20 µs after its last work and a lit one is IDLE and goes on. A window whose share is
spent holds new slices to the next window, and the wait counts under THERMAL_HOLD. In any other state these rows
change nothing. What the update's operations do to a unit is the model's reading (log entry 115). (R467, R475, R486,
R488, R490, R494, R495, R500) -/
def Obligations.BankSideUnitsRunSliceBySlice : Prop :=
  ∀ s : State,
    (∀ st ch, bsuExists st ch = true →
      let b := s.bsu st ch
      (∀ ecc, exec (.landingAccum st ch ecc) s = .next (if b.slice = some .landing then s.landSlice st ch ecc else s)) ∧
      (∀ ecc,
        (∀ id, b.slice = some (.op id) → exec (.bsuSliceEnd st ch ecc) s = .next (s.endSlice st ch id ecc)) ∧
        (b.slice = some .exportOut →
          exec (.bsuSliceEnd st ch ecc) s = .next ((s.releaseSlice st ch 65536).boundary st ch)) ∧
        (b.slice = some .landing ∨ b.slice = none → exec (.bsuSliceEnd st ch ecc) s = .next s)) ∧
      (∀ id reason,
        (bsuReasonOk reason = false ∨ b.state = .retired → exec (.bsuOperationError id st ch reason) s = .next s) ∧
        (bsuReasonOk reason = true → b.state ≠ .retired → ∀ o part, s.bsuOp id = some o → o.part st ch = some part →
          exec (.bsuOperationError id st ch reason) s = .next
            (if s.stepOpen = true ∧ s.stopped = false then s.bsuFails st ch o.desc reason false else s)) ∧
        (bsuReasonOk reason = true → b.state ≠ .retired → s.bsuOp id = none → reason ≠ rsIndexRange → reason ≠ 0x8006 →
          exec (.bsuOperationError id st ch reason) s = .next
            (if s.stepOpen = true ∧ s.stopped = false ∧ (b.landings ≠ [] ∨ (0x20 ≤ b.updateOp ∧ b.updateOp ≤ 0x23)) then
              s.bsuDeviceFails st ch reason false
            else if b.exportPending = true then s.exportFails st ch reason else s))) ∧
      exec (.bsuIdleDark st ch) s = .next
        (if b.state = .idle ∧ b.quiet = true then
          (s.advanceTo (b.lastWork + 20000)).modBsu st ch fun x => { x with state := .dark, lighting := false }
        else s) ∧
      exec (.bsuLit st ch) s = .next
        (if b.lighting = true ∧ b.state = .dark ∧ s.stackInService st = true then
          (s.modBsu st ch fun x => { x with state := .idle, lighting := false, lastWork := s.now }).kickBsu st ch
        else s) ∧
      exec (.bsuDutyWindow st ch) s = .next
        (if b.dutySpent = true then
          (s.modBsu st ch fun x =>
            { x with
              dutySpent := false, waitSince := none, stallSince := s.now
              stalls := modAt x.stalls StallCause.thermalHold.code (satAdd · (s.now - b.waitSince.getD s.now)) }).kickBsu st ch
        else if (s.stack st).dutyCap = .full then s
        else (s.chargeBsu st ch).modBsu st ch fun x =>
          { x with dutySpent := true, waitSince := if x.busy = true then some s.now else none })) ∧
    (∀ id, s.bsuOp id = none → exec (.bsuOperationComplete id) s = .next s) ∧
    (∀ id op, s.bsuOp id = some op → exec (.bsuOperationComplete id) s = .next
      (if s.stepOpen = true ∧ s.stopped = false ∧ s.bsuDone op = true then
        op.parts.foldl (fun x q => x.kickBsu q.stack q.channel) (s.finishBsu op) else s))

/-- In a stack in service: a refresh that is due is done, or postponed while its bank is busy; a forced one ends the
hold of its bank or the pause of its unit; refresh management holds its bank for one refresh once the bank's
activations reach the threshold. The scrubber visits each sector once a cycle, not in HALT nor on a retired channel;
a cycle past 24 hours is late once. Seventeen sensors set the stage, and reaching HALT ends what is under way; a
calm stage falls by one after its 10 ms. A PHY calibration waits for the one before and holds its pseudo-channel for
200 ns. A shared-buffer quarter lights for a waiting request and goes dark 100 µs after its last access. What a
refresh pays and how long it holds are the model's (log entry 45). When a row counts as activated is the model's
(log entry 114). (R440, R442, R443, R444, R445, R446, R448, R450, R452, R492, R719, R744) -/
def Obligations.StacksRefreshScrubAndKeepTheirStages : Prop :=
  ∀ s : State,
    (∀ st, st < 8 → s.stackInService st = false →
      (∀ temps, exec (.stackSensorSample st temps) s = .next s) ∧ exec (.scrubLate st) s = .next s ∧
      exec (.stageFall st) s = .next s ∧
      ∀ pch, pch < 64 → exec (.phyCalibration st pch) s = .next s ∧
        (∀ ecc, exec (.patrolScrubSector st pch ecc) s = .next s) ∧
        ∀ bank, bank < 64 → exec (.refreshDue st pch bank) s = .next s ∧ exec (.refreshForced st pch bank) s = .next s ∧
          exec (.refreshManagement st pch bank) s = .next s) ∧
    (∀ st, st < 8 → s.stackInService st = true →
      let k := s.stack st
      (∀ pch, pch < 64 →
        (∀ bank, bank < 64 →
          let b := s.bank st pch bank
          exec (.refreshDue st pch bank) s = .next
            (if s.bankBusy st pch bank = true then s.postpone st pch bank else s.refreshNow st pch bank) ∧
          exec (.refreshForced st pch bank) s = .next
            (if b.held = true then
              if (s.bsu st (pch / 2)).paused = true then s.endPause st (pch / 2) else s.endForced st pch bank
            else s) ∧
          exec (.refreshManagement st pch bank) s = .next
            (if k.activationThreshold ≤ b.activations then
              (((s.chargeAll.setBank st pch bank { b with held := true }).advanceTo (s.now + 190)).chargeAll.setBank st pch
                bank { b with row := none, activations := 0 }).modStack st fun x => { x with rfmIssued := satAdd x.rfmIssued 1 }
            else s)) ∧
        (∀ ecc, exec (.patrolScrubSector st pch ecc) s = .next
          (let s1 := if k.stage = .halt then s else s.modStack st (Stack.scrubOn s.now)
          let k1 := s1.stack st
          if k1.stage = .halt ∨ (k1.channels.getD (pch / 2) {}).retired = true ∨ pch ∈ k1.scrubbed then s1
          else (s1.newCascade.scrubSector st pch ecc).inCascade none)) ∧
        (s.dev.lit = true → k.stage ≠ .halt →
          let t := s.advanceTo ((k.calibrating.map (·.2)).getD 0)
          exec (.phyCalibration st pch) s = .next
            (({ t with tele := { t.tele with phyCalibrations := satAdd t.tele.phyCalibrations 1 } } : State).modStack st
              fun x => { x with calibrating := some (pch, t.now + 200), nextCalibration := (pch + 1) % 64 }))) ∧
      (k.scrubRaised = true → exec (.scrubLate st) s = .next s) ∧
      (k.scrubRaised = false → ∃ t : State, exec (.scrubLate st) s = .next t ∧
        t.events.nextSeq = s.events.nextSeq + 1 ∧ k.scrubStart + 24 * hourNs ≤ t.now) ∧
      (∀ temps, (temps.length ≠ 17 ∨ ∃ x ∈ temps, x < -32768 ∨ 32767 < x) →
        exec (.stackSensorSample st temps) s = .next s) ∧
      (∀ temps, temps.length = 17 → (∀ x ∈ temps, -32768 ≤ x ∧ x ≤ 32767) →
        let s1 := s.advanceTo (k.lastSample + 50 * usNs)
        let s2 := s1.modStack st (Stack.sample s1.now temps)
        exec (.stackSensorSample st temps) s = .next
          (if k.stage ≠ .halt ∧ (s2.stack st).stage = .halt then (s2.enterHalt st).inCascade none else s2)) ∧
      (k.calmSince = none → exec (.stageFall st) s = .next s) ∧
      (∀ t, k.calmSince = some t → ∃ u : State, exec (.stageFall st) s = .next u ∧
        max t k.stageSince + 10 * msNs ≤ u.now)) ∧
    (∀ d q, quarterExists d q = true →
      let i := 4 * d + q
      exec (.sharedQuarterDark d q) s = .next
        (if s.sharedLit.getD i false = true then
          { s.advanceTo (s.sharedAccess.getD i 0 + 100 * usNs) with sharedLit := modAt s.sharedLit i fun _ => false }
        else s) ∧
      exec (.sharedQuarterLit d q) s = .next
        (if s.dieInService d = true ∧ s.sharedLit.getD i false = false ∧
          ∃ r ∈ s.requests, r.discarded = false ∧ (inQuarter d q r.src = true ∨ inQuarter d q r.dst = true) then
          { s with sharedLit := modAt s.sharedLit i fun _ => true, sharedAccess := modAt s.sharedAccess i fun _ => s.now }
        else s))

/-- A scrubbed word that is corrected is written back and counted, one that is not is an event of its unit. A laser
reading is stored; a source at DRIVE 1,400 retires, one at 1,250 or 1 dB below its set point is replaced, and an
output drop retires it. A block worn 1,000 erases past the mean is relocated when no append waits, and a spare takes
its place where its erase fails. A telemetry interval appends one record at its end and may raise its interrupts. In
a device that is not lit nothing changes. Which erases are counted is the model's (log entry 121). (R605, R671,
R743, R745, R746, R748, R749, R750, R754, R757) -/
def Obligations.BackgroundWorkKeepsTheBlockHealthy : Prop :=
  ∀ s : State,
    (∀ (word : SramRef) (done : Bool), sramExists word = true →
      let s1 : State :=
        if done = true then { s with tele := { s.tele with scrubPasses := satAdd s.tele.scrubPasses 1 } } else s
      (s.sramLit word = false → ∀ ecc, exec (.sramScrubWord word ecc done) s = .next s) ∧
      (s.sramLit word = true →
        exec (.sramScrubWord word none done) s = .next s1 ∧
        exec (.sramScrubWord word (some .onDie) done) s = .next s1 ∧
        exec (.sramScrubWord word (some .retried) done) s = .next s1 ∧
        exec (.sramScrubWord word (some .corrected) done) s = .next (s1.scrubCorrectedWord word) ∧
        exec (.sramScrubWord word (some .uncorrectable) done) s = .next (s1.scrubFailedWord word))) ∧
    (∀ i, i < 20 →
      (s.dev.lit = false → (∀ drive output temp, exec (.laserTracking i drive output temp) s = .next s) ∧
        ∀ output, exec (.laserOutputDrop i output) s = .next s) ∧
      (s.dev.lit = true → ∀ drive output temp,
        let old := s.laser i
        let s1 := s.modLaser i fun l =>
          { l with
            drive := drive, output := output, temp := temp, lowering := false
            setOutput := if l.setOutput = 0 ∧ l.state = .active then output else l.setOutput
            onSeconds := if l.state = .active then l.onSeconds + 1 else l.onSeconds }
        (i < s.lasers.length → exec (.laserTracking i drive output temp) s = .next
          (if old.state ≠ .active then s1
          else if 1400 ≤ drive then s1.retireLaser i
          else if 1250 ≤ drive ∨ (old.setOutput ≠ 0 ∧ oneDbBelow output old.setOutput = true) then s1.replaceLaser i
          else s1)) ∧
        exec (.laserOutputDrop i output) s = .next
          (if old.state = .active then (s.modLaser i fun l => { l with output := output }).retireLaser i else s))) ∧
    (∀ b ok, b < 256 → exec (.flashRelocation b ok) s = .next
      (if s.dev.lit = true ∧ s.events.appends = [] ∧
        s.flash.erases.sum + 1000 * 256 < s.flash.erases.getD b 0 * 256 then
        { s with
          flash := s.flash.eraseBlock b ok
          tele := { s.tele with flashRelocations := satAdd s.tele.flashRelocations 1 } }
      else s)) ∧
    (∀ (f : Flash) (b : Nat), f.eraseBlock b true = { f with erases := modAt f.erases b (· + 1) } ∧
      (f.spareBlocks = 0 → f.eraseBlock b false = { f with erases := modAt f.erases b (· + 1) }) ∧
      (0 < f.spareBlocks → f.eraseBlock b false =
        { f with erases := modAt f.erases b fun _ => 0, spareBlocks := f.spareBlocks - 1
                 retiredBlocks := f.retiredBlocks + 1 })) ∧
    (∀ mean, (s.dev.lit = false ∨ s.tele.sampling = false → exec (.telemetrySample mean) s = .next s) ∧
      (s.dev.lit = true → s.tele.sampling = true → ∃ t : State, exec (.telemetrySample mean) s = .next t ∧
        t.tele.nextSeq = s.tele.nextSeq + 1 ∧ t.tele.records = satAdd s.tele.records 1 ∧
        t.tele.lastSample = (s.tele.lastSample / 1000000 + 1) * 1000000 ∧ t.tele.lastSample ≤ t.now ∧ t.mem = s.mem))

/-- A window's samples are recorded; in a lit device over its power limit, or with a compute die above 100 °C, the level
rises by one up to 4, and the stacks' duty cap is the level's. After 1 ms of calm it falls by one. A hold starts on
a lit tile from level 2 on and ends with its time counted under THERMAL_HOLD and an activity ramp. THERM_N is
asserted at 110 °C or after 10 ms at level 4 over the limit, and released after its 10 ms below. Otherwise nothing
changes. The origin of the windows of holds is the model's (log entry 120). (R101, R178, R223, R486, R737, R738,
R739) -/
def Obligations.SnufferHoldsPowerAndTemperature : Prop :=
  ∀ s : State,
    (s.dev.answers = false → (∀ w cd iod, exec (.snufferWindow w cd iod) s = .next s) ∧ exec .thermAssert s = .next s ∧
      exec .thermRelease s = .next s) ∧
    (s.dev.answers = true → ∀ (w : Nat) (cd iod : Int),
      let s1 := (s.advanceTo ((s.now / 100000 + 1) * 100000)).snuffSample w cd iod
      let over_ := decide (s.flash.policy.powerLimitW * 1000 < w)
      let hot := decide (1600 < cd)
      exec (.snufferWindow w cd iod) s = .next
        (if s.dev.lit = true ∧ s.pilot.level < 4 ∧ (over_ = true ∨ hot = true) then
          { s1 with
            pilot := { s1.pilot with
              level := s.pilot.level + 1, byPower := over_, byTemperature := hot, calmSince := none
              levelRaises := satAdd s.pilot.levelRaises 1 }
            hbm := s1.hbm.map fun k => { k with dutyCap := levelCap (s.pilot.level + 1) } }
        else s1)) ∧
    (∀ t, s.pilot.calmSince = some t → s.dev.lit = true → 0 < s.pilot.level → ∃ u : State,
      exec .snufferLower s = .next u ∧ u.pilot.level = s.pilot.level - 1 ∧ t + 1000000 ≤ u.now ∧
      ∀ k ∈ u.hbm, k.dutyCap = levelCap (s.pilot.level - 1)) ∧
    (s.pilot.calmSince = none ∨ s.dev.lit = false ∨ s.pilot.level = 0 → exec .snufferLower s = .next s) ∧
    (∀ d p, tileExists d p = true →
      let t := s.tile d p
      exec (.tileHold d p true) s = .next
        (if s.dev.lit = true ∧ 2 ≤ s.pilot.level ∧ t.lit = true ∧ t.thermalHold = false then
          let u := s.advanceTo (holdStart s.now p)
          (u.endStall d p).modTile d p fun x => { x with thermalHold := true, holdSince := u.now }
        else s) ∧
      (t.thermalHold = false → exec (.tileHold d p false) s = .next s) ∧
      (t.thermalHold = true → ∃ s3 : State, exec (.tileHold d p false) s = .next (s3.settle d p) ∧
        t.holdSince + levelHold s.pilot.level ≤ s3.now ∧
        s3.pilot.holdNs = satAdd s.pilot.holdNs (s3.now - t.holdSince))) ∧
    (s.dev.answers = true →
      (s.pilot.therm = true ∨ (s.pilot.dieTempMax < 1760 ∧ s.pilot.overSince = none) → exec .thermAssert s = .next s) ∧
      (s.pilot.therm = false → (1760 ≤ s.pilot.dieTempMax ∨ s.pilot.overSince ≠ none) → ∃ u : State,
        exec .thermAssert s = .next u ∧ u.pilot.therm = true ∧
        u.pilot.thermAssertions = satAdd s.pilot.thermAssertions 1 ∧ u.pilot.level = s.pilot.level) ∧
      (s.pilot.therm = false ∨ s.pilot.coolSince = none → exec .thermRelease s = .next s) ∧
      (∀ t, s.pilot.therm = true → s.pilot.coolSince = some t → exec .thermRelease s = .next
        { s.advanceTo (t + 10000000) with pilot := { s.pilot with therm := false } }))

/-- A flit whose CRC fails is discarded: only the error is counted and a NAK owed. A good DATA or CONTROL flit in
sequence advances the receive sequence modulo 4,096 and owes an acknowledgement; one out of sequence owes a NAK; an
IDLE flit advances nothing. The timeout of an acknowledgement, 2 µs after the last flit was sent, replays what waits
for one. LANE_CHANGE, RETRAIN_REQUEST and QUIESCE of the peer act on a port in service. A port that is not linked,
or not in service, changes nothing. What a LANE_CHANGE does to this end's lane is the model's (log entry 63). (R527,
R536, R537, R538, R539) -/
def Obligations.LinkLayerAcceptsFlitsInSequence : Prop :=
  ∀ (s : State) (n : Nat), n < 8 →
    let p := s.port n
    (p.linked = false → (∀ f, exec (.flitReceive n f) s = .next s) ∧ exec (.flitAckTimeout n) s = .next s) ∧
    (p.linked = true →
      (p.replay = [] → exec (.flitAckTimeout n) s = .next s) ∧
      (p.replay ≠ [] →
        let due := p.lastSent + 2000
        exec (.flitAckTimeout n) s = .next ((s.advanceTo due).modPort n fun x =>
          { x with replayedFlits := satAdd x.replayedFlits x.replay.length, lastSent := max s.now due })) ∧
      ∀ f : Flit,
        (crc32c (flitBytes f) ≠ f.crc ∨ 2 < f.kind ∨ 5 ≤ f.creditVc → exec (.flitReceive n f) s = .next
          (s.modPort n fun x => { x with flitCrcErrors := satAdd x.flitCrcErrors 1, nakDue := true })) ∧
        (crc32c (flitBytes f) = f.crc → f.kind ≤ 2 → f.creditVc < 5 → exec (.flitReceive n f) s = .next
          (s.modPort n fun x =>
            let y := x.takeFlit s.now f
            if f.kind = 0 then y
            else if f.seq = y.rxSeq then
              { y with rxSeq := (y.rxSeq + 1) % 4096, flitsReceived := satAdd y.flitsReceived 1
                       ackDue := true, nakDue := false }
            else { y with nakDue := true }))) ∧
    (∀ lane, lane < 5 →
      (p.inService = false → (∀ w, exec (.laneChange n lane w) s = .next s) ∧
        exec (.retrainRequest n lane) s = .next s ∧ exec (.quiesce n) s = .next s) ∧
      (p.inService = true →
        exec (.retrainRequest n lane) s =
          .next (s.modPort n fun x => { x with peerChanges := x.peerChanges ++ [.retrain lane] }) ∧
        exec (.quiesce n) s = .next (s.modPort n fun x => { x with quiesceAsked := true }) ∧
        ∀ w, exec (.laneChange n lane w) s = .next
          (if 2 ≤ w ∧ w ≤ p.width then
            let r := LaneRef.port n lane
            let s1 := if (s.lane r).state = .active then s.modLane r (Lane.enter s.now .suspect) else s
            s1.modPort n fun x => { x with
              peerChanges := x.peerChanges ++ [if w < p.width then .narrow w else .vacated lane none .none] }
          else s)))

/-- On a port of the device: a good DATA or CONTROL flit in sequence is received: the receive sequence advances modulo
4,096, the flit is counted and an acknowledgement is owed; an acknowledgement that is late by 2 µs sends the waiting
flits again and counts them; a LANE_CHANGE of the peer to a lower width is queued as a narrowing, one to the width
in use as the loss of its lane; a RETRAIN_REQUEST is queued; a QUIESCE is noted. What a LANE_CHANGE does to this
end's lane is the model's (log entry 63). (R527, R536, R537, R538, R539) -/
def Obligations.LinkRowsComplete : Prop :=
  ∀ (s : State) (n : Nat), n < 8 → n < s.ports.length →
    let p := s.port n
    (∀ f : Flit, p.linked = true → crc32c (flitBytes f) = f.crc → (f.kind = 1 ∨ f.kind = 2) → f.creditVc < 5 → f.seq = p.rxSeq →
      ∃ t : State, exec (.flitReceive n f) s = .next t ∧ (t.port n).rxSeq = (p.rxSeq + 1) % 4096 ∧
        (t.port n).flitsReceived = satAdd p.flitsReceived 1 ∧ (t.port n).ackDue = true ∧ (t.port n).nakDue = false) ∧
    (p.linked = true → p.replay ≠ [] →
      ∃ t : State, exec (.flitAckTimeout n) s = .next t ∧ t.now = max s.now (p.lastSent + 2000) ∧
        (t.port n).replay = p.replay ∧ (t.port n).replayedFlits = satAdd p.replayedFlits p.replay.length) ∧
    (p.inService = true → ∀ lane, lane < 5 →
      (∀ w, 2 ≤ w → w ≤ p.width →
        ∃ t : State, exec (.laneChange n lane w) s = .next t ∧
          (t.port n).peerChanges = p.peerChanges ++ [if w < p.width then .narrow w else .vacated lane none .none]) ∧
      (∃ t : State, exec (.retrainRequest n lane) s = .next t ∧ (t.port n).peerChanges = p.peerChanges ++ [.retrain lane]) ∧
      ∃ t : State, exec (.quiesce n) s = .next t ∧ (t.port n).quiesceAsked = true)

/-- A training Torcor port of fewer than two good lanes fails; of two or more it comes up fresh at its width and sends
HELLO. Loss of the peer fails a port in use, and returning light lets such a port train again. A HELLO that passes
the packet checks is taken. An Ethernet port comes up from training, goes down on a lane's failure, restarting an
object that it carried, and tries again every 10 s. Frames are counted and answered as their kind asks. Rows outside
their states change nothing. The rate after a congestion notice is a free value. (R528, R544, R548, R549, R550,
R551, R575, R576, R779, R780) -/
def Obligations.PortsTrainFailAndReturn : Prop :=
  ∀ (s : State) (n : Nat), n < 8 →
    let p := s.port n
    (∀ pkt : Packet,
      (p.linked = false ∨ pkt.ptype ≠ 0x30 → exec (.helloReceive n pkt) s = .next s) ∧
      (p.linked = true → pkt.ptype = 0x30 →
        let x := (s.freed n pkt).letIn n pkt
        (x.2 = false → exec (.helloReceive n pkt) s = .next x.1) ∧
        (x.2 = true → exec (.helloReceive n pkt) s = .next
          (((x.1.takeHello n (pkt.address.toNat % 2 ^ 14) (bits pkt.address.toNat 18 16)).helloTurn
            n).checkHello)))) ∧
    exec (.portPeerLoss n) s = .next
      (if p.ethernet = false ∧ (p.state = .up ∨ p.state = .degraded ∨ p.state = .miswired) then
        (s.newCascade.failPort n .lossOfSignal).modPort n fun x => { x with peerLost := true }
      else s) ∧
    (∀ tests : List LaneTest,
      let tr := s.newCascade.trainGroup tests (.port n 0)
      let s2 := (tr.1.modPort n fun x => { x.freshLink with width := tr.2, state := stateOfWidth tr.2 }).raiseNewlyRetired
        s (.port n 0)
      let s3 := if tr.2 < 4 then s2.raise (narrowEvent (.port n 0) tr.2 .selfTest) else s2
      exec (.portTrainingComplete n tests) s = .next
        (if p.state = .training ∧ p.ethernet = false then
          if tr.2 < 2 then (tr.1.raiseNewlyRetired s (.port n 0)).failPort n .selfTest else (s3.portBack n).sendHello n
        else s)) ∧
    exec (.portLightReturn n) s = .next
      (if p.state = .failed ∧ p.peerLost = true then s.modPort n fun x => { x with state := .training } else s) ∧
    exec (.ethernetLinkUp n) s = .next
      (if p.state = .training ∧ p.ethernet = true then s.modPort n fun x => { x with state := .ethernetUp, width := 4 }
      else s) ∧
    (∀ lane, lane < 5 →
      let s1 := s.modPort n fun x => { x with state := .ethernetDown, width := 0, retryAt := s.now + 10000000000 }
      let s2 : State := if s1.exportsOn n = true then s1.cutExports else s1
      exec (.ethernetLaneFailure n lane) s = .next
        (if p.state = .ethernetUp ∧ lane < 4 then
          s2.newCascade.raise { code := .portDown, unit := { kind := .port, link := n } } else s)) ∧
    (∀ passed : Bool,
      let s1 := s.advanceTo p.retryAt
      exec (.ethernetRetrain n passed) s = .next
        (if p.state = .ethernetDown then s1.modPort n fun x =>
          if passed = true then { x with state := .ethernetUp, width := 4 } else { x with retryAt := s1.now + 10000000000 }
        else s)) ∧
    (p.state ≠ .ethernetUp → exec (.ethernetInboundRequest n) s = .next s ∧
      exec (.arpAndNeighbourDiscovery n) s = .next s ∧ exec (.ecnMarkedTraffic n) s = .next s ∧
      exec (.cnpReceive n) s = .next { s with freeCount := s.freeCount + 1 }) ∧
    (p.state = .ethernetUp →
      let counted := fun (f : Port → Port) => s.modPort n fun x => { f x with
        ethFramesReceived := satAdd x.ethFramesReceived 1, ethFramesSent := satAdd x.ethFramesSent 1 }
      exec (.ethernetInboundRequest n) s = .next (counted fun x => { x with naksSent := satAdd x.naksSent 1 }) ∧
      exec (.arpAndNeighbourDiscovery n) s = .next (counted fun x => { x with arpAnswered := satAdd x.arpAnswered 1 }) ∧
      exec (.ecnMarkedTraffic n) s = .next (counted fun x => { x with cnpSent := satAdd x.cnpSent 1 }) ∧
      exec (.cnpReceive n) s = .next (({ s with freeCount := s.freeCount + 1 } : State).modPort n fun x =>
        { x with
          ethCnpReceived := satAdd x.ethCnpReceived 1, ethRate := some (Config.freeWord s.freeCount)
          ethFramesReceived := satAdd x.ethFramesReceived 1, ethFramesSent := satAdd x.ethFramesSent 0 }))

/-- The credits that a packet brings are taken first. A packet of the row's type, for this device, on a port that takes
packets, is dropped with a count for a foreign partition key, refused with a NACK for a bad end-to-end CRC, and only
then takes its row's effect; any other packet changes nothing. A dropped packet leaves memory, host memory, the step
and the program as they were. A packet for another device is forwarded under the same key check. A PUT without an
answer for STALL_LIMIT fails the fabric of an open step. (R535, R541, R542, R543, R556, R557, R558, R566, R567,
R568) -/
def Obligations.PacketsAreCheckedBeforeTheyAct : Prop :=
  ∀ (s : State) (n : Nat) (pkt : Packet), n < 8 →
    let s0 := s.freed n pkt
    let take := fun (row : Instr) (ptype : Nat) (f : State → State) =>
      (s.takesPackets n = false ∨ pkt.ptype ≠ ptype ∨ s.isMine pkt = false → exec row s = .next s) ∧
      (s.takesPackets n = true → pkt.ptype = ptype → s.isMine pkt = true →
        (pkt.key ∉ s.flash.protection.keys → ∃ t : State, exec row s = .next t ∧
          (t.port n).partitionDrops = satAdd (s.port n).partitionDrops 1 ∧ t.mem = s.mem ∧ t.hostMem = s.hostMem ∧
          t.run = s.run ∧ t.program = s.program) ∧
        (pkt.key ∈ s.flash.protection.keys → pkt.crcOf ≠ pkt.e2eCrc →
          exec row s = .next ((s0.modPort n fun x => { x with e2eCrcErrors := satAdd x.e2eCrcErrors 1 }).nack nackE2e pkt)) ∧
        (pkt.key ∈ s.flash.protection.keys → pkt.crcOf = pkt.e2eCrc →
          exec row s = .next (f (s0.modPort n fun x => { x with bytes := x.bytes + pkt.payload.length }))))
    n < s.ports.length →
    (∀ ecc, take (.putReceive n pkt ecc) 0x01 fun t => match t.unwire pkt with
      | (t1, none) => t1.nack nackMemory pkt
      | (t1, some bs) => match t1.putWrite (pkt.address.toNat % 2 ^ 44) bs ecc with
        | (t2, some d) => t2.nack d.nackReason pkt
        | (t2, none) => t2.answer 0x02 0 pkt) ∧
    take (.packetAckReceive n pkt) 0x02 (fun t => match t.instOfMsg (pkt.address.toNat % 2 ^ 32) with
      | none => t
      | some i =>
        let j := { i with unacked := i.unacked.filter (· != pkt.address.toNat % 2 ^ 32), lastActivity := t.now }
        let t1 := t.modInst i.entry i.sequence fun _ => j
        if j.unacked = [] ∧ t1.stepOpen = true ∧ t1.stopped = false then t1.finishInst (t1.planEntry i.entry) j else t1) ∧
    take (.nackReceive n pkt) 0x03 (fun t => if t.stepOpen = true ∧ pkt.step = stepWord t.stepNo then
      t.fabricFails n pkt.srcRank pkt.entry (bits pkt.address.toNat 47 32) else t) ∧
    take (.collDataReceive n pkt) 0x10 (fun t => t.collPacket n pkt) ∧
    take (.collFlagReceive n pkt) 0x11 (fun t => t.collPacket n pkt) ∧
    take (.abortReceive n pkt) 0x20 (fun t => t.takeAbort n pkt) ∧
    (s.takesPackets n = false ∨ s.isMine pkt = true → exec (.packetForward n pkt) s = .next s) ∧
    (s.takesPackets n = true → s.isMine pkt = false →
      (pkt.key ∈ s.flash.protection.keys → exec (.packetForward n pkt) s = .next (s0.forward pkt)) ∧
      (pkt.key ∉ s.flash.protection.keys →
        let s1 := s0.modPort n fun x => { x with partitionDrops := satAdd x.partitionDrops 1 }
        exec (.packetForward n pkt) s = .next (if answered pkt = true then s1.nack nackPartition pkt else s1))) ∧
    (∀ id, (s.instOfMsg id = none ∨ s.stepOpen = false → exec (.putTimeout id) s = .next s) ∧
      ∀ i, s.instOfMsg id = some i → s.stepOpen = true → exec (.putTimeout id) s = .next
        ((s.advanceTo (i.issuedAt + s.stallLimit)).fabricFails 0xFF (s.planEntry i.entry).peer i.entry rsNoProgress))

/-- The pin FAULT_N, an open-drain output, is low when the device is FAULTED and not driven in every other state. On a
device whose Lamplighter runs, a restart cause and an uncontained fault each complete with the device FAULTED, and
with the pin low. (R606) -/
def Obligations.FaultNIsAssertedWhileTheDeviceIsFaulted : Prop :=
  ∀ s : State,
    (s.dev = .faulted → s.faultN = .low) ∧ (s.dev ≠ .faulted → s.faultN = .hiZ) ∧
    (s.lampServes = true →
      (∀ cause, ∃ t : State, exec (.lamplighterRestart cause) s = .next t ∧ t.dev = .faulted ∧ t.faultN = .low) ∧
      ∀ cause, ∃ t : State, exec (.uncontained cause) s = .next t ∧ t.dev = .faulted ∧ t.faultN = .low)

/-- In every state but DARK: STATUS is served; RECORDS, EVENTS and REGISTER are served in a lit device with a count and
an address in range, and otherwise refused with the byte 0xFF; each served read is counted. DISEC ends in-band
interrupts. An address is assigned only while there is none. Nothing but the I3C state and its count of transfers
changes. In DARK nothing is served. The refusals' count and the assignment rule are the model's (log entry 64).
(R756, R757, R759) -/
def Obligations.I3cTargetServesTheBoard : Prop :=
  ∀ s : State,
    let served := fun (t : State) b =>
      { t with i3c := { t.i3c with reply := b }, tele := { t.tele with i3cTransfers := satAdd t.tele.i3cTransfers 1 } }
    let refused : State := { s with i3c := { s.i3c with reply := [0xFF] } }
    (s.dev.answers = false → exec .i3cStatus s = .next s ∧ (∀ a b, exec (.i3cRecords a b) s = .next s) ∧
      (∀ a b, exec (.i3cEvents a b) s = .next s) ∧ (∀ a b, exec (.i3cRegister a b) s = .next s) ∧
      exec .i3cDisec s = .next s ∧ (∀ a, exec (.i3cSetdasa a) s = .next s) ∧ ∀ a, exec (.i3cEntdaa a) s = .next s) ∧
    (s.dev.answers = true →
      exec .i3cStatus s = .next (served s s.i3cStatusBytes) ∧
      (∀ seq count, exec (.i3cRecords seq count) s = .next
        (if s.dev.lit = true ∧ 1 ≤ count ∧ count ≤ 8 then
          let r := s.telemetryResult seq count
          served { s with i3c := { s.i3c with
            cursor := r.2, signalled := s.i3c.signalled && decide (s.tele.threshold < s.tele.nextSeq - r.2) } } r.1
        else refused)) ∧
      (∀ seq count, exec (.i3cEvents seq count) s = .next
        (if s.dev.lit = true ∧ 1 ≤ count ∧ count ≤ 16 then
          served s (eventsResult s.events.ring s.events.nextSeq seq count) else refused)) ∧
      (∀ addr words, exec (.i3cRegister addr words) s = .next
        (if s.dev.lit = true ∧ 1 ≤ words ∧ words ≤ 16 ∧ addr % 4 = 0 ∧ daSpace addr = 0xF then
          served s ((List.range words).flatMap fun i => leBytes 4 (s.spaceFWord (addr + 4 * i))) else refused)) ∧
      exec .i3cDisec s = .next { s with i3c := { s.i3c with ibiEnabled := false, ibiPending := [] } } ∧
      ∀ a, (s.i3c.dynamicAddr = none →
          exec (.i3cSetdasa a) s = .next { s with i3c := { s.i3c with dynamicAddr := some a } } ∧
          exec (.i3cEntdaa a) s = .next { s with i3c := { s.i3c with dynamicAddr := some a } }) ∧
        (s.i3c.dynamicAddr ≠ none → exec (.i3cSetdasa a) s = .next s ∧ exec (.i3cEntdaa a) s = .next s))

/-- Each command replies in its form with OK or ERR and a code. While an Owner digest is installed and no credential was
given, every command but HELP, STATUS and UNLOCK answers ERR NOT_PRIVILEGED and changes nothing else. UNLOCK
compares the credential's digest, counts a failure and honours lockout. PEEK and DUMP of bytes that no running slice
claims, no refresh and no calibration holds only read; POKE and BREAK set TAINTED; FUSE DEBUG blows the fuse for
this unit's identifier alone. With the fuse blown, the device dark or its Lamplighter dead (log entry 119), no
command has any effect. The reply's form is the model's (log entry 65). (R620, R700, R701, R702, R703, R704, R706) -/
def Obligations.TinderAnswersOnlyWhenItMay : Prop :=
  ∀ s : State,
    let rows := [Instr.tinderHelp, .tinderStatus, .tinderBreak, .tinderGo]
    (s.lampServes = false ∨ s.fuses.debugBlown = true →
      (∀ row ∈ rows, exec row s = .next s) ∧ (∀ c, exec (.tinderUnlock c) s = .next s) ∧
      (∀ a w, exec (.tinderPeek a w) s = .next s) ∧ (∀ a v, exec (.tinderPoke a v) s = .next s) ∧
      (∀ a l ecc, exec (.tinderDump a l ecc) s = .next s) ∧ (∀ m, exec (.tinderTrace m) s = .next s) ∧
      ∀ u, exec (.tinderFuseDebug u) s = .next s) ∧
    (s.lampServes = true → s.fuses.debugBlown = false →
      (∃ lines, exec .tinderHelp s = .next (s.reply lines .ok)) ∧
      exec .tinderStatus s = .next (s.reply (hexLine s.stateRecord) .ok) ∧
      (∀ c, exec (.tinderUnlock c) s = .next (match s.flash.ownerDigest with
        | none => s.reply [] .ok
        | some d =>
          if s.lockedOut = true then s.reply [] .notPrivileged
          else if credentialDigest c = d then
            ({ s with tinder := { s.tinder with unlocked := true } } : State).reply [] .ok
          else s.authFailed.reply [] .notPrivileged)) ∧
      (s.flash.ownerDigest ≠ none → s.tinder.unlocked = false →
        let no := s.reply [] .notPrivileged
        exec .tinderBreak s = .next no ∧ exec .tinderGo s = .next no ∧ (∀ a w, exec (.tinderPeek a w) s = .next no) ∧
        (∀ a v, exec (.tinderPoke a v) s = .next no) ∧ (∀ a l ecc, exec (.tinderDump a l ecc) s = .next no) ∧
        (∀ m, exec (.tinderTrace m) s = .next no) ∧ ∀ u, exec (.tinderFuseDebug u) s = .next no) ∧
      (s.flash.ownerDigest = none ∨ s.tinder.unlocked = true →
        exec .tinderBreak s = .next (s.startBreak.reply [] .ok) ∧ s.startBreak.tinder.broken = true ∧
        exec .tinderGo s = .next (s.endBreak.reply [] .ok) ∧
        (∀ m, exec (.tinderTrace m) s =
          .next (({ s with tinder := { s.tinder with trace := m } } : State).reply [] .ok)) ∧
        (∀ a w, (a % 4 ≠ 0 ∨ w = 0 ∨ 64 < w → exec (.tinderPeek a w) s = .next (s.reply [] .badField)) ∧
          (a % 4 = 0 → 1 ≤ w → w ≤ 64 → (∀ g ∈ granules a (4 * w), s.claimed g.1 g.2 = false ∧ s.bankHeld g.1 = false ∧ s.calibrating g.1 = false) → ∃ t : State, exec (.tinderPeek a w) s = .next t ∧ t.mem = s.mem ∧
            t.fuses = s.fuses ∧ t.hostMem = s.hostMem)) ∧
        (∀ a l ecc, (l = 0 ∨ 2 ^ 20 < l → exec (.tinderDump a l ecc) s = .next (s.reply [] .badField)) ∧
          (1 ≤ l → l ≤ 2 ^ 20 → (∀ g ∈ granules a l, s.claimed g.1 g.2 = false ∧ s.bankHeld g.1 = false ∧ s.calibrating g.1 = false) → ∃ t : State, exec (.tinderDump a l ecc) s = .next t ∧ t.mem = s.mem ∧
            t.fuses = s.fuses ∧ t.hostMem = s.hostMem)) ∧
        (∀ a v, (a % 4 ≠ 0 ∨ debugSpace a = false → exec (.tinderPoke a v) s = .next (s.reply [] .badField)) ∧
          (a % 4 = 0 → debugSpace a = true → ∃ t : State, exec (.tinderPoke a v) s = .next t ∧ t.tinder.tainted = true)) ∧
        ∀ u, (u ≠ s.fuses.unitId → exec (.tinderFuseDebug u) s = .next (s.reply [] .badField)) ∧
          (u = s.fuses.unitId → ∃ t : State, exec (.tinderFuseDebug u) s = .next t ∧ t.fuses.debugBlown = true ∧
            t.tinder.unlocked = false ∧ t.mem = s.mem)))

/-- With the fuse whole and the device powered: FUSE_DEBUG blows the fuse; DEBUG_ACCESS moves one aligned word of a lit
device; CORE_HALT records the core; SCAN_DUMP shifts out data that the manual does not give. With the fuse blown,
these shift out nothing and change nothing else. DIE_ISOLATE isolates a die in either case, and reports its own
tests. Without supplies nothing happens. What SCAN_DUMP and a failed access shift out are free values (log entry
66). The effects of the stand-alone mode on the die's memories and lanes are the model's reading (log entry 106).
(R59, R61, R604, R705, R706) -/
def Obligations.BlownDebugFuseEndsJtagDebug : Prop :=
  ∀ s : State,
    let bypass : State := { s with tinder := { s.tinder with jtagOut := [] } }
    (s.dev.answers = false → exec .jtagFuseDebug s = .next s ∧ (∀ a v, exec (.debugAccess a v) s = .next s) ∧
      (∀ c, c < 2 → exec (.coreHalt c) s = .next s) ∧ exec .scanDump s = .next s ∧
      ∀ d passed tests, d < 11 → exec (.dieIsolate d passed tests) s = .next s) ∧
    (s.dev.answers = true →
      (∀ d passed tests, d < 11 → exec (.dieIsolate d passed tests) s = .next (s.isolate d passed tests) ∧
        (d < s.dies.length → ((s.isolate d passed tests).die d).isolated = true)) ∧
      (s.fuses.debugBlown = true → exec .jtagFuseDebug s = .next bypass ∧
        (∀ a v, exec (.debugAccess a v) s = .next bypass) ∧ (∀ c, c < 2 → exec (.coreHalt c) s = .next bypass) ∧
        exec .scanDump s = .next bypass) ∧
      (s.fuses.debugBlown = false →
        exec .jtagFuseDebug s = .next { s with
          fuses := { s.fuses with debugBlown := true }
          tinder := { s.tinder with unlocked := false, trace := .off, traceBuffer := [], coreHalted := [] } } ∧
        (∀ a v, s.dev.lit = true → a % 4 = 0 → exec (.debugAccess a v) s = .next (match v with
          | none => match s.debugRead a 4 with
            | (s1, .ok b) => { s1 with tinder := { s1.tinder with jtagOut := b } }
            | (s1, .error _) => s1.jtagNothing
          | some w => let s1 := (s.debugWrite a (leBytes 4 w.toNat)).1
            { s1 with tinder := { s1.tinder with jtagOut := [] } })) ∧
        (∀ a v, s.dev.lit = false ∨ a % 4 ≠ 0 → exec (.debugAccess a v) s = .next s.jtagNothing) ∧
        (∀ c, c < 2 → ∃ t : State, exec (.coreHalt c) s = .next t ∧ c ∈ t.tinder.coreHalted ∧
          { t with tinder := { t.tinder with coreHalted := s.tinder.coreHalted } } = s) ∧
        (∃ out, exec .scanDump s = .next { s with
          freeCount := s.freeCount + 1, tinder := { s.tinder with jtagOut := out } })))

/-- For memory in its canonical form, writing bytes upward from an address makes each address of the range read its
byte, leaves every address outside as it was, and keeps the canonical form; a memory of no entries reads its one
value everywhere, and two canonical memories that read alike are equal. (That an unlisted byte reads 0 is the
model's choice: log entry 5.) (R196, R197, R422) -/
def Obligations.MemoryReadsWhatWasWrittenLast : Prop :=
  (∀ (m : List Host.Cell) (x : Nat) (bs : List Byte), Mem.wf m = true →
    Mem.wf (Mem.write m x bs) = true ∧ Mem.read (Mem.write m x bs) x bs.length = bs ∧
    ∀ a, a < x ∨ x + bs.length ≤ a → Mem.get (Mem.write m x bs) a = Mem.get m a) ∧
  ∀ m k : List Host.Cell, Mem.wf m = true → Mem.wf k = true → (∀ a, Mem.get m a = Mem.get k a) → m = k

/-- Over every command and state that meet the invariant: when the step answers a next state whose window table differs,
the command was SET_PROTECTION in one of the sixteen mailboxes, its request passed every common check of R621, and
the caller held the OWNER role's credential as R619 asks. (R579, R619, R621, R691) -/
def Obligations.OnlySetProtectionChangesTheWindows : Prop :=
  ∀ (c : Instr) (s t : State), s.Inv → exec c s = .next t → t.flash.protection.windows ≠ s.flash.protection.windows →
    ∃ n r p, c = .setProtection n r ∧ s.Accepts n specSetProtection r p
end

