-- ==== Sys2Proof/Laws/Evolves.lean ====
section
/-! SUPPORT. The relation that every command's effect stands in to the state it starts from: the queue is left alone,
fuses only grow, sequence numbers only rise, and each part of `State.Inv` is kept. It is a preorder, so that one lemma
per operation carries it through every command. -/

namespace Sys2Proof.Machine

/-- What an effect on a state does to the parts that the whole-machine statements speak of. -/
structure Changes (r s : State) : Prop where
  pending : s.pending = r.pending
  fuses : r.fuses.Grow s.fuses
  seq : r.events.nextSeq ≤ s.events.nextSeq
  ring : RingOk 4096 r.events.nextSeq r.events.ring → RingOk 4096 s.events.nextSeq s.events.ring
  flashRing : RingOk 1024 r.events.nextSeq r.flash.eventRing → RingOk 1024 s.events.nextSeq s.flash.eventRing
  mem : Mem.wf r.mem = true → Mem.wf s.mem = true
  hostMem : Mem.wf r.hostMem = true → Mem.wf s.hostMem = true
  tiles : s.tiles.length = r.tiles.length
  tile : (∀ t ∈ r.tiles, t.Shape) → ∀ t ∈ s.tiles, t.Shape
  hbm : s.hbm.length = r.hbm.length
  stack : (∀ k ∈ r.hbm, k.Shape) → ∀ k ∈ s.hbm, k.Shape
  ports : r.ports.length = 8 → s.ports.length = 8
  port : (∀ p ∈ r.ports, p.Shape) → ∀ p ∈ s.ports, p.Shape
  links : r.links.map (·.lanes.length) = [44, 22, 22] → s.links.map (·.lanes.length) = [44, 22, 22]
  dies : s.dies.map Die.identity = r.dies.map Die.identity
  lasers : s.lasers.length = r.lasers.length
  ftc : r.ftc.length = 3 → s.ftc.length = 3
  barriers : r.barriers.length = 32 → s.barriers.length = 32
  mailboxes : r.lamp.mailboxes.length = 16 → s.lamp.mailboxes.length = 16
  dma : r.host.dma.length = 8 → s.host.dma.length = 8
  msix : r.host.msix.length = 64 → s.host.msix.length = 64

/-- The same of an effect that leaves the host windows alone: host memory changes only where a window opens it. -/
structure Evolves (r s : State) : Prop extends Changes r s where
  windows : s.flash.protection.windows = r.flash.protection.windows
  outside : Mem.wf r.hostMem = true → ∀ a, ¬r.flash.protection.opens a → Mem.get s.hostMem a = Mem.get r.hostMem a

theorem Fuses.Grow.refl (a : Fuses) : a.Grow a := ⟨rfl, Nat.le_refl _, BitVec.and_self, id⟩

theorem Fuses.Grow.trans {a b c : Fuses} (h : a.Grow b) (k : b.Grow c) : a.Grow c where
  unitId := k.unitId.trans h.unitId
  rollback := Nat.le_trans h.rollback k.rollback
  revoked := by
    have h1 := h.revoked
    have h2 := k.revoked
    rw [← h1, BitVec.and_assoc, h2]
  debug := k.debug ∘ h.debug

theorem Evolves.refl (s : State) : Evolves s s where
  pending := rfl
  fuses := .refl _
  seq := Nat.le_refl _
  ring := id
  flashRing := id
  mem := id
  hostMem := id
  tiles := rfl
  tile := id
  hbm := rfl
  stack := id
  ports := id
  port := id
  links := id
  dies := rfl
  lasers := rfl
  ftc := id
  barriers := id
  mailboxes := id
  dma := id
  msix := id
  windows := rfl
  outside := fun _ _ _ => rfl

theorem Changes.trans {r s t : State} (h : Changes r s) (k : Changes s t) : Changes r t where
  pending := k.pending.trans h.pending
  fuses := h.fuses.trans k.fuses
  seq := Nat.le_trans h.seq k.seq
  ring := k.ring ∘ h.ring
  flashRing := k.flashRing ∘ h.flashRing
  mem := k.mem ∘ h.mem
  hostMem := k.hostMem ∘ h.hostMem
  tiles := k.tiles.trans h.tiles
  tile := k.tile ∘ h.tile
  hbm := k.hbm.trans h.hbm
  stack := k.stack ∘ h.stack
  ports := k.ports ∘ h.ports
  port := k.port ∘ h.port
  links := k.links ∘ h.links
  dies := k.dies.trans h.dies
  lasers := k.lasers.trans h.lasers
  ftc := k.ftc ∘ h.ftc
  barriers := k.barriers ∘ h.barriers
  mailboxes := k.mailboxes ∘ h.mailboxes
  dma := k.dma ∘ h.dma
  msix := k.msix ∘ h.msix

theorem Protection.opens_congr {p q : Protection} (h : p.windows = q.windows) (a : Nat) : p.opens a ↔ q.opens a := by
  unfold Protection.opens
  rw [h]

theorem Evolves.trans {r s t : State} (h : Evolves r s) (k : Evolves s t) : Evolves r t where
  toChanges := h.toChanges.trans k.toChanges
  windows := k.windows.trans h.windows
  outside := fun w a o =>
    (k.outside (h.hostMem w) a fun q => o ((Protection.opens_congr h.windows a).mp q)).trans (h.outside w a o)

/-- The invariant carries over. -/
theorem Changes.inv {r s : State} (h : Changes r s) (i : r.Inv) : s.Inv where
  shape :=
    { tiles := h.tiles.trans i.shape.tiles, tile := h.tile i.shape.tile, hbm := h.hbm.trans i.shape.hbm
      stack := h.stack i.shape.stack, ports := h.ports i.shape.ports, port := h.port i.shape.port
      links := h.links i.shape.links, dies := (by simpa using congrArg List.length h.dies : s.dies.length = r.dies.length).trans i.shape.dies, lasers := h.lasers.trans i.shape.lasers
      ftc := h.ftc i.shape.ftc, barriers := h.barriers i.shape.barriers, mailboxes := h.mailboxes i.shape.mailboxes
      dma := h.dma i.shape.dma, msix := h.msix i.shape.msix }
  mem := h.mem i.mem
  hostMem := h.hostMem i.hostMem
  ring := h.ring i.ring
  flashRing := h.flashRing i.flashRing

/-! ### A change of other fields -/

/-- A change that leaves alone every field that the relation speaks of. -/
theorem Evolves.record {r s : State}
    {dev : DevState} {now : Nat} {freeCount : Nat} {pilot : Pilot} {flash : Flash} {bundle : Bundle}
    {events : Events} {tele : Telemetry} {i3c : I3c} {tinder : Tinder} {floor : BitVec 64} {copper : List Link}
    {beacon : Beacon} {bsuOps : List BsuOp} {nextBsuOp : Nat} {host : HostIf} {lamp : Lamplighter}
    {session : Option Session} {program : Option Program} {fonts : List Font} {commit : CommitArea}
    {copyChannels : List (Nat × Nat × Nat)} {sweep : Sweep} {exports : List Export} {stateBlock : StateBlock}
    {g4e : List G4eCounters} {run : Option RunStep} {clearing : Bool} {clearSince : Nat} {stopped : Bool}
    {requests : List Req} {nextReq : Nat} {signals : List SignalMsg} {sharedLit : List Bool}
    {sharedAccess : List Nat} {sharedRetired : List (Nat × Nat)} {sharedTimes : List (Nat × Nat × Nat)}
    {sharedCorrected : Nat} {sharedScrambled : List (Option Nat)} {timerBase : List Nat}
    {badSectors : List Nat}
    (h : Evolves r s) (seq : events.nextSeq = s.events.nextSeq) (ring : events.ring = s.events.ring)
    (flashRing : flash.eventRing = s.flash.eventRing) (mailboxes : lamp.mailboxes = s.lamp.mailboxes)
    (dma : host.dma = s.host.dma) (msix : host.msix = s.host.msix)
    (protection : flash.protection.windows = s.flash.protection.windows) :
    Evolves r
      (State.mk
        s.pending dev now freeCount pilot s.fuses flash bundle events tele i3c tinder s.dies floor s.links
        copper s.lasers s.ports beacon s.ftc s.tiles s.hbm bsuOps nextBsuOp host lamp session program fonts
        commit copyChannels sweep exports stateBlock g4e run clearing clearSince stopped requests nextReq
        signals s.barriers sharedLit sharedAccess sharedRetired sharedTimes sharedCorrected sharedScrambled
        timerBase s.mem s.hostMem badSectors) where
  pending := h.pending
  fuses := h.fuses
  seq := by rw [seq]; exact h.seq
  ring := by rw [seq, ring]; exact h.ring
  flashRing := by rw [seq, flashRing]; exact h.flashRing
  mem := h.mem
  hostMem := h.hostMem
  tiles := h.tiles
  tile := h.tile
  hbm := h.hbm
  stack := h.stack
  ports := h.ports
  port := h.port
  links := h.links
  dies := h.dies
  lasers := h.lasers
  ftc := h.ftc
  barriers := h.barriers
  mailboxes := by rw [mailboxes]; exact h.mailboxes
  dma := by rw [dma]; exact h.dma
  msix := by rw [msix]; exact h.msix
  windows := protection.trans h.windows
  outside := h.outside

/-- A change that leaves alone every field that the relation speaks of but the event rings. -/
theorem Evolves.recordEvents {r s : State}
    {dev : DevState} {now : Nat} {freeCount : Nat} {pilot : Pilot} {flash : Flash} {bundle : Bundle}
    {events : Events} {tele : Telemetry} {i3c : I3c} {tinder : Tinder} {floor : BitVec 64} {copper : List Link}
    {beacon : Beacon} {bsuOps : List BsuOp} {nextBsuOp : Nat} {host : HostIf} {lamp : Lamplighter}
    {session : Option Session} {program : Option Program} {fonts : List Font} {commit : CommitArea}
    {copyChannels : List (Nat × Nat × Nat)} {sweep : Sweep} {exports : List Export} {stateBlock : StateBlock}
    {g4e : List G4eCounters} {run : Option RunStep} {clearing : Bool} {clearSince : Nat} {stopped : Bool}
    {requests : List Req} {nextReq : Nat} {signals : List SignalMsg} {sharedLit : List Bool}
    {sharedAccess : List Nat} {sharedRetired : List (Nat × Nat)} {sharedTimes : List (Nat × Nat × Nat)}
    {sharedCorrected : Nat} {sharedScrambled : List (Option Nat)} {timerBase : List Nat}
    {badSectors : List Nat}
    (h : Evolves r s) (seq : s.events.nextSeq ≤ events.nextSeq)
    (ring : RingOk 4096 s.events.nextSeq s.events.ring → RingOk 4096 events.nextSeq events.ring)
    (flashRing : RingOk 1024 s.events.nextSeq s.flash.eventRing → RingOk 1024 events.nextSeq flash.eventRing)
    (mailboxes : lamp.mailboxes = s.lamp.mailboxes)
    (dma : host.dma = s.host.dma) (msix : host.msix = s.host.msix)
    (protection : flash.protection.windows = s.flash.protection.windows) :
    Evolves r
      (State.mk
        s.pending dev now freeCount pilot s.fuses flash bundle events tele i3c tinder s.dies floor s.links
        copper s.lasers s.ports beacon s.ftc s.tiles s.hbm bsuOps nextBsuOp host lamp session program fonts
        commit copyChannels sweep exports stateBlock g4e run clearing clearSince stopped requests nextReq
        signals s.barriers sharedLit sharedAccess sharedRetired sharedTimes sharedCorrected sharedScrambled
        timerBase s.mem s.hostMem badSectors) where
  pending := h.pending
  fuses := h.fuses
  seq := Nat.le_trans h.seq seq
  ring := ring ∘ h.ring
  flashRing := flashRing ∘ h.flashRing
  mem := h.mem
  hostMem := h.hostMem
  tiles := h.tiles
  tile := h.tile
  hbm := h.hbm
  stack := h.stack
  ports := h.ports
  port := h.port
  links := h.links
  dies := h.dies
  lasers := h.lasers
  ftc := h.ftc
  barriers := h.barriers
  mailboxes := by rw [mailboxes]; exact h.mailboxes
  dma := by rw [dma]; exact h.dma
  msix := by rw [msix]; exact h.msix
  windows := protection.trans h.windows
  outside := h.outside

/-- A change of other fields keeps the shape. -/
theorem Context.Shape.record {x : Context}
    {state : CtxState} {reason : BlockReason} {segment : Nat} {bundle : Nat} {nf : NfStatus} {satCount : Nat}
    {underflowCount : Nat} {stalls : List Nat}
    (h : x.Shape) :
    (Context.mk
        state reason segment bundle x.loops x.params nf satCount underflowCount stalls).Shape :=
  { h with }

/-- A change of other fields keeps the shape. -/
theorem Tile.Shape.record {x : Tile}
    {state : TileState} {lit : Bool} {lighting : Bool} {known : Bool} {arrayRetired : BitVec 17}
    {spareFor : Option Nat} {logicalId : Option Nat} {flickerTimes : List (List Nat)} {flickerBoot : List Nat}
    {arrayCycles : Nat} {skippedCycles : Nat} {replayCycles : Nat} {ramps : Nat} {zeroGated : Nat}
    {tmCorrected : Nat} {tmUncorrectable : Nat} {tmCorrectedTimes : List (Nat × Nat)}
    {tmUncorrectableTimes : List Nat} {acc : AccFile} {held : List Nat} {arrayQueue : List ArrayOp}
    {rampDue : Bool} {skewed : Bool} {lastArray : Nat} {tail : Nat} {thermalHold : Bool} {holdSince : Nat}
    {buffers : List (Option (Nat × List Byte))} {segLoads : List SegLoad} {tags : List CounterTag}
    {running : Nat} {switching : Option Nat} {stallSince : Option Nat} {episode : Option (StallCause × Nat)}
    {activeAt : Nat} {fault : FaultInfo} {bundlesIssued : Nat} {contextSwitches : Nat} {switchCycles : Nat}
    {issueHoldCycles : Nat} {segmentLoads : Nat} {vectorQueue : List VecOp} {xfers : List Xfer}
    {g4eMismatch : Nat} {g4eEscapes : Nat} {scrambled : Option Nat}
    (h : x.Shape) :
    (Tile.mk
        state lit lighting known arrayRetired spareFor logicalId flickerTimes flickerBoot arrayCycles
        skippedCycles replayCycles ramps zeroGated tmCorrected tmUncorrectable tmCorrectedTimes
        tmUncorrectableTimes acc held arrayQueue rampDue skewed lastArray tail thermalHold holdSince buffers
        segLoads x.counters tags x.contexts running switching stallSince episode activeAt fault bundlesIssued
        contextSwitches switchCycles issueHoldCycles segmentLoads vectorQueue xfers x.slots g4eMismatch
        g4eEscapes scrambled).Shape :=
  { h with }

/-- A change of other fields keeps the shape. -/
theorem Bsu.Shape.record {x : Bsu}
    {state : BsuState} {lighting : Bool} {paused : Bool} {pauseRequested : Bool} {queue : List Nat}
    {slice : Option SliceKind} {sliceElems : Nat × Nat} {footprint : List Nat} {held : Bool}
    {landings : List Landing} {exportPending : Bool} {updateOp : Nat} {slicesSinceExport : Nat}
    {dutySpent : Bool} {waitSince : Option Nat} {stallSince : Nat} {sliceStart : Nat} {lastWork : Nat}
    {nf : BsuNf} {cause : BitVec 32} {ftcError : Nat × Nat × Nat} {sramTimes : List Nat} {operations : Nat}
    {slices : Nat} {internalBytes : Nat} {heldRequests : Nat} {holdNs : Nat} {refreshPauses : Nat}
    {satCount : Nat} {underflowCount : Nat} {ringBytes : Nat} {sramCorrected : Nat} {stalls : List Nat}
    (h : x.Shape) :
    (Bsu.mk
        state lighting paused pauseRequested queue slice sliceElems footprint held landings exportPending
        updateOp slicesSinceExport dutySpent waitSince stallSince sliceStart lastWork nf cause ftcError x.slots
        sramTimes operations slices internalBytes heldRequests holdNs refreshPauses satCount underflowCount
        ringBytes sramCorrected stalls).Shape :=
  { h with }

/-- A change of other fields keeps the shape. -/
theorem Stack.Shape.record {x : Stack}
    {outOfService : Bool} {idInvalid : Bool} {stage : Stage} {hotLayer : Nat} {thresh : List Nat}
    {activationThreshold : Nat} {threshEffective : List Nat} {layerTemp : List Int} {hotRefresh : Bool}
    {stageSince : Nat} {calmSince : Option Nat} {lastSample : Nat} {scrubLate : Bool} {scrubPosition : Nat}
    {scrubbed : List Nat} {scrubStart : Nat} {redirect : List (Nat × Option Nat)} {corrected : Nat}
    {onDieCorrected : Nat} {transient : Nat} {uncorrectable : Nat} {lastUncorrectable : Option Nat}
    {scrubCorrected : Nat} {scrubCycles : Nat} {refreshPostponed : Nat} {refreshForced : Nat} {rfmIssued : Nat}
    {narrowSectors : Nat} {rmwWrites : Nat} {warnNs : Nat} {throttleNs : Nat} {haltNs : Nat}
    {haltEntries : Nat} {selfRefresh : Bool} {banks : List (Nat × Bank)} {spent : List Nat}
    {scrubRaised : Bool} {calibrating : Option (Nat × Nat)} {nextCalibration : Nat} {dutyCap : DutyCap}
    {maxDebt : Nat}
    (h : x.Shape) :
    (Stack.mk
        outOfService idInvalid stage hotLayer thresh activationThreshold threshEffective layerTemp hotRefresh
        stageSince calmSince lastSample scrubLate scrubPosition scrubbed scrubStart redirect corrected
        onDieCorrected transient uncorrectable lastUncorrectable scrubCorrected scrubCycles refreshPostponed
        refreshForced rfmIssued narrowSectors rmwWrites warnNs throttleNs haltNs haltEntries selfRefresh
        x.channels banks spent scrubRaised calibrating nextCalibration dutyCap x.bsus maxDebt).Shape :=
  { h with }

/-- A change of other fields keeps the shape. -/
theorem Port.Shape.record {x : Port}
    {state : PortState} {width : Nat} {ethernet : Bool} {peerRank : Nat} {peerPort : Nat}
    {pending : List LaneChange} {peerChanges : List LaneChange} {quiesceAsked : Bool} {bytes : Nat}
    {txSeq : Nat} {replay : List SentFlit} {lastSent : Nat} {rxSeq : Nat} {ackDue : Bool} {nakDue : Bool}
    {txCredits : List Nat} {creditsDue : List Nat} {creditWaitSince : Option Nat} {txControl : List Packet}
    {txForward : List Packet} {txOwn : List Packet} {helloSent : Bool} {helloReceived : Bool}
    {helloOwed : Bool} {peerLost : Bool} {retryAt : Nat} {ethRate : Option (BitVec 32)} {cnpSent : Nat}
    {arpAnswered : Nat} {naksSent : Nat} {flitsSent : Nat} {flitsReceived : Nat} {flitCrcErrors : Nat}
    {replayedFlits : Nat} {fecCorrected : Nat} {fecUncorrectable : Nat} {creditWaitNs : Nat}
    {packetsForwarded : Nat} {partitionDrops : Nat} {e2eCrcErrors : Nat} {stalePackets : Nat}
    {ethFramesSent : Nat} {ethFramesReceived : Nat} {ethCnpReceived : Nat}
    (h : x.Shape) :
    (Port.mk
        state x.lanes width ethernet peerRank peerPort pending peerChanges quiesceAsked bytes txSeq replay
        lastSent rxSeq ackDue nakDue txCredits creditsDue creditWaitSince txControl txForward txOwn helloSent
        helloReceived helloOwed peerLost retryAt ethRate cnpSent arpAnswered naksSent flitsSent flitsReceived
        flitCrcErrors replayedFlits fecCorrected fecUncorrectable creditWaitNs packetsForwarded partitionDrops
        e2eCrcErrors stalePackets ethFramesSent ethFramesReceived ethCnpReceived).Shape :=
  { h with }

/-! ### Lists -/

@[simp] theorem modAt_length {α : Type} (l : List α) (i : Nat) (f : α → α) : (modAt l i f).length = l.length := by
  simp [modAt]

theorem modAt_all {α : Type} {P : α → Prop} {l : List α} {f : α → α} (i : Nat) (h : ∀ x ∈ l, P x)
    (hf : ∀ x, P x → P (f x)) : ∀ x ∈ modAt l i f, P x := by
  intro x hx
  rw [modAt, List.mem_iff_getElem?] at hx
  obtain ⟨j, hj⟩ := hx
  rw [List.getElem?_modify] at hj
  split at hj <;> (obtain ⟨y, hy, rfl⟩ := Option.map_eq_some_iff.mp hj; have := h y (List.mem_of_getElem? hy); simp_all)

theorem map_all {α : Type} {P : α → Prop} {l : List α} {f : α → α} (h : ∀ x ∈ l, P x)
    (hf : ∀ x, P x → P (f x)) : ∀ x ∈ l.map f, P x := by
  intro x hx
  obtain ⟨y, hy, rfl⟩ := List.mem_map.mp hx
  exact hf y (h y hy)

theorem mapIdx_all {α : Type} {P : α → Prop} {l : List α} {f : Nat → α → α} (h : ∀ x ∈ l, P x)
    (hf : ∀ i x, P x → P (f i x)) : ∀ x ∈ l.mapIdx f, P x := by
  intro x hx
  obtain ⟨i, hi, rfl⟩ := List.mem_mapIdx.mp hx
  exact hf i _ (h _ (List.getElem_mem hi))

theorem modAt_map {α β : Type} (g : α → β) (l : List α) (i : Nat) (f : α → α) (hf : ∀ x, g (f x) = g x) :
    (modAt l i f).map g = l.map g := by
  apply List.ext_getElem? fun j => ?_
  simp only [modAt, List.getElem?_map, List.getElem?_modify]
  split <;> simp [Option.map_map, Function.comp_def, hf]

theorem foldl_keep {α β : Type} (P : β → Prop) {l : List α} {f : β → α → β} {b : β} (h : P b)
    (hf : ∀ x a, P x → P (f x a)) : P (l.foldl f b) := by
  induction l generalizing b with
  | nil => exact h
  | cons a l ih => exact ih (hf b a h)

/-! ### The relation through control flow -/

theorem Evolves.ite {r a b : State} {c : Prop} [Decidable c] (ha : Evolves r a) (hb : Evolves r b) :
    Evolves r (if c then a else b) := by
  split <;> assumption

theorem Evolves.foldl {α : Type} {r s : State} (l : List α) (f : State → α → State) (h : Evolves r s)
    (hf : ∀ x a, Evolves r x → Evolves r (f x a)) : Evolves r (l.foldl f s) := by
  induction l generalizing s with
  | nil => exact h
  | cons a l ih => exact ih (hf s a h)

/-- The same through a fold that carries more beside the state. -/
theorem Evolves.foldl_fst {α β : Type} {r : State} (l : List α) (f : State × β → α → State × β) (x : State × β)
    (h : Evolves r x.1) (hf : ∀ y a, Evolves r y.1 → Evolves r (f y a).1) : Evolves r (l.foldl f x).1 := by
  induction l generalizing x with
  | nil => exact h
  | cons a l ih => exact ih _ (hf x a h)

/-- Through a change that is made only where there is something to change. -/
theorem Evolves.getD {α : Type} {r s : State} {f : α → State} (o : Option α) (h : Evolves r s)
    (hf : ∀ a, Evolves r (f a)) : Evolves r ((o.map f).getD s) := by
  cases o
  · exact h
  · exact hf _

/-- From a pair that a match has taken apart. -/
theorem Evolves.of_pair {α : Type} {r t : State} {x : α} {p : State × α} (e : p = (t, x)) (h : Evolves r p.1) :
    Evolves r t := by
  rw [e] at h; exact h

/-! ### Outcomes -/

/-- The same of an outcome: a next state stands in the relation. -/
def OutEvolves (r : State) : Host.Outcome State Fault Refusal → Prop
  | .next t => Evolves r t
  | .fault _ => True
  | .refused _ => True

theorem OutEvolves.next {r t : State} (h : Evolves r t) : OutEvolves r (.next t) := h

theorem OutEvolves.fault {r : State} {x : Fault} : OutEvolves r (.fault x) := True.intro

theorem OutEvolves.ite {r : State} {a b : Host.Outcome State Fault Refusal} {c : Prop} [Decidable c]
    (ha : OutEvolves r a) (hb : OutEvolves r b) : OutEvolves r (if c then a else b) := by
  split <;> assumption

def OutChanges (r : State) : Host.Outcome State Fault Refusal → Prop
  | .next t => Changes r t
  | .fault _ => True
  | .refused _ => True

theorem OutEvolves.changes {r : State} {o : Host.Outcome State Fault Refusal} (h : OutEvolves r o) : OutChanges r o := by
  cases o
  · exact Evolves.toChanges h
  · trivial
  · trivial

end Sys2Proof.Machine
end

