-- ==== Sys2Proof/Laws/Mem.lean ====
section
/-! SUPPORT. Laws of memory: reading after writing, and the canonical form, which every operation keeps. -/

namespace Sys2Proof.Machine

/-! ### The canonical form as a pair of plain conditions -/

theorem Mem.wf_iff (m : List Host.Cell) :
    Mem.wf m = true ↔ m.Pairwise (fun a b => a.1 < b.1) ∧ ∀ c ∈ m, c.2 ≠ Mem.unlisted := by
  induction m with
  | nil => simp [Mem.wf]
  | cons c m ih =>
    cases m with
    | nil => simp [Mem.wf]
    | cons d m =>
      simp only [Mem.wf, Bool.and_eq_true, ih, List.pairwise_cons, bne_iff_ne, decide_eq_true_eq, List.mem_cons,
        forall_eq_or_imp]
      constructor
      · rintro ⟨⟨hc, hcd⟩, ⟨hd, hm⟩, h2, h3⟩
        exact ⟨⟨⟨hcd, fun e he => Nat.lt_trans hcd (hd e he)⟩, hd, hm⟩, hc, h2, h3⟩
      · rintro ⟨⟨⟨hcd, _⟩, hd, hm⟩, hc, h2, h3⟩
        exact ⟨⟨hc, hcd⟩, ⟨hd, hm⟩, h2, h3⟩

theorem Mem.erase_sublist (m : List Host.Cell) (x : Nat) : (Mem.erase m x).Sublist m := by
  induction m with
  | nil => exact .slnil
  | cons c m ih =>
    simp only [Mem.erase]
    split
    · exact List.sublist_cons_self c m
    · split
      · exact .refl _
      · exact ih.cons_cons c

theorem Mem.mem_insert {m : List Host.Cell} {x : Nat} {v : Byte} {c : Host.Cell} (h : c ∈ Mem.insert m x v) :
    c = (x, v) ∨ c ∈ m := by
  induction m with
  | nil => simpa [Mem.insert] using h
  | cons d m ih =>
    simp only [Mem.insert] at h
    split at h
    · rcases List.mem_cons.mp h with h | h
      · exact .inl h
      · exact .inr (List.mem_cons_of_mem _ h)
    · split at h
      · exact List.mem_cons.mp h
      · rcases List.mem_cons.mp h with h | h
        · exact .inr (h ▸ List.mem_cons_self)
        · exact (ih h).imp id (List.mem_cons_of_mem _)

theorem Mem.insert_sorted {m : List Host.Cell} (x : Nat) (v : Byte) (h : m.Pairwise fun a b => a.1 < b.1) :
    (Mem.insert m x v).Pairwise fun a b => a.1 < b.1 := by
  induction m with
  | nil => simp [Mem.insert]
  | cons d m ih =>
    obtain ⟨hd, hm⟩ := List.pairwise_cons.mp h
    simp only [Mem.insert]
    split
    · rename_i e
      exact List.pairwise_cons.mpr ⟨fun c hc => by simpa [e] using hd c hc, hm⟩
    · split
      · rename_i h2
        refine List.pairwise_cons.mpr ⟨fun c hc => ?_, h⟩
        rcases List.mem_cons.mp hc with rfl | hc
        · exact h2
        · exact Nat.lt_trans h2 (hd c hc)
      · refine List.pairwise_cons.mpr ⟨fun c hc => ?_, ih hm⟩
        rcases Mem.mem_insert hc with rfl | hc
        · rename_i h1 h2; exact Nat.lt_of_le_of_ne (Nat.le_of_not_lt h2) fun e => h1 e.symm
        · exact hd c hc

/-- Writing one byte keeps the canonical form. -/
theorem Mem.wf_set {m : List Host.Cell} (x : Nat) (v : Byte) (h : Mem.wf m = true) : Mem.wf (Mem.set m x v) = true := by
  rw [Mem.wf_iff] at h ⊢
  unfold Mem.set
  split
  · exact ⟨h.1.sublist (Mem.erase_sublist m x), fun c hc => h.2 c ((Mem.erase_sublist m x).subset hc)⟩
  · refine ⟨Mem.insert_sorted x v h.1, fun c hc => ?_⟩
    rcases Mem.mem_insert hc with rfl | hc
    · assumption
    · exact h.2 c hc

theorem Mem.wf_filter {m : List Host.Cell} (p : Host.Cell → Bool) (h : Mem.wf m = true) : Mem.wf (m.filter p) = true := by
  rw [Mem.wf_iff] at h ⊢
  exact ⟨h.1.sublist List.filter_sublist, fun c hc => h.2 c (List.mem_filter.mp hc).1⟩

theorem Mem.wf_clear {m : List Host.Cell} (x n : Nat) (h : Mem.wf m = true) : Mem.wf (Mem.clear m x n) = true :=
  Mem.wf_filter _ h

theorem Mem.wf_write {m : List Host.Cell} (x : Nat) (bs : List Byte) (h : Mem.wf m = true) :
    Mem.wf (Mem.write m x bs) = true := by
  induction bs generalizing m x with
  | nil => exact h
  | cons b bs ih => exact ih _ (Mem.wf_set x b h)

/-- A fold of steps that each keep the canonical form keeps it. -/
theorem Mem.wf_foldl {α : Type} {m : List Host.Cell} {l : List α} {f : List Host.Cell → α → List Host.Cell}
    (h : Mem.wf m = true) (hf : ∀ x a, Mem.wf x = true → Mem.wf (f x a) = true) : Mem.wf (l.foldl f m) = true := by
  induction l generalizing m with
  | nil => exact h
  | cons a l ih => exact ih (hf m a h)

/-! ### Reading after writing -/

theorem Mem.get_below {m : List Host.Cell} {x : Nat} (h : ∀ c ∈ m, x < c.1) : Mem.get m x = Mem.unlisted := by
  cases m with
  | nil => rfl
  | cons c m =>
    have := h c List.mem_cons_self
    simp only [Mem.get]
    rw [if_neg (by omega), if_pos this]

theorem Mem.get_insert (m : List Host.Cell) (x y : Nat) (v : Byte) :
    Mem.get (Mem.insert m x v) y = if y = x then v else Mem.get m y := by
  induction m with
  | nil => simp only [Mem.insert, Mem.get]; split <;> simp
  | cons c m ih =>
    simp only [Mem.insert]
    split
    · rename_i e; simp only [Mem.get, e]; split <;> rfl
    · split
      · rename_i h1 h2
        simp only [Mem.get]
        split
        · rfl
        · split
          · rw [if_neg (by omega), if_pos (by omega)]
          · rfl
      · rename_i h1 h2
        simp only [Mem.get, ih]
        split
        · rw [if_neg (by omega)]
        · split
          · rw [if_neg (by omega)]
          · rfl

theorem Mem.get_erase {m : List Host.Cell} (x y : Nat) (h : Mem.wf m = true) :
    Mem.get (Mem.erase m x) y = if y = x then Mem.unlisted else Mem.get m y := by
  rw [Mem.wf_iff] at h
  obtain ⟨h, -⟩ := h
  induction m with
  | nil => simp [Mem.erase, Mem.get]
  | cons c m ih =>
    obtain ⟨hc, hm⟩ := List.pairwise_cons.mp h
    simp only [Mem.erase]
    split
    · rename_i e
      split
      · rename_i e2; rw [e2, e]; exact Mem.get_below hc
      · rename_i e2
        simp only [Mem.get]
        rw [if_neg (by omega)]
        split
        · rename_i h3; exact Mem.get_below fun d hd => Nat.lt_trans h3 (hc d hd)
        · rfl
    · split
      · rename_i h1 h2
        split
        · rename_i e2
          simp only [Mem.get]
          rw [if_neg (by omega), if_pos (by omega)]
        · rfl
      · rename_i h1 h2
        simp only [Mem.get, ih hm]
        split
        · rw [if_neg (by omega)]
        · split
          · rw [if_neg (by omega)]
          · rfl

/-- A byte written reads as written, and every other byte reads as before. -/
theorem Mem.get_set {m : List Host.Cell} (x y : Nat) (v : Byte) (h : Mem.wf m = true) :
    Mem.get (Mem.set m x v) y = if y = x then v else Mem.get m y := by
  unfold Mem.set
  split
  · rename_i e; rw [Mem.get_erase x y h, e]
  · exact Mem.get_insert m x y v

end Sys2Proof.Machine
end

