-- ==== Sys2Proof/Laws/OpsEvolve.lean ====
section
/-! SUPPORT. What the named operations of Machine/Ops.lean, and the other changes of one unit, keep: `Evolves` for
each. -/

namespace Sys2Proof.Machine

/-! ### One unit of a table -/

theorem State.modTile_evolves {r s : State} {d p : Nat} {f : Tile → Tile} (h : Evolves r s)
    (hf : ∀ t, t.Shape → (f t).Shape) : Evolves r (s.modTile d p f) :=
  h.trans { Evolves.refl s with tiles := modAt_length _ _ _, tile := fun k => modAt_all _ k hf }

theorem State.mapTiles_evolves {r s : State} {f : Tile → Tile} (h : Evolves r s)
    (hf : ∀ t, t.Shape → (f t).Shape) : Evolves r (s.mapTiles f) :=
  h.trans { Evolves.refl s with tiles := List.length_map _, tile := fun k => map_all k hf }

theorem State.modStack_evolves {r s : State} {st : Nat} {f : Stack → Stack} (h : Evolves r s)
    (hf : ∀ k, k.Shape → (f k).Shape) : Evolves r (s.modStack st f) :=
  h.trans { Evolves.refl s with hbm := modAt_length _ _ _, stack := fun k => modAt_all _ k hf }

theorem State.modChannel_evolves {r s : State} {st ch : Nat} {f : Channel → Channel} (h : Evolves r s) :
    Evolves r (s.modChannel st ch f) :=
  State.modStack_evolves h fun _ k => ⟨(modAt_length _ _ _).trans k.channels, k.bsus, k.bsu⟩

theorem State.modBsu_evolves {r s : State} {st ch : Nat} {f : Bsu → Bsu} (h : Evolves r s)
    (hf : ∀ b, b.Shape → (f b).Shape) : Evolves r (s.modBsu st ch f) :=
  State.modStack_evolves h fun _ k => ⟨k.channels, (modAt_length _ _ _).trans k.bsus, modAt_all _ k.bsu hf⟩

theorem Stack.mapBsus_shape {x : Stack} {f : Bsu → Bsu} (h : x.Shape) (hf : ∀ b, b.Shape → (f b).Shape) :
    Stack.Shape { x with bsus := x.bsus.map f } :=
  ⟨h.channels, (List.length_map _).trans h.bsus, map_all h.bsu hf⟩

theorem State.mapBsus_evolves {r s : State} {f : Bsu → Bsu} (h : Evolves r s) (hf : ∀ b, b.Shape → (f b).Shape) :
    Evolves r { s with hbm := s.hbm.map fun k => { k with bsus := k.bsus.map f } } :=
  h.trans { Evolves.refl s with
    hbm := List.length_map _, stack := fun k => map_all k fun _ q => Stack.mapBsus_shape q hf }

theorem State.mapFtc_evolves {r s : State} {f : Nat → Ftc → Ftc} (h : Evolves r s) :
    Evolves r { s with ftc := s.ftc.mapIdx f } :=
  h.trans { Evolves.refl s with ftc := List.length_mapIdx.trans }

theorem State.modPort_evolves {r s : State} {n : Nat} {f : Port → Port} (h : Evolves r s)
    (hf : ∀ p, p.Shape → (f p).Shape) : Evolves r (s.modPort n f) :=
  h.trans { Evolves.refl s with ports := (modAt_length _ _ _).trans, port := fun k => modAt_all _ k hf }

theorem State.modLink_evolves {r s : State} {k : Nat} {f : Link → Link} (h : Evolves r s)
    (hf : ∀ x, (f x).lanes.length = x.lanes.length) : Evolves r (s.modLink k f) :=
  h.trans { Evolves.refl s with links := fun i => (modAt_map _ _ _ _ hf).trans i }

theorem State.modDie_evolves {r s : State} {d : Nat} {f : Die → Die} (h : Evolves r s)
    (hf : ∀ x, (f x).identity = x.identity) : Evolves r (s.modDie d f) :=
  h.trans { Evolves.refl s with dies := modAt_map _ _ _ _ hf }

theorem State.modLaser_evolves {r s : State} {i : Nat} {f : Laser → Laser} (h : Evolves r s) :
    Evolves r (s.modLaser i f) :=
  h.trans { Evolves.refl s with lasers := modAt_length _ _ _ }

theorem State.modMbox_evolves {r s : State} {n : Nat} {f : Mailbox → Mailbox} (h : Evolves r s) :
    Evolves r (s.modMbox n f) :=
  h.trans { Evolves.refl s with mailboxes := (modAt_length _ _ _).trans }

theorem State.modDma_evolves {r s : State} {n : Nat} {f : DmaChannel → DmaChannel} (h : Evolves r s) :
    Evolves r (s.modDma n f) :=
  h.trans { Evolves.refl s with dma := (modAt_length _ _ _).trans }

theorem State.modFtc_evolves {r s : State} {n : Nat} {f : Ftc → Ftc} (h : Evolves r s) : Evolves r (s.modFtc n f) :=
  h.trans { Evolves.refl s with ftc := (modAt_length _ _ _).trans }

theorem State.modFont_evolves {r s : State} {n : Nat} {f : Font → Font} (h : Evolves r s) :
    Evolves r (s.modFont n f) :=
  h.trans { Evolves.refl s with }

theorem State.modLane_evolves {r s : State} {x : LaneRef} {f : Lane → Lane} (h : Evolves r s) :
    Evolves r (s.modLane x f) := by
  cases x with
  | die k l => exact State.modLink_evolves h fun _ => modAt_length _ _ _
  | port n l => exact State.modPort_evolves h fun _ k => ⟨(modAt_length _ _ _).trans k.lanes⟩

theorem State.modHost_evolves {r s : State} {f : HostIf → HostIf} (h : Evolves r s)
    (hd : ∀ x, x.dma.length = 8 → (f x).dma.length = 8) (hm : ∀ x, x.msix.length = 64 → (f x).msix.length = 64) :
    Evolves r (s.modHost f) :=
  h.trans { Evolves.refl s with dma := hd _, msix := hm _ }

theorem Tile.modCtx_shape {t : Tile} {n : Nat} {f : Context → Context} (h : t.Shape)
    (hf : ∀ c, c.Shape → (f c).Shape) : (t.modCtx n f).Shape :=
  { h with contexts := (modAt_length _ _ _).trans h.contexts, context := modAt_all _ h.context hf }

theorem State.modCtx_evolves {r s : State} {d p n : Nat} {f : Context → Context} (h : Evolves r s)
    (hf : ∀ c, c.Shape → (f c).Shape) : Evolves r (s.modCtx d p n f) :=
  State.modTile_evolves h fun _ k => Tile.modCtx_shape k hf

theorem State.modSlot_evolves {r s : State} {x : StreamRef} {f : StreamSlot → StreamSlot} (h : Evolves r s) :
    Evolves r (s.modSlot x f) := by
  cases x with
  | tile d p n => exact State.modTile_evolves h fun _ k => { k with slots := (modAt_length _ _ _).trans k.slots }
  | bsu st ch n => exact State.modBsu_evolves h fun _ k => ⟨(modAt_length _ _ _).trans k.slots⟩

/-! ### Time, interrupts and free values -/

theorem State.advanceTo_evolves {r s : State} {t : Nat} (h : Evolves r s) : Evolves r (s.advanceTo t) :=
  h.trans { Evolves.refl s with }

theorem State.signal_evolves {r s : State} {v : Nat} (h : Evolves r s) : Evolves r (s.signal v) :=
  h.trans { Evolves.refl s with }

theorem State.takeFree_evolves {r s : State} (h : Evolves r s) : Evolves r s.takeFree :=
  h.trans { Evolves.refl s with }

/-! ### Bundle slots -/

theorem Flash.setSlot_eventRing {f : Flash} {k : Slot} {v : FlashSlot} : (f.setSlot k v).eventRing = f.eventRing := by
  cases k <;> rfl

theorem Flash.setSlot_windows {f : Flash} {k : Slot} {v : FlashSlot} :
    (f.setSlot k v).protection.windows = f.protection.windows := by
  cases k <;> rfl

end Sys2Proof.Machine
end

