-- ==== Sys2Proof/Laws/EvolvesA.lean ====
section
/-! SUPPORT. What each operation and each command of these files of Machine/ keeps: Events, Packets, Map, Stalls,
Abort, StreamError, Retire, Links. -/

namespace Sys2Proof.Machine

open Sys2Proof

/-! ### Events -/

theorem State.traceOut_evolves {r s : State} {line} (h : Evolves r s) :
    Evolves r (State.traceOut s line) := by
  unfold State.traceOut
  dsimp only
  refine Evolves.record ?_ rfl rfl rfl rfl rfl rfl rfl
  assumption

theorem RingOk.push {n next : Nat} {l : List EventRecord} {e : EventRecord}
    (h : RingOk n next l) (he : e.seq = next) :
    RingOk n (next + 1) (pushRing n l e) where
  bound := by
    have := h.bound
    simp only [pushRing, takeLast, List.length_drop, List.length_append, List.length_singleton]
    omega
  order := by
    have k : ((l ++ [e]).map (·.seq)).Pairwise (· < ·) := by
      rw [List.map_append, List.pairwise_append]
      exact ⟨h.order, by simp, fun a ha b hb => by simp at hb; rw [hb, he]; exact h.below a ha⟩
    rw [pushRing, takeLast, List.map_drop]
    exact k.sublist (List.drop_sublist _ _)
  below := by
    intro q hq
    rw [pushRing, takeLast, List.map_drop] at hq
    have hq := List.mem_of_mem_drop hq
    rw [List.map_append, List.mem_append] at hq
    rcases hq with hq | hq
    · exact Nat.lt_succ_of_lt (h.below q hq)
    · simp at hq; omega

theorem RingOk.later {n a b : Nat} {l : List EventRecord} (h : RingOk n a l) (k : a ≤ b) : RingOk n b l :=
  ⟨h.bound, h.order, fun q hq => Nat.lt_of_lt_of_le (h.below q hq) k⟩

theorem RingOk.map {n next : Nat} {l : List EventRecord} {f : EventRecord → EventRecord} (h : RingOk n next l)
    (hf : ∀ e, (f e).seq = e.seq) : RingOk n next (l.map f) := by
  have k : (l.map f).map (·.seq) = l.map (·.seq) := by simp [List.map_map, Function.comp_def, hf]
  exact ⟨by simpa using h.bound, by rw [k]; exact h.order, by rw [k]; exact h.below⟩

theorem RingOk.sublist {n next : Nat} {l m : List EventRecord} (h : RingOk n next l) (k : m.Sublist l) :
    RingOk n next m :=
  ⟨Nat.le_trans k.length_le h.bound, h.order.sublist (k.map _), fun q hq => h.below q ((k.map _).subset hq)⟩

theorem remark_seq {a b c e} : (remark a b c e).seq = e.seq := by
  unfold remark
  repeat' split
  all_goals rfl

theorem RingOk.pushIf {n next : Nat} {l : List EventRecord} {e : EventRecord} (b : Bool) (h : RingOk n next l)
    (he : e.seq = next) : RingOk n (next + 1) (if b = true then pushRing n l e else l) := by
  split
  · exact h.push he
  · exact h.later (Nat.le_succ _)

theorem State.raise_evolves {r s : State} {e} (h : Evolves r s) : Evolves r (State.raise s e) := by
  unfold State.raise
  dsimp only
  apply Evolves.ite
  · apply State.traceOut_evolves
    apply State.signal_evolves
    refine Evolves.recordEvents h (Nat.le_succ _) (fun k => ?_) (fun k => ?_) rfl rfl rfl rfl
    · dsimp only
      refine @RingOk.map _ _ _ (remark _ _ _) ?_ (fun _ => remark_seq)
      refine RingOk.push k ?_
      rfl
    · dsimp only
      refine @RingOk.map _ _ _ (remark _ _ _) ?_ (fun _ => remark_seq)
      refine RingOk.pushIf _ k ?_
      rfl
  · apply State.signal_evolves
    refine Evolves.recordEvents h (Nat.le_succ _) (fun k => ?_) (fun k => ?_) rfl rfl rfl rfl
    · dsimp only
      refine @RingOk.map _ _ _ (remark _ _ _) ?_ (fun _ => remark_seq)
      refine RingOk.push k ?_
      rfl
    · dsimp only
      refine @RingOk.map _ _ _ (remark _ _ _) ?_ (fun _ => remark_seq)
      refine RingOk.pushIf _ k ?_
      rfl

theorem State.newCascade_evolves {r s : State} (h : Evolves r s) :
    Evolves r (State.newCascade s) := by
  unfold State.newCascade
  refine Evolves.record ?_ rfl rfl rfl rfl rfl rfl rfl
  assumption

theorem State.inCascade_evolves {r s : State} {root} (h : Evolves r s) :
    Evolves r (State.inCascade s root) := by
  unfold State.inCascade
  refine Evolves.record ?_ rfl rfl rfl rfl rfl rfl rfl
  assumption

theorem State.countRetirement_evolves {r s : State} {manual} (h : Evolves r s) :
    Evolves r (State.countRetirement s manual) := by
  unfold State.countRetirement
  apply Evolves.ite
  refine Evolves.record ?_ rfl rfl rfl rfl rfl rfl rfl
  assumption
  refine Evolves.record ?_ rfl rfl rfl rfl rfl rfl rfl
  assumption

theorem State.logAppend_evolves {r s : State} {unit kind} (h : Evolves r s) :
    Evolves r (State.logAppend s unit kind) := by
  unfold State.logAppend
  dsimp only
  refine Evolves.record ?_ rfl rfl rfl rfl rfl rfl rfl
  apply Evolves.ite
  apply State.raise_evolves
  refine Evolves.record ?_ rfl rfl rfl rfl rfl rfl rfl
  assumption
  assumption

theorem State.traceStep_evolves {r s : State} {k status} (h : Evolves r s) :
    Evolves r (State.traceStep s k status) := by
  unfold State.traceStep
  apply Evolves.ite
  dsimp only
  apply State.traceOut_evolves
  assumption
  assumption

theorem State.settleRestores_evolves {r s : State} (h : Evolves r s) :
    Evolves r (State.settleRestores s) := by
  unfold State.settleRestores
  refine Evolves.record ?_ rfl rfl rfl rfl rfl rfl rfl
  assumption

/-! ### Packets -/

theorem Port.takeCredits_shape {x : Port} {p} (h : x.Shape) :
    (Port.takeCredits x p).Shape := by
  unfold Port.takeCredits
  refine Port.Shape.record ?_
  assumption

theorem Port.creditClock_shape {x : Port} {now} (h : x.Shape) :
    (Port.creditClock now x).Shape := by
  unfold Port.creditClock
  dsimp only
  split
  refine Port.Shape.record ?_
  assumption
  refine Port.Shape.record ?_
  assumption
  assumption

theorem Port.sendFlit_shape {x : Port} {now kind b} (h : x.Shape) :
    (Port.sendFlit now kind x b).Shape := by
  unfold Port.sendFlit
  dsimp only
  refine Port.Shape.record ?_
  assumption

theorem Port.sendFlits_shape {x : Port} {now kind bodies} (h : x.Shape) :
    (Port.sendFlits now kind x bodies).Shape := by
  unfold Port.sendFlits
  refine foldl_keep Port.Shape ?_ ?_
  assumption
  intro _
  intro _
  intro _
  apply Port.sendFlit_shape
  assumption

theorem Port.drain_shape {n : Nat} {x : Port} {b : List Byte} (h : x.Shape) : (Port.drain n x b).1.Shape := by
  induction n generalizing x b with
  | zero => exact h
  | succ n ih =>
    unfold Port.drain
    repeat' split
    all_goals first | exact h | exact ih (Port.takeCredits_shape h.record)

theorem Port.pump_shape {x : Port} {now} (h : x.Shape) : (Port.pump now x).Shape := by
  unfold Port.pump
  exact Port.creditClock_shape (Port.sendFlits_shape (Port.drain_shape h))

theorem Port.enqueue_shape {x : Port} {now forwarded p} (h : x.Shape) :
    (Port.enqueue now forwarded x p).Shape := by
  unfold Port.enqueue
  apply Port.pump_shape
  split
  refine Port.Shape.record ?_
  assumption
  split
  refine Port.Shape.record ?_
  assumption
  refine Port.Shape.record ?_
  assumption

theorem State.sendOn_evolves {r s : State} {port forwarded p} (h : Evolves r s) :
    Evolves r (State.sendOn s port forwarded p) := by
  unfold State.sendOn
  apply State.modPort_evolves
  assumption
  intro _
  intro _
  apply Port.enqueue_shape
  assumption

theorem State.route_evolves {r s : State} {p sel} (h : Evolves r s) :
    Evolves r (State.route s p sel) := by
  unfold State.route
  split
  assumption
  split
  assumption
  apply State.sendOn_evolves
  assumption

/-! ### Map -/

theorem State.tmWrite_evolves {r s : State} {d p off bs} (h : Evolves r s) : Evolves r (State.tmWrite s d p off bs) :=
  h.trans { Evolves.refl s with mem := fun k => Mem.wf_foldl k fun _ _ => Mem.wf_set _ _ }

theorem State.countIod_evolves {r s : State} {a n} (h : Evolves r s) :
    Evolves r (State.countIod s a n) := by
  unfold State.countIod
  apply Evolves.foldl
  assumption
  intro _
  intro _
  intro _
  split
  apply State.modLink_evolves
  assumption
  exact fun _ => rfl
  assumption

theorem State.writeDev_evolves {r s : State} {a bs} (h : Evolves r s) : Evolves r (State.writeDev s a bs) :=
  h.trans { Evolves.refl s with mem := fun k => Mem.wf_foldl k fun _ _ => Mem.wf_set _ _ }

theorem State.loseRegions_evolves {r s : State} {p} (h : Evolves r s) :
    Evolves r (State.loseRegions s p).1 := by
  unfold State.loseRegions
  dsimp only
  refine Evolves.record ?_ rfl rfl rfl rfl rfl rfl rfl
  assumption

theorem State.scrambleShared_evolves {r s : State} {d} (h : Evolves r s) : Evolves r (State.scrambleShared s d) :=
  State.takeFree_evolves (h.trans { Evolves.refl s with mem := fun k => Mem.wf_clear _ _ k })

theorem State.scramble_evolves {r s : State} {d p} (h : Evolves r s) : Evolves r (State.scramble s d p) :=
  State.takeFree_evolves (State.modTile_evolves (h.trans { Evolves.refl s with mem := Mem.wf_clear _ _ })
    fun _ q => q.record)

/-! ### Stalls -/

theorem State.countStall_evolves {r s : State} {d p ctx c cycles} (h : Evolves r s) :
    Evolves r (State.countStall s d p ctx c cycles) := by
  unfold State.countStall
  apply State.modCtx_evolves
  assumption
  exact fun _ k => k.record

theorem State.binStall_evolves {r s : State} {d c cycles} (h : Evolves r s) :
    Evolves r (State.binStall s d c cycles) := by
  unfold State.binStall
  apply Evolves.ite
  assumption
  refine Evolves.record ?_ rfl rfl rfl rfl rfl rfl rfl
  assumption

theorem State.endEpisode_evolves {r s : State} {d p} (h : Evolves r s) :
    Evolves r (State.endEpisode s d p) := by
  unfold State.endEpisode
  split
  apply State.modTile_evolves
  apply State.binStall_evolves
  assumption
  exact fun _ k => k.record
  assumption

theorem State.goOnStall_evolves {r s : State} {d p c cycles} (h : Evolves r s) :
    Evolves r (State.goOnStall s d p c cycles) := by
  unfold State.goOnStall
  dsimp only
  split
  apply Evolves.ite
  apply State.modTile_evolves
  apply State.countStall_evolves
  assumption
  exact fun _ k => k.record
  apply State.modTile_evolves
  apply State.endEpisode_evolves
  apply State.countStall_evolves
  assumption
  exact fun _ k => k.record
  apply State.modTile_evolves
  apply State.countStall_evolves
  assumption
  exact fun _ k => k.record

theorem State.chargeStall_evolves {r s : State} {d p} (h : Evolves r s) :
    Evolves r (State.chargeStall s d p) := by
  unfold State.chargeStall
  split
  assumption
  dsimp only
  apply State.modTile_evolves
  apply Evolves.ite
  assumption
  split
  apply State.goOnStall_evolves
  assumption
  apply State.endEpisode_evolves
  assumption
  exact fun _ k => k.record

theorem State.endStall_evolves {r s : State} {d p} (h : Evolves r s) :
    Evolves r (State.endStall s d p) := by
  unfold State.endStall
  apply State.modTile_evolves
  apply State.endEpisode_evolves
  apply State.chargeStall_evolves
  assumption
  exact fun _ k => k.record

theorem State.chargeBsu_evolves {r s : State} {st ch} (h : Evolves r s) :
    Evolves r (State.chargeBsu s st ch) := by
  unfold State.chargeBsu
  dsimp only
  apply State.modBsu_evolves
  assumption
  exact fun _ k => k.record

theorem State.endStalls_evolves {r s : State} (h : Evolves r s) :
    Evolves r (State.endStalls s) := by
  unfold State.endStalls
  dsimp only
  apply Evolves.foldl
  apply Evolves.foldl
  assumption
  intro _
  intro _
  intro _
  apply State.endStall_evolves
  assumption
  intro _
  intro _
  intro _
  apply State.chargeBsu_evolves
  assumption

theorem State.chargeAll_evolves {r s : State} (h : Evolves r s) :
    Evolves r (State.chargeAll s) := by
  unfold State.chargeAll
  apply Evolves.foldl
  assumption
  intro _
  intro _
  intro _
  apply State.chargeStall_evolves
  assumption

theorem State.addStall_evolves {r s : State} {d p ctx c cycles} (h : Evolves r s) :
    Evolves r (State.addStall s d p ctx c cycles) := by
  unfold State.addStall
  apply State.binStall_evolves
  apply State.countStall_evolves
  assumption

/-! ### Abort -/

theorem Bsu.leaveExport_shape {x : Bsu}
    (h : x.Shape) : (Bsu.leaveExport x).Shape := ⟨(modAt_length _ _ _).trans h.slots⟩

theorem State.releaseExport_evolves {r s : State} (h : Evolves r s) : Evolves r (State.releaseExport s) :=
  State.mapFtc_evolves (s := { s with hbm := s.hbm.map fun k => { k with bsus := k.bsus.map Bsu.leaveExport } })
    (State.mapBsus_evolves h fun _ => Bsu.leaveExport_shape)

theorem State.cutExports_evolves {r s : State} (h : Evolves r s) :
    Evolves r (State.cutExports s) := by
  unfold State.cutExports
  dsimp only
  refine Evolves.record ?_ rfl rfl rfl rfl rfl rfl rfl
  apply State.releaseExport_evolves
  assumption

theorem Tile.discardWork_shape {x : Tile} (h : x.Shape) : (Tile.discardWork x).Shape :=
  { h with slots := (List.length_map _).trans h.slots }

theorem Bsu.discardWork_shape {x : Bsu} (h : x.Shape) : (Bsu.discardWork x).Shape :=
  ⟨(List.length_map _).trans h.slots⟩

theorem State.stopWork_evolves {r s : State} (h : Evolves r s) : Evolves r (State.stopWork s) := by
  have k := State.cutExports_evolves (State.endStalls_evolves h)
  unfold State.stopWork
  generalize s.endStalls.cutExports = t at k ⊢
  exact k.trans { Evolves.refl t with
    tiles := List.length_map _
    tile := fun k => map_all k fun _ => Tile.discardWork_shape
    hbm := List.length_map _
    stack := fun k => map_all k fun _ k => Stack.mapBsus_shape k fun _ => Bsu.discardWork_shape
    barriers := (List.length_map _).trans
    ftc := (List.length_map _).trans }

theorem State.abortBy_evolves {r s : State} {c origin} (h : Evolves r s) :
    Evolves r (State.abortBy s c origin) := by
  unfold State.abortBy
  split
  · exact h
  · apply Evolves.ite h
    split
    · exact Evolves.ite (Evolves.record h rfl rfl rfl rfl rfl rfl rfl) h
    · have k := State.raise_evolves (e :=
        { code := .stepAborted, unit := deviceUnit, status := c.status, value := origin }) (State.stopWork_evolves h)
      dsimp only
      generalize State.raise _ _ = t at k ⊢
      exact Evolves.record k rfl rfl rfl rfl rfl rfl rfl

theorem State.sendAborts_evolves {r s : State} {k origin cause entry except} (h : Evolves r s) :
    Evolves r (State.sendAborts s k origin cause entry except) := by
  unfold State.sendAborts
  apply Evolves.foldl
  assumption
  intro _
  intro _
  intro _
  apply State.sendOn_evolves
  assumption

theorem State.originateAbort_evolves {r s : State} {k cause entry} (h : Evolves r s) :
    Evolves r (State.originateAbort s k cause entry) := by
  unfold State.originateAbort
  dsimp only
  apply State.sendAborts_evolves
  refine Evolves.record ?_ rfl rfl rfl rfl rfl rfl rfl
  assumption

theorem State.abortStep_evolves {r s : State} {c} (h : Evolves r s) :
    Evolves r (State.abortStep s c) := by
  unfold State.abortStep
  dsimp only
  apply Evolves.ite
  apply State.originateAbort_evolves
  apply State.abortBy_evolves
  assumption
  apply State.abortBy_evolves
  assumption

theorem State.popExport_evolves {r s : State} (h : Evolves r s) :
    Evolves r (State.popExport s) := by
  unfold State.popExport
  dsimp only
  refine Evolves.record ?_ rfl rfl rfl rfl rfl rfl rfl
  apply State.releaseExport_evolves
  assumption

theorem Bsu.leaveUpdate_shape {x : Bsu} {now} (h : x.Shape) :
    (Bsu.leaveUpdate now x).Shape := by
  unfold Bsu.leaveUpdate
  split
  assumption
  refine Bsu.Shape.record ?_
  assumption

theorem State.abortStream_evolves {r s : State} {st isBsu die pos slot cause key} (h : Evolves r s) :
    Evolves r (State.abortStream s st isBsu die pos slot cause key) := by
  unfold State.abortStream
  apply State.abortStep_evolves
  assumption

/-! ### StreamError -/

theorem State.noteBsuCause_evolves {r s : State} {r' cause} (h : Evolves r s) :
    Evolves r (State.noteBsuCause s r' cause) := by
  unfold State.noteBsuCause
  split
  assumption
  apply State.modBsu_evolves
  assumption
  exact fun _ k => k.record

theorem State.markError_evolves {r s : State} {o cause} (h : Evolves r s) :
    Evolves r (State.markError s o cause) := by
  unfold State.markError
  dsimp only
  refine Evolves.record ?_ rfl rfl rfl rfl rfl rfl rfl
  split
  assumption
  apply State.noteBsuCause_evolves
  apply State.modSlot_evolves
  assumption

theorem State.endAllInError_evolves {r s : State} {l} (h : Evolves r s) :
    Evolves r (State.endAllInError s l) := by
  unfold State.endAllInError
  dsimp only
  split
  apply Evolves.foldl
  assumption
  intro _
  intro _
  intro _
  apply State.markError_evolves
  assumption
  apply State.abortStep_evolves
  apply Evolves.foldl
  assumption
  intro _
  intro _
  intro _
  apply State.markError_evolves
  assumption

theorem State.endInError_evolves {r s : State} {o cause} (h : Evolves r s) :
    Evolves r (State.endInError s o cause) := by
  unfold State.endInError
  apply State.endAllInError_evolves
  assumption

theorem State.streamFails_evolves {r s : State} {o reason instr tier dst} (h : Evolves r s) :
    Evolves r (State.streamFails s o reason instr tier dst) := by
  unfold State.streamFails
  apply State.endInError_evolves
  apply State.newCascade_evolves
  assumption

/-! ### Retire -/

theorem State.channelUncorrectable_evolves {r s : State} {st ch addr} (h : Evolves r s) :
    Evolves r (State.channelUncorrectable s st ch addr) := by
  unfold State.channelUncorrectable
  dsimp only
  apply State.modChannel_evolves
  apply State.modStack_evolves
  assumption
  exact fun _ k => k.record

theorem State.channelCorrected_evolves {r s : State} {st ch} (h : Evolves r s) :
    Evolves r (State.channelCorrected s st ch) := by
  unfold State.channelCorrected
  dsimp only
  apply State.modChannel_evolves
  apply State.modStack_evolves
  assumption
  exact fun _ k => k.record

theorem State.channelTransient_evolves {r s : State} {st ch} (h : Evolves r s) :
    Evolves r (State.channelTransient s st ch) := by
  unfold State.channelTransient
  dsimp only
  apply State.modChannel_evolves
  apply State.modStack_evolves
  assumption
  exact fun _ k => k.record

theorem State.tmCorrectedWord_evolves {r s : State} {d p} (h : Evolves r s) :
    Evolves r (State.tmCorrectedWord s d p) := by
  unfold State.tmCorrectedWord
  apply State.modTile_evolves
  assumption
  exact fun _ k => k.record

theorem State.tmFailedRead_evolves {r s : State} {d p} (h : Evolves r s) :
    Evolves r (State.tmFailedRead s d p) := by
  unfold State.tmFailedRead
  apply State.modTile_evolves
  assumption
  exact fun _ k => k.record

theorem State.sharedPageEvent_evolves {r s : State} {die page} (h : Evolves r s) :
    Evolves r (State.sharedPageEvent s die page) := by
  unfold State.sharedPageEvent
  refine Evolves.record ?_ rfl rfl rfl rfl rfl rfl rfl
  assumption

theorem State.beaconPageEvent_evolves {r s : State} {page} (h : Evolves r s) :
    Evolves r (State.beaconPageEvent s page) := by
  unfold State.beaconPageEvent
  dsimp only
  refine Evolves.record ?_ rfl rfl rfl rfl rfl rfl rfl
  assumption

theorem State.checkDevice_evolves {r s : State} (h : Evolves r s) :
    Evolves r (State.checkDevice s) := by
  unfold State.checkDevice
  apply Evolves.ite
  assumption
  split
  apply State.raise_evolves
  refine Evolves.record ?_ rfl rfl rfl rfl rfl rfl rfl
  assumption
  apply State.raise_evolves
  refine Evolves.record ?_ rfl rfl rfl rfl rfl rfl rfl
  assumption
  apply State.raise_evolves
  refine Evolves.record ?_ rfl rfl rfl rfl rfl rfl rfl
  assumption
  apply Evolves.ite
  assumption
  apply State.raise_evolves
  refine Evolves.record ?_ rfl rfl rfl rfl rfl rfl rfl
  assumption
  assumption
  assumption
  assumption
  assumption

theorem State.dieDark_evolves {r s : State} {d : Nat} {l : List Bool} (h : Evolves r s) : Evolves r { s with
      tiles := s.tiles.mapIdx fun i t => if i / 50 = d then { t with lit := false } else t
      hbm := s.hbm.mapIdx fun i k => if stackDie i = d then { k with selfRefresh := true } else k
      sharedLit := l } := by
  refine h.trans { Evolves.refl s with
    tiles := List.length_mapIdx, tile := fun k => mapIdx_all k fun _ _ q => ?_
    hbm := List.length_mapIdx, stack := fun k => mapIdx_all k fun _ _ q => ?_ }
  · split
    · exact q.record
    · exact q
  · split
    · exact q.record
    · exact q

theorem State.dieLeaves_evolves {r s : State} {d reason}
    (h : Evolves r s) : Evolves r (State.dieLeaves s d reason) := by
  unfold State.dieLeaves
  apply State.raise_evolves
  apply State.dieDark_evolves
  exact State.modDie_evolves h fun _ => rfl

theorem State.checkLinkCc_evolves {r s : State} (h : Evolves r s) :
    Evolves r (State.checkLinkCc s) := by
  unfold State.checkLinkCc
  apply Evolves.ite
  apply State.dieLeaves_evolves
  assumption
  assumption

theorem State.checkDie_evolves {r s : State} {d} (h : Evolves r s) :
    Evolves r (State.checkDie s d) := by
  unfold State.checkDie
  apply Evolves.ite
  apply State.dieLeaves_evolves
  assumption
  assumption

theorem State.applyService_evolves {r s : State} (h : Evolves r s) :
    Evolves r (State.applyService s) := by
  unfold State.applyService
  apply State.checkDevice_evolves
  apply State.checkLinkCc_evolves
  apply State.checkDie_evolves
  apply State.checkDie_evolves
  assumption

theorem State.serviceNow_evolves {r s : State} (h : Evolves r s) :
    Evolves r (State.serviceNow s) := by
  unfold State.serviceNow
  split
  assumption
  apply State.applyService_evolves
  assumption
  refine Evolves.record ?_ rfl rfl rfl rfl rfl rfl rfl
  assumption

theorem State.stackLeaves_evolves {r s : State} {st} (h : Evolves r s) :
    Evolves r (State.stackLeaves s st) := by
  unfold State.stackLeaves
  apply State.raise_evolves
  apply State.modStack_evolves
  assumption
  exact fun _ k => k.record

theorem State.retireChannel_evolves {r s : State} {st ch th} (h : Evolves r s) :
    Evolves r (State.retireChannel s st ch th) := by
  unfold State.retireChannel
  apply Evolves.ite
  assumption
  dsimp only
  apply State.serviceNow_evolves
  apply State.abortStep_evolves
  apply Evolves.ite
  apply State.stackLeaves_evolves
  apply Evolves.ite
  refine Evolves.record ?_ rfl rfl rfl rfl rfl rfl rfl
  apply State.raise_evolves
  apply State.countRetirement_evolves
  apply State.logAppend_evolves
  apply State.loseRegions_evolves
  apply State.modBsu_evolves
  apply State.modChannel_evolves
  assumption
  intro _
  intro _
  refine Bsu.Shape.record ?_
  apply Bsu.discardWork_shape
  assumption
  apply State.raise_evolves
  apply State.countRetirement_evolves
  apply State.logAppend_evolves
  apply State.loseRegions_evolves
  apply State.modBsu_evolves
  apply State.modChannel_evolves
  assumption
  intro _
  intro _
  refine Bsu.Shape.record ?_
  apply Bsu.discardWork_shape
  assumption
  apply Evolves.ite
  refine Evolves.record ?_ rfl rfl rfl rfl rfl rfl rfl
  apply State.raise_evolves
  apply State.countRetirement_evolves
  apply State.logAppend_evolves
  apply State.loseRegions_evolves
  apply State.modBsu_evolves
  apply State.modChannel_evolves
  assumption
  intro _
  intro _
  refine Bsu.Shape.record ?_
  apply Bsu.discardWork_shape
  assumption
  apply State.raise_evolves
  apply State.countRetirement_evolves
  apply State.logAppend_evolves
  apply State.loseRegions_evolves
  apply State.modBsu_evolves
  apply State.modChannel_evolves
  assumption
  intro _
  intro _
  refine Bsu.Shape.record ?_
  apply Bsu.discardWork_shape
  assumption

theorem Tile.retire_shape {x : Tile} (h : x.Shape) : (Tile.retire x).Shape := by
  have k : Tile.Shape { x with slots := x.slots.map (StreamSlot.fail retiredCause) } :=
    { h with slots := (List.length_map _).trans h.slots }
  exact (Tile.discardWork_shape k).record

theorem State.retireTile_evolves {r s : State} {d p th} (h : Evolves r s) :
    Evolves r (State.retireTile s d p th) := by
  unfold State.retireTile
  dsimp only
  apply Evolves.ite
  assumption
  apply State.serviceNow_evolves
  apply State.abortStep_evolves
  apply State.raise_evolves
  apply State.countRetirement_evolves
  apply State.logAppend_evolves
  apply State.modTile_evolves
  assumption
  intro _
  intro _
  apply Tile.retire_shape
  assumption

theorem Tile.spareToLowest_shape {x : Tile} (h : x.Shape) :
    (Tile.spareToLowest x).Shape := by
  unfold Tile.spareToLowest
  split
  refine Tile.Shape.record ?_
  assumption
  assumption

theorem State.retireSharedPage_evolves {r s : State} {die page th} (h : Evolves r s) :
    Evolves r (State.retireSharedPage s die page th) := by
  unfold State.retireSharedPage
  apply Evolves.ite
  assumption
  dsimp only
  apply State.serviceNow_evolves
  apply State.raise_evolves
  apply State.countRetirement_evolves
  apply State.logAppend_evolves
  apply State.loseRegions_evolves
  refine Evolves.record ?_ rfl rfl rfl rfl rfl rfl rfl
  assumption

theorem State.retireArray_evolves {r s : State} {d p a th} (h : Evolves r s) :
    Evolves r (State.retireArray s d p a th) := by
  unfold State.retireArray
  dsimp only
  apply Evolves.ite
  assumption
  apply Evolves.ite
  apply State.retireTile_evolves
  apply State.modTile_evolves
  apply State.countRetirement_evolves
  apply State.logAppend_evolves
  apply State.modTile_evolves
  assumption
  exact fun _ k => k.record
  intro _
  intro _
  apply Tile.spareToLowest_shape
  assumption
  apply Evolves.ite
  apply State.raise_evolves
  apply State.countRetirement_evolves
  apply State.logAppend_evolves
  apply State.modTile_evolves
  assumption
  exact fun _ k => k.record
  apply State.modTile_evolves
  apply State.raise_evolves
  apply State.countRetirement_evolves
  apply State.logAppend_evolves
  apply State.modTile_evolves
  assumption
  exact fun _ k => k.record
  intro _
  intro _
  split
  refine Tile.Shape.record ?_
  assumption
  assumption

theorem State.replaceBeaconPage_evolves {r s : State} {page th} (h : Evolves r s) :
    Evolves r (State.replaceBeaconPage s page th) := by
  unfold State.replaceBeaconPage
  dsimp only
  apply Evolves.ite
  apply State.raise_evolves
  apply State.countRetirement_evolves
  apply State.logAppend_evolves
  refine Evolves.record ?_ rfl rfl rfl rfl rfl rfl rfl
  assumption
  apply State.raise_evolves
  assumption

theorem State.bsuSramEvent_evolves {r s : State} {st ch} (h : Evolves r s) :
    Evolves r (State.bsuSramEvent s st ch) := by
  unfold State.bsuSramEvent
  apply State.modBsu_evolves
  assumption
  exact fun _ k => k.record

/-! ### Links -/

theorem State.raiseRetired_evolves {r s : State} {r' th} (h : Evolves r s) :
    Evolves r (State.raiseRetired s r' th) := by
  unfold State.raiseRetired
  apply State.raise_evolves
  assumption

theorem State.sendControl_evolves {r s : State} {n code lane width} (h : Evolves r s) :
    Evolves r (State.sendControl s n code lane width) := by
  unfold State.sendControl
  apply State.modPort_evolves
  assumption
  intro _
  intro _
  apply Port.sendFlits_shape
  assumption

theorem State.tellPeer_evolves {r s : State} {r' code width} (h : Evolves r s) :
    Evolves r (State.tellPeer s r' code width) := by
  unfold State.tellPeer
  split
  assumption
  apply State.sendControl_evolves
  assumption

theorem State.setPending_evolves {r s : State} {r' c} (h : Evolves r s) :
    Evolves r (State.setPending s r' c) := by
  unfold State.setPending
  split
  apply State.modLink_evolves
  assumption
  exact fun _ => rfl
  apply State.modPort_evolves
  assumption
  exact fun _ k => k.record

theorem State.addPending_evolves {r s : State} {r' c} (h : Evolves r s) :
    Evolves r (State.addPending s r' c) := by
  unfold State.addPending
  apply State.setPending_evolves
  assumption

theorem State.retireLaneQuietly_evolves {r s : State} {r' th} (h : Evolves r s) :
    Evolves r (State.retireLaneQuietly s r' th) := by
  unfold State.retireLaneQuietly
  dsimp only
  apply State.countRetirement_evolves
  apply State.logAppend_evolves
  apply State.modLane_evolves
  assumption

theorem State.retireLaneState_evolves {r s : State} {r' th} (h : Evolves r s) :
    Evolves r (State.retireLaneState s r' th) := by
  unfold State.retireLaneState
  apply State.raiseRetired_evolves
  apply State.retireLaneQuietly_evolves
  assumption

theorem State.failInFlight_evolves {r s : State} {k} (h : Evolves r s) : Evolves r (State.failInFlight s k) := by
  unfold State.failInFlight
  refine Evolves.ite ?_ h
  have z : ∀ q, Evolves r { s with host := { s.host with dma := s.host.dma.map (DmaChannel.failOn k) }, requests := q } :=
    fun q => h.trans { Evolves.refl s with dma := (List.length_map _).trans }
  exact Evolves.ite (State.abortStep_evolves (z _)) (State.endAllInError_evolves (z _))

theorem State.failLink_evolves {r s : State} {k th} (h : Evolves r s) :
    Evolves r (State.failLink s k th) := by
  unfold State.failLink
  dsimp only
  apply State.serviceNow_evolves
  apply State.failInFlight_evolves
  apply State.raise_evolves
  apply State.modLink_evolves
  assumption
  exact fun _ => rfl

theorem State.failPort_evolves {r s : State} {n th} (h : Evolves r s) :
    Evolves r (State.failPort s n th) := by
  unfold State.failPort
  dsimp only
  split
  apply State.abortStep_evolves
  apply State.raise_evolves
  apply State.modPort_evolves
  assumption
  exact fun _ k => k.record
  apply State.raise_evolves
  apply State.modPort_evolves
  assumption
  exact fun _ k => k.record

theorem State.failGroup_evolves {r s : State} {r' th} (h : Evolves r s) :
    Evolves r (State.failGroup s r' th) := by
  unfold State.failGroup
  split
  apply State.failLink_evolves
  assumption
  apply State.failPort_evolves
  assumption

theorem State.vacate_evolves {r s : State} {r' root th} (h : Evolves r s) :
    Evolves r (State.vacate s r' root th) := by
  unfold State.vacate
  dsimp only
  apply Evolves.ite
  apply State.failGroup_evolves
  assumption
  apply State.tellPeer_evolves
  apply State.addPending_evolves
  assumption

theorem State.retireLane_evolves {r s : State} {r' th} (h : Evolves r s) :
    Evolves r (State.retireLane s r' th) := by
  unfold State.retireLane
  dsimp only
  apply Evolves.ite
  apply State.vacate_evolves
  apply State.retireLaneState_evolves
  assumption
  apply State.retireLaneState_evolves
  assumption

theorem State.suspectLane_evolves {r s : State} {r'} (h : Evolves r s) :
    Evolves r (State.suspectLane s r') := by
  unfold State.suspectLane
  apply State.logAppend_evolves
  apply State.modLane_evolves
  assumption

theorem State.failedRetrain_evolves {r s : State} {r' th} (h : Evolves r s) :
    Evolves r (State.failedRetrain s r' th) := by
  unfold State.failedRetrain
  dsimp only
  apply Evolves.ite
  apply State.retireLane_evolves
  assumption
  apply Evolves.ite
  apply State.vacate_evolves
  apply State.suspectLane_evolves
  assumption
  apply State.suspectLane_evolves
  assumption

theorem State.handleLane_evolves {r s : State} {r' c th} (h : Evolves r s) :
    Evolves r (State.handleLane s r' c th) := by
  unfold State.handleLane
  dsimp only
  apply Evolves.ite
  assumption
  split
  apply Evolves.ite
  apply State.tellPeer_evolves
  apply State.addPending_evolves
  assumption
  assumption
  apply State.failedRetrain_evolves
  assumption
  apply State.retireLane_evolves
  assumption

theorem execRingTuningTick_evolves {r s : State} {link lane role heater detune tuning} (h : Evolves r s) :
    OutEvolves r (execRingTuningTick link lane role heater detune tuning s) := by
  unfold execRingTuningTick
  apply OutEvolves.ite
  apply OutEvolves.ite
  dsimp only
  apply OutEvolves.ite
  apply OutEvolves.next
  apply State.inCascade_evolves
  apply State.handleLane_evolves
  apply State.newCascade_evolves
  apply State.modLane_evolves
  assumption
  apply OutEvolves.next
  apply State.modLane_evolves
  assumption
  apply OutEvolves.next
  assumption
  exact OutEvolves.fault

theorem State.setWidth_evolves {r s : State} {r' w} (h : Evolves r s) :
    Evolves r (State.setWidth s r' w) := by
  unfold State.setWidth
  split
  apply State.modLink_evolves
  assumption
  exact fun _ => rfl
  apply State.modPort_evolves
  assumption
  exact fun _ k => k.record

theorem State.narrowTo_evolves {r s : State} {r' w} (h : Evolves r s) :
    Evolves r (State.narrowTo s r' w) := by
  unfold State.narrowTo
  dsimp only
  apply State.setWidth_evolves
  apply Evolves.foldl
  assumption
  intro _
  intro _
  intro _
  apply State.modLane_evolves
  assumption

theorem State.fillGap_evolves {r s : State} {r' l root th} (h : Evolves r s) :
    Evolves r (State.fillGap s r' l root th) := by
  unfold State.fillGap
  dsimp only
  apply Evolves.ite
  assumption
  split
  apply Evolves.ite
  apply State.failGroup_evolves
  apply State.inCascade_evolves
  assumption
  apply State.raise_evolves
  apply State.inCascade_evolves
  apply State.narrowTo_evolves
  assumption
  apply State.raise_evolves
  apply State.inCascade_evolves
  apply State.modLane_evolves
  assumption

theorem State.applyChange_evolves {r s : State} {r' c} (h : Evolves r s) :
    Evolves r (State.applyChange s r' c) := by
  unfold State.applyChange
  apply Evolves.ite
  assumption
  split
  apply Evolves.ite
  apply State.modLane_evolves
  assumption
  assumption
  apply State.fillGap_evolves
  assumption
  apply Evolves.ite
  apply State.raise_evolves
  apply State.inCascade_evolves
  apply State.narrowTo_evolves
  assumption
  assumption
  apply Evolves.ite
  dsimp only
  refine Evolves.record ?_ rfl rfl rfl rfl rfl rfl rfl
  apply State.modLane_evolves
  apply State.modLane_evolves
  assumption
  assumption

theorem State.quiesceGroup_evolves {r s : State} {r'} (h : Evolves r s) :
    Evolves r (State.quiesceGroup s r') := by
  unfold State.quiesceGroup
  apply Evolves.ite
  assumption
  split
  split
  split
  apply State.inCascade_evolves
  apply Evolves.foldl
  apply State.setPending_evolves
  assumption
  intro _
  intro _
  intro _
  apply State.applyChange_evolves
  assumption
  dsimp only
  apply State.modPort_evolves
  apply State.inCascade_evolves
  apply Evolves.foldl
  apply State.modPort_evolves
  assumption
  exact fun _ k => k.record
  intro _
  intro _
  intro _
  apply State.applyChange_evolves
  assumption
  intro _
  intro _
  apply Port.pump_shape
  assumption

theorem execQuiescePoint_evolves {r s : State} {link} (h : Evolves r s) :
    OutEvolves r (execQuiescePoint link s) := by
  unfold execQuiescePoint
  apply OutEvolves.ite
  apply OutEvolves.ite
  apply OutEvolves.next
  apply State.quiesceGroup_evolves
  assumption
  apply OutEvolves.next
  assumption
  exact OutEvolves.fault

theorem State.countFec_evolves {r s : State} {r' bitErrors codewords} (h : Evolves r s) :
    Evolves r (State.countFec s r' bitErrors codewords) := by
  unfold State.countFec
  dsimp only
  split
  refine Evolves.record ?_ rfl rfl rfl rfl rfl rfl rfl
  apply State.modLane_evolves
  assumption
  apply State.modPort_evolves
  refine Evolves.record ?_ rfl rfl rfl rfl rfl rfl rfl
  apply State.modLane_evolves
  assumption
  exact fun _ k => k.record

theorem execSpareLaneRotation_evolves {r s : State} {link} (h : Evolves r s) :
    OutEvolves r (execSpareLaneRotation link s) := by
  unfold execSpareLaneRotation
  apply OutEvolves.ite
  dsimp only
  apply OutEvolves.ite
  apply OutEvolves.next
  assumption
  apply OutEvolves.ite
  apply OutEvolves.next
  refine Evolves.record ?_ rfl rfl rfl rfl rfl rfl rfl
  assumption
  split
  apply OutEvolves.next
  apply State.addPending_evolves
  apply State.modLink_evolves
  split
  apply State.advanceTo_evolves
  assumption
  assumption
  exact fun _ => rfl
  apply OutEvolves.next
  assumption
  exact OutEvolves.fault

theorem execLaneThresholdCrossing_evolves {r s : State} {lane bitErrors codewords} (h : Evolves r s) :
    OutEvolves r (execLaneThresholdCrossing lane bitErrors codewords s) := by
  unfold execLaneThresholdCrossing
  apply OutEvolves.ite
  apply OutEvolves.ite
  dsimp only
  apply OutEvolves.ite
  apply OutEvolves.next
  apply State.inCascade_evolves
  apply State.handleLane_evolves
  apply State.newCascade_evolves
  apply State.countFec_evolves
  assumption
  apply OutEvolves.ite
  apply OutEvolves.next
  apply State.inCascade_evolves
  apply State.handleLane_evolves
  apply State.newCascade_evolves
  apply State.countFec_evolves
  assumption
  apply OutEvolves.ite
  apply OutEvolves.next
  apply State.inCascade_evolves
  apply State.handleLane_evolves
  apply State.newCascade_evolves
  apply State.countFec_evolves
  assumption
  apply OutEvolves.next
  apply State.inCascade_evolves
  apply State.newCascade_evolves
  apply State.countFec_evolves
  assumption
  apply OutEvolves.next
  assumption
  exact OutEvolves.fault

theorem execBackgroundRetrain_evolves {r s : State} {lane passed} (h : Evolves r s) :
    OutEvolves r (execBackgroundRetrain lane passed s) := by
  unfold execBackgroundRetrain
  apply OutEvolves.ite
  split
  dsimp only
  apply OutEvolves.ite
  apply OutEvolves.next
  apply State.logAppend_evolves
  apply State.modLane_evolves
  apply State.modLane_evolves
  apply State.advanceTo_evolves
  assumption
  apply OutEvolves.next
  apply State.inCascade_evolves
  apply State.handleLane_evolves
  apply State.newCascade_evolves
  apply State.modLane_evolves
  apply State.advanceTo_evolves
  assumption
  apply OutEvolves.next
  assumption
  exact OutEvolves.fault

theorem execLaneLossOfSignal_evolves {r s : State} {lane} (h : Evolves r s) :
    OutEvolves r (execLaneLossOfSignal lane s) := by
  unfold execLaneLossOfSignal
  apply OutEvolves.ite
  apply OutEvolves.ite
  apply OutEvolves.next
  apply State.inCascade_evolves
  apply State.handleLane_evolves
  apply State.newCascade_evolves
  assumption
  apply OutEvolves.next
  assumption
  exact OutEvolves.fault

theorem execRingOutOfLock_evolves {r s : State} {link lane role} (h : Evolves r s) :
    OutEvolves r (execRingOutOfLock link lane role s) := by
  unfold execRingOutOfLock
  apply OutEvolves.ite
  apply OutEvolves.ite
  apply OutEvolves.next
  apply State.inCascade_evolves
  apply State.handleLane_evolves
  apply State.newCascade_evolves
  assumption
  apply OutEvolves.next
  assumption
  exact OutEvolves.fault

theorem execLaneRetrainComplete_evolves {r s : State} {lane passed} (h : Evolves r s) :
    OutEvolves r (execLaneRetrainComplete lane passed s) := by
  unfold execLaneRetrainComplete
  apply OutEvolves.ite
  apply OutEvolves.ite
  dsimp only
  apply OutEvolves.ite
  apply OutEvolves.next
  apply State.modLane_evolves
  assumption
  apply OutEvolves.next
  apply State.inCascade_evolves
  apply State.handleLane_evolves
  apply State.newCascade_evolves
  apply State.modLane_evolves
  assumption
  apply OutEvolves.next
  assumption
  exact OutEvolves.fault

end Sys2Proof.Machine
end

