-- ==== Sys2Proof/Laws/EvolvesB.lean ====
section
/-! SUPPORT. What each operation and each command of these files of Machine/ keeps: Faults, Flags, Access,
StreamAddr, Reserve, Wick, Array, Background. -/

namespace Sys2Proof.Machine

open Sys2Proof

/-! ### Faults -/

theorem markInFlash_seq {q e} : (markInFlash q e).seq = e.seq := by unfold markInFlash; split <;> rfl

theorem State.appended_evolves {r s : State} {a} (h : Evolves r s) : Evolves r (State.appended s a) := by
  unfold State.appended
  dsimp only
  split
  · exact Evolves.record h rfl rfl rfl rfl rfl rfl rfl
  · exact h.trans { Evolves.refl s with
      ring := fun k => k.map fun _ => markInFlash_seq, flashRing := fun k => k.map fun _ => markInFlash_seq }

theorem State.dropStep_evolves {r s : State} (h : Evolves r s) :
    Evolves r (State.dropStep s) := by
  unfold State.dropStep
  refine Evolves.record ?_ rfl rfl rfl rfl rfl rfl rfl
  assumption

theorem State.unloadProgram_evolves {r s : State} (h : Evolves r s) : Evolves r (State.unloadProgram s) :=
  h.trans { Evolves.refl s with tiles := List.length_map _, tile := fun k => map_all k fun _ q => q.record }

theorem State.serviceAfter_evolves {r s : State} {r'} (h : Evolves r s) :
    Evolves r (State.serviceAfter s r') := by
  unfold State.serviceAfter
  split
  apply State.applyService_evolves
  apply State.inCascade_evolves
  assumption
  assumption

theorem State.enterFaulted_evolves {r s : State} {reason code} (h : Evolves r s) :
    Evolves r (State.enterFaulted s reason code) := by
  have k := State.dropStep_evolves (State.abortStep_evolves (c := { status := .internal, kind := 9 })
    (State.newCascade_evolves h))
  have q := State.unloadProgram_evolves k
  unfold State.enterFaulted
  dsimp only
  generalize (s.newCascade.abortStep _).dropStep = s1 at k q ⊢
  have e : s1.unloadProgram.lamp = s1.lamp := rfl
  generalize s1.unloadProgram = s2 at q e ⊢
  apply State.inCascade_evolves
  apply State.serviceAfter_evolves
  apply State.raise_evolves
  refine q.trans { Evolves.refl s2 with mailboxes := fun z => (List.length_map _).trans (e ▸ z) }

theorem State.lampRestart_evolves {r s : State} {cause} (h : Evolves r s) :
    Evolves r (State.lampRestart s cause) := by
  unfold State.lampRestart
  dsimp only
  apply State.enterFaulted_evolves
  refine Evolves.record ?_ rfl rfl rfl rfl rfl rfl rfl
  assumption

theorem execArrayRetired_evolves {r s : State} {d p a} (h : Evolves r s) :
    OutEvolves r (execArrayRetired d p a s) := by
  unfold execArrayRetired
  apply OutEvolves.ite
  split
  apply OutEvolves.next
  apply State.inCascade_evolves
  apply State.retireArray_evolves
  apply State.newCascade_evolves
  assumption
  apply OutEvolves.next
  assumption
  exact OutEvolves.fault

theorem execTileRetired_evolves {r s : State} {d p} (h : Evolves r s) :
    OutEvolves r (execTileRetired d p s) := by
  unfold execTileRetired
  apply OutEvolves.ite
  dsimp only
  apply OutEvolves.ite
  apply OutEvolves.next
  apply State.inCascade_evolves
  apply State.retireTile_evolves
  apply State.newCascade_evolves
  assumption
  apply OutEvolves.ite
  apply OutEvolves.next
  apply State.inCascade_evolves
  apply State.retireTile_evolves
  apply State.newCascade_evolves
  assumption
  apply OutEvolves.ite
  apply OutEvolves.next
  apply State.inCascade_evolves
  apply State.retireTile_evolves
  apply State.newCascade_evolves
  assumption
  apply OutEvolves.next
  assumption
  exact OutEvolves.fault

theorem State.logAppendFailed_evolves {r s : State} (h : Evolves r s) :
    Evolves r (State.logAppendFailed s) := by
  unfold State.logAppendFailed
  dsimp only
  apply Evolves.ite
  refine Evolves.record ?_ rfl rfl rfl rfl rfl rfl rfl
  assumption
  apply State.enterFaulted_evolves
  refine Evolves.record ?_ rfl rfl rfl rfl rfl rfl rfl
  assumption

theorem execFlashAppendComplete_evolves {r s : State} {ok} (h : Evolves r s) :
    OutEvolves r (execFlashAppendComplete ok s) := by
  unfold execFlashAppendComplete
  split
  apply OutEvolves.next
  assumption
  apply OutEvolves.ite
  apply OutEvolves.next
  apply State.appended_evolves
  assumption
  apply OutEvolves.ite
  apply OutEvolves.next
  apply State.logAppendFailed_evolves
  assumption
  apply OutEvolves.next
  assumption

theorem execChannelRetired_evolves {r s : State} {st ch threshold} (h : Evolves r s) :
    OutEvolves r (execChannelRetired st ch threshold s) := by
  unfold execChannelRetired
  apply OutEvolves.ite
  dsimp only
  split
  apply OutEvolves.next
  apply State.inCascade_evolves
  apply State.retireChannel_evolves
  apply State.newCascade_evolves
  assumption
  apply OutEvolves.next
  assumption
  exact OutEvolves.fault

theorem execSharedPageRetired_evolves {r s : State} {die page} (h : Evolves r s) :
    OutEvolves r (execSharedPageRetired die page s) := by
  unfold execSharedPageRetired
  apply OutEvolves.ite
  apply OutEvolves.ite
  apply OutEvolves.next
  apply State.inCascade_evolves
  apply State.retireSharedPage_evolves
  apply State.newCascade_evolves
  assumption
  apply OutEvolves.next
  assumption
  exact OutEvolves.fault

theorem execBeaconPageReplaced_evolves {r s : State} {page} (h : Evolves r s) :
    OutEvolves r (execBeaconPageReplaced page s) := by
  unfold execBeaconPageReplaced
  apply OutEvolves.ite
  apply OutEvolves.ite
  dsimp only
  apply OutEvolves.next
  apply State.inCascade_evolves
  apply State.replaceBeaconPage_evolves
  apply State.newCascade_evolves
  refine Evolves.record ?_ rfl rfl rfl rfl rfl rfl rfl
  assumption
  apply OutEvolves.next
  assumption
  exact OutEvolves.fault

theorem execLamplighterRestart_evolves {r s : State} {cause} (h : Evolves r s) :
    OutEvolves r (execLamplighterRestart cause s) := by
  unfold execLamplighterRestart
  apply OutEvolves.ite
  apply OutEvolves.next
  apply State.lampRestart_evolves
  assumption
  apply OutEvolves.next
  assumption

theorem execUncontained_evolves {r s : State} {a0} (h : Evolves r s) :
    OutEvolves r (execUncontained a0 s) := by
  unfold execUncontained
  apply OutEvolves.ite
  apply OutEvolves.next
  apply State.enterFaulted_evolves
  assumption
  apply OutEvolves.next
  assumption

/-! ### Flags -/

theorem State.noteAmax_evolves {r s : State} {d p ctx m} (h : Evolves r s) :
    Evolves r (State.noteAmax s d p ctx m) := by
  unfold State.noteAmax
  split
  assumption
  dsimp only
  apply State.tmWrite_evolves
  assumption

theorem Context.note_shape {x : Context} {o seg bundle} (h : x.Shape) :
    (Context.note x o seg bundle).Shape := by
  unfold Context.note
  dsimp only
  refine Context.Shape.record ?_
  assumption

/-! ### Access -/

theorem State.countDenial_evolves {r s : State} {d} (h : Evolves r s) :
    Evolves r (State.countDenial s d) := by
  unfold State.countDenial
  apply Evolves.ite
  refine Evolves.record ?_ rfl rfl rfl rfl rfl rfl rfl
  assumption
  assumption

theorem State.lightFor_evolves {r s : State} {a} (h : Evolves r s) :
    Evolves r (State.lightFor s a) := by
  unfold State.lightFor
  split
  split
  apply State.modTile_evolves
  assumption
  intro _
  intro _
  split
  refine Tile.Shape.record ?_
  assumption
  assumption
  assumption
  dsimp only
  refine Evolves.record ?_ rfl rfl rfl rfl rfl rfl rfl
  assumption
  assumption

theorem State.setBank_evolves {r s : State} {st pch bank b} (h : Evolves r s) :
    Evolves r (State.setBank s st pch bank b) := by
  unfold State.setBank
  apply State.modStack_evolves
  assumption
  exact fun _ k => k.record

theorem State.activate_evolves {r s : State} {a} (h : Evolves r s) : Evolves r (State.activate s a) := by
  unfold State.activate
  split
  · exact State.setBank_evolves h
  · exact h

theorem State.countStack_evolves {r s : State} {write a n} (h : Evolves r s) :
    Evolves r (State.countStack s write a n) := by
  unfold State.countStack
  apply Evolves.foldl
  assumption
  intro _
  intro _
  intro _
  dsimp only
  apply Evolves.ite
  apply State.modStack_evolves
  split
  apply State.modChannel_evolves
  apply State.activate_evolves
  assumption
  apply State.activate_evolves
  assumption
  exact fun _ k => k.record
  split
  apply State.modChannel_evolves
  apply State.activate_evolves
  assumption
  apply State.activate_evolves
  assumption

theorem State.sectorLost_evolves {r s : State} {a} (h : Evolves r s) :
    Evolves r (State.sectorLost s a) := by
  unfold State.sectorLost
  dsimp only
  apply State.channelUncorrectable_evolves
  apply Evolves.ite
  assumption
  refine Evolves.record ?_ rfl rfl rfl rfl rfl rfl rfl
  assumption

theorem State.eccBurst_evolves {r s : State} {a o} (h : Evolves r s) :
    Evolves r (State.eccBurst s a o).1 := by
  unfold State.eccBurst
  split
  dsimp only
  apply State.modStack_evolves
  assumption
  exact fun _ k => k.record
  dsimp only
  apply State.channelCorrected_evolves
  assumption
  dsimp only
  apply State.channelTransient_evolves
  assumption
  dsimp only
  apply State.sectorLost_evolves
  assumption

theorem State.eccSector_evolves {r s : State} {a os} (h : Evolves r s) :
    Evolves r (State.eccSector s a os).1 := by
  unfold State.eccSector
  split
  dsimp only
  apply State.sectorLost_evolves
  assumption
  apply Evolves.foldl_fst
  dsimp only
  assumption
  intro _
  intro _
  intro _
  split
  assumption
  apply State.eccBurst_evolves
  assumption

theorem State.eccSectors_evolves {r s : State} {a js ecc} (h : Evolves r s) :
    Evolves r (State.eccSectors s a js ecc).1 := by
  unfold State.eccSectors
  split
  dsimp only
  assumption
  apply Evolves.foldl_fst
  dsimp only
  assumption
  intro _
  intro _
  intro _
  split
  assumption
  apply State.eccSector_evolves
  assumption

theorem State.eccWord_evolves {r s : State} {a o} (h : Evolves r s) :
    Evolves r (State.eccWord s a o).1 := by
  unfold State.eccWord
  split
  dsimp only
  assumption
  dsimp only
  assumption
  split
  dsimp only
  apply State.tmCorrectedWord_evolves
  assumption
  dsimp only
  assumption
  split
  dsimp only
  apply State.tmFailedRead_evolves
  assumption
  dsimp only
  assumption
  dsimp only
  refine Evolves.record ?_ rfl rfl rfl rfl rfl rfl rfl
  assumption
  dsimp only
  apply State.sharedPageEvent_evolves
  assumption
  dsimp only
  assumption
  dsimp only
  apply State.beaconPageEvent_evolves
  assumption

theorem State.eccRead_evolves {r s : State} {a n ecc} (h : Evolves r s) :
    Evolves r (State.eccRead s a n ecc).1 := by
  unfold State.eccRead
  split
  apply State.eccSectors_evolves
  assumption
  apply Evolves.foldl_fst
  dsimp only
  assumption
  intro _
  intro _
  intro _
  dsimp only
  split
  assumption
  apply State.eccWord_evolves
  assumption

theorem State.serveRead_evolves {r s : State} {a n ecc} (h : Evolves r s) :
    Evolves r (State.serveRead s a n ecc).1 := by
  unfold State.serveRead
  split
  split
  dsimp only
  assumption
  dsimp only
  assumption
  dsimp only
  split
  split
  dsimp only
  apply State.eccRead_evolves
  apply State.countStack_evolves
  apply State.lightFor_evolves
  assumption
  dsimp only
  apply State.eccRead_evolves
  apply State.countStack_evolves
  apply State.lightFor_evolves
  assumption
  split
  dsimp only
  apply State.eccRead_evolves
  apply State.lightFor_evolves
  assumption
  dsimp only
  apply State.eccRead_evolves
  apply State.lightFor_evolves
  assumption

theorem State.rmwReads_evolves {r s : State} {a n ecc} (h : Evolves r s) :
    Evolves r (State.rmwReads s a n ecc).1 := by
  unfold State.rmwReads
  split
  apply State.eccSectors_evolves
  assumption
  dsimp only
  assumption

theorem State.hostByte_opens {s : State} {a n : Nat}
    (h : s.hostByte true a = some n) : s.flash.protection.opens n := by
  unfold State.hostByte State.windowOf at h
  split at h
  · rename_i w e
    have k := List.find?_some e
    simp only [Bool.and_eq_true, decide_eq_true_eq] at k
    simp only [if_true] at h
    split at h
    · injection h with h
      exact ⟨w, List.mem_of_find?_eq_some e, by assumption, by omega, by omega⟩
    · exact absurd h (by simp)
  · exact absurd h (by simp)

theorem State.hostWrite_evolves {r s : State} {a bs} (h : Evolves r s) : Evolves r (State.hostWrite s a bs) := by
  let P := fun m : List Host.Cell => Mem.wf m = true ∧
    ∀ a, ¬s.flash.protection.opens a → Mem.get m a = Mem.get s.hostMem a
  have step : ∀ (m : List Host.Cell) (e : Byte × Nat), P m →
      P (match s.hostByte true (a + e.2) with | some n => Mem.set m n e.1 | none => m) := by
    intro m e q
    split
    · rename_i n hn
      refine ⟨Mem.wf_set _ _ q.1, fun b hb => ?_⟩
      have ne : b ≠ n := fun e2 => hb (by rw [e2]; exact State.hostByte_opens hn)
      rw [Mem.get_set _ _ _ q.1, if_neg ne]
      exact q.2 b hb
    · exact q
  have all : Mem.wf s.hostMem = true → P (s.hostWrite a bs).hostMem := fun q => foldl_keep P ⟨q, fun _ _ => rfl⟩ step
  exact h.trans { Evolves.refl s with hostMem := fun q => (all q).1, outside := fun q => (all q).2 }

theorem State.readIod_evolves {r s : State} {a n ecc} (h : Evolves r s) :
    Evolves r (State.readIod s a n ecc).1 := by
  unfold State.readIod
  apply State.serveRead_evolves
  apply State.countIod_evolves
  assumption

theorem State.serveWrite_evolves {r s : State} {a bs ecc} (h : Evolves r s) :
    Evolves r (State.serveWrite s a bs ecc).1 := by
  unfold State.serveWrite
  split
  dsimp only
  apply State.hostWrite_evolves
  assumption
  split
  dsimp only
  refine Evolves.of_pair ‹_› ?_
  apply State.rmwReads_evolves
  assumption
  dsimp only
  apply State.writeDev_evolves
  apply Evolves.ite
  apply State.countStack_evolves
  apply State.lightFor_evolves
  refine Evolves.of_pair ‹_› ?_
  apply State.rmwReads_evolves
  assumption
  apply State.lightFor_evolves
  refine Evolves.of_pair ‹_› ?_
  apply State.rmwReads_evolves
  assumption

/-! ### StreamAddr -/

theorem State.addReq_evolves {r s : State} {q} (h : Evolves r s) :
    Evolves r (State.addReq s q) := by
  unfold State.addReq
  refine Evolves.record ?_ rfl rfl rfl rfl rfl rfl rfl
  assumption

theorem State.writeTensor_evolves {r s : State} {t shift k bs} (h : Evolves r s) :
    Evolves r (State.writeTensor s t shift k bs) := by
  unfold State.writeTensor
  apply Evolves.foldl
  assumption
  intro _
  intro _
  intro _
  apply State.writeDev_evolves
  assumption

/-! ### Reserve -/

theorem State.writeCopy_evolves {r s : State} {g die} (h : Evolves r s) :
    Evolves r (State.writeCopy s g die) := by
  unfold State.writeCopy
  dsimp only
  apply Evolves.foldl_fst
  dsimp only
  assumption
  intro _
  intro _
  intro _
  dsimp only
  apply State.writeDev_evolves
  apply State.countStack_evolves
  assumption

theorem State.writeCopies_evolves {r s : State} {g} (h : Evolves r s) :
    Evolves r (State.writeCopies s g) := by
  unfold State.writeCopies
  dsimp only
  apply State.writeCopy_evolves
  apply State.writeCopy_evolves
  refine Evolves.record ?_ rfl rfl rfl rfl rfl rfl rfl
  assumption

/-! ### Wick -/

theorem State.recordFault_evolves {r s : State} {d p n cause slot} (h : Evolves r s) :
    Evolves r (State.recordFault s d p n cause slot) := by
  unfold State.recordFault
  apply State.modTile_evolves
  apply State.endStall_evolves
  assumption
  intro _
  intro _
  dsimp only
  refine Tile.Shape.record ?_
  apply Tile.modCtx_shape
  assumption
  exact fun _ k => k.record

theorem State.secondFault_evolves {r s : State} {d p n cause slot} (h : Evolves r s) :
    Evolves r (State.secondFault s d p n cause slot) := by
  have k : Evolves r { s with tiles := s.tiles.map fun x => { x with fault := {} } } :=
    h.trans { Evolves.refl s with tiles := List.length_map _, tile := fun k => map_all k fun _ q => q.record }
  unfold State.secondFault
  apply Evolves.ite
  · exact Evolves.record (State.recordFault_evolves k) rfl rfl rfl rfl rfl rfl rfl
  · exact State.modCtx_evolves h fun _ k => k.record

theorem State.progFault_evolves {r s : State} {d p n cause slot} (h : Evolves r s) :
    Evolves r (State.progFault s d p n cause slot) := by
  unfold State.progFault
  dsimp only
  apply Evolves.ite
  apply State.secondFault_evolves
  assumption
  apply Evolves.ite
  assumption
  apply State.abortStep_evolves
  apply State.newCascade_evolves
  apply State.recordFault_evolves
  assumption

theorem State.wakeCtx_shape {x : Context} {s t n} (h : x.Shape) :
    (State.wakeCtx s t n x).Shape := by
  unfold State.wakeCtx
  dsimp only
  split
  split
  split
  refine Context.Shape.record ?_
  assumption
  refine Context.Shape.record ?_
  assumption
  assumption
  split
  split
  refine Context.Shape.record ?_
  assumption
  refine Context.Shape.record ?_
  assumption
  assumption
  split
  split
  refine Context.Shape.record ?_
  assumption
  refine Context.Shape.record ?_
  assumption
  assumption
  split
  split
  refine Context.Shape.record ?_
  assumption
  refine Context.Shape.record ?_
  assumption
  assumption
  split
  split
  refine Context.Shape.record ?_
  assumption
  refine Context.Shape.record ?_
  assumption
  assumption
  split
  split
  refine Context.Shape.record ?_
  assumption
  refine Context.Shape.record ?_
  assumption
  assumption

theorem State.switchTo_evolves {r s : State} {d p m} (h : Evolves r s) :
    Evolves r (State.switchTo s d p m) := by
  unfold State.switchTo
  apply State.modTile_evolves
  apply State.endStall_evolves
  assumption
  exact fun _ k => k.record

theorem State.settle_evolves {r s : State} {d p} (h : Evolves r s) : Evolves r (State.settle s d p) := by
  have put : ∀ x, Evolves r x → Evolves r (x.modTile d p fun y =>
      { y with contexts := y.contexts.mapIdx (s.wakeCtx (s.tile d p)) }) := fun x k =>
    State.modTile_evolves k fun _ q => { q with
      contexts := List.length_mapIdx.trans q.contexts
      context := mapIdx_all q.context fun _ _ => State.wakeCtx_shape }
  unfold State.settle
  dsimp only
  apply Evolves.ite h
  repeat' split
  all_goals first
    | exact put _ h
    | exact put _ (State.endStall_evolves h)
    | exact put _ (State.switchTo_evolves h)

theorem State.askLight_evolves {r s : State} {d p} (h : Evolves r s) :
    Evolves r (State.askLight s d p) := by
  unfold State.askLight
  apply State.modTile_evolves
  assumption
  intro _
  intro _
  split
  refine Tile.Shape.record ?_
  assumption
  assumption

theorem Tile.setCounter_shape {t : Tile} {n v} (h : t.Shape) (hv : v ≤ 0xFFFF) :
    Tile.Shape { t with counters := modAt t.counters n fun _ => v } :=
  { h with counters := (modAt_length _ _ _).trans h.counters, bound := modAt_all _ h.bound fun _ _ => hv }

theorem State.bump_evolves {r s : State} {d p counter inc} (h : Evolves r s) :
    Evolves r (State.bump s d p counter inc) := by
  unfold State.bump
  apply Evolves.ite h
  apply Evolves.ite (State.progFault_evolves h)
  apply Evolves.ite h
  split
  · exact State.progFault_evolves h
  · refine State.settle_evolves (State.askLight_evolves (State.modTile_evolves h fun _ k => Tile.setCounter_shape k ?_))
    omega

theorem State.opEnded_evolves {r s : State} {d p} (h : Evolves r s) :
    Evolves r (State.opEnded s d p) := by
  unfold State.opEnded
  apply State.modTile_evolves
  assumption
  exact fun _ k => k.record

theorem State.tag_evolves {r s : State} {d p counter g} (h : Evolves r s) :
    Evolves r (State.tag s d p counter g) := by
  unfold State.tag
  apply State.modTile_evolves
  assumption
  exact fun _ k => k.record

theorem State.gotoBundle_evolves {r s : State} {d p b} (h : Evolves r s) :
    Evolves r (State.gotoBundle s d p b) := by
  unfold State.gotoBundle
  dsimp only
  apply Evolves.ite
  apply State.modCtx_evolves
  assumption
  exact fun _ k => k.record
  apply State.progFault_evolves
  assumption

theorem State.tmWord_evolves {r s : State} {d p o} (h : Evolves r s) :
    Evolves r (State.tmWord s d p o).1 := by
  unfold State.tmWord
  split
  dsimp only
  assumption
  dsimp only
  assumption
  dsimp only
  apply State.tmCorrectedWord_evolves
  assumption
  dsimp only
  apply State.tmFailedRead_evolves
  assumption

theorem State.tmAbort_evolves {r s : State} {d p} (h : Evolves r s) :
    Evolves r (State.tmAbort s d p) := by
  unfold State.tmAbort
  apply State.abortStep_evolves
  apply State.newCascade_evolves
  assumption

theorem State.tmEcc_evolves {r s : State} {d p ecc} (h : Evolves r s) : Evolves r (State.tmEcc s d p ecc).1 := by
  have k : Evolves r (List.foldl (fun (x : State × Bool) (e : Nat × EccOutcome) =>
      if x.2 then x else x.1.tmWord d p e.2) (s, false) ecc).1 := by
    refine Evolves.foldl_fst _ _ _ h fun y a q => ?_
    split
    · exact q
    · exact State.tmWord_evolves q
  unfold State.tmEcc
  dsimp only
  split
  · exact State.tmAbort_evolves k
  · exact k

theorem State.sendEvent_evolves {r s : State} {d f} (h : Evolves r s) (hf : ∀ n x, Evolves r x → Evolves r (f n x)) :
    Evolves r (State.sendEvent s d f) :=
  hf _ _ (State.addReq_evolves h)

theorem State.blockOn_evolves {r s : State} {d p r'} (h : Evolves r s) :
    Evolves r (State.blockOn s d p r') := by
  unfold State.blockOn
  apply State.settle_evolves
  apply State.modTile_evolves
  assumption
  intro _
  intro _
  dsimp only
  refine Tile.Shape.record ?_
  apply Tile.modCtx_shape
  assumption
  exact fun _ k => k.record

theorem State.refillSplit_evolves {r s : State} {d p n}
    (h : Evolves r s) : Evolves r (State.refillSplit s d p n) := by
  induction n generalizing s with
  | zero => exact h
  | succ n ih =>
    unfold State.refillSplit
    split
    · exact h
    · exact Evolves.ite h (ih (State.modTile_evolves (State.addReq_evolves h) fun _ k => k.record))

theorem State.refill_evolves {r s : State} {d p} (h : Evolves r s) :
    Evolves r (State.refill s d p) := by
  unfold State.refill
  dsimp only
  apply Evolves.ite
  assumption
  apply State.refillSplit_evolves
  apply State.modSlot_evolves
  assumption

theorem State.startLoad_evolves {r s : State} {d p g b ctx} (h : Evolves r s) :
    Evolves r (State.startLoad s d p g b ctx) := by
  unfold State.startLoad
  apply State.refill_evolves
  apply State.modTile_evolves
  assumption
  exact fun _ k => k.record

theorem State.prefetch_evolves {r s : State} {d p g b} (h : Evolves r s) :
    Evolves r (State.prefetch s d p g b) := by
  unfold State.prefetch
  dsimp only
  apply Evolves.ite
  apply State.startLoad_evolves
  assumption
  assumption

theorem State.blockSegment_evolves {r s : State} {d p g} (h : Evolves r s) :
    Evolves r (State.blockSegment s d p g) := by
  unfold State.blockSegment
  apply Evolves.ite
  apply State.blockOn_evolves
  assumption
  assumption

theorem State.segmentTo_evolves {r s : State} {d p g} (h : Evolves r s) :
    Evolves r (State.segmentTo s d p g) := by
  unfold State.segmentTo
  dsimp only
  apply Evolves.ite
  apply Evolves.ite
  apply State.prefetch_evolves
  apply State.modCtx_evolves
  assumption
  exact fun _ k => k.record
  apply State.blockSegment_evolves
  apply State.modTile_evolves
  apply State.modCtx_evolves
  assumption
  exact fun _ k => k.record
  exact fun _ k => k.record
  split
  apply State.progFault_evolves
  assumption
  apply State.blockSegment_evolves
  apply State.startLoad_evolves
  apply State.modCtx_evolves
  assumption
  exact fun _ k => k.record

theorem State.yieldNow_evolves {r s : State} {d p} (h : Evolves r s) :
    Evolves r (State.yieldNow s d p) := by
  unfold State.yieldNow
  dsimp only
  apply Evolves.ite
  assumption
  split
  apply State.switchTo_evolves
  assumption
  assumption

theorem State.unblock_evolves {r s : State} {d p n st} (h : Evolves r s) :
    Evolves r (State.unblock s d p n st) := by
  unfold State.unblock
  dsimp only
  apply State.settle_evolves
  apply State.modTile_evolves
  apply Evolves.ite
  apply State.endStall_evolves
  assumption
  assumption
  intro _
  intro _
  split
  refine Tile.Shape.record ?_
  apply Tile.modCtx_shape
  assumption
  intro _
  intro _
  split
  refine Context.Shape.record ?_
  assumption
  refine Context.Shape.record ?_
  assumption
  apply Tile.modCtx_shape
  assumption
  intro _
  intro _
  split
  refine Context.Shape.record ?_
  assumption
  refine Context.Shape.record ?_
  assumption

/-! ### Array -/

theorem State.issueHold_evolves {r s : State} {d p} (h : Evolves r s) :
    Evolves r (State.issueHold s d p) := by
  unfold State.issueHold
  apply State.modTile_evolves
  assumption
  exact fun _ k => k.record

theorem State.issueArray_evolves {r s : State} {d p a ecc} (h : Evolves r s) :
    Evolves r (State.issueArray s d p a ecc) := by
  unfold State.issueArray
  dsimp only
  apply Evolves.ite
  apply State.progFault_evolves
  assumption
  apply Evolves.ite
  apply State.tmEcc_evolves
  assumption
  apply State.tag_evolves
  apply State.modTile_evolves
  apply State.tmEcc_evolves
  assumption
  exact fun _ k => k.record

theorem State.arrayDone_evolves {r s : State} {d p o} (h : Evolves r s) :
    Evolves r (State.arrayDone s d p o) := by
  unfold State.arrayDone
  dsimp only
  apply State.bump_evolves
  apply State.modTile_evolves
  apply Evolves.ite
  apply State.noteAmax_evolves
  apply State.chargeStall_evolves
  assumption
  apply State.chargeStall_evolves
  assumption
  intro _
  intro _
  refine Tile.Shape.record ?_
  apply Tile.modCtx_shape
  assumption
  intro _
  intro _
  apply Context.note_shape
  assumption

theorem State.replay_evolves {r s : State} {d p o} (h : Evolves r s) :
    Evolves r (State.replay s d p o) := by
  unfold State.replay
  dsimp only
  apply State.modTile_evolves
  apply State.addStall_evolves
  apply State.chargeStall_evolves
  assumption
  exact fun _ k => k.record

theorem State.arrayRow_evolves {r s : State} {d p a ecc} (h : Evolves r s) :
    Evolves r (State.arrayRow s d p a ecc) := by
  unfold State.arrayRow
  apply Evolves.ite
  assumption
  apply Evolves.ite
  apply State.issueHold_evolves
  assumption
  apply State.issueArray_evolves
  assumption

theorem execMatmul_evolves {r s : State} {d p slot ecc} (h : Evolves r s) :
    OutEvolves r (execMatmul d p slot ecc s) := by
  unfold execMatmul
  apply OutEvolves.ite
  apply OutEvolves.next
  apply Evolves.ite
  assumption
  apply State.arrayRow_evolves
  assumption
  exact OutEvolves.fault

theorem execPairBackward_evolves {r s : State} {d p slot ecc} (h : Evolves r s) :
    OutEvolves r (execPairBackward d p slot ecc s) := by
  unfold execPairBackward
  apply OutEvolves.ite
  apply OutEvolves.next
  apply Evolves.ite
  apply State.arrayRow_evolves
  assumption
  assumption
  exact OutEvolves.fault

theorem execSpareSubstitutionComplete_evolves {r s : State} {d p} (h : Evolves r s) :
    OutEvolves r (execSpareSubstitutionComplete d p s) := by
  unfold execSpareSubstitutionComplete
  apply OutEvolves.ite
  dsimp only
  split
  apply OutEvolves.ite
  apply OutEvolves.next
  apply State.modTile_evolves
  apply State.addStall_evolves
  apply State.chargeStall_evolves
  assumption
  exact fun _ k => k.record
  apply OutEvolves.next
  assumption
  apply OutEvolves.next
  assumption
  exact OutEvolves.fault

theorem execArrayNop_evolves {r s : State} {d p} (h : Evolves r s) :
    OutEvolves r (execArrayNop d p s) := by
  unfold execArrayNop
  apply OutEvolves.ite
  apply OutEvolves.next
  assumption
  exact OutEvolves.fault

theorem State.beginOp_evolves {r s : State} {d p} (h : Evolves r s) :
    Evolves r (State.beginOp s d p) := by
  unfold State.beginOp
  dsimp only
  split
  assumption
  apply Evolves.ite
  assumption
  apply State.modTile_evolves
  assumption
  exact fun _ k => k.record

theorem Tile.noteFlickers_shape {x : Tile} {now l} (h : x.Shape) :
    (Tile.noteFlickers x now l).Shape := by
  unfold Tile.noteFlickers
  refine foldl_keep Tile.Shape ?_ ?_
  assumption
  intro _
  exact fun _ k => k.record

theorem State.passWriteBack_evolves {r s : State} {d p upsets} (h : Evolves r s) :
    Evolves r (State.passWriteBack s d p upsets) := by
  unfold State.passWriteBack
  dsimp only
  split
  assumption
  apply Evolves.ite
  apply State.settle_evolves
  apply State.modTile_evolves
  apply Evolves.ite
  apply State.chargeStall_evolves
  apply Evolves.foldl
  apply State.beginOp_evolves
  assumption
  intro _
  intro _
  intro _
  apply State.tmWrite_evolves
  assumption
  apply Evolves.foldl
  apply State.beginOp_evolves
  assumption
  intro _
  intro _
  intro _
  apply State.tmWrite_evolves
  assumption
  intro _
  intro _
  refine Tile.Shape.record ?_
  apply Tile.noteFlickers_shape
  assumption
  apply State.modTile_evolves
  apply Evolves.ite
  apply State.chargeStall_evolves
  apply Evolves.foldl
  apply State.beginOp_evolves
  assumption
  intro _
  intro _
  intro _
  apply State.tmWrite_evolves
  assumption
  apply Evolves.foldl
  apply State.beginOp_evolves
  assumption
  intro _
  intro _
  intro _
  apply State.tmWrite_evolves
  assumption
  intro _
  intro _
  refine Tile.Shape.record ?_
  apply Tile.noteFlickers_shape
  assumption

theorem execArrayPassWriteBack_evolves {r s : State} {d p flickers} (h : Evolves r s) :
    OutEvolves r (execArrayPassWriteBack d p flickers s) := by
  unfold execArrayPassWriteBack
  apply OutEvolves.ite
  split
  apply OutEvolves.next
  assumption
  apply OutEvolves.next
  apply Evolves.ite
  apply State.passWriteBack_evolves
  assumption
  assumption
  exact OutEvolves.fault

theorem execArrayOpComplete_evolves {r s : State} {d p} (h : Evolves r s) :
    OutEvolves r (execArrayOpComplete d p s) := by
  unfold execArrayOpComplete
  apply OutEvolves.ite
  split
  apply OutEvolves.next
  assumption
  apply OutEvolves.next
  apply Evolves.ite
  apply State.arrayDone_evolves
  assumption
  assumption
  exact OutEvolves.fault

theorem execFlickerReplay_evolves {r s : State} {d p} (h : Evolves r s) :
    OutEvolves r (execFlickerReplay d p s) := by
  unfold execFlickerReplay
  apply OutEvolves.ite
  dsimp only
  split
  apply OutEvolves.next
  assumption
  apply OutEvolves.next
  apply Evolves.ite
  apply State.replay_evolves
  assumption
  assumption
  exact OutEvolves.fault

/-! ### Background -/

theorem State.countSwitchover_evolves {r s : State} (h : Evolves r s) :
    Evolves r (State.countSwitchover s) := by
  unfold State.countSwitchover
  refine Evolves.record ?_ rfl rfl rfl rfl rfl rfl rfl
  assumption

theorem State.retireLaser_evolves {r s : State} {i} (h : Evolves r s) :
    Evolves r (State.retireLaser s i) := by
  unfold State.retireLaser
  dsimp only
  split
  apply State.countSwitchover_evolves
  apply State.modLaser_evolves
  apply State.modLaser_evolves
  assumption
  split
  apply State.modLaser_evolves
  apply State.modLaser_evolves
  assumption
  apply State.modLaser_evolves
  assumption

theorem execPhyCalibration_evolves {r s : State} {st pch} (h : Evolves r s) :
    OutEvolves r (execPhyCalibration st pch s) := by
  unfold execPhyCalibration
  apply OutEvolves.ite
  apply OutEvolves.ite
  dsimp only
  apply OutEvolves.next
  apply State.modStack_evolves
  refine Evolves.record ?_ rfl rfl rfl rfl rfl rfl rfl
  apply State.advanceTo_evolves
  assumption
  exact fun _ k => k.record
  apply OutEvolves.next
  assumption
  exact OutEvolves.fault

theorem execLaserOutputDrop_evolves {r s : State} {source output} (h : Evolves r s) :
    OutEvolves r (execLaserOutputDrop source output s) := by
  unfold execLaserOutputDrop
  apply OutEvolves.ite
  apply OutEvolves.ite
  apply OutEvolves.next
  apply State.retireLaser_evolves
  apply State.modLaser_evolves
  assumption
  apply OutEvolves.next
  assumption
  exact OutEvolves.fault

theorem State.replaceLaser_evolves {r s : State} {i} (h : Evolves r s) :
    Evolves r (State.replaceLaser s i) := by
  unfold State.replaceLaser
  apply Evolves.ite
  split
  dsimp only
  apply State.countSwitchover_evolves
  apply State.modLaser_evolves
  apply State.modLaser_evolves
  assumption
  assumption
  assumption

theorem State.scrubCorrectedWord_evolves {r s : State} {w} (h : Evolves r s) :
    Evolves r (State.scrubCorrectedWord s w) := by
  unfold State.scrubCorrectedWord
  dsimp only
  split
  apply State.tmCorrectedWord_evolves
  refine Evolves.record ?_ rfl rfl rfl rfl rfl rfl rfl
  assumption
  refine Evolves.record ?_ rfl rfl rfl rfl rfl rfl rfl
  assumption
  apply State.modBsu_evolves
  refine Evolves.record ?_ rfl rfl rfl rfl rfl rfl rfl
  assumption
  exact fun _ k => k.record
  refine Evolves.record ?_ rfl rfl rfl rfl rfl rfl rfl
  assumption
  refine Evolves.record ?_ rfl rfl rfl rfl rfl rfl rfl
  assumption

theorem State.scrubFailedWord_evolves {r s : State} {w} (h : Evolves r s) :
    Evolves r (State.scrubFailedWord s w) := by
  unfold State.scrubFailedWord
  split
  apply State.tmFailedRead_evolves
  assumption
  apply State.sharedPageEvent_evolves
  assumption
  apply State.bsuSramEvent_evolves
  assumption
  apply State.beaconPageEvent_evolves
  assumption
  apply State.lampRestart_evolves
  assumption

theorem execSramScrubWord_evolves {r s : State} {word ecc passDone} (h : Evolves r s) :
    OutEvolves r (execSramScrubWord word ecc passDone s) := by
  unfold execSramScrubWord
  apply OutEvolves.ite
  apply OutEvolves.ite
  dsimp only
  split
  apply OutEvolves.next
  apply Evolves.ite
  refine Evolves.record ?_ rfl rfl rfl rfl rfl rfl rfl
  assumption
  assumption
  apply OutEvolves.next
  apply Evolves.ite
  refine Evolves.record ?_ rfl rfl rfl rfl rfl rfl rfl
  assumption
  assumption
  apply OutEvolves.next
  apply Evolves.ite
  refine Evolves.record ?_ rfl rfl rfl rfl rfl rfl rfl
  assumption
  assumption
  apply OutEvolves.next
  apply State.scrubCorrectedWord_evolves
  apply Evolves.ite
  refine Evolves.record ?_ rfl rfl rfl rfl rfl rfl rfl
  assumption
  assumption
  apply OutEvolves.next
  apply State.scrubFailedWord_evolves
  apply Evolves.ite
  refine Evolves.record ?_ rfl rfl rfl rfl rfl rfl rfl
  assumption
  assumption
  apply OutEvolves.next
  assumption
  exact OutEvolves.fault

theorem execLaserTracking_evolves {r s : State} {source drive output temp} (h : Evolves r s) :
    OutEvolves r (execLaserTracking source drive output temp s) := by
  unfold execLaserTracking
  apply OutEvolves.ite
  apply OutEvolves.ite
  dsimp only
  apply OutEvolves.ite
  apply OutEvolves.next
  apply State.modLaser_evolves
  assumption
  apply OutEvolves.ite
  apply OutEvolves.next
  apply State.retireLaser_evolves
  apply State.modLaser_evolves
  assumption
  apply OutEvolves.ite
  apply OutEvolves.next
  apply State.replaceLaser_evolves
  apply State.modLaser_evolves
  assumption
  apply OutEvolves.next
  apply State.modLaser_evolves
  assumption
  apply OutEvolves.next
  assumption
  exact OutEvolves.fault

theorem execFlashRelocation_evolves {r s : State} {block eraseOk} (h : Evolves r s) :
    OutEvolves r (execFlashRelocation block eraseOk s) := by
  have e : (s.flash.eraseBlock block eraseOk).eventRing = s.flash.eventRing := by
    unfold Flash.eraseBlock
    split <;> rfl
  have q : (s.flash.eraseBlock block eraseOk).protection.windows = s.flash.protection.windows := by
    unfold Flash.eraseBlock
    split <;> rfl
  unfold execFlashRelocation
  apply OutEvolves.ite _ OutEvolves.fault
  exact OutEvolves.ite (OutEvolves.next (Evolves.record h rfl rfl e rfl rfl rfl q)) (OutEvolves.next h)

theorem State.i3cInterrupt_evolves {r s : State} (h : Evolves r s) :
    Evolves r (State.i3cInterrupt s) := by
  unfold State.i3cInterrupt
  apply Evolves.ite
  refine Evolves.record ?_ rfl rfl rfl rfl rfl rfl rfl
  assumption
  assumption

theorem State.teleInterrupt_evolves {r s : State} (h : Evolves r s) :
    Evolves r (State.teleInterrupt s) := by
  unfold State.teleInterrupt
  apply Evolves.ite
  apply State.signal_evolves
  refine Evolves.record ?_ rfl rfl rfl rfl rfl rfl rfl
  assumption
  assumption

theorem State.resetDebts_evolves {r s : State} (h : Evolves r s) :
    Evolves r { s with hbm := s.hbm.map fun k => { k with maxDebt := 0 } } :=
  h.trans { Evolves.refl s with hbm := List.length_map _, stack := fun k => map_all k fun _ q => q.record }

theorem State.closeInterval_evolves {r s : State} {tick meanPower} (h : Evolves r s) :
    Evolves r (State.closeInterval s tick meanPower) :=
  Evolves.record (s := { s with hbm := s.hbm.map fun k => { k with maxDebt := 0 } })
    (State.resetDebts_evolves h) rfl rfl rfl rfl rfl rfl rfl

theorem execTelemetrySample_evolves {r s : State} {meanPowerMw} (h : Evolves r s) :
    OutEvolves r (execTelemetrySample meanPowerMw s) := by
  unfold execTelemetrySample
  apply OutEvolves.ite
  apply OutEvolves.next
  apply State.i3cInterrupt_evolves
  apply State.teleInterrupt_evolves
  apply State.closeInterval_evolves
  apply State.advanceTo_evolves
  assumption
  apply OutEvolves.next
  assumption

end Sys2Proof.Machine
end

