-- ==== Sys2Proof/Laws/EvolvesC.lean ====
section
/-! SUPPORT. What each operation and each command of these files of Machine/ keeps: Streams, Vector, Dma. -/

namespace Sys2Proof.Machine

open Sys2Proof

/-! ### Streams -/

theorem State.chargeOwner_evolves {r s : State} {o} (h : Evolves r s) :
    Evolves r (State.chargeOwner s o) := by
  unfold State.chargeOwner
  split
  apply State.chargeStall_evolves
  assumption
  apply State.chargeBsu_evolves
  assumption
  assumption
  assumption
  assumption
  assumption

theorem State.streamWaits_evolves {r s : State} {r' w} (h : Evolves r s) :
    Evolves r (State.streamWaits s r' w) := by
  unfold State.streamWaits
  apply State.modSlot_evolves
  apply State.chargeOwner_evolves
  assumption

theorem State.takeUnit_evolves {r s : State} {r' enc} (h : Evolves r s) :
    Evolves r (State.takeUnit s r' enc) := by
  unfold State.takeUnit
  dsimp only
  apply Evolves.ite
  apply State.modSlot_evolves
  apply State.modFtc_evolves
  assumption
  apply State.streamWaits_evolves
  apply State.modFtc_evolves
  assumption

theorem State.takeFtc_evolves {r s : State} {r' h'} (h : Evolves r s) :
    Evolves r (State.takeFtc s r' h') := by
  unfold State.takeFtc
  apply Evolves.ite
  apply State.takeUnit_evolves
  assumption
  assumption

theorem State.clearIndexDone_evolves {r s : State} {r'} (h : Evolves r s) :
    Evolves r (State.clearIndexDone s r') := by
  unfold State.clearIndexDone
  split
  apply State.modSlot_evolves
  assumption
  assumption

theorem State.startSlot_evolves {r s : State} {r' ctx done q} (h : Evolves r s) :
    Evolves r (State.startSlot s r' ctx done q) := by
  unfold State.startSlot
  dsimp only
  apply State.takeFtc_evolves
  apply State.clearIndexDone_evolves
  apply State.modSlot_evolves
  assumption

theorem State.streamFail_evolves {r s : State} {r' reason tier dst} (h : Evolves r s) :
    Evolves r (State.streamFail s r' reason tier dst) := by
  unfold State.streamFail
  apply State.streamFails_evolves
  assumption

theorem State.askAt_evolves {r s : State} {a} (h : Evolves r s) :
    Evolves r (State.askAt s a) := by
  unfold State.askAt
  apply Evolves.ite
  split
  apply State.askLight_evolves
  assumption
  assumption
  assumption

theorem State.issue_evolves {r s : State} {r' h' instr q} (h : Evolves r s) :
    Evolves r (State.issue s r' h' instr q) := by
  unfold State.issue
  dsimp only
  apply State.askAt_evolves
  apply State.askAt_evolves
  refine Evolves.record ?_ rfl rfl rfl rfl rfl rfl rfl
  assumption

theorem State.deliver_evolves {r s : State} {x hd i stop n} (h : Evolves r s) :
    Evolves r (State.deliver s x hd i stop n) := by
  induction n generalizing s with
  | zero => exact h
  | succ n ih =>
    unfold State.deliver
    dsimp only
    apply Evolves.ite h
    split
    · exact State.streamWaits_evolves h
    · exact State.streamFail_evolves h
    · exact ih (State.issue_evolves (State.modSlot_evolves h))

theorem State.moveOn_evolves {r s : State} {r' h' i k} (h : Evolves r s) :
    Evolves r (State.moveOn s r' h' i k) := by
  unfold State.moveOn
  dsimp only
  apply Evolves.ite
  apply State.modSlot_evolves
  apply State.deliver_evolves
  assumption
  apply State.deliver_evolves
  assumption

theorem State.instrRow_evolves {r s : State} {x op f} (h : Evolves r s)
    (hf : ∀ y, Evolves r y → Evolves r (f y x)) : OutEvolves r (State.instrRow s x op f) := by
  unfold State.instrRow
  exact OutEvolves.ite (OutEvolves.next (Evolves.ite (hf _ (State.chargeOwner_evolves h)) h)) OutEvolves.fault

theorem State.doSeta_evolves {r s : State} {r'} (h : Evolves r s) :
    Evolves r (State.doSeta s r') := by
  unfold State.doSeta
  dsimp only
  apply State.modSlot_evolves
  assumption

theorem execStreamSeta_evolves {r s : State} {r'} (h : Evolves r s) :
    OutEvolves r (execStreamSeta r' s) := by
  unfold execStreamSeta
  apply State.instrRow_evolves
  assumption
  intro _
  intro _
  apply State.doSeta_evolves
  assumption

theorem State.pastTags_evolves {r s : State} {d p n} (h : Evolves r s) :
    Evolves r (State.pastTags s d p n) := by
  unfold State.pastTags
  dsimp only
  apply State.modTile_evolves
  assumption
  exact fun _ k => k.record

theorem State.opStart_evolves {r s : State} {d p n arg done} (h : Evolves r s) :
    Evolves r (State.opStart s d p n arg done) := by
  unfold State.opStart
  dsimp only
  split
  apply State.progFault_evolves
  assumption
  apply State.progFault_evolves
  assumption
  assumption
  apply Evolves.ite
  apply State.tag_evolves
  apply State.tag_evolves
  apply State.pastTags_evolves
  apply State.startSlot_evolves
  assumption
  apply State.tag_evolves
  apply State.pastTags_evolves
  apply State.startSlot_evolves
  assumption

theorem State.doSets_evolves {r s : State} {r'} (h : Evolves r s) :
    Evolves r (State.doSets s r') := by
  unfold State.doSets
  dsimp only
  apply State.modSlot_evolves
  assumption

theorem State.streamEvent_evolves {r s : State} {r' counter n} (h : Evolves r s) :
    Evolves r (State.streamEvent s r' counter n) := by
  unfold State.streamEvent
  split
  apply Evolves.ite
  assumption
  apply State.bump_evolves
  apply State.opEnded_evolves
  assumption
  assumption

theorem State.freeFtc_evolves {r s : State} {r' h'} (h : Evolves r s) :
    Evolves r (State.freeFtc s r' h') := by
  unfold State.freeFtc
  apply Evolves.ite
  apply State.modSlot_evolves
  apply State.modFtc_evolves
  assumption
  assumption

theorem State.workEnds_evolves {r s : State} {r'} (h : Evolves r s) :
    Evolves r (State.workEnds s r') := by
  unfold State.workEnds
  split
  assumption
  apply State.modBsu_evolves
  assumption
  exact fun _ k => k.record

theorem State.streamCheck_evolves {r s : State} {r'} (h : Evolves r s) :
    Evolves r (State.streamCheck s r') := by
  unfold State.streamCheck
  dsimp only
  apply Evolves.ite
  apply State.streamEvent_evolves
  split
  apply State.modSlot_evolves
  apply State.modSlot_evolves
  apply State.workEnds_evolves
  apply State.chargeOwner_evolves
  apply State.freeFtc_evolves
  apply State.streamEvent_evolves
  apply State.modSlot_evolves
  assumption
  apply State.modSlot_evolves
  apply State.workEnds_evolves
  apply State.chargeOwner_evolves
  apply State.freeFtc_evolves
  apply State.streamEvent_evolves
  apply State.modSlot_evolves
  assumption
  apply State.streamEvent_evolves
  apply State.modSlot_evolves
  assumption

theorem State.opBind_evolves {r s : State} {d p n prog} (h : Evolves r s) :
    Evolves r (State.opBind s d p n prog) := by
  unfold State.opBind
  dsimp only
  split
  apply State.modSlot_evolves
  assumption
  apply State.modSlot_evolves
  assumption
  apply State.progFault_evolves
  assumption
  assumption

theorem State.opConsume_evolves {r s : State} {d p n blocks} (h : Evolves r s) :
    Evolves r (State.opConsume s d p n blocks) := by
  unfold State.opConsume
  dsimp only
  split
  apply State.progFault_evolves
  assumption
  assumption
  apply Evolves.ite
  apply Evolves.ite
  apply State.streamFail_evolves
  assumption
  apply State.streamFail_evolves
  apply State.modSlot_evolves
  assumption
  apply State.modSlot_evolves
  assumption
  apply Evolves.ite
  apply Evolves.ite
  apply State.streamFail_evolves
  assumption
  apply State.streamFail_evolves
  apply State.modSlot_evolves
  assumption
  apply State.modSlot_evolves
  assumption

theorem State.opUnbind_evolves {r s : State} {d p n} (h : Evolves r s) :
    Evolves r (State.opUnbind s d p n) := by
  unfold State.opUnbind
  dsimp only
  split
  apply State.progFault_evolves
  assumption
  apply State.progFault_evolves
  assumption
  assumption
  apply State.modSlot_evolves
  assumption

theorem State.streamSlotOp_evolves {r s : State} {d p o} (h : Evolves r s) :
    Evolves r (State.streamSlotOp s d p o) := by
  unfold State.streamSlotOp
  split
  apply State.opBind_evolves
  assumption
  apply State.opStart_evolves
  assumption
  apply State.opConsume_evolves
  assumption
  apply State.opUnbind_evolves
  assumption
  assumption

theorem State.ftcGrant_evolves {r s : State} {die enc} (h : Evolves r s) :
    Evolves r (State.ftcGrant s die enc) := by
  unfold State.ftcGrant
  dsimp only
  split
  assumption
  apply Evolves.ite
  apply State.modSlot_evolves
  apply State.modFtc_evolves
  assumption
  assumption

theorem State.place_evolves {r s : State} {h' q data ecc} (h : Evolves r s) :
    Evolves r (State.place s h' q data ecc).1 := by
  unfold State.place
  dsimp only
  split
  dsimp only
  refine Evolves.of_pair ‹_› ?_
  split
  dsimp only
  assumption
  split
  dsimp only
  apply State.countDenial_evolves
  assumption
  apply State.serveWrite_evolves
  assumption
  split
  dsimp only
  refine Evolves.of_pair ‹_› ?_
  split
  dsimp only
  assumption
  split
  dsimp only
  apply State.countDenial_evolves
  assumption
  apply State.serveWrite_evolves
  assumption
  split
  dsimp only
  refine Evolves.of_pair ‹_› ?_
  split
  dsimp only
  assumption
  split
  dsimp only
  apply State.countDenial_evolves
  assumption
  apply State.serveWrite_evolves
  assumption
  split
  dsimp only
  apply State.countDenial_evolves
  refine Evolves.of_pair ‹_› ?_
  split
  dsimp only
  assumption
  split
  dsimp only
  apply State.countDenial_evolves
  assumption
  apply State.serveWrite_evolves
  assumption
  apply State.serveWrite_evolves
  refine Evolves.of_pair ‹_› ?_
  split
  dsimp only
  assumption
  split
  dsimp only
  apply State.countDenial_evolves
  assumption
  apply State.serveWrite_evolves
  assumption

theorem State.ftcMismatch_evolves {r s : State} {r' h' e} (h : Evolves r s) :
    Evolves r (State.ftcMismatch s r' h' e) := by
  unfold State.ftcMismatch
  dsimp only
  apply State.streamFail_evolves
  split
  apply State.modSlot_evolves
  apply State.modFtc_evolves
  apply Evolves.foldl
  assumption
  intro _
  intro _
  intro _
  split
  apply State.place_evolves
  assumption
  assumption
  apply State.modBsu_evolves
  apply State.modSlot_evolves
  apply State.modFtc_evolves
  apply Evolves.foldl
  assumption
  intro _
  intro _
  intro _
  split
  apply State.place_evolves
  assumption
  assumption
  exact fun _ k => k.record

theorem State.doAdds_evolves {r s : State} {r'} (h : Evolves r s) :
    Evolves r (State.doAdds s r') := by
  unfold State.doAdds
  dsimp only
  apply State.modSlot_evolves
  assumption

theorem execStreamAdds_evolves {r s : State} {r'} (h : Evolves r s) :
    OutEvolves r (execStreamAdds r' s) := by
  unfold execStreamAdds
  apply State.instrRow_evolves
  assumption
  intro _
  intro _
  apply State.doAdds_evolves
  assumption

theorem State.ftcRead_evolves {r s : State} {die tier l}
    (h : Evolves r s) : Evolves r (State.ftcRead s die tier l).1 := by
  induction l generalizing s with
  | nil => exact h
  | cons a l ih =>
    obtain ⟨a, n⟩ := a
    unfold State.ftcRead
    split
    · exact h
    · split
      · exact State.countDenial_evolves h
      · have k := State.eccRead_evolves (a := a) (n := n) (ecc := []) h
        split
        · exact Evolves.of_pair ‹_› k
        · exact ih (Evolves.of_pair ‹_› k)

theorem State.countPieces_evolves {r s : State} {l} (h : Evolves r s) :
    Evolves r (State.countPieces s l) := by
  unfold State.countPieces
  apply Evolves.foldl
  assumption
  intro _
  intro _
  intro _
  apply Evolves.ite
  apply State.countStack_evolves
  assumption
  assumption

theorem State.decodeTo_evolves {r s : State} {x hd t n k} (h : Evolves r s) :
    Evolves r (State.decodeTo s x hd t n k).1 := by
  induction k generalizing s with
  | zero => exact h
  | succ k ih =>
    unfold State.decodeTo
    dsimp only
    split
    · exact h
    · split
      · exact Evolves.of_pair ‹_› (State.ftcRead_evolves h)
      · rename_i e
        have q := Evolves.of_pair e (State.ftcRead_evolves h)
        split
        · exact q
        · split
          · exact Evolves.of_pair ‹_› (State.ftcRead_evolves q)
          · rename_i e
            have z := Evolves.of_pair e (State.ftcRead_evolves q)
            exact ih (State.modSlot_evolves (State.modFtc_evolves (State.countPieces_evolves z)))

theorem execStreamSets_evolves {r s : State} {r'} (h : Evolves r s) :
    OutEvolves r (execStreamSets r' s) := by
  unfold execStreamSets
  apply State.instrRow_evolves
  assumption
  intro _
  intro _
  apply State.doSets_evolves
  assumption

theorem State.issueStored_evolves {r s : State} {x hd instr b l} (h : Evolves r s) :
    Evolves r (State.issueStored s x hd instr b l) := by
  induction l generalizing s b with
  | nil => exact h
  | cons a l ih =>
    obtain ⟨a, n⟩ := a
    exact Evolves.ite (State.streamFails_evolves h) (ih (State.issue_evolves h))

theorem State.encodeOut_evolves {r s : State} {r' h' instr last raw} (h : Evolves r s) :
    Evolves r (State.encodeOut s r' h' instr last raw) := by
  unfold State.encodeOut
  split
  apply State.streamFails_evolves
  assumption
  dsimp only
  apply Evolves.ite
  apply State.streamFails_evolves
  assumption
  apply State.issueStored_evolves
  apply State.modSlot_evolves
  apply State.modFtc_evolves
  assumption

theorem State.encodeRun_evolves {r s : State} {x hd instr n} (h : Evolves r s) :
    Evolves r (State.encodeRun s x hd instr n) := by
  induction n generalizing s with
  | zero => exact h
  | succ n ih =>
    unfold State.encodeRun
    refine Evolves.ite h (Evolves.ite ?_ (Evolves.ite ?_ h))
    · exact ih (State.encodeOut_evolves (State.modSlot_evolves h))
    · exact State.encodeOut_evolves (State.modSlot_evolves h)

theorem execStreamSlotNop_evolves {r s : State} {d p} (h : Evolves r s) :
    OutEvolves r (execStreamSlotNop d p s) := by
  unfold execStreamSlotNop
  apply OutEvolves.ite
  apply OutEvolves.next
  assumption
  exact OutEvolves.fault

theorem execConsume_evolves {r s : State} {d p slot blocks} (h : Evolves r s) :
    OutEvolves r (execConsume d p slot blocks s) := by
  unfold execConsume
  apply OutEvolves.ite
  apply OutEvolves.next
  apply Evolves.ite
  apply State.opConsume_evolves
  assumption
  assumption
  exact OutEvolves.fault

theorem execBind_evolves {r s : State} {d p slot prog} (h : Evolves r s) :
    OutEvolves r (execBind d p slot prog s) := by
  unfold execBind
  apply OutEvolves.ite
  dsimp only
  apply OutEvolves.next
  apply Evolves.ite
  apply State.opBind_evolves
  assumption
  assumption
  exact OutEvolves.fault

theorem State.doLoopq_evolves {r s : State} {r'} (h : Evolves r s) :
    Evolves r (State.doLoopq s r') := by
  unfold State.doLoopq
  dsimp only
  apply State.modSlot_evolves
  assumption

theorem State.doEnd_evolves {r s : State} {r'} (h : Evolves r s) :
    Evolves r (State.doEnd s r') := by
  unfold State.doEnd
  dsimp only
  apply State.streamCheck_evolves
  apply State.encodeRun_evolves
  apply State.modSlot_evolves
  assumption

theorem execStart_evolves {r s : State} {d p slot arg done} (h : Evolves r s) :
    OutEvolves r (execStart d p slot arg done s) := by
  unfold execStart
  apply OutEvolves.ite
  apply OutEvolves.next
  apply Evolves.ite
  apply State.opStart_evolves
  assumption
  assumption
  exact OutEvolves.fault

theorem execUnbind_evolves {r s : State} {d p slot} (h : Evolves r s) :
    OutEvolves r (execUnbind d p slot s) := by
  unfold execUnbind
  apply OutEvolves.ite
  apply OutEvolves.next
  apply Evolves.ite
  apply State.opUnbind_evolves
  assumption
  assumption
  exact OutEvolves.fault

theorem execStreamEnd_evolves {r s : State} {r'} (h : Evolves r s) :
    OutEvolves r (execStreamEnd r' s) := by
  unfold execStreamEnd
  apply State.instrRow_evolves
  assumption
  intro _
  intro _
  apply State.doEnd_evolves
  assumption

theorem State.doAddq_evolves {r s : State} {r'} (h : Evolves r s) :
    Evolves r (State.doAddq s r') := by
  unfold State.doAddq
  dsimp only
  apply State.modSlot_evolves
  assumption

theorem execStreamAddq_evolves {r s : State} {r'} (h : Evolves r s) :
    OutEvolves r (execStreamAddq r' s) := by
  unfold execStreamAddq
  apply State.instrRow_evolves
  assumption
  intro _
  intro _
  apply State.doAddq_evolves
  assumption

theorem State.doLoop_evolves {r s : State} {r'} (h : Evolves r s) :
    Evolves r (State.doLoop s r') := by
  unfold State.doLoop
  dsimp only
  apply State.modSlot_evolves
  assumption

theorem execStreamLoop_evolves {r s : State} {r'} (h : Evolves r s) :
    OutEvolves r (execStreamLoop r' s) := by
  unfold execStreamLoop
  apply State.instrRow_evolves
  assumption
  intro _
  intro _
  apply State.doLoop_evolves
  assumption

theorem execStreamLoopq_evolves {r s : State} {r'} (h : Evolves r s) :
    OutEvolves r (execStreamLoopq r' s) := by
  unfold execStreamLoopq
  apply State.instrRow_evolves
  assumption
  intro _
  intro _
  apply State.doLoopq_evolves
  assumption

theorem State.doEndloop_evolves {r s : State} {r'} (h : Evolves r s) :
    Evolves r (State.doEndloop s r') := by
  unfold State.doEndloop
  dsimp only
  apply State.modSlot_evolves
  assumption

theorem execStreamEndloop_evolves {r s : State} {r'} (h : Evolves r s) :
    OutEvolves r (execStreamEndloop r' s) := by
  unfold execStreamEndloop
  apply State.instrRow_evolves
  assumption
  intro _
  intro _
  apply State.doEndloop_evolves
  assumption

theorem State.moveDecode_evolves {r s : State} {r' h' i} (h : Evolves r s) :
    Evolves r (State.moveDecode s r' h' i) := by
  unfold State.moveDecode
  split
  apply State.streamFail_evolves
  assumption
  dsimp only
  split
  apply State.moveOn_evolves
  refine Evolves.of_pair ‹_› ?_
  apply State.decodeTo_evolves
  assumption
  apply Evolves.ite
  split
  apply State.streamFail_evolves
  apply State.deliver_evolves
  refine Evolves.of_pair ‹_› ?_
  apply State.decodeTo_evolves
  assumption
  apply State.ftcMismatch_evolves
  apply State.deliver_evolves
  refine Evolves.of_pair ‹_› ?_
  apply State.decodeTo_evolves
  assumption
  apply State.deliver_evolves
  refine Evolves.of_pair ‹_› ?_
  apply State.decodeTo_evolves
  assumption

theorem State.doMove_evolves {r s : State} {r'} (h : Evolves r s) :
    Evolves r (State.doMove s r') := by
  unfold State.doMove
  dsimp only
  apply Evolves.ite
  apply State.moveDecode_evolves
  assumption
  apply State.moveOn_evolves
  assumption

theorem execStreamMove_evolves {r s : State} {r'} (h : Evolves r s) :
    OutEvolves r (execStreamMove r' s) := by
  unfold execStreamMove
  apply State.instrRow_evolves
  assumption
  intro _
  intro _
  apply State.doMove_evolves
  assumption

theorem State.doIndex_evolves {r s : State} {r'} (h : Evolves r s) :
    Evolves r (State.doIndex s r') := by
  unfold State.doIndex
  dsimp only
  split
  apply Evolves.ite
  apply State.streamFail_evolves
  assumption
  apply State.modSlot_evolves
  assumption
  apply Evolves.ite
  apply State.streamFail_evolves
  assumption
  apply State.streamWaits_evolves
  assumption

theorem execStreamIndex_evolves {r s : State} {r'} (h : Evolves r s) :
    OutEvolves r (execStreamIndex r' s) := by
  unfold execStreamIndex
  apply State.instrRow_evolves
  assumption
  intro _
  intro _
  apply State.doIndex_evolves
  assumption

theorem execStreamBackPressureResume_evolves {r s : State} {r'} (h : Evolves r s) :
    OutEvolves r (execStreamBackPressureResume r' s) := by
  unfold execStreamBackPressureResume
  apply OutEvolves.ite
  apply OutEvolves.next
  apply Evolves.ite
  apply State.modSlot_evolves
  assumption
  assumption
  exact OutEvolves.fault

theorem execFtcUnitGrant_evolves {r s : State} {die encoder} (h : Evolves r s) :
    OutEvolves r (execFtcUnitGrant die encoder s) := by
  unfold execFtcUnitGrant
  apply OutEvolves.ite
  apply OutEvolves.next
  apply State.ftcGrant_evolves
  assumption
  exact OutEvolves.fault

/-! ### Vector -/

theorem State.writeCodes_evolves {r s : State} {d p f off codes} (h : Evolves r s) :
    Evolves r (State.writeCodes s d p f off codes) := by
  unfold State.writeCodes
  dsimp only
  apply State.tmWrite_evolves
  assumption

theorem State.vectorDone_evolves {r s : State} {d p o} (h : Evolves r s) :
    Evolves r (State.vectorDone s d p o) := by
  unfold State.vectorDone
  dsimp only
  apply State.bump_evolves
  apply State.opEnded_evolves
  apply State.modTile_evolves
  apply Evolves.ite
  apply State.noteAmax_evolves
  apply Evolves.ite
  apply State.tmWrite_evolves
  apply Evolves.ite
  apply State.tmWrite_evolves
  apply State.writeCodes_evolves
  apply State.chargeStall_evolves
  assumption
  apply State.writeCodes_evolves
  apply State.chargeStall_evolves
  assumption
  apply Evolves.ite
  apply State.tmWrite_evolves
  apply State.writeCodes_evolves
  apply State.chargeStall_evolves
  assumption
  apply State.writeCodes_evolves
  apply State.chargeStall_evolves
  assumption
  apply Evolves.ite
  apply State.tmWrite_evolves
  apply Evolves.ite
  apply State.tmWrite_evolves
  apply State.writeCodes_evolves
  apply State.chargeStall_evolves
  assumption
  apply State.writeCodes_evolves
  apply State.chargeStall_evolves
  assumption
  apply Evolves.ite
  apply State.tmWrite_evolves
  apply State.writeCodes_evolves
  apply State.chargeStall_evolves
  assumption
  apply State.writeCodes_evolves
  apply State.chargeStall_evolves
  assumption
  intro _
  intro _
  refine Tile.Shape.record ?_
  apply Tile.modCtx_shape
  assumption
  intro _
  intro _
  apply Context.note_shape
  assumption

theorem execVectorOpComplete_evolves {r s : State} {d p} (h : Evolves r s) :
    OutEvolves r (execVectorOpComplete d p s) := by
  unfold execVectorOpComplete
  apply OutEvolves.ite
  split
  apply OutEvolves.next
  assumption
  apply OutEvolves.next
  apply Evolves.ite
  apply State.vectorDone_evolves
  assumption
  assumption
  exact OutEvolves.fault

theorem State.issueVector_evolves {r s : State} {d p op desc done ecc} (h : Evolves r s) :
    Evolves r (State.issueVector s d p op desc done ecc) := by
  unfold State.issueVector
  dsimp only
  apply Evolves.ite
  apply State.progFault_evolves
  assumption
  apply Evolves.ite
  apply State.tmEcc_evolves
  assumption
  apply State.tag_evolves
  apply State.modTile_evolves
  apply State.tmEcc_evolves
  assumption
  exact fun _ k => k.record

theorem State.vecRow_evolves {r s : State} {d p op desc done ecc} (h : Evolves r s) :
    Evolves r (State.vecRow s d p op desc done ecc) := by
  unfold State.vecRow
  apply Evolves.ite
  assumption
  apply Evolves.ite
  apply State.issueHold_evolves
  assumption
  apply State.issueVector_evolves
  assumption

theorem execVectorAxpy_evolves {r s : State} {d p desc done ecc} (h : Evolves r s) :
    OutEvolves r (execVectorAxpy d p desc done ecc s) := by
  unfold execVectorAxpy
  apply OutEvolves.ite
  apply OutEvolves.next
  apply State.vecRow_evolves
  assumption
  exact OutEvolves.fault

theorem execVectorMax_evolves {r s : State} {d p desc done ecc} (h : Evolves r s) :
    OutEvolves r (execVectorMax d p desc done ecc s) := by
  unfold execVectorMax
  apply OutEvolves.ite
  apply OutEvolves.next
  apply State.vecRow_evolves
  assumption
  exact OutEvolves.fault

theorem execVectorMin_evolves {r s : State} {d p desc done ecc} (h : Evolves r s) :
    OutEvolves r (execVectorMin d p desc done ecc s) := by
  unfold execVectorMin
  apply OutEvolves.ite
  apply OutEvolves.next
  apply State.vecRow_evolves
  assumption
  exact OutEvolves.fault

theorem execVectorExp_evolves {r s : State} {d p desc done ecc} (h : Evolves r s) :
    OutEvolves r (execVectorExp d p desc done ecc s) := by
  unfold execVectorExp
  apply OutEvolves.ite
  apply OutEvolves.next
  apply State.vecRow_evolves
  assumption
  exact OutEvolves.fault

theorem execVectorAmax_evolves {r s : State} {d p desc done ecc} (h : Evolves r s) :
    OutEvolves r (execVectorAmax d p desc done ecc s) := by
  unfold execVectorAmax
  apply OutEvolves.ite
  apply OutEvolves.next
  apply State.vecRow_evolves
  assumption
  exact OutEvolves.fault

theorem execVectorNop_evolves {r s : State} {d p} (h : Evolves r s) :
    OutEvolves r (execVectorNop d p s) := by
  unfold execVectorNop
  apply OutEvolves.ite
  apply OutEvolves.next
  assumption
  exact OutEvolves.fault

theorem execVectorMul_evolves {r s : State} {d p desc done ecc} (h : Evolves r s) :
    OutEvolves r (execVectorMul d p desc done ecc s) := by
  unfold execVectorMul
  apply OutEvolves.ite
  apply OutEvolves.next
  apply State.vecRow_evolves
  assumption
  exact OutEvolves.fault

theorem execVectorConvert_evolves {r s : State} {d p desc done ecc} (h : Evolves r s) :
    OutEvolves r (execVectorConvert d p desc done ecc s) := by
  unfold execVectorConvert
  apply OutEvolves.ite
  apply OutEvolves.next
  apply State.vecRow_evolves
  assumption
  exact OutEvolves.fault

theorem execVectorAdd_evolves {r s : State} {d p desc done ecc} (h : Evolves r s) :
    OutEvolves r (execVectorAdd d p desc done ecc s) := by
  unfold execVectorAdd
  apply OutEvolves.ite
  apply OutEvolves.next
  apply State.vecRow_evolves
  assumption
  exact OutEvolves.fault

theorem execVectorSub_evolves {r s : State} {d p desc done ecc} (h : Evolves r s) :
    OutEvolves r (execVectorSub d p desc done ecc s) := by
  unfold execVectorSub
  apply OutEvolves.ite
  apply OutEvolves.next
  apply State.vecRow_evolves
  assumption
  exact OutEvolves.fault

theorem execVectorFma_evolves {r s : State} {d p desc done ecc} (h : Evolves r s) :
    OutEvolves r (execVectorFma d p desc done ecc s) := by
  unfold execVectorFma
  apply OutEvolves.ite
  apply OutEvolves.next
  apply State.vecRow_evolves
  assumption
  exact OutEvolves.fault

theorem execVectorLog_evolves {r s : State} {d p desc done ecc} (h : Evolves r s) :
    OutEvolves r (execVectorLog d p desc done ecc s) := by
  unfold execVectorLog
  apply OutEvolves.ite
  apply OutEvolves.next
  apply State.vecRow_evolves
  assumption
  exact OutEvolves.fault

theorem execVectorRcp_evolves {r s : State} {d p desc done ecc} (h : Evolves r s) :
    OutEvolves r (execVectorRcp d p desc done ecc s) := by
  unfold execVectorRcp
  apply OutEvolves.ite
  apply OutEvolves.next
  apply State.vecRow_evolves
  assumption
  exact OutEvolves.fault

theorem execVectorRsqrt_evolves {r s : State} {d p desc done ecc} (h : Evolves r s) :
    OutEvolves r (execVectorRsqrt d p desc done ecc s) := by
  unfold execVectorRsqrt
  apply OutEvolves.ite
  apply OutEvolves.next
  apply State.vecRow_evolves
  assumption
  exact OutEvolves.fault

theorem execVectorSum_evolves {r s : State} {d p desc done ecc} (h : Evolves r s) :
    OutEvolves r (execVectorSum d p desc done ecc s) := by
  unfold execVectorSum
  apply OutEvolves.ite
  apply OutEvolves.next
  apply State.vecRow_evolves
  assumption
  exact OutEvolves.fault

theorem execVectorAccum_evolves {r s : State} {d p desc done ecc} (h : Evolves r s) :
    OutEvolves r (execVectorAccum d p desc done ecc s) := by
  unfold execVectorAccum
  apply OutEvolves.ite
  apply OutEvolves.next
  apply State.vecRow_evolves
  assumption
  exact OutEvolves.fault

theorem execVectorDropout_evolves {r s : State} {d p desc done ecc} (h : Evolves r s) :
    OutEvolves r (execVectorDropout d p desc done ecc s) := by
  unfold execVectorDropout
  apply OutEvolves.ite
  apply OutEvolves.next
  apply State.vecRow_evolves
  assumption
  exact OutEvolves.fault

theorem execVectorCopy_evolves {r s : State} {d p desc done ecc} (h : Evolves r s) :
    OutEvolves r (execVectorCopy d p desc done ecc s) := by
  unfold execVectorCopy
  apply OutEvolves.ite
  apply OutEvolves.next
  apply State.vecRow_evolves
  assumption
  exact OutEvolves.fault

/-! ### Dma -/

theorem State.dmaSplit_evolves {r s : State} {n k} (h : Evolves r s) : Evolves r (State.dmaSplit s n k) := by
  induction k generalizing s with
  | zero => exact h
  | succ k ih =>
    unfold State.dmaSplit
    split
    · exact h
    · exact Evolves.ite h (ih (State.modDma_evolves (State.addReq_evolves h)))

theorem State.dmaDrop_evolves {r s : State} {n} (h : Evolves r s) :
    Evolves r (State.dmaDrop s n) := by
  unfold State.dmaDrop
  refine Evolves.record ?_ rfl rfl rfl rfl rfl rfl rfl
  assumption

theorem State.dmaFails_evolves {r s : State} {n e} (h : Evolves r s) :
    Evolves r (State.dmaFails s n e) := by
  unfold State.dmaFails
  apply State.modDma_evolves
  apply State.dmaDrop_evolves
  assumption

theorem State.dmaRead_evolves {r s : State} {q ecc} (h : Evolves r s) :
    Evolves r (State.dmaRead s q ecc).1 := by
  unfold State.dmaRead
  split
  dsimp only
  assumption
  apply State.serveRead_evolves
  assumption

theorem State.dmaPlace_evolves {r s : State} {q bs ecc} (h : Evolves r s) :
    Evolves r (State.dmaPlace s q bs ecc).1 := by
  unfold State.dmaPlace
  split
  dsimp only
  assumption
  apply State.serveWrite_evolves
  assumption

theorem State.dmaDenied_evolves {r s : State} {n e dst} (h : Evolves r s) :
    Evolves r (State.dmaDenied s n e dst) := by
  unfold State.dmaDenied
  split
  apply State.dmaDrop_evolves
  assumption
  apply State.dmaFails_evolves
  apply State.takeFree_evolves
  apply State.countDenial_evolves
  assumption

theorem State.dmaLanded_evolves {r s : State} {n len} (h : Evolves r s) :
    Evolves r (State.dmaLanded s n len) := by
  unfold State.dmaLanded
  split
  assumption
  dsimp only
  apply State.dmaSplit_evolves
  apply State.modDma_evolves
  apply State.modHost_evolves
  assumption
  intro _
  intro _
  split
  assumption
  assumption
  intro _
  intro _
  split
  assumption
  assumption

end Sys2Proof.Machine
end

