-- ==== Sys2Proof/Laws/EvolvesD.lean ====
section
/-! SUPPORT. What each operation and each command of these files of Machine/ keeps: Requests, Bsu. -/

namespace Sys2Proof.Machine

open Sys2Proof

/-! ### Requests -/

theorem State.modReq_evolves {r s : State} {q f} (h : Evolves r s) :
    Evolves r (State.modReq s q f) := by
  unfold State.modReq
  refine Evolves.record ?_ rfl rfl rfl rfl rfl rfl rfl
  assumption

theorem State.dropReq_evolves {r s : State} {q} (h : Evolves r s) :
    Evolves r (State.dropReq s q) := by
  unfold State.dropReq
  refine Evolves.record ?_ rfl rfl rfl rfl rfl rfl rfl
  assumption

theorem State.passPoint_evolves {r s : State} {pt q} (h : Evolves r s) :
    Evolves r (State.passPoint s pt q) := by
  unfold State.passPoint
  dsimp only
  apply Evolves.ite
  apply State.dropReq_evolves
  refine Evolves.record ?_ rfl rfl rfl rfl rfl rfl rfl
  split
  apply State.modReq_evolves
  apply State.modLink_evolves
  assumption
  exact fun _ => rfl
  apply State.modReq_evolves
  assumption
  refine Evolves.record ?_ rfl rfl rfl rfl rfl rfl rfl
  split
  apply State.modReq_evolves
  apply State.modLink_evolves
  assumption
  exact fun _ => rfl
  apply State.modReq_evolves
  assumption

theorem State.linkFails_evolves {r s : State} {q} (h : Evolves r s) :
    Evolves r (State.linkFails s q) := by
  unfold State.linkFails
  split
  split
  apply State.dmaFails_evolves
  assumption
  apply State.dmaDrop_evolves
  assumption
  apply State.endInError_evolves
  apply State.newCascade_evolves
  assumption
  apply State.endInError_evolves
  apply State.newCascade_evolves
  assumption
  apply State.endInError_evolves
  apply State.newCascade_evolves
  assumption
  apply State.endInError_evolves
  apply State.newCascade_evolves
  assumption
  apply State.endInError_evolves
  apply State.newCascade_evolves
  assumption

theorem State.xferSplit_evolves {r s : State} {d p x n}
    (h : Evolves r s) : Evolves r (State.xferSplit s d p x n) := by
  induction n generalizing s x with
  | zero => exact h
  | succ n ih =>
    unfold State.xferSplit
    refine Evolves.ite (State.modTile_evolves h fun _ k => k.record) (ih ?_)
    exact State.askAt_evolves (State.askAt_evolves (Evolves.record h rfl rfl rfl rfl rfl rfl rfl))

theorem State.issueXfer_evolves {r s : State} {d p desc done} (h : Evolves r s) :
    Evolves r (State.issueXfer s d p desc done) := by
  unfold State.issueXfer
  dsimp only
  apply Evolves.ite
  apply State.progFault_evolves
  assumption
  apply State.xferSplit_evolves
  apply State.tag_evolves
  apply State.modTile_evolves
  refine Evolves.record ?_ rfl rfl rfl rfl rfl rfl rfl
  assumption
  exact fun _ k => k.record

theorem State.sourceBytes_evolves {r s : State} {q ecc} (h : Evolves r s) :
    Evolves r (State.sourceBytes s q ecc).1 := by
  unfold State.sourceBytes
  split
  apply State.dmaRead_evolves
  assumption
  dsimp only
  split
  dsimp only
  apply State.countDenial_evolves
  assumption
  apply State.serveRead_evolves
  assumption
  dsimp only
  split
  dsimp only
  apply State.countDenial_evolves
  assumption
  apply State.serveRead_evolves
  assumption
  dsimp only
  split
  dsimp only
  apply State.countDenial_evolves
  assumption
  apply State.serveRead_evolves
  assumption
  dsimp only
  split
  dsimp only
  apply State.countDenial_evolves
  assumption
  apply State.serveRead_evolves
  assumption
  dsimp only
  split
  dsimp only
  apply State.countDenial_evolves
  assumption
  apply State.serveRead_evolves
  assumption

theorem State.readRequest_evolves {r s : State} {q ecc} (h : Evolves r s) :
    Evolves r (State.readRequest s q ecc).1 := by
  unfold State.readRequest
  split
  dsimp only
  assumption
  split
  dsimp only
  refine Evolves.of_pair ‹_› ?_
  apply State.sourceBytes_evolves
  assumption
  dsimp only
  apply State.modReq_evolves
  refine Evolves.of_pair ‹_› ?_
  apply State.sourceBytes_evolves
  assumption

theorem State.requestFails_evolves {r s : State} {q e dst} (h : Evolves r s) :
    Evolves r (State.requestFails s q e dst) := by
  unfold State.requestFails
  dsimp only
  split
  apply State.dmaDenied_evolves
  assumption
  apply State.streamFails_evolves
  assumption
  apply State.streamFails_evolves
  assumption
  apply State.streamFails_evolves
  assumption
  apply State.streamFails_evolves
  assumption
  apply State.streamFails_evolves
  assumption

theorem State.streamLanded_evolves {r s : State} {r' q} (h : Evolves r s) :
    Evolves r (State.streamLanded s r' q) := by
  unfold State.streamLanded
  dsimp only
  apply State.streamCheck_evolves
  apply State.encodeRun_evolves
  apply State.modSlot_evolves
  assumption

theorem execXfer_evolves {r s : State} {d p desc done} (h : Evolves r s) :
    OutEvolves r (execXfer d p desc done s) := by
  unfold execXfer
  apply OutEvolves.ite
  apply OutEvolves.next
  apply Evolves.ite
  assumption
  apply Evolves.ite
  apply State.modTile_evolves
  assumption
  exact fun _ k => k.record
  apply State.issueXfer_evolves
  assumption
  exact OutEvolves.fault

theorem State.spend_evolves {r s : State} {pt q} (h : Evolves r s) :
    Evolves r (State.spend s pt q) := by
  unfold State.spend
  split
  dsimp only
  apply Evolves.ite
  assumption
  apply State.modStack_evolves
  assumption
  exact fun _ k => k.record
  assumption
  assumption
  assumption
  assumption
  assumption
  assumption

theorem State.placeRequest_evolves {r s : State} {q data ecc} (h : Evolves r s) :
    Evolves r (State.placeRequest s q data ecc).1 := by
  unfold State.placeRequest
  split
  apply State.dmaPlace_evolves
  assumption
  dsimp only
  apply State.place_evolves
  assumption
  dsimp only
  apply State.place_evolves
  assumption
  dsimp only
  apply State.place_evolves
  assumption
  dsimp only
  apply State.place_evolves
  assumption
  dsimp only
  apply State.place_evolves
  assumption

theorem State.refillLanded_evolves {r s : State} {d p data} (h : Evolves r s) :
    Evolves r (State.refillLanded s d p data) := by
  unfold State.refillLanded
  dsimp only
  split
  apply State.modSlot_evolves
  assumption
  apply State.refillSplit_evolves
  apply State.modTile_evolves
  apply State.modSlot_evolves
  assumption
  exact fun _ k => k.record

theorem State.feedEncoder_evolves {r s : State} {r' q data} (h : Evolves r s) :
    Evolves r (State.feedEncoder s r' q data) := by
  unfold State.feedEncoder
  dsimp only
  apply State.streamCheck_evolves
  apply State.encodeRun_evolves
  apply State.modSlot_evolves
  assumption

theorem State.landIndex_evolves {r s : State} {r' data} (h : Evolves r s) :
    Evolves r (State.landIndex s r' data) := by
  unfold State.landIndex
  split
  assumption
  split
  apply State.modSlot_evolves
  apply State.modSlot_evolves
  apply State.chargeOwner_evolves
  assumption

theorem State.xferLanded_evolves {r s : State} {d p id q} (h : Evolves r s) :
    Evolves r (State.xferLanded s d p id q) := by
  unfold State.xferLanded
  split
  assumption
  dsimp only
  apply Evolves.ite
  apply State.sendEvent_evolves
  assumption
  intro _
  intro _
  intro _
  apply State.modTile_evolves
  assumption
  exact fun _ k => k.record
  apply State.xferSplit_evolves
  apply State.modTile_evolves
  assumption
  exact fun _ k => k.record

theorem State.land_evolves {r s : State} {q data ecc} (h : Evolves r s) :
    Evolves r (State.land s q data ecc) := by
  unfold State.land
  split
  apply State.requestFails_evolves
  refine Evolves.of_pair ‹_› ?_
  apply State.placeRequest_evolves
  apply State.dropReq_evolves
  apply State.chargeOwner_evolves
  assumption
  split
  dsimp only
  apply Evolves.ite
  apply State.refillLanded_evolves
  refine Evolves.of_pair ‹_› ?_
  apply State.placeRequest_evolves
  apply State.dropReq_evolves
  apply State.chargeOwner_evolves
  assumption
  apply Evolves.ite
  apply State.feedEncoder_evolves
  refine Evolves.of_pair ‹_› ?_
  apply State.placeRequest_evolves
  apply State.dropReq_evolves
  apply State.chargeOwner_evolves
  assumption
  apply Evolves.ite
  apply State.streamLanded_evolves
  apply State.landIndex_evolves
  refine Evolves.of_pair ‹_› ?_
  apply State.placeRequest_evolves
  apply State.dropReq_evolves
  apply State.chargeOwner_evolves
  assumption
  apply State.streamLanded_evolves
  refine Evolves.of_pair ‹_› ?_
  apply State.placeRequest_evolves
  apply State.dropReq_evolves
  apply State.chargeOwner_evolves
  assumption
  dsimp only
  apply Evolves.ite
  apply State.feedEncoder_evolves
  refine Evolves.of_pair ‹_› ?_
  apply State.placeRequest_evolves
  apply State.dropReq_evolves
  apply State.chargeOwner_evolves
  assumption
  apply State.streamLanded_evolves
  refine Evolves.of_pair ‹_› ?_
  apply State.placeRequest_evolves
  apply State.dropReq_evolves
  apply State.chargeOwner_evolves
  assumption
  apply State.xferLanded_evolves
  refine Evolves.of_pair ‹_› ?_
  apply State.placeRequest_evolves
  apply State.dropReq_evolves
  apply State.chargeOwner_evolves
  assumption
  apply State.dmaLanded_evolves
  refine Evolves.of_pair ‹_› ?_
  apply State.placeRequest_evolves
  apply State.dropReq_evolves
  apply State.chargeOwner_evolves
  assumption
  refine Evolves.of_pair ‹_› ?_
  apply State.placeRequest_evolves
  apply State.dropReq_evolves
  apply State.chargeOwner_evolves
  assumption
  refine Evolves.of_pair ‹_› ?_
  apply State.placeRequest_evolves
  apply State.dropReq_evolves
  apply State.chargeOwner_evolves
  assumption

theorem State.noteHeld_evolves {r s : State} {pt} (h : Evolves r s) :
    Evolves r (State.noteHeld s pt) := by
  unfold State.noteHeld
  split
  dsimp only
  apply State.modBsu_evolves
  refine Evolves.record ?_ rfl rfl rfl rfl rfl rfl rfl
  assumption
  exact fun _ k => k.record
  assumption
  assumption
  assumption
  assumption
  assumption
  assumption

theorem State.grant_evolves {r s : State} {pt ecc} (h : Evolves r s) :
    Evolves r (State.grant s pt ecc) := by
  unfold State.grant
  dsimp only
  split
  split
  apply Evolves.ite
  apply State.askLight_evolves
  apply State.noteHeld_evolves
  apply State.spend_evolves
  assumption
  apply State.noteHeld_evolves
  apply State.spend_evolves
  assumption
  apply State.noteHeld_evolves
  apply State.spend_evolves
  assumption
  apply State.noteHeld_evolves
  apply State.spend_evolves
  assumption
  apply State.noteHeld_evolves
  apply State.spend_evolves
  assumption
  apply State.noteHeld_evolves
  apply State.spend_evolves
  assumption
  apply State.noteHeld_evolves
  apply State.spend_evolves
  assumption
  apply State.noteHeld_evolves
  apply State.spend_evolves
  assumption
  apply Evolves.ite
  apply State.noteHeld_evolves
  apply State.spend_evolves
  assumption
  apply Evolves.ite
  apply State.linkFails_evolves
  apply State.noteHeld_evolves
  apply State.spend_evolves
  assumption
  split
  apply State.requestFails_evolves
  refine Evolves.of_pair ‹_› ?_
  apply State.readRequest_evolves
  apply State.chargeOwner_evolves
  apply State.noteHeld_evolves
  apply State.spend_evolves
  assumption
  apply State.passPoint_evolves
  refine Evolves.of_pair ‹_› ?_
  apply State.readRequest_evolves
  apply State.chargeOwner_evolves
  apply State.noteHeld_evolves
  apply State.spend_evolves
  assumption

theorem execXferComplete_evolves {r s : State} {d p} (h : Evolves r s) :
    OutEvolves r (execXferComplete d p s) := by
  unfold execXferComplete
  apply OutEvolves.ite
  split
  apply OutEvolves.next
  assumption
  apply OutEvolves.ite
  dsimp only
  split
  apply OutEvolves.next
  apply State.bump_evolves
  apply State.bump_evolves
  apply State.modTile_evolves
  assumption
  exact fun _ k => k.record
  apply OutEvolves.next
  apply State.bump_evolves
  apply State.modTile_evolves
  assumption
  exact fun _ k => k.record
  apply OutEvolves.next
  assumption
  exact OutEvolves.fault

theorem execRequestLanded_evolves {r s : State} {owner seq ecc} (h : Evolves r s) :
    OutEvolves r (execRequestLanded owner seq ecc s) := by
  unfold execRequestLanded
  apply OutEvolves.ite
  split
  apply OutEvolves.next
  assumption
  apply OutEvolves.ite
  apply OutEvolves.next
  apply State.dropReq_evolves
  assumption
  apply OutEvolves.ite
  apply OutEvolves.next
  apply State.land_evolves
  assumption
  apply OutEvolves.next
  apply State.askAt_evolves
  assumption
  exact OutEvolves.fault

theorem execStreamError_evolves {r s : State} {r' reason tier destSide} (h : Evolves r s) :
    OutEvolves r (execStreamError r' reason tier destSide s) := by
  unfold execStreamError
  apply OutEvolves.ite
  apply OutEvolves.next
  apply Evolves.ite
  assumption
  apply Evolves.ite
  apply State.streamFail_evolves
  assumption
  apply Evolves.ite
  apply State.endInError_evolves
  assumption
  assumption
  exact OutEvolves.fault

theorem State.noProgress_evolves {r s : State} {o} (h : Evolves r s) :
    Evolves r (State.noProgress s o) := by
  unfold State.noProgress
  apply Evolves.ite
  assumption
  split
  split
  apply State.streamFails_evolves
  apply State.advanceTo_evolves
  assumption
  assumption
  assumption
  assumption
  assumption
  split
  assumption
  dsimp only
  apply Evolves.ite
  apply State.streamFail_evolves
  apply State.advanceTo_evolves
  assumption
  assumption
  split
  assumption
  dsimp only
  apply Evolves.ite
  apply State.streamFail_evolves
  apply State.advanceTo_evolves
  assumption
  assumption

theorem execNoProgress_evolves {r s : State} {owner} (h : Evolves r s) :
    OutEvolves r (execNoProgress owner s) := by
  unfold execNoProgress
  apply OutEvolves.ite
  apply OutEvolves.next
  apply State.noProgress_evolves
  assumption
  exact OutEvolves.fault

theorem execArbiterGrant_evolves {r s : State} {pt ecc} (h : Evolves r s) :
    OutEvolves r (execArbiterGrant pt ecc s) := by
  unfold execArbiterGrant
  apply OutEvolves.ite
  apply OutEvolves.next
  apply State.grant_evolves
  assumption
  exact OutEvolves.fault

/-! ### Bsu -/

theorem State.bsuFails_evolves {r s : State} {st ch o reason dst} (h : Evolves r s) :
    Evolves r (State.bsuFails s st ch o reason dst) := by
  unfold State.bsuFails
  dsimp only
  apply State.endInError_evolves
  apply State.newCascade_evolves
  apply State.modBsu_evolves
  assumption
  exact fun _ k => k.record

theorem State.claim_evolves {r s : State} {st ch k elems fp} (h : Evolves r s) :
    Evolves r (State.claim s st ch k elems fp) := by
  unfold State.claim
  apply State.modBsu_evolves
  apply State.chargeBsu_evolves
  assumption
  exact fun _ k => k.record

theorem State.modBsuOp_evolves {r s : State} {id f} (h : Evolves r s) :
    Evolves r (State.modBsuOp s id f) := by
  unfold State.modBsuOp
  refine Evolves.record ?_ rfl rfl rfl rfl rfl rfl rfl
  assumption

theorem State.startBsuStream_evolves {r s : State} {g st ch op p} (h : Evolves r s) :
    Evolves r (State.startBsuStream s g st ch op p) := by
  unfold State.startBsuStream
  dsimp only
  apply State.modBsu_evolves
  apply State.modBsuOp_evolves
  apply State.startSlot_evolves
  apply State.modSlot_evolves
  apply State.chargeBsu_evolves
  assumption
  exact fun _ k => k.record

theorem State.claimOp_evolves {r s : State} {g st ch op p} (h : Evolves r s) :
    Evolves r (State.claimOp s g st ch op p) := by
  unfold State.claimOp
  dsimp only
  apply State.claim_evolves
  assumption

theorem State.kickOnce_evolves {r s : State} {st ch} (h : Evolves r s) :
    Evolves r (State.kickOnce s st ch) := by
  unfold State.kickOnce
  dsimp only
  apply Evolves.ite
  apply State.claim_evolves
  assumption
  split
  split
  apply Evolves.ite
  assumption
  apply Evolves.ite
  apply Evolves.ite
  apply State.startBsuStream_evolves
  assumption
  assumption
  apply Evolves.ite
  apply State.claim_evolves
  assumption
  apply State.claimOp_evolves
  assumption
  assumption
  apply Evolves.ite
  apply State.claim_evolves
  assumption
  assumption

theorem Bsu.settle_shape {x : Bsu} (h : x.Shape) :
    (Bsu.settle x).Shape := by
  unfold Bsu.settle
  split
  assumption
  assumption
  refine Bsu.Shape.record ?_
  assumption
  refine Bsu.Shape.record ?_
  assumption

theorem State.kickBsu_evolves {r s : State} {st ch} (h : Evolves r s) :
    Evolves r (State.kickBsu s st ch) := by
  unfold State.kickBsu
  dsimp only
  apply State.modBsu_evolves
  apply Evolves.foldl
  assumption
  intro _
  intro _
  intro _
  apply Evolves.ite
  apply State.kickOnce_evolves
  assumption
  assumption
  intro _
  intro _
  apply Bsu.settle_shape
  assumption

theorem State.wakeBsu_evolves {r s : State} {st ch} (h : Evolves r s) :
    Evolves r (State.wakeBsu s st ch) := by
  unfold State.wakeBsu
  split
  apply State.modBsu_evolves
  assumption
  exact fun _ k => k.record
  apply State.kickBsu_evolves
  apply State.modBsu_evolves
  assumption
  exact fun _ k => k.record
  apply State.kickBsu_evolves
  apply State.modBsu_evolves
  assumption
  exact fun _ k => k.record
  assumption

theorem State.dispatchTo_evolves {r s : State} {op} (h : Evolves r s) :
    Evolves r (State.dispatchTo s op) := by
  unfold State.dispatchTo
  dsimp only
  apply Evolves.foldl
  apply Evolves.ite
  apply Evolves.foldl
  apply Evolves.foldl
  refine Evolves.record ?_ rfl rfl rfl rfl rfl rfl rfl
  assumption
  intro _
  intro _
  intro _
  apply State.modBsu_evolves
  assumption
  exact fun _ k => k.record
  intro _
  intro _
  intro _
  apply State.modBsu_evolves
  assumption
  exact fun _ k => k.record
  apply Evolves.foldl
  refine Evolves.record ?_ rfl rfl rfl rfl rfl rfl rfl
  assumption
  intro _
  intro _
  intro _
  apply State.modBsu_evolves
  assumption
  exact fun _ k => k.record
  intro _
  intro _
  intro _
  apply State.wakeBsu_evolves
  assumption

theorem State.dispatchBsu_evolves {r s : State} {die pos ctx done o} (h : Evolves r s) :
    Evolves r (State.dispatchBsu s die pos ctx done o) := by
  unfold State.dispatchBsu
  split
  assumption
  dsimp only
  split
  apply State.bsuFails_evolves
  assumption
  split
  apply State.bsuFails_evolves
  apply State.countDenial_evolves
  assumption
  apply State.dispatchTo_evolves
  assumption

theorem State.bsuColl_evolves {r s : State} {d p done o} (h : Evolves r s) :
    Evolves r (State.bsuColl s d p done o) := by
  unfold State.bsuColl
  apply Evolves.ite
  apply State.issueHold_evolves
  assumption
  apply State.dispatchBsu_evolves
  apply State.tag_evolves
  assumption

theorem State.bsuRow_evolves {r s : State} {d p done bop o} (h : Evolves r s) :
    OutEvolves r (State.bsuRow s d p done bop o) := by
  unfold State.bsuRow
  apply OutEvolves.ite
  dsimp only
  apply OutEvolves.next
  apply Evolves.ite
  apply State.bsuColl_evolves
  assumption
  assumption
  exact OutEvolves.fault

theorem execBsuScale_evolves {r s : State} {d p done desc} (h : Evolves r s) :
    OutEvolves r (execBsuScale d p done desc s) := by
  unfold execBsuScale
  apply State.bsuRow_evolves
  assumption

theorem State.rangeReads_evolves {r s : State} {r' ecc} (h : Evolves r s) :
    Evolves r (State.rangeReads s r' ecc).1 := by
  unfold State.rangeReads
  split
  apply State.rmwReads_evolves
  assumption
  apply State.eccRead_evolves
  assumption

theorem State.sliceReads_evolves {r s : State} {rs ecc} (h : Evolves r s) :
    Evolves r (State.sliceReads s rs ecc).1 := by
  unfold State.sliceReads
  dsimp only
  split
  dsimp only
  apply State.countDenial_evolves
  assumption
  dsimp only
  apply Evolves.foldl_fst
  dsimp only
  assumption
  intro _
  intro _
  intro _
  split
  assumption
  dsimp only
  apply State.rangeReads_evolves
  assumption

theorem State.boundary_evolves {r s : State} {st ch} (h : Evolves r s) :
    Evolves r (State.boundary s st ch) := by
  unfold State.boundary
  apply Evolves.ite
  dsimp only
  apply State.modBsu_evolves
  apply State.modStack_evolves
  apply State.chargeBsu_evolves
  apply State.chargeAll_evolves
  assumption
  exact fun _ k => k.record
  exact fun _ k => k.record
  apply State.kickBsu_evolves
  assumption

theorem State.releaseSlice_evolves {r s : State} {st ch bytes} (h : Evolves r s) :
    Evolves r (State.releaseSlice s st ch bytes) := by
  unfold State.releaseSlice
  dsimp only
  apply State.modBsu_evolves
  refine Evolves.record ?_ rfl rfl rfl rfl rfl rfl rfl
  apply Evolves.foldl
  assumption
  intro _
  intro _
  intro _
  apply State.activate_evolves
  assumption
  exact fun _ k => k.record

theorem State.passPartials_evolves {r s : State} {st id} (h : Evolves r s) :
    Evolves r (State.passPartials s st id) := by
  unfold State.passPartials
  dsimp only
  apply Evolves.foldl
  assumption
  intro _
  intro _
  intro _
  apply Evolves.ite
  apply Evolves.ite
  apply State.modBsu_evolves
  assumption
  exact fun _ k => k.record
  apply State.kickBsu_evolves
  apply State.modBsu_evolves
  assumption
  exact fun _ k => k.record
  assumption

theorem State.partTo_evolves {r s : State} {st ch id stop acc} (h : Evolves r s) :
    Evolves r (State.partTo s st ch id stop acc) := by
  unfold State.partTo
  dsimp only
  apply Evolves.ite
  apply Evolves.ite
  apply State.passPartials_evolves
  apply State.modBsuOp_evolves
  assumption
  apply State.modBsu_evolves
  apply State.modBsuOp_evolves
  assumption
  exact fun _ k => k.record
  apply State.modBsuOp_evolves
  assumption

theorem State.oneRow_evolves {r s : State} {g o i v} (h : Evolves r s) :
    Evolves r (State.oneRow s g o i v).1 := by
  unfold State.oneRow
  dsimp only
  split
  dsimp only
  apply State.writeDev_evolves
  assumption
  dsimp only
  apply State.writeDev_evolves
  assumption

theorem State.sliceRows_evolves {r s : State} {g op lo n} (h : Evolves r s) :
    Evolves r (State.sliceRows s g op lo n).1 := by
  unfold State.sliceRows
  dsimp only
  apply Evolves.foldl_fst
  dsimp only
  assumption
  intro _
  intro _
  intro _
  dsimp only
  apply State.oneRow_evolves
  assumption

theorem State.sliceElementwise_evolves {r s : State} {g op lo n} (h : Evolves r s) :
    Evolves r (State.sliceElementwise s g op lo n).1 := by
  unfold State.sliceElementwise
  dsimp only
  apply State.writeDev_evolves
  assumption

theorem State.noteSlice_evolves {r s : State} {st ch op x'} (h : Evolves r s) :
    Evolves r (State.noteSlice s st ch op x') := by
  unfold State.noteSlice
  dsimp only
  apply Evolves.ite
  apply State.modBsuOp_evolves
  apply State.modBsu_evolves
  assumption
  exact fun _ k => k.record
  apply State.modBsu_evolves
  assumption
  exact fun _ k => k.record

theorem State.runSlice_evolves {r s : State} {g st ch op p lo n} (h : Evolves r s) :
    Evolves r (State.runSlice s g st ch op p lo n) := by
  unfold State.runSlice
  dsimp only
  apply Evolves.ite
  apply State.releaseSlice_evolves
  apply State.partTo_evolves
  assumption
  apply State.releaseSlice_evolves
  apply State.partTo_evolves
  apply State.noteSlice_evolves
  split
  apply State.sliceRows_evolves
  assumption
  apply State.sliceElementwise_evolves
  assumption

theorem State.endSlice_evolves {r s : State} {st ch id ecc} (h : Evolves r s) :
    Evolves r (State.endSlice s st ch id ecc) := by
  unfold State.endSlice
  dsimp only
  split
  split
  assumption
  apply Evolves.ite
  apply State.bsuFails_evolves
  assumption
  split
  apply State.bsuFails_evolves
  refine Evolves.of_pair ‹_› ?_
  apply State.sliceReads_evolves
  assumption
  apply Evolves.ite
  apply State.bsuFails_evolves
  refine Evolves.of_pair ‹_› ?_
  apply State.sliceReads_evolves
  assumption
  apply State.boundary_evolves
  apply State.runSlice_evolves
  refine Evolves.of_pair ‹_› ?_
  apply State.sliceReads_evolves
  assumption
  assumption

theorem State.bsuDeviceFails_evolves {r s : State} {st ch reason dst} (h : Evolves r s) :
    Evolves r (State.bsuDeviceFails s st ch reason dst) := by
  unfold State.bsuDeviceFails
  dsimp only
  apply State.abortStep_evolves
  apply State.newCascade_evolves
  apply State.modBsu_evolves
  assumption
  exact fun _ k => k.record

theorem State.landOne_evolves {r s : State} {st ch l} (h : Evolves r s) :
    Evolves r (State.landOne s st ch l) := by
  unfold State.landOne
  dsimp only
  apply Evolves.ite
  apply State.modBsu_evolves
  apply State.writeDev_evolves
  assumption
  exact fun _ k => k.record
  apply State.writeDev_evolves
  assumption

theorem State.landSlice_evolves {r s : State} {st ch ecc} (h : Evolves r s) :
    Evolves r (State.landSlice s st ch ecc) := by
  unfold State.landSlice
  dsimp only
  apply Evolves.ite
  apply State.bsuDeviceFails_evolves
  assumption
  split
  apply State.bsuDeviceFails_evolves
  refine Evolves.of_pair ‹_› ?_
  apply Evolves.foldl_fst
  dsimp only
  assumption
  intro _
  intro _
  intro _
  split
  assumption
  apply State.eccSector_evolves
  assumption
  apply State.boundary_evolves
  apply State.releaseSlice_evolves
  apply State.modBsu_evolves
  apply Evolves.foldl
  refine Evolves.of_pair ‹_› ?_
  apply Evolves.foldl_fst
  dsimp only
  assumption
  intro _
  intro _
  intro _
  split
  assumption
  apply State.eccSector_evolves
  assumption
  intro _
  intro _
  intro _
  apply State.landOne_evolves
  assumption
  exact fun _ k => k.record

theorem State.landSums_evolves {r s : State} {st ch ls} (h : Evolves r s) :
    Evolves r (State.landSums s st ch ls) := by
  unfold State.landSums
  apply Evolves.ite
  assumption
  dsimp only
  apply State.wakeBsu_evolves
  apply State.modBsu_evolves
  apply State.modChannel_evolves
  assumption
  exact fun _ k => k.record

theorem State.writeResult_evolves {r s : State} {op w} (h : Evolves r s) :
    Evolves r (State.writeResult s op w).1 := by
  unfold State.writeResult
  dsimp only
  split
  dsimp only
  apply State.countDenial_evolves
  assumption
  dsimp only
  apply Evolves.ite
  apply State.modBsu_evolves
  apply State.serveWrite_evolves
  assumption
  exact fun _ k => k.record
  apply State.serveWrite_evolves
  assumption

theorem State.startUpdateOp_evolves {r s : State} {bop l} (h : Evolves r s) :
    Evolves r (State.startUpdateOp s bop l) := by
  unfold State.startUpdateOp
  apply Evolves.foldl
  assumption
  intro _
  intro _
  intro _
  apply Evolves.ite
  assumption
  apply State.wakeBsu_evolves
  apply State.modBsu_evolves
  assumption
  exact fun _ k => k.record

theorem State.countRing_evolves {r s : State} {parts} (h : Evolves r s) :
    Evolves r (State.countRing s parts) := by
  unfold State.countRing
  apply Evolves.foldl
  assumption
  intro _
  intro _
  intro _
  apply Evolves.ite
  apply State.modBsu_evolves
  assumption
  exact fun _ k => k.record
  assumption

theorem State.endUpdateOp_evolves {r s : State} (h : Evolves r s) : Evolves r (State.endUpdateOp s) :=
  State.mapBsus_evolves h fun _ => Bsu.leaveUpdate_shape

theorem execBsuScatterAdd_evolves {r s : State} {d p done desc} (h : Evolves r s) :
    OutEvolves r (execBsuScatterAdd d p done desc s) := by
  unfold execBsuScatterAdd
  apply State.bsuRow_evolves
  assumption

theorem execBsuIdleDark_evolves {r s : State} {st ch} (h : Evolves r s) :
    OutEvolves r (execBsuIdleDark st ch s) := by
  unfold execBsuIdleDark
  apply OutEvolves.ite
  dsimp only
  apply OutEvolves.ite
  apply OutEvolves.next
  apply State.modBsu_evolves
  apply State.advanceTo_evolves
  assumption
  exact fun _ k => k.record
  apply OutEvolves.next
  assumption
  exact OutEvolves.fault

theorem execBsuAxpy_evolves {r s : State} {d p done desc} (h : Evolves r s) :
    OutEvolves r (execBsuAxpy d p done desc s) := by
  unfold execBsuAxpy
  apply State.bsuRow_evolves
  assumption

theorem execBsuAmax_evolves {r s : State} {d p done desc} (h : Evolves r s) :
    OutEvolves r (execBsuAmax d p done desc s) := by
  unfold execBsuAmax
  apply State.bsuRow_evolves
  assumption

theorem execBsuSum_evolves {r s : State} {d p done desc} (h : Evolves r s) :
    OutEvolves r (execBsuSum d p done desc s) := by
  unfold execBsuSum
  apply State.bsuRow_evolves
  assumption

theorem execBsuSliceEnd_evolves {r s : State} {st ch ecc} (h : Evolves r s) :
    OutEvolves r (execBsuSliceEnd st ch ecc s) := by
  unfold execBsuSliceEnd
  apply OutEvolves.ite
  apply OutEvolves.next
  split
  apply State.endSlice_evolves
  assumption
  apply State.boundary_evolves
  apply State.releaseSlice_evolves
  assumption
  assumption
  assumption
  exact OutEvolves.fault

theorem State.finishBsu_evolves {r s : State} {op} (h : Evolves r s) : Evolves r (State.finishBsu s op) := by
  have k : Evolves r ((s.resultWords op).foldl (fun (x : State × Option Denial) (w : Nat × BitVec 32) =>
      match x.2 with
      | some _ => x
      | none => x.1.writeResult op w) (s, none)).1 := by
    refine Evolves.foldl_fst _ _ _ h fun y _ q => ?_
    split
    · exact q
    · exact State.writeResult_evolves q
  unfold State.finishBsu
  dsimp only
  generalize List.foldl _ (s, none) (s.resultWords op) = x at k ⊢
  split
  · exact State.bsuFails_evolves k
  · have k2 : Evolves r (op.parts.foldl
        (fun x p => x.modBsu p.stack p.channel fun b => { b with operations := satAdd b.operations 1 }) x.1) :=
      Evolves.foldl _ _ k fun _ _ q => State.modBsu_evolves q fun _ z => z.record
    have k3 := Evolves.ite (c := op.desc.reduces = true) (State.countRing_evolves (parts := op.parts) k2) k2
    generalize (if op.desc.reduces = true then _ else _) = s3 at k3 ⊢
    split
    · exact State.bump_evolves (State.opEnded_evolves (Evolves.record k3 rfl rfl rfl rfl rfl rfl rfl))
    · exact Evolves.record k3 rfl rfl rfl rfl rfl rfl rfl
    · exact Evolves.record k3 rfl rfl rfl rfl rfl rfl rfl

theorem execBsuAdd_evolves {r s : State} {d p done desc} (h : Evolves r s) :
    OutEvolves r (execBsuAdd d p done desc s) := by
  unfold execBsuAdd
  apply State.bsuRow_evolves
  assumption

theorem execBsuMul_evolves {r s : State} {d p done desc} (h : Evolves r s) :
    OutEvolves r (execBsuMul d p done desc s) := by
  unfold execBsuMul
  apply State.bsuRow_evolves
  assumption

theorem execBsuFill_evolves {r s : State} {d p done desc} (h : Evolves r s) :
    OutEvolves r (execBsuFill d p done desc s) := by
  unfold execBsuFill
  apply State.bsuRow_evolves
  assumption

theorem execBsuCopy_evolves {r s : State} {d p done desc} (h : Evolves r s) :
    OutEvolves r (execBsuCopy d p done desc s) := by
  unfold execBsuCopy
  apply State.bsuRow_evolves
  assumption

theorem execBsuConvert_evolves {r s : State} {d p done desc} (h : Evolves r s) :
    OutEvolves r (execBsuConvert d p done desc s) := by
  unfold execBsuConvert
  apply State.bsuRow_evolves
  assumption

theorem execBsuAccum_evolves {r s : State} {d p done desc} (h : Evolves r s) :
    OutEvolves r (execBsuAccum d p done desc s) := by
  unfold execBsuAccum
  apply State.bsuRow_evolves
  assumption

theorem execBsuNorm2_evolves {r s : State} {d p done desc} (h : Evolves r s) :
    OutEvolves r (execBsuNorm2 d p done desc s) := by
  unfold execBsuNorm2
  apply State.bsuRow_evolves
  assumption

theorem execBsuGather_evolves {r s : State} {d p done desc} (h : Evolves r s) :
    OutEvolves r (execBsuGather d p done desc s) := by
  unfold execBsuGather
  apply State.bsuRow_evolves
  assumption

theorem execBsuStream_evolves {r s : State} {d p done desc} (h : Evolves r s) :
    OutEvolves r (execBsuStream d p done desc s) := by
  unfold execBsuStream
  apply State.bsuRow_evolves
  assumption

theorem execLandingAccum_evolves {r s : State} {st ch ecc} (h : Evolves r s) :
    OutEvolves r (execLandingAccum st ch ecc s) := by
  unfold execLandingAccum
  apply OutEvolves.ite
  apply OutEvolves.next
  apply Evolves.ite
  apply State.landSlice_evolves
  assumption
  assumption
  exact OutEvolves.fault

theorem execBsuOperationComplete_evolves {r s : State} {id} (h : Evolves r s) :
    OutEvolves r (execBsuOperationComplete id s) := by
  unfold execBsuOperationComplete
  split
  apply OutEvolves.next
  assumption
  apply OutEvolves.ite
  apply OutEvolves.next
  apply Evolves.foldl
  apply State.finishBsu_evolves
  assumption
  intro _
  intro _
  intro _
  apply State.kickBsu_evolves
  assumption
  apply OutEvolves.next
  assumption

theorem execBsuLit_evolves {r s : State} {st ch} (h : Evolves r s) :
    OutEvolves r (execBsuLit st ch s) := by
  unfold execBsuLit
  apply OutEvolves.ite
  dsimp only
  apply OutEvolves.ite
  apply OutEvolves.next
  apply State.kickBsu_evolves
  apply State.modBsu_evolves
  assumption
  exact fun _ k => k.record
  apply OutEvolves.next
  assumption
  exact OutEvolves.fault

theorem execBsuDutyWindow_evolves {r s : State} {st ch} (h : Evolves r s) :
    OutEvolves r (execBsuDutyWindow st ch s) := by
  unfold execBsuDutyWindow
  apply OutEvolves.ite
  dsimp only
  apply OutEvolves.ite
  apply OutEvolves.next
  apply State.kickBsu_evolves
  apply State.modBsu_evolves
  assumption
  exact fun _ k => k.record
  apply OutEvolves.ite
  apply OutEvolves.next
  assumption
  apply OutEvolves.next
  apply State.modBsu_evolves
  apply State.chargeBsu_evolves
  assumption
  exact fun _ k => k.record
  exact OutEvolves.fault

end Sys2Proof.Machine
end

