-- ==== Sys2Proof/Laws/EvolvesE.lean ====
section
/-! SUPPORT. What each operation and each command of these files of Machine/ keeps: Beacon, SelfTest, Reset,
Commit. -/

namespace Sys2Proof.Machine

open Sys2Proof

/-! ### Beacon -/

theorem State.modInst_evolves {r s : State} {entry sequence f} (h : Evolves r s) :
    Evolves r (State.modInst s entry sequence f) := by
  unfold State.modInst
  refine Evolves.record ?_ rfl rfl rfl rfl rfl rfl rfl
  assumption

theorem State.fabricFails_evolves {r s : State} {port peer entry reason} (h : Evolves r s) :
    Evolves r (State.fabricFails s port peer entry reason) := by
  unfold State.fabricFails
  apply State.abortStep_evolves
  apply State.newCascade_evolves
  assumption

theorem State.sendRouted_evolves {r s : State} {p sel} (h : Evolves r s) :
    Evolves r (State.sendRouted s p sel) := by
  unfold State.sendRouted
  split
  assumption
  split
  apply State.fabricFails_evolves
  assumption
  apply State.fabricFails_evolves
  assumption
  apply State.sendOn_evolves
  assumption
  apply State.sendOn_evolves
  assumption
  apply State.sendOn_evolves
  assumption
  apply State.sendOn_evolves
  assumption
  apply State.sendOn_evolves
  assumption
  apply State.sendOn_evolves
  assumption

theorem State.sendColl_evolves {r s : State} {entry sequence h' sel payload} (h : Evolves r s) :
    Evolves r (State.sendColl s entry sequence h' sel payload) := by
  unfold State.sendColl
  apply Evolves.ite
  assumption
  dsimp only
  apply State.sendRouted_evolves
  refine Evolves.record ?_ rfl rfl rfl rfl rfl rfl rfl
  assumption

theorem State.sendFlag_evolves {r s : State} {entry sequence dst w} (h : Evolves r s) :
    Evolves r (State.sendFlag s entry sequence dst w) := by
  unfold State.sendFlag
  apply State.sendColl_evolves
  assumption

theorem State.sendStage_evolves {r s : State} {t entry sequence d w} (h : Evolves r s) :
    Evolves r (State.sendStage s t entry sequence d w) := by
  unfold State.sendStage
  apply Evolves.foldl
  assumption
  intro _
  intro _
  intro _
  apply State.sendFlag_evolves
  assumption

theorem State.advanceStages_evolves {r s : State} {t entry sequence kind n} (h : Evolves r s) :
    Evolves r (State.advanceStages s t entry sequence kind n) := by
  induction n generalizing s with
  | zero => exact h
  | succ n ih =>
    unfold State.advanceStages
    split
    · exact h
    · split
      · exact h
      · refine Evolves.ite (ih ?_) h
        split
        · exact State.sendStage_evolves (State.modInst_evolves h)
        · exact State.modInst_evolves h

theorem State.chainFlag_evolves {r s : State} {entry sequence e w} (h : Evolves r s) :
    Evolves r (State.chainFlag s entry sequence e w) := by
  unfold State.chainFlag
  dsimp only
  apply Evolves.ite
  apply State.sendFlag_evolves
  assumption
  apply Evolves.ite
  apply State.modInst_evolves
  assumption
  apply State.sendFlag_evolves
  apply State.modInst_evolves
  assumption

theorem State.takeFlag_evolves {r s : State} {entry sequence e src dir p} (h : Evolves r s) :
    Evolves r (State.takeFlag s entry sequence e src dir p) := by
  unfold State.takeFlag
  dsimp only
  split
  apply State.advanceStages_evolves
  split
  apply Evolves.ite
  apply State.sendRouted_evolves
  apply State.modInst_evolves
  assumption
  apply State.modInst_evolves
  assumption
  apply State.modInst_evolves
  assumption
  apply State.modInst_evolves
  assumption
  apply Evolves.ite
  apply Evolves.ite
  apply State.modInst_evolves
  assumption
  apply State.sendFlag_evolves
  apply State.modInst_evolves
  assumption
  apply State.chainFlag_evolves
  assumption

theorem State.readPieces_evolves {r s : State} {l} (h : Evolves r s) : Evolves r (State.readPieces s l).1 := by
  induction l generalizing s with
  | nil => exact h
  | cons a l ih =>
    obtain ⟨a, n⟩ := a
    unfold State.readPieces
    split
    · exact h
    · have k := State.readIod_evolves (a := a) (n := n) (ecc := []) h
      split
      · exact Evolves.of_pair ‹_› k
      · have q := ih (Evolves.of_pair ‹_› k)
        split <;> exact Evolves.of_pair ‹_› q

theorem State.collRead_evolves {r s : State} {tensor off n} (h : Evolves r s) :
    Evolves r (State.collRead s tensor off n).1 := by
  unfold State.collRead
  apply State.readPieces_evolves
  assumption

theorem State.contribution_evolves {r s : State} {entry sequence e off n} (h : Evolves r s) :
    Evolves r (State.contribution s entry sequence e off n).1 := by
  unfold State.contribution
  dsimp only
  split
  dsimp only
  refine Evolves.of_pair ‹_› ?_
  split
  dsimp only
  assumption
  apply State.collRead_evolves
  assumption
  dsimp only
  refine Evolves.of_pair ‹_› ?_
  split
  dsimp only
  assumption
  apply State.collRead_evolves
  assumption

theorem State.beaconFails_evolves {r s : State} {entry d dst} (h : Evolves r s) :
    Evolves r (State.beaconFails s entry d dst) := by
  unfold State.beaconFails
  dsimp only
  apply State.abortStep_evolves
  apply State.newCascade_evolves
  apply State.countDenial_evolves
  assumption

theorem State.landRun_evolves {r s : State} {entry sequence e addr fmt first sums} (h : Evolves r s) :
    Evolves r (State.landRun s entry sequence e addr fmt first sums) := by
  unfold State.landRun
  dsimp only
  split
  apply State.beaconFails_evolves
  assumption
  apply State.landSums_evolves
  apply State.countIod_evolves
  refine Evolves.record ?_ rfl rfl rfl rfl rfl rfl rfl
  assumption

theorem State.collWrite_evolves {r s : State} {tensor off bs} (h : Evolves r s) :
    Evolves r (State.collWrite s tensor off bs).1 := by
  unfold State.collWrite
  apply Evolves.foldl_fst
  dsimp only
  assumption
  intro _
  intro _
  intro _
  split
  assumption
  dsimp only
  split
  dsimp only
  assumption
  apply State.serveWrite_evolves
  apply State.countIod_evolves
  assumption

theorem State.deposit_evolves {r s : State} {entry tensor off bs} (h : Evolves r s) :
    Evolves r (State.deposit s entry tensor off bs) := by
  unfold State.deposit
  split
  apply State.beaconFails_evolves
  refine Evolves.of_pair ‹_› ?_
  apply State.collWrite_evolves
  assumption
  refine Evolves.of_pair ‹_› ?_
  apply State.collWrite_evolves
  assumption

theorem State.receive_evolves {r s : State} {entry sequence e off bs} (h : Evolves r s) :
    Evolves r (State.receive s entry sequence e off bs) := by
  unfold State.receive
  apply Evolves.ite
  apply State.modInst_evolves
  assumption
  apply State.deposit_evolves
  assumption

theorem State.landFinal_evolves {r s : State} {entry sequence e off codes} (h : Evolves r s) :
    Evolves r (State.landFinal s entry sequence e off codes) := by
  unfold State.landFinal
  dsimp only
  apply Evolves.ite
  apply Evolves.foldl
  apply State.modInst_evolves
  assumption
  intro _
  intro _
  intro _
  apply State.landRun_evolves
  assumption
  apply Evolves.ite
  apply Evolves.foldl
  apply State.modInst_evolves
  assumption
  intro _
  intro _
  intro _
  apply State.landRun_evolves
  assumption
  apply Evolves.ite
  apply State.receive_evolves
  apply State.modInst_evolves
  assumption
  apply State.deposit_evolves
  apply State.modInst_evolves
  assumption

theorem State.chainSegment_evolves {r s : State} {entry sequence e off acc} (h : Evolves r s) :
    Evolves r (State.chainSegment s entry sequence e off acc) := by
  unfold State.chainSegment
  dsimp only
  split
  apply State.beaconFails_evolves
  refine Evolves.of_pair ‹_› ?_
  apply State.contribution_evolves
  assumption
  apply Evolves.ite
  apply State.sendColl_evolves
  refine Evolves.record ?_ rfl rfl rfl rfl rfl rfl rfl
  apply State.modInst_evolves
  refine Evolves.of_pair ‹_› ?_
  apply State.contribution_evolves
  assumption
  apply Evolves.foldl
  refine Evolves.record ?_ rfl rfl rfl rfl rfl rfl rfl
  apply State.modInst_evolves
  refine Evolves.of_pair ‹_› ?_
  apply State.contribution_evolves
  assumption
  intro _
  intro _
  intro _
  apply Evolves.ite
  apply State.landFinal_evolves
  assumption
  apply State.sendColl_evolves
  assumption

theorem State.takeTrailer_evolves {r s : State} {entry sequence n payload} (h : Evolves r s) :
    Evolves r (State.takeTrailer s entry sequence n payload) := by
  unfold State.takeTrailer
  apply Evolves.ite
  apply State.modInst_evolves
  assumption
  assumption

theorem State.takeSegment_evolves {r s : State} {entry sequence e p} (h : Evolves r s) :
    Evolves r (State.takeSegment s entry sequence e p) := by
  unfold State.takeSegment
  dsimp only
  apply Evolves.ite
  apply State.chainSegment_evolves
  apply State.takeTrailer_evolves
  assumption
  apply Evolves.ite
  apply State.landFinal_evolves
  apply State.takeTrailer_evolves
  assumption
  assumption

theorem State.unwire_evolves {r s : State} {p} (h : Evolves r s) :
    Evolves r (State.unwire s p).1 := by
  unfold State.unwire
  split
  split
  split
  dsimp only
  apply State.modFtc_evolves
  assumption
  dsimp only
  assumption
  dsimp only
  apply State.modFtc_evolves
  assumption
  dsimp only
  assumption

theorem State.wireFails_evolves {r s : State} {entry} (h : Evolves r s) :
    Evolves r (State.wireFails s entry) := by
  unfold State.wireFails
  dsimp only
  apply State.abortStep_evolves
  apply State.newCascade_evolves
  assumption

theorem State.addPiece_evolves {r s : State} {entry sequence p} (h : Evolves r s) :
    Evolves r (State.addPiece s entry sequence p) := by
  unfold State.addPiece
  apply State.modInst_evolves
  assumption

theorem State.takeExchange_evolves {r s : State} {entry sequence p} (h : Evolves r s) :
    Evolves r (State.takeExchange s entry sequence p) := by
  unfold State.takeExchange
  split
  apply State.wireFails_evolves
  refine Evolves.of_pair ‹_› ?_
  apply State.unwire_evolves
  assumption
  apply State.addPiece_evolves
  refine Evolves.of_pair ‹_› ?_
  apply State.unwire_evolves
  assumption

theorem State.relay_evolves {r s : State} {t d p} (h : Evolves r s) :
    Evolves r (State.relay s t d p) := by
  unfold State.relay
  dsimp only
  apply Evolves.foldl
  assumption
  intro _
  intro _
  intro _
  apply State.sendRouted_evolves
  assumption

theorem State.takeGather_evolves {r s : State} {entry sequence e dir p} (h : Evolves r s) :
    Evolves r (State.takeGather s entry sequence e dir p) := by
  unfold State.takeGather
  split
  apply State.wireFails_evolves
  refine Evolves.of_pair ‹_› ?_
  apply State.unwire_evolves
  assumption
  dsimp only
  split
  apply State.relay_evolves
  apply State.addPiece_evolves
  apply State.receive_evolves
  refine Evolves.of_pair ‹_› ?_
  apply State.unwire_evolves
  assumption
  apply State.addPiece_evolves
  apply State.receive_evolves
  refine Evolves.of_pair ‹_› ?_
  apply State.unwire_evolves
  assumption

theorem State.takeColl_evolves {r s : State} {port p i} (h : Evolves r s) :
    Evolves r (State.takeColl s port p i) := by
  unfold State.takeColl
  dsimp only
  apply Evolves.ite
  apply State.abortStep_evolves
  apply State.newCascade_evolves
  apply State.modInst_evolves
  assumption
  apply Evolves.ite
  apply Evolves.ite
  apply State.takeFlag_evolves
  apply State.modInst_evolves
  assumption
  apply State.modInst_evolves
  assumption
  apply Evolves.ite
  apply State.takeSegment_evolves
  apply State.modInst_evolves
  assumption
  apply Evolves.ite
  apply State.takeExchange_evolves
  apply State.modInst_evolves
  assumption
  apply Evolves.ite
  apply State.takeGather_evolves
  apply State.modInst_evolves
  assumption
  apply State.modInst_evolves
  assumption

theorem State.takeEarly_evolves {r s : State} {entry sequence} (h : Evolves r s) :
    Evolves r (State.takeEarly s entry sequence) := by
  unfold State.takeEarly
  dsimp only
  apply Evolves.foldl
  refine Evolves.record ?_ rfl rfl rfl rfl rfl rfl rfl
  assumption
  intro _
  intro _
  intro _
  split
  apply State.takeColl_evolves
  assumption
  assumption

theorem State.rowCounts_evolves {r s : State} {e members} (h : Evolves r s) :
    Evolves r (State.rowCounts s e members).1 := by
  unfold State.rowCounts
  split
  dsimp only
  refine Evolves.of_pair ‹_› ?_
  apply State.collRead_evolves
  assumption
  dsimp only
  refine Evolves.of_pair ‹_› ?_
  apply State.collRead_evolves
  assumption

theorem State.wireData_evolves {r s : State} {e raw} (h : Evolves r s) :
    Evolves r (State.wireData s e raw).1 := by
  unfold State.wireData
  split
  dsimp only
  apply State.modFtc_evolves
  assumption
  dsimp only
  assumption

theorem State.sendData_evolves {r s : State} {entry sequence e off bs dsts} (h : Evolves r s) :
    Evolves r (State.sendData s entry sequence e off bs dsts) := by
  unfold State.sendData
  dsimp only
  apply Evolves.foldl
  assumption
  intro _
  intro _
  intro _
  apply Evolves.foldl
  split
  dsimp only
  assumption
  apply State.wireData_evolves
  assumption
  intro _
  intro _
  intro _
  apply State.sendColl_evolves
  assumption

theorem State.startExchange_evolves {r s : State} {entry sequence e} (h : Evolves r s) :
    Evolves r (State.startExchange s entry sequence e) := by
  unfold State.startExchange
  dsimp only
  split
  apply State.beaconFails_evolves
  refine Evolves.of_pair ‹_› ?_
  apply State.rowCounts_evolves
  assumption
  apply Evolves.foldl
  refine Evolves.of_pair ‹_› ?_
  apply State.rowCounts_evolves
  assumption
  intro _
  intro _
  intro _
  split
  apply State.beaconFails_evolves
  refine Evolves.of_pair ‹_› ?_
  apply State.collRead_evolves
  assumption
  apply Evolves.ite
  apply State.addPiece_evolves
  refine Evolves.of_pair ‹_› ?_
  apply State.collRead_evolves
  assumption
  apply State.sendData_evolves
  refine Evolves.of_pair ‹_› ?_
  apply State.collRead_evolves
  assumption

theorem State.ownData_evolves {r s : State} {entry sequence e} (h : Evolves r s) :
    Evolves r (State.ownData s entry sequence e).1 := by
  unfold State.ownData
  dsimp only
  split
  dsimp only
  assumption
  split
  split
  dsimp only
  refine Evolves.of_pair ‹_› ?_
  apply State.readPieces_evolves
  assumption
  dsimp only
  refine Evolves.of_pair ‹_› ?_
  apply State.readPieces_evolves
  assumption
  split
  dsimp only
  assumption
  split
  dsimp only
  refine Evolves.of_pair ‹_› ?_
  apply State.collRead_evolves
  assumption
  dsimp only
  refine Evolves.of_pair ‹_› ?_
  apply State.collRead_evolves
  assumption

theorem State.startGather_evolves {r s : State} {entry sequence e} (h : Evolves r s) :
    Evolves r (State.startGather s entry sequence e) := by
  unfold State.startGather
  split
  apply State.beaconFails_evolves
  refine Evolves.of_pair ‹_› ?_
  apply State.ownData_evolves
  assumption
  apply Evolves.ite
  refine Evolves.of_pair ‹_› ?_
  apply State.ownData_evolves
  assumption
  dsimp only
  apply State.sendData_evolves
  apply State.addPiece_evolves
  apply State.receive_evolves
  refine Evolves.of_pair ‹_› ?_
  apply State.ownData_evolves
  assumption

theorem State.startFlag_evolves {r s : State} {entry sequence e w} (h : Evolves r s) :
    Evolves r (State.startFlag s entry sequence e w) := by
  unfold State.startFlag
  dsimp only
  split
  split
  apply State.advanceStages_evolves
  apply State.sendStage_evolves
  apply State.modInst_evolves
  assumption
  apply State.modInst_evolves
  assumption
  apply Evolves.foldl
  apply State.modInst_evolves
  assumption
  intro _
  intro _
  intro _
  apply State.sendFlag_evolves
  assumption
  apply Evolves.ite
  apply State.chainFlag_evolves
  apply State.modInst_evolves
  assumption
  apply State.modInst_evolves
  assumption

theorem State.startPut_evolves {r s : State} {entry sequence e} (h : Evolves r s) :
    Evolves r (State.startPut s entry sequence e) := by
  unfold State.startPut
  split
  apply State.beaconFails_evolves
  refine Evolves.of_pair ‹_› ?_
  apply State.collRead_evolves
  assumption
  apply Evolves.ite
  apply State.deposit_evolves
  refine Evolves.of_pair ‹_› ?_
  apply State.collRead_evolves
  assumption
  dsimp only
  apply Evolves.foldl
  refine Evolves.of_pair ‹_› ?_
  apply State.collRead_evolves
  assumption
  intro _
  intro _
  intro _
  apply State.sendColl_evolves
  apply State.modInst_evolves
  apply State.wireData_evolves
  assumption

theorem State.beginInst_evolves {r s : State} {entry sequence e o} (h : Evolves r s) :
    Evolves r (State.beginInst s entry sequence e o) := by
  unfold State.beginInst
  apply Evolves.ite
  apply Evolves.ite
  apply Evolves.foldl
  assumption
  intro _
  intro _
  intro _
  apply State.chainSegment_evolves
  assumption
  assumption
  apply Evolves.ite
  apply State.startExchange_evolves
  assumption
  apply Evolves.ite
  apply State.startGather_evolves
  assumption
  apply Evolves.ite
  apply State.startFlag_evolves
  assumption
  apply Evolves.ite
  apply State.startPut_evolves
  assumption
  assumption

theorem State.issueInst_evolves {r s : State} {entry o own trailer} (h : Evolves r s) :
    Evolves r (State.issueInst s entry o own trailer) := by
  unfold State.issueInst
  dsimp only
  apply State.takeEarly_evolves
  apply State.beginInst_evolves
  refine Evolves.record ?_ rfl rfl rfl rfl rfl rfl rfl
  assumption

theorem State.issueUpdate_evolves {r s : State} {entry own trailer} (h : Evolves r s) :
    Evolves r (State.issueUpdate s entry own trailer) := by
  unfold State.issueUpdate
  apply State.issueInst_evolves
  assumption

theorem State.issueColl_evolves {r s : State} {entry o} (h : Evolves r s) :
    Evolves r (State.issueColl s entry o) := by
  unfold State.issueColl
  apply State.issueInst_evolves
  assumption

theorem State.opColl_evolves {r s : State} {d p entry done} (h : Evolves r s) :
    Evolves r (State.opColl s d p entry done) := by
  unfold State.opColl
  dsimp only
  apply Evolves.ite
  apply State.bsuColl_evolves
  assumption
  apply Evolves.ite
  apply State.issueHold_evolves
  assumption
  apply State.addReq_evolves
  apply State.issueColl_evolves
  apply State.tag_evolves
  assumption

theorem State.endUpdate_evolves {r s : State} {entry} (h : Evolves r s) :
    Evolves r (State.endUpdate s entry) := by
  unfold State.endUpdate
  refine Evolves.record ?_ rfl rfl rfl rfl rfl rfl rfl
  assumption

theorem State.lastWrites_evolves {r s : State} {e i} (h : Evolves r s) :
    Evolves r (State.lastWrites s e i) := by
  unfold State.lastWrites
  apply Evolves.ite
  apply State.deposit_evolves
  assumption
  split
  apply Evolves.ite
  apply State.tmWrite_evolves
  assumption
  assumption
  assumption

theorem State.finishInst_evolves {r s : State} {e i} (h : Evolves r s) :
    Evolves r (State.finishInst s e i) := by
  unfold State.finishInst
  dsimp only
  apply Evolves.ite
  apply State.lastWrites_evolves
  assumption
  split
  apply State.bump_evolves
  apply State.opEnded_evolves
  refine Evolves.record ?_ rfl rfl rfl rfl rfl rfl rfl
  apply State.lastWrites_evolves
  assumption
  refine Evolves.record ?_ rfl rfl rfl rfl rfl rfl rfl
  apply State.lastWrites_evolves
  assumption

theorem execCollectiveComplete_evolves {r s : State} {entry sequence} (h : Evolves r s) :
    OutEvolves r (execCollectiveComplete entry sequence s) := by
  unfold execCollectiveComplete
  split
  apply OutEvolves.next
  assumption
  split
  apply OutEvolves.next
  assumption
  dsimp only
  apply OutEvolves.next
  apply Evolves.ite
  apply State.finishInst_evolves
  assumption
  assumption

theorem execColl_evolves {r s : State} {d p entry done} (h : Evolves r s) :
    OutEvolves r (execColl d p entry done s) := by
  unfold execColl
  apply OutEvolves.ite
  apply OutEvolves.next
  apply Evolves.ite
  apply State.opColl_evolves
  assumption
  assumption
  exact OutEvolves.fault

theorem execCollectiveStall_evolves {r s : State} {entry sequence} (h : Evolves r s) :
    OutEvolves r (execCollectiveStall entry sequence s) := by
  unfold execCollectiveStall
  split
  apply OutEvolves.next
  assumption
  dsimp only
  apply OutEvolves.ite
  apply OutEvolves.next
  apply State.fabricFails_evolves
  apply State.advanceTo_evolves
  assumption
  apply OutEvolves.next
  assumption

theorem execEthReadComplete_evolves {r s : State} {entry sequence data} (h : Evolves r s) :
    OutEvolves r (execEthReadComplete entry sequence data s) := by
  unfold execEthReadComplete
  split
  apply OutEvolves.next
  assumption
  dsimp only
  apply OutEvolves.ite
  apply OutEvolves.next
  assumption
  split
  apply OutEvolves.next
  apply State.fabricFails_evolves
  assumption
  apply OutEvolves.ite
  apply OutEvolves.next
  apply Evolves.ite
  apply State.finishInst_evolves
  apply State.modPort_evolves
  apply State.deposit_evolves
  assumption
  exact fun _ k => k.record
  apply State.modPort_evolves
  apply State.deposit_evolves
  assumption
  exact fun _ k => k.record
  apply OutEvolves.next
  assumption

/-! ### SelfTest -/

theorem State.raiseNewlyRetired_evolves {r s : State} {before r'} (h : Evolves r s) :
    Evolves r (State.raiseNewlyRetired s before r') := by
  unfold State.raiseNewlyRetired
  apply Evolves.foldl
  assumption
  intro _
  intro _
  intro _
  apply State.raiseRetired_evolves
  assumption

theorem State.testBsus_evolves {r s : State} {l} (h : Evolves r s) :
    Evolves r (State.testBsus s l) := by
  unfold State.testBsus
  apply Evolves.foldl
  assumption
  intro _
  intro _
  intro _
  apply State.retireChannel_evolves
  apply State.newCascade_evolves
  assumption

theorem State.failTile_evolves {r s : State} {d p} (h : Evolves r s) :
    Evolves r (State.failTile s d p) := by
  unfold State.failTile
  apply Evolves.ite
  assumption
  apply Evolves.ite
  apply State.retireTile_evolves
  apply State.newCascade_evolves
  assumption
  apply State.raise_evolves
  apply State.modTile_evolves
  apply State.newCascade_evolves
  assumption
  exact fun _ k => k.record

theorem State.testBanks_evolves {r s : State} {l} (h : Evolves r s) :
    Evolves r (State.testBanks s l) := by
  unfold State.testBanks
  apply Evolves.foldl
  assumption
  intro _
  intro _
  intro _
  apply State.failTile_evolves
  assumption

theorem State.testShared_evolves {r s : State} {l} (h : Evolves r s) :
    Evolves r (State.testShared s l) := by
  unfold State.testShared
  apply Evolves.foldl
  assumption
  intro _
  intro _
  intro _
  apply State.retireSharedPage_evolves
  apply State.newCascade_evolves
  assumption

theorem State.assignLanes_evolves {r s : State} {r'} (h : Evolves r s) :
    Evolves r (State.assignLanes s r').1 := by
  unfold State.assignLanes
  dsimp only
  apply Evolves.foldl
  assumption
  intro _
  intro _
  intro _
  apply State.modLane_evolves
  assumption

theorem State.noteLoop_evolves {r s : State} {r' t} (h : Evolves r s) :
    Evolves r (State.noteLoop s r' t) := by
  unfold State.noteLoop
  apply State.modLane_evolves
  assumption

theorem State.laneFails_evolves {r s : State} {r'} (h : Evolves r s) :
    Evolves r (State.laneFails s r') := by
  unfold State.laneFails
  apply Evolves.ite
  apply State.retireLaneQuietly_evolves
  assumption
  apply State.logAppend_evolves
  apply State.modLane_evolves
  assumption

theorem State.lanePasses_evolves {r s : State} {r'} (h : Evolves r s) :
    Evolves r (State.lanePasses s r') := by
  unfold State.lanePasses
  split
  apply State.logAppend_evolves
  assumption
  assumption
  assumption
  assumption
  assumption

theorem State.trainLane_evolves {r s : State} {tests r'} (h : Evolves r s) :
    Evolves r (State.trainLane s tests r') := by
  unfold State.trainLane
  apply Evolves.ite
  assumption
  dsimp only
  apply Evolves.ite
  apply State.laneFails_evolves
  split
  apply State.noteLoop_evolves
  assumption
  assumption
  apply State.lanePasses_evolves
  apply State.modLane_evolves
  split
  apply State.noteLoop_evolves
  assumption
  assumption

theorem State.trainGroup_evolves {r s : State} {tests r'} (h : Evolves r s) :
    Evolves r (State.trainGroup s tests r').1 := by
  unfold State.trainGroup
  apply State.assignLanes_evolves
  apply Evolves.foldl
  assumption
  intro _
  intro _
  intro _
  apply State.trainLane_evolves
  assumption

theorem State.failSpare_evolves {r s : State} {d p} (h : Evolves r s) :
    Evolves r (State.failSpare s d p) := by
  unfold State.failSpare
  apply Evolves.ite
  assumption
  apply State.raise_evolves
  apply State.logAppend_evolves
  apply State.modTile_evolves
  apply State.newCascade_evolves
  assumption
  exact fun _ k => k.record

theorem Tile.dropSpare_shape {x : Tile} (h : x.Shape) :
    (Tile.dropSpare x).Shape := by
  unfold Tile.dropSpare
  split
  refine Tile.Shape.record ?_
  assumption
  assumption

theorem State.failArray_evolves {r s : State} {d p a} (h : Evolves r s) :
    Evolves r (State.failArray s d p a) := by
  unfold State.failArray
  apply Evolves.ite
  assumption
  dsimp only
  apply State.raise_evolves
  apply State.countRetirement_evolves
  apply State.logAppend_evolves
  apply State.modTile_evolves
  apply State.newCascade_evolves
  assumption
  exact fun _ k => k.record

theorem State.testArrays_evolves {r s : State} {d p failed} (h : Evolves r s) :
    Evolves r (State.testArrays s d p failed) := by
  unfold State.testArrays
  apply Evolves.ite
  assumption
  dsimp only
  split
  apply State.modTile_evolves
  apply Evolves.ite
  apply State.failSpare_evolves
  assumption
  assumption
  intro _
  intro _
  apply Tile.dropSpare_shape
  assumption
  apply Evolves.ite
  apply State.failArray_evolves
  apply State.modTile_evolves
  apply Evolves.ite
  apply State.failSpare_evolves
  assumption
  assumption
  intro _
  intro _
  apply Tile.dropSpare_shape
  assumption
  apply State.failTile_evolves
  apply State.modTile_evolves
  apply Evolves.ite
  apply State.failSpare_evolves
  assumption
  assumption
  intro _
  intro _
  apply Tile.dropSpare_shape
  assumption
  apply State.failTile_evolves
  apply State.modTile_evolves
  apply Evolves.ite
  apply State.failSpare_evolves
  assumption
  assumption
  intro _
  intro _
  apply Tile.dropSpare_shape
  assumption

theorem State.testAllArrays_evolves {r s : State} {l} (h : Evolves r s) :
    Evolves r (State.testAllArrays s l) := by
  unfold State.testAllArrays
  apply Evolves.foldl
  assumption
  intro _
  intro _
  intro _
  apply State.testArrays_evolves
  assumption

theorem State.testBeacon_evolves {r s : State} {l} (h : Evolves r s) :
    Evolves r (State.testBeacon s l) := by
  unfold State.testBeacon
  apply Evolves.foldl
  assumption
  intro _
  intro _
  intro _
  apply State.replaceBeaconPage_evolves
  apply State.newCascade_evolves
  assumption

/-! ### Reset -/

theorem State.pilotStart_evolves {r s : State} (h : Evolves r s) :
    Evolves r (State.pilotStart s) := by
  unfold State.pilotStart
  apply Evolves.ite
  refine Evolves.record ?_ rfl rfl rfl rfl rfl rfl rfl
  assumption
  assumption

theorem Tile.atReset_shape (pos : Nat) : (Tile.atReset pos).Shape := by
  have k : ∀ c ∈ List.replicate 8 ({} : Context), c.Shape := fun c hc => by
    obtain ⟨-, rfl⟩ := List.mem_replicate.mp hc
    exact ⟨rfl, rfl⟩
  have q : ∀ v ∈ List.replicate 256 0, v ≤ 0xFFFF := fun v hv => by
    obtain ⟨-, rfl⟩ := List.mem_replicate.mp hv
    exact Nat.zero_le _
  unfold Tile.atReset
  split <;> exact ⟨List.length_replicate, k, List.length_replicate, q, List.length_replicate⟩

theorem Tile.afterReset_shape {x : Tile} {pos} (_ : x.Shape) : (Tile.afterReset pos x).Shape :=
  (Tile.atReset_shape pos).record

theorem Stack.afterReset_shape {x : Stack} (_ : x.Shape) : (Stack.afterReset x).Shape := by
  have k : ∀ b ∈ List.replicate 32 ({} : Bsu), b.Shape := fun b hb => by
    obtain ⟨-, rfl⟩ := List.mem_replicate.mp hb
    exact ⟨List.length_replicate⟩
  exact ⟨List.length_replicate, List.length_replicate, k⟩

theorem State.toDark_evolves {r s : State} {full} (h : Evolves r s) : Evolves r (State.toDark s full) := by
  refine h.trans
    { pending := rfl, fuses := .refl _, seq := ?_, ring := fun _ => ?_, flashRing := fun k => ?_, mem := id, hostMem := id
      tiles := List.length_mapIdx, tile := fun k => mapIdx_all k fun _ _ => Tile.afterReset_shape
      hbm := List.length_map _, stack := fun k => map_all k fun _ => Stack.afterReset_shape
      ports := fun _ => rfl, port := fun _ => ?_, links := fun _ => rfl, dies := ?_, lasers := rfl
      ftc := fun _ => rfl, barriers := fun _ => rfl, mailboxes := fun _ => ?_, dma := fun _ => ?_, msix := fun _ => ?_
      windows := rfl, outside := fun _ _ _ => rfl }
  · cases full <;> exact Nat.le_refl _
  · cases full <;> exact ⟨Nat.zero_le _, .nil, fun _ hq => nomatch hq⟩
  · have e : (s.toDark full).events.nextSeq = s.events.nextSeq := by cases full <;> rfl
    rw [e]
    exact k.sublist List.filter_sublist
  · intro p hp
    obtain ⟨-, rfl⟩ := List.mem_replicate.mp hp
    exact ⟨rfl⟩
  · show List.map Die.identity (s.dies.map fun d => { d with state := .absent, isolated := false, ownTests := .notTested }) = _
    rw [List.map_map]
    rfl
  all_goals cases full <;> rfl

theorem State.loseStacks_evolves {r s : State} (h : Evolves r s) : Evolves r (State.loseStacks s) :=
  h.trans { Evolves.refl s with mem := Mem.wf_filter _ }

theorem execRailExcursion_evolves {r s : State} {rail} (h : Evolves r s) :
    OutEvolves r (execRailExcursion rail s) := by
  unfold execRailExcursion
  apply OutEvolves.ite
  dsimp only
  apply OutEvolves.next
  refine Evolves.record ?_ rfl rfl rfl rfl rfl rfl rfl
  apply Evolves.ite
  apply State.loseStacks_evolves
  apply Evolves.ite
  apply State.toDark_evolves
  assumption
  assumption
  apply Evolves.ite
  apply State.toDark_evolves
  assumption
  assumption
  apply OutEvolves.next
  assumption

theorem execVddPilotUp_evolves {r s : State} (h : Evolves r s) :
    OutEvolves r (execVddPilotUp s) := by
  unfold execVddPilotUp
  apply OutEvolves.ite
  apply OutEvolves.next
  assumption
  apply OutEvolves.next
  refine Evolves.record ?_ rfl rfl rfl rfl rfl rfl rfl
  assumption

theorem State.markReset_evolves {r s : State} (h : Evolves r s) :
    Evolves r (State.markReset s) := by
  unfold State.markReset
  apply Evolves.ite
  refine Evolves.record ?_ rfl rfl rfl rfl rfl rfl rfl
  assumption
  assumption

theorem State.resetDevice_evolves {r s : State} (h : Evolves r s) :
    Evolves r (State.resetDevice s) := by
  unfold State.resetDevice
  apply State.toDark_evolves
  apply State.markReset_evolves
  assumption

theorem execDevResetNAssert_evolves {r s : State} (h : Evolves r s) :
    OutEvolves r (execDevResetNAssert s) := by
  unfold execDevResetNAssert
  apply OutEvolves.ite
  dsimp only
  apply OutEvolves.next
  refine Evolves.record ?_ rfl rfl rfl rfl rfl rfl rfl
  apply State.toDark_evolves
  apply State.markReset_evolves
  assumption
  apply OutEvolves.next
  assumption

theorem execRailsRestored_evolves {r s : State} (h : Evolves r s) :
    OutEvolves r (execRailsRestored s) := by
  unfold execRailsRestored
  apply OutEvolves.ite
  dsimp only
  apply OutEvolves.next
  apply State.pilotStart_evolves
  refine Evolves.record ?_ rfl rfl rfl rfl rfl rfl rfl
  assumption
  apply OutEvolves.next
  assumption

theorem execDevResetNRelease_evolves {r s : State} {rails straps} (h : Evolves r s) :
    OutEvolves r (execDevResetNRelease rails straps s) := by
  unfold execDevResetNRelease
  apply OutEvolves.ite
  dsimp only
  apply OutEvolves.next
  apply State.pilotStart_evolves
  refine Evolves.record ?_ rfl rfl rfl rfl rfl rfl rfl
  assumption
  apply OutEvolves.next
  assumption

theorem State.loseSram_evolves {r s : State} (h : Evolves r s) : Evolves r (State.loseSram s) :=
  h.trans { Evolves.refl s with
    mem := Mem.wf_filter _, tiles := List.length_map _, tile := fun k => map_all k fun _ q => q.record }

theorem execVddPilotLoss_evolves {r s : State} (h : Evolves r s) :
    OutEvolves r (execVddPilotLoss s) := by
  unfold execVddPilotLoss
  apply OutEvolves.ite
  dsimp only
  apply OutEvolves.next
  refine Evolves.record ?_ rfl rfl rfl rfl rfl rfl rfl
  apply State.loseSram_evolves
  apply State.loseStacks_evolves
  apply State.toDark_evolves
  assumption
  apply OutEvolves.next
  assumption

theorem State.idle_evolves {r s : State} (h : Evolves r s) :
    Evolves r (State.idle s) := by
  unfold State.idle
  dsimp only
  refine Evolves.record ?_ rfl rfl rfl rfl rfl rfl rfl
  apply State.pilotStart_evolves
  assumption

/-! ### Commit -/

theorem State.putArea_evolves {r s : State} {k b c} (h : Evolves r s) :
    Evolves r (State.putArea s k b c) := by
  unfold State.putArea
  apply Evolves.ite
  dsimp only
  apply State.countStack_evolves
  apply State.writeDev_evolves
  apply State.countStack_evolves
  assumption
  assumption

theorem State.putCopies_evolves {r s : State} {k b} (h : Evolves r s) :
    Evolves r (State.putCopies s k b) := by
  unfold State.putCopies
  apply Evolves.foldl
  assumption
  intro _
  intro _
  intro _
  apply State.putArea_evolves
  assumption

theorem State.flip_evolves {r s : State} (h : Evolves r s) :
    Evolves r (State.flip s) := by
  unfold State.flip
  split
  apply Evolves.ite
  dsimp only
  refine Evolves.record ?_ rfl rfl rfl rfl rfl rfl rfl
  apply State.putCopies_evolves
  assumption
  assumption
  assumption

theorem State.readEpoch_evolves {r s : State} (h : Evolves r s) :
    Evolves r (State.readEpoch s) := by
  unfold State.readEpoch
  dsimp only
  split
  refine Evolves.record ?_ rfl rfl rfl rfl rfl rfl rfl
  assumption
  assumption

theorem State.writeRecord_evolves {r s : State} {r'} (h : Evolves r s) :
    Evolves r (State.writeRecord s r') := by
  unfold State.writeRecord
  dsimp only
  refine Evolves.record ?_ rfl rfl rfl rfl rfl rfl rfl
  apply State.putCopies_evolves
  assumption

theorem State.writePrepared_evolves {r s : State} {k vote digest b mode} (h : Evolves r s) :
    Evolves r (State.writePrepared s k vote digest b mode) := by
  unfold State.writePrepared
  apply State.writeRecord_evolves
  assumption

theorem State.takeArea_evolves {r s : State} (h : Evolves r s) :
    Evolves r (State.takeArea s) := by
  unfold State.takeArea
  dsimp only
  split
  refine Evolves.record ?_ rfl rfl rfl rfl rfl rfl rfl
  assumption
  apply State.readEpoch_evolves
  refine Evolves.record ?_ rfl rfl rfl rfl rfl rfl rfl
  assumption

theorem State.initArea_evolves {r s : State} {g h' x'} (h : Evolves r s) :
    Evolves r (State.initArea s g h' x') := by
  unfold State.initArea
  dsimp only
  apply State.putCopies_evolves
  apply State.writeRecord_evolves
  apply State.putCopies_evolves
  refine Evolves.record ?_ rfl rfl rfl rfl rfl rfl rfl
  apply State.releaseExport_evolves
  assumption

theorem State.adoptArea_evolves {r s : State} {g} (h : Evolves r s) :
    Evolves r (State.adoptArea s g).1 := by
  unfold State.adoptArea
  split
  dsimp only
  split
  dsimp only
  apply State.flip_evolves
  apply State.takeArea_evolves
  assumption
  dsimp only
  apply State.initArea_evolves
  assumption
  dsimp only
  assumption

theorem State.writeRolledBack_evolves {r s : State} {k} (h : Evolves r s) :
    Evolves r (State.writeRolledBack s k) := by
  unfold State.writeRolledBack
  dsimp only
  refine Evolves.record ?_ rfl rfl rfl rfl rfl rfl rfl
  apply State.writeRecord_evolves
  assumption

theorem State.owesExport_evolves {r s : State} {h' k o} (h : Evolves r s) :
    Evolves r (State.owesExport s h' k o) := by
  unfold State.owesExport
  apply Evolves.ite
  refine Evolves.record ?_ rfl rfl rfl rfl rfl rfl rfl
  assumption
  assumption

theorem State.writeCommitted_evolves {r s : State} {h' outcome w p} (h : Evolves r s) :
    Evolves r (State.writeCommitted s h' outcome w p) := by
  unfold State.writeCommitted
  dsimp only
  refine Evolves.record ?_ rfl rfl rfl rfl rfl rfl rfl
  apply State.writeRecord_evolves
  assumption

theorem State.rollForward_evolves {r s : State} {h' outcome w p} (h : Evolves r s) :
    Evolves r (State.rollForward s h' outcome w p) := by
  unfold State.rollForward
  dsimp only
  refine Evolves.record ?_ rfl rfl rfl rfl rfl rfl rfl
  apply State.owesExport_evolves
  apply State.flip_evolves
  apply State.writeCommitted_evolves
  assumption

theorem State.resolveDoubt_evolves {r s : State} {h' k w} (h : Evolves r s) :
    Evolves r (State.resolveDoubt s h' k w) := by
  unfold State.resolveDoubt
  split
  assumption
  apply Evolves.ite
  apply State.writeRolledBack_evolves
  assumption
  apply Evolves.ite
  apply State.rollForward_evolves
  assumption
  apply Evolves.ite
  apply State.rollForward_evolves
  assumption
  apply State.writeRolledBack_evolves
  assumption

end Sys2Proof.Machine
end

