-- ==== Sys2Proof/Laws/EvolvesF.lean ====
section
/-! SUPPORT. What each operation and each command of these files of Machine/ keeps: Boot, Mailbox, Commands,
Protection, Bundles. -/

namespace Sys2Proof.Machine

open Sys2Proof

/-! ### Boot -/

theorem State.linkRecords_evolves {r s : State} {before trained} (h : Evolves r s) :
    Evolves r (State.linkRecords s before trained) := by
  unfold State.linkRecords
  dsimp only
  apply Evolves.foldl
  apply Evolves.foldl
  apply Evolves.foldl
  apply Evolves.ite
  apply State.modLink_evolves
  assumption
  exact fun _ => rfl
  assumption
  intro _
  intro _
  intro _
  apply State.raiseNewlyRetired_evolves
  assumption
  intro _
  intro _
  intro _
  apply Evolves.ite
  apply State.raise_evolves
  assumption
  assumption
  intro _
  intro _
  intro _
  apply Evolves.ite
  apply State.raise_evolves
  assumption
  assumption

theorem State.markFailedBoot_evolves {r s : State} {k} (h : Evolves r s) : Evolves r (State.markFailedBoot s k) :=
  Evolves.record h rfl rfl Flash.setSlot_eventRing rfl rfl rfl Flash.setSlot_windows

theorem State.startRecovery_evolves {r s : State} (h : Evolves r s) : Evolves r (State.startRecovery s) :=
  h.trans { Evolves.refl s with dies := modAt_map _ _ _ _ fun _ => rfl }

theorem bootBundle_evolves {r s : State} {absent tried l} (h : Evolves r s) :
    Evolves r (bootBundle absent tried l s) := by
  induction l generalizing tried s with
  | nil => exact State.startRecovery_evolves h
  | cons k ks ih =>
    unfold bootBundle
    exact Evolves.ite (Evolves.record h rfl rfl rfl rfl rfl rfl rfl) (ih (State.markFailedBoot_evolves h))

theorem State.partFails_evolves {r s : State} {b p} (h : Evolves r s) :
    Evolves r (State.partFails s b p) := by
  unfold State.partFails
  dsimp only
  apply bootBundle_evolves
  refine Evolves.record ?_ rfl rfl rfl rfl rfl rfl rfl
  apply State.markFailedBoot_evolves
  assumption

theorem execPartStartupTimeout_evolves {r s : State} (h : Evolves r s) :
    OutEvolves r (execPartStartupTimeout s) := by
  unfold execPartStartupTimeout
  split
  split
  apply OutEvolves.next
  apply State.partFails_evolves
  assumption
  apply OutEvolves.next
  assumption
  apply OutEvolves.next
  assumption

theorem State.darkenLinks_evolves {r s : State} {d} (h : Evolves r s) : Evolves r (State.darkenLinks s d) := by
  refine h.trans { Evolves.refl s with links := fun i => Eq.trans (List.ext_getElem? fun j => ?_) i }
  simp only [State.darkenLinks, List.getElem?_map, List.getElem?_mapIdx, Option.map_map]
  refine congrFun (congrArg Option.map (funext fun x => ?_)) _
  simp only [Function.comp_apply]
  split <;> rfl

theorem State.startPorts_evolves {r s : State} (h : Evolves r s) : Evolves r (State.startPorts s) :=
  h.trans { Evolves.refl s with
    ports := List.length_mapIdx.trans, port := fun k => mapIdx_all k fun _ _ q => q.record }

theorem State.loseUnhosted_evolves {r s : State} (h : Evolves r s) :
    Evolves r (State.loseUnhosted s) := by
  unfold State.loseUnhosted
  apply State.loseRegions_evolves
  assumption

theorem State.holdProtocol_evolves {r s : State} {d} (h : Evolves r s) :
    Evolves r (State.holdProtocol s d) := by
  unfold State.holdProtocol
  apply State.raise_evolves
  apply State.darkenLinks_evolves
  apply State.modDie_evolves
  apply State.newCascade_evolves
  assumption
  exact fun _ => rfl

theorem State.loadSweep_evolves {r s : State} (h : Evolves r s) :
    Evolves r (State.loadSweep s) := by
  unfold State.loadSweep
  dsimp only
  refine Evolves.record ?_ rfl rfl rfl rfl rfl rfl rfl
  assumption

theorem State.lightDies_evolves {r s : State} {absent} (h : Evolves r s) :
    Evolves r (State.lightDies s absent) := by
  unfold State.lightDies
  dsimp only
  apply Evolves.foldl
  assumption
  intro _
  intro _
  intro _
  apply Evolves.ite
  apply State.modDie_evolves
  assumption
  exact fun _ => rfl
  apply Evolves.ite
  apply State.modDie_evolves
  assumption
  exact fun _ => rfl
  apply State.raise_evolves
  apply State.modDie_evolves
  apply State.newCascade_evolves
  assumption
  exact fun _ => rfl

theorem mapIdx_map {α β : Type} (g : α → β) (l : List α) (f : Nat → α → α) (hf : ∀ i x, g (f i x) = g x) :
    (l.mapIdx f).map g = l.map g := by
  apply List.ext_getElem? fun j => ?_
  simp [List.getElem?_map, List.getElem?_mapIdx, Option.map_map, Function.comp_def, hf]

theorem State.loadFaultLog_evolves {r s : State} {cold}
    (h : Evolves r s) : Evolves r (State.loadFaultLog s cold) := by
  refine h.trans { Evolves.refl s with
    tiles := List.length_mapIdx, tile := fun k => mapIdx_all k fun _ _ q => ?_
    hbm := List.length_mapIdx, stack := fun k => mapIdx_all k fun _ _ q => ?_
    links := fun k => (mapIdx_map (fun x : Link => x.lanes.length) _ _ fun _ _ => List.length_mapIdx).trans k
    ports := List.length_mapIdx.trans, port := fun k => mapIdx_all k fun _ _ q => ⟨List.length_mapIdx.trans q.lanes⟩ }
  · dsimp only
    split
    · exact q
    · exact q.record
  · refine ⟨List.length_mapIdx.trans q.channels, List.length_mapIdx.trans q.bsus, mapIdx_all q.bsu fun _ _ z => ?_⟩
    split
    · exact z.record
    · exact z

theorem State.wipe_evolves {r s : State} {p} (h : Evolves r s) : Evolves r (State.wipe s p) :=
  h.trans { Evolves.refl s with mem := fun k => Mem.wf_filter _ k }

theorem State.applyInterleave_evolves {r s : State} (h : Evolves r s) :
    Evolves r (State.applyInterleave s) := by
  unfold State.applyInterleave
  dsimp only
  apply Evolves.ite
  assumption
  refine Evolves.record ?_ rfl rfl rfl rfl rfl rfl rfl
  apply State.wipe_evolves
  apply State.wipe_evolves
  assumption

theorem Link.trained_lanes (k w : Nat) (x : Link) : (x.trained k w).lanes.length = x.lanes.length := by
  unfold Link.trained
  dsimp only
  split <;> exact List.length_map _

theorem State.trainLinks_evolves {r s : State} {tests} (h : Evolves r s) : Evolves r (State.trainLinks s tests) := by
  unfold State.trainLinks
  refine Evolves.foldl _ _ h fun x k q => Evolves.ite ?_ q
  split
  exact State.modLink_evolves (Evolves.of_pair ‹_› (State.trainGroup_evolves q)) fun _ => Link.trained_lanes _ _ _

theorem State.startStacks_evolves {r s : State} (h : Evolves r s) : Evolves r (State.startStacks s) :=
  h.trans { Evolves.refl s with hbm := List.length_mapIdx, stack := fun k => mapIdx_all k fun _ _ q => q.record }

theorem State.negotiate_evolves {r s : State} (h : Evolves r s) :
    Evolves r (State.negotiate s) := by
  unfold State.negotiate
  dsimp only
  split
  apply State.modLink_evolves
  apply Evolves.foldl
  apply Evolves.foldl
  assumption
  intro _
  intro _
  intro _
  apply Evolves.ite
  split
  apply State.modLink_evolves
  assumption
  exact fun _ => rfl
  apply State.holdProtocol_evolves
  assumption
  assumption
  intro _
  intro _
  intro _
  apply Evolves.ite
  split
  refine Evolves.record ?_ rfl rfl rfl rfl rfl rfl rfl
  assumption
  apply State.holdProtocol_evolves
  assumption
  assumption
  exact fun _ => rfl
  apply Evolves.foldl
  apply Evolves.foldl
  assumption
  intro _
  intro _
  intro _
  apply Evolves.ite
  split
  apply State.modLink_evolves
  assumption
  exact fun _ => rfl
  apply State.holdProtocol_evolves
  assumption
  assumption
  intro _
  intro _
  intro _
  apply Evolves.ite
  split
  refine Evolves.record ?_ rfl rfl rfl rfl rfl rfl rfl
  assumption
  apply State.holdProtocol_evolves
  assumption
  assumption

theorem State.bootSelfTest_evolves {r s : State} {cold rep} (h : Evolves r s) :
    Evolves r (State.bootSelfTest s cold rep) := by
  unfold State.bootSelfTest
  dsimp only
  apply Evolves.ite
  apply State.testBsus_evolves
  apply State.testBsus_evolves
  apply Evolves.ite
  apply State.testBeacon_evolves
  apply State.testShared_evolves
  apply State.testBanks_evolves
  apply State.testAllArrays_evolves
  assumption
  apply State.testAllArrays_evolves
  assumption
  apply State.testBsus_evolves
  apply Evolves.ite
  apply State.testBeacon_evolves
  apply State.testShared_evolves
  apply State.testBanks_evolves
  apply State.testAllArrays_evolves
  assumption
  apply State.testAllArrays_evolves
  assumption

theorem State.reportIds_evolves {r s : State} (h : Evolves r s) :
    Evolves r (State.reportIds s) := by
  unfold State.reportIds
  apply Evolves.foldl
  assumption
  intro _
  intro _
  intro _
  apply Evolves.ite
  apply State.raise_evolves
  apply State.newCascade_evolves
  assumption
  assumption

theorem State.bootComplete_evolves {r s : State} {b} (h : Evolves r s) :
    Evolves r (State.bootComplete s b) := by
  unfold State.bootComplete
  dsimp only
  apply Evolves.ite
  refine Evolves.record ?_ rfl rfl rfl rfl rfl rfl rfl
  assumption
  apply State.raise_evolves
  refine Evolves.record ?_ rfl rfl rfl rfl rfl rfl rfl
  assumption

theorem State.finishBoot_evolves {r s : State} {b rep} (h : Evolves r s) :
    Evolves r (State.finishBoot s b rep) := by
  unfold State.finishBoot
  dsimp only
  apply State.settleRestores_evolves
  apply State.inCascade_evolves
  apply State.bootComplete_evolves
  apply State.checkLinkCc_evolves
  apply State.checkDie_evolves
  apply State.checkDie_evolves
  apply State.inCascade_evolves
  apply State.startPorts_evolves
  refine Evolves.record ?_ rfl rfl rfl rfl rfl rfl rfl
  apply State.bootSelfTest_evolves
  apply State.reportIds_evolves
  apply State.linkRecords_evolves
  apply State.newCascade_evolves
  apply State.loadSweep_evolves
  apply State.takeArea_evolves
  apply State.loseUnhosted_evolves
  apply State.startStacks_evolves
  apply State.negotiate_evolves
  apply State.trainLinks_evolves
  apply State.lightDies_evolves
  apply State.loadFaultLog_evolves
  apply State.applyInterleave_evolves
  assumption

theorem execLinkTrainingComplete_evolves {r s : State} {rep} (h : Evolves r s) :
    OutEvolves r (execLinkTrainingComplete rep s) := by
  unfold execLinkTrainingComplete
  split
  apply OutEvolves.ite
  apply OutEvolves.next
  apply State.finishBoot_evolves
  assumption
  apply OutEvolves.next
  assumption
  apply OutEvolves.next
  assumption

theorem State.beginBoot_evolves {r s : State} {cause} (h : Evolves r s) :
    Evolves r (State.beginBoot s cause) := by
  unfold State.beginBoot
  dsimp only
  refine Evolves.record ?_ rfl rfl rfl rfl rfl rfl rfl
  assumption

theorem Stack.identify_shape {x : Stack} {offsets i} (h : x.Shape) :
    (Stack.identify offsets i x).Shape := by
  unfold Stack.identify
  dsimp only
  refine Stack.Shape.record ?_
  assumption

theorem State.identifyStacks_evolves {r s : State} {ids}
    (h : Evolves r s) : Evolves r (State.identifyStacks s ids) := by
  refine h.trans { Evolves.refl s with
    hbm := List.length_mapIdx, stack := fun k => mapIdx_all k fun _ _ q => ?_ }
  split
  · exact Stack.identify_shape q
  · exact q

theorem State.restoreHeaters_evolves {r s : State} {hs}
    (h : Evolves r s) : Evolves r (State.restoreHeaters s hs) := by
  have key : ∀ (l : List Link) (acc : List Link × List (BitVec 16)),
      (l.foldl (fun (acc : List Link × List (BitVec 16)) k =>
        (acc.1 ++ [{ k with lanes := k.lanes.mapIdx fun i l => { l with rings := l.rings.mapIdx fun j r =>
            { r with heater := (acc.2.take (k.lanes.map fun l => l.rings.length).sum).getD (5 * i + j) 0 } } }],
          acc.2.drop (k.lanes.map fun l => l.rings.length).sum)) acc).1.map (·.lanes.length) =
      acc.1.map (·.lanes.length) ++ l.map (·.lanes.length) := by
    intro l
    induction l with
    | nil => simp
    | cons k l ih =>
      intro acc
      rw [List.foldl_cons, ih]
      simp
  exact h.trans { Evolves.refl s with links := fun q => (key _ _).trans q }

theorem State.lampStarts_evolves {r s : State} (h : Evolves r s) :
    Evolves r (State.lampStarts s) := by
  unfold State.lampStarts
  refine Evolves.record ?_ rfl rfl rfl rfl rfl rfl rfl
  assumption

theorem State.sramTestFails_evolves {r s : State} (h : Evolves r s) :
    Evolves r (State.sramTestFails s) := by
  unfold State.sramTestFails
  refine Evolves.record ?_ rfl rfl rfl rfl rfl rfl rfl
  assumption

theorem execWake_evolves {r s : State} {rep} (h : Evolves r s) :
    OutEvolves r (execWake rep s) := by
  unfold execWake
  dsimp only
  apply OutEvolves.ite
  split
  apply OutEvolves.next
  refine Evolves.record ?_ rfl rfl rfl rfl rfl rfl rfl
  apply State.identifyStacks_evolves
  apply State.restoreHeaters_evolves
  apply State.lampStarts_evolves
  apply State.beginBoot_evolves
  apply State.pilotStart_evolves
  assumption
  apply OutEvolves.ite
  apply OutEvolves.next
  apply bootBundle_evolves
  apply State.loseSram_evolves
  apply State.beginBoot_evolves
  apply State.pilotStart_evolves
  assumption
  apply OutEvolves.next
  apply State.sramTestFails_evolves
  apply State.loseSram_evolves
  apply State.beginBoot_evolves
  apply State.pilotStart_evolves
  assumption
  apply OutEvolves.next
  assumption

theorem bitVec_and_or_absorb {w : Nat} (a b : BitVec w) : a &&& (a ||| b) = a := by
  apply BitVec.eq_of_getLsbD_eq
  intro i _
  rw [BitVec.getLsbD_and, BitVec.getLsbD_or]
  cases a.getLsbD i <;> rfl

theorem State.bundleGood_eventRing (s : State) (b : Boot) : (s.bundleGood b).flash.eventRing = s.flash.eventRing := by
  unfold State.bundleGood
  dsimp only
  split <;> rfl

theorem State.bundleGood_windows (s : State) (b : Boot) :
    (s.bundleGood b).flash.protection.windows = s.flash.protection.windows := by
  unfold State.bundleGood
  dsimp only
  split <;> rfl

theorem State.bundleGood_evolves {r s : State} {b} (h : Evolves r s) : Evolves r (State.bundleGood s b) :=
  h.trans { Evolves.refl s with
    fuses := ⟨rfl, Nat.le_max_left _ _, bitVec_and_or_absorb _ _, id⟩
    flashRing := fun q => by
      rw [State.bundleGood_eventRing]
      exact q
    windows := State.bundleGood_windows _ _ }

theorem execPartStartupPass_evolves {r s : State} {rep} (h : Evolves r s) :
    OutEvolves r (execPartStartupPass rep s) := by
  unfold execPartStartupPass
  split
  split
  apply OutEvolves.ite
  apply OutEvolves.next
  dsimp only
  refine Evolves.record ?_ rfl rfl rfl rfl rfl rfl rfl
  apply State.lampStarts_evolves
  assumption
  apply OutEvolves.next
  apply State.partFails_evolves
  assumption
  apply OutEvolves.next
  apply State.bundleGood_evolves
  apply State.identifyStacks_evolves
  assumption
  apply OutEvolves.next
  refine Evolves.record ?_ rfl rfl rfl rfl rfl rfl rfl
  assumption
  apply OutEvolves.next
  assumption
  apply OutEvolves.next
  assumption

/-! ### Mailbox -/

theorem State.placeResult_evolves {r s : State} {r' result} (h : Evolves r s) :
    Evolves r (State.placeResult s r' result).1 := by
  unfold State.placeResult
  dsimp only
  split
  dsimp only
  apply Evolves.ite
  assumption
  apply State.hostWrite_evolves
  assumption
  dsimp only
  assumption

theorem State.respondWith_evolves {r s : State} {n final st eventSeq result} (h : Evolves r s) :
    Evolves r (State.respondWith s n final st eventSeq result) := by
  unfold State.respondWith
  dsimp only
  split
  apply State.modMbox_evolves
  assumption
  apply State.signal_evolves
  apply State.modMbox_evolves
  apply State.placeResult_evolves
  assumption

theorem State.respond_evolves {r s : State} {n st result} (h : Evolves r s) :
    Evolves r (State.respond s n st result) := by
  unfold State.respond
  apply Evolves.ite
  dsimp only
  apply State.respondWith_evolves
  apply State.raise_evolves
  assumption
  apply State.respondWith_evolves
  assumption

theorem State.respondPending_evolves {r s : State} {n value} (h : Evolves r s) :
    Evolves r (State.respondPending s n value) := by
  unfold State.respondPending
  apply State.respondWith_evolves
  assumption

theorem execOwnerLockoutExpiry_evolves {r s : State} (h : Evolves r s) :
    OutEvolves r (execOwnerLockoutExpiry s) := by
  unfold execOwnerLockoutExpiry
  split
  apply OutEvolves.next
  dsimp only
  refine Evolves.record ?_ rfl rfl rfl rfl rfl rfl rfl
  apply State.advanceTo_evolves
  assumption
  apply OutEvolves.next
  assumption

theorem onMailbox_evolves {r s : State} {n} (h : Evolves r s) :
    OutEvolves r (onMailbox n s) := by
  unfold onMailbox
  apply OutEvolves.ite
  apply OutEvolves.next
  assumption
  exact OutEvolves.fault

theorem State.overrun_evolves {r s : State} (h : Evolves r s) :
    Evolves r (State.overrun s) := by
  unfold State.overrun
  refine Evolves.record ?_ rfl rfl rfl rfl rfl rfl rfl
  assumption

theorem State.authFailed_evolves {r s : State} (h : Evolves r s) :
    Evolves r (State.authFailed s) := by
  unfold State.authFailed
  dsimp only
  apply Evolves.ite
  apply State.inCascade_evolves
  apply State.raise_evolves
  apply State.newCascade_evolves
  refine Evolves.record ?_ rfl rfl rfl rfl rfl rfl rfl
  assumption
  refine Evolves.record ?_ rfl rfl rfl rfl rfl rfl rfl
  assumption

theorem State.checkRole_evolves {r s : State} {spec r'} (h : Evolves r s) :
    Evolves r (State.checkRole s spec r').1 := by
  unfold State.checkRole
  split
  dsimp only
  assumption
  split
  dsimp only
  assumption
  split
  dsimp only
  assumption
  split
  dsimp only
  assumption
  dsimp only
  apply State.authFailed_evolves
  assumption

theorem State.checks_evolves {r s : State} {n spec r'} (h : Evolves r s) :
    Evolves r (State.checks s n spec r').1 := by
  unfold State.checks
  split
  dsimp only
  assumption
  split
  split
  dsimp only
  refine Evolves.of_pair ‹_› ?_
  apply State.checkRole_evolves
  assumption
  split
  dsimp only
  refine Evolves.of_pair ‹_› ?_
  apply State.checkRole_evolves
  assumption
  split
  dsimp only
  refine Evolves.of_pair ‹_› ?_
  apply State.checkRole_evolves
  assumption
  split
  dsimp only
  refine Evolves.of_pair ‹_› ?_
  apply State.checkRole_evolves
  assumption
  split
  dsimp only
  refine Evolves.of_pair ‹_› ?_
  apply State.checkRole_evolves
  assumption
  split
  dsimp only
  refine Evolves.of_pair ‹_› ?_
  apply State.checkRole_evolves
  assumption
  dsimp only
  refine Evolves.of_pair ‹_› ?_
  apply State.checkRole_evolves
  assumption

theorem State.submit_evolves {r s : State} {n opcode r'} (h : Evolves r s) :
    Evolves r (State.submit s n opcode r') := by
  unfold State.submit
  apply State.modMbox_evolves
  refine Evolves.record ?_ rfl rfl rfl rfl rfl rfl rfl
  assumption

theorem State.refuseWith_evolves {r s : State} {n st result} (h : Evolves r s) :
    Evolves r (State.refuseWith s n st result) := by
  unfold State.refuseWith
  apply State.respond_evolves
  refine Evolves.record ?_ rfl rfl rfl rfl rfl rfl rfl
  assumption

theorem State.refuse_evolves {r s : State} {n st} (h : Evolves r s) :
    Evolves r (State.refuse s n st) := by
  unfold State.refuse
  apply State.refuseWith_evolves
  assumption

theorem State.command_evolves {r s : State} {n spec req body} (h : Evolves r s)
    (hb : ∀ y p, Evolves r y → Evolves r (body y p)) : Evolves r (State.command s n spec req body) := by
  unfold State.command
  apply Evolves.ite h
  apply Evolves.ite (State.overrun_evolves h)
  have k : Evolves r ((s.newCascade.submit n spec.opcode req).checks n spec req).1 :=
    State.checks_evolves (State.submit_evolves (State.newCascade_evolves h))
  dsimp only
  apply State.inCascade_evolves
  split
  · exact State.refuse_evolves k
  · exact hb _ _ k

theorem execBadOpcode_evolves {r s : State} {n opcode r'} (h : Evolves r s) :
    OutEvolves r (execBadOpcode n opcode r' s) := by
  unfold execBadOpcode
  apply onMailbox_evolves
  apply Evolves.ite
  assumption
  apply Evolves.ite
  apply State.overrun_evolves
  assumption
  apply State.refuse_evolves
  apply State.submit_evolves
  apply State.newCascade_evolves
  assumption

theorem execDoorbellOverrun_evolves {r s : State} {n} (h : Evolves r s) :
    OutEvolves r (execDoorbellOverrun n s) := by
  unfold execDoorbellOverrun
  apply onMailbox_evolves
  apply Evolves.ite
  apply State.overrun_evolves
  assumption
  assumption

/-! ### Commands -/

theorem State.sendHello_evolves {r s : State} {n} (h : Evolves r s) :
    Evolves r (State.sendHello s n) := by
  unfold State.sendHello
  apply Evolves.ite
  assumption
  apply State.sendOn_evolves
  apply State.modPort_evolves
  assumption
  exact fun _ k => k.record

theorem execQueryState_evolves {r s : State} {n r'} (h : Evolves r s) :
    OutEvolves r (execQueryState n r' s) := by
  unfold execQueryState
  apply onMailbox_evolves
  apply State.command_evolves
  assumption
  intro _
  intro _
  intro _
  apply State.respond_evolves
  assumption

theorem State.retireUnit_evolves {r s : State} {u} (h : Evolves r s) :
    Evolves r (State.retireUnit s u) := by
  unfold State.retireUnit
  split
  apply State.retireLane_evolves
  assumption
  apply State.retireLane_evolves
  assumption
  apply State.retireArray_evolves
  assumption
  apply State.retireTile_evolves
  assumption
  apply State.retireChannel_evolves
  assumption
  apply State.retireSharedPage_evolves
  assumption
  assumption
  assumption
  assumption
  assumption
  assumption
  assumption
  assumption
  assumption

theorem State.retireCommand_evolves {r s : State} {n action p} (h : Evolves r s) :
    Evolves r (State.retireCommand s n action p) := by
  unfold State.retireCommand
  dsimp only
  split
  apply State.refuse_evolves
  assumption
  apply Evolves.ite
  apply State.refuse_evolves
  assumption
  apply Evolves.ite
  apply Evolves.ite
  apply State.refuse_evolves
  assumption
  apply State.respond_evolves
  apply State.retireUnit_evolves
  assumption
  apply Evolves.ite
  apply State.refuse_evolves
  assumption
  apply State.respond_evolves
  apply State.raise_evolves
  apply State.logAppend_evolves
  assumption

theorem execRetireUnitRetire_evolves {r s : State} {n r'} (h : Evolves r s) :
    OutEvolves r (execRetireUnitRetire n r' s) := by
  unfold execRetireUnitRetire
  apply onMailbox_evolves
  apply State.command_evolves
  assumption
  intro _
  intro _
  intro _
  apply State.retireCommand_evolves
  assumption

theorem State.acknowledge_evolves {r s : State} {seq} (h : Evolves r s) : Evolves r (State.acknowledge s seq) := by
  have k : ∀ e : EventRecord, (if e.seq < seq then { e with acknowledged := true } else e).seq = e.seq := by
    intro e
    split <;> rfl
  exact h.trans { Evolves.refl s with ring := fun q => q.map k, flashRing := fun q => q.map k }

theorem execReadEvents_evolves {r s : State} {n r'} (h : Evolves r s) :
    OutEvolves r (execReadEvents n r' s) := by
  unfold execReadEvents
  apply onMailbox_evolves
  apply State.command_evolves
  assumption
  intro _
  intro _
  intro _
  dsimp only
  apply Evolves.ite
  apply State.refuse_evolves
  assumption
  apply State.respond_evolves
  apply Evolves.ite
  apply State.acknowledge_evolves
  assumption
  assumption

theorem State.finishSession_evolves {r s : State} (h : Evolves r s) :
    Evolves r (State.finishSession s) := by
  unfold State.finishSession
  split
  apply State.respond_evolves
  refine Evolves.record ?_ rfl rfl rfl rfl rfl rfl rfl
  assumption
  assumption

theorem State.checkHello_evolves {r s : State} (h : Evolves r s) :
    Evolves r (State.checkHello s) := by
  unfold State.checkHello
  apply Evolves.ite
  apply State.finishSession_evolves
  assumption
  assumption

theorem execOpenSession_evolves {r s : State} {n r'} (h : Evolves r s) :
    OutEvolves r (execOpenSession n r' s) := by
  unfold execOpenSession
  apply onMailbox_evolves
  apply State.command_evolves
  assumption
  intro _
  intro _
  intro _
  dsimp only
  apply Evolves.ite
  apply State.refuse_evolves
  assumption
  apply State.checkHello_evolves
  apply Evolves.foldl
  refine Evolves.record ?_ rfl rfl rfl rfl rfl rfl rfl
  apply State.unloadProgram_evolves
  assumption
  intro _
  intro _
  intro _
  apply State.sendHello_evolves
  assumption

theorem State.attached_evolves {r s : State} (h : Evolves r s) : Evolves r (State.attached s) :=
  h.trans { Evolves.refl s with dma := (List.length_map _).trans, mailboxes := (List.length_map _).trans }

theorem State.dropHeld_evolves {r s : State} {n} (h : Evolves r s) :
    Evolves r (State.dropHeld s n) := by
  unfold State.dropHeld
  apply State.modMbox_evolves
  assumption

theorem execAttach_evolves {r s : State} {n r'} (h : Evolves r s) :
    OutEvolves r (execAttach n r' s) := by
  unfold execAttach
  apply onMailbox_evolves
  apply State.command_evolves
  assumption
  intro _
  intro _
  intro _
  dsimp only
  apply State.respond_evolves
  apply State.attached_evolves
  apply State.dropHeld_evolves
  assumption

theorem execReadTelemetry_evolves {r s : State} {n r'} (h : Evolves r s) :
    OutEvolves r (execReadTelemetry n r' s) := by
  unfold execReadTelemetry
  apply onMailbox_evolves
  apply State.command_evolves
  assumption
  intro _
  intro _
  intro _
  dsimp only
  apply Evolves.ite
  apply State.refuse_evolves
  assumption
  apply State.respond_evolves
  refine Evolves.record ?_ rfl rfl rfl rfl rfl rfl rfl
  assumption

theorem execQueryIdentity_evolves {r s : State} {n r'} (h : Evolves r s) :
    OutEvolves r (execQueryIdentity n r' s) := by
  unfold execQueryIdentity
  apply onMailbox_evolves
  apply State.command_evolves
  assumption
  intro _
  intro _
  intro _
  apply State.respond_evolves
  assumption

theorem execSetCredential_evolves {r s : State} {n r'} (h : Evolves r s) :
    OutEvolves r (execSetCredential n r' s) := by
  unfold execSetCredential
  apply onMailbox_evolves
  apply State.command_evolves
  assumption
  intro _
  intro _
  intro _
  apply State.respond_evolves
  refine Evolves.record ?_ rfl rfl rfl rfl rfl rfl rfl
  assumption

theorem execAbortStep_evolves {r s : State} {n r'} (h : Evolves r s) :
    OutEvolves r (execAbortStep n r' s) := by
  unfold execAbortStep
  apply onMailbox_evolves
  apply State.command_evolves
  assumption
  intro _
  intro _
  intro _
  split
  apply State.refuse_evolves
  assumption
  apply Evolves.ite
  apply State.refuse_evolves
  assumption
  apply Evolves.ite
  apply State.respond_evolves
  assumption
  apply State.respond_evolves
  apply State.abortStep_evolves
  assumption

theorem execDrain_evolves {r s : State} {n r'} (h : Evolves r s) :
    OutEvolves r (execDrain n r' s) := by
  unfold execDrain
  apply onMailbox_evolves
  apply State.command_evolves
  assumption
  intro _
  intro _
  intro _
  dsimp only
  apply Evolves.ite
  apply State.refuse_evolves
  assumption
  apply Evolves.ite
  apply Evolves.ite
  apply State.respond_evolves
  apply State.respondPending_evolves
  assumption
  apply State.respond_evolves
  refine Evolves.record ?_ rfl rfl rfl rfl rfl rfl rfl
  apply State.respondPending_evolves
  assumption
  apply State.respondPending_evolves
  refine Evolves.record ?_ rfl rfl rfl rfl rfl rfl rfl
  assumption

theorem execResume_evolves {r s : State} {n r'} (h : Evolves r s) :
    OutEvolves r (execResume n r' s) := by
  unfold execResume
  apply onMailbox_evolves
  apply State.command_evolves
  assumption
  intro _
  intro _
  intro _
  apply Evolves.ite
  apply State.respond_evolves
  refine Evolves.record ?_ rfl rfl rfl rfl rfl rfl rfl
  assumption
  apply State.refuse_evolves
  assumption

theorem State.selfTestLane_evolves {r s : State} {tests r'} (h : Evolves r s) :
    Evolves r (State.selfTestLane s tests r') := by
  unfold State.selfTestLane
  dsimp only
  apply Evolves.ite
  apply Evolves.ite
  apply State.logAppend_evolves
  apply State.modLane_evolves
  apply State.modLane_evolves
  assumption
  apply State.modLane_evolves
  assumption
  assumption

theorem State.runSelfTest_evolves {r s : State} {scope rep} (h : Evolves r s) :
    Evolves r (State.runSelfTest s scope rep) := by
  unfold State.runSelfTest
  dsimp only
  apply State.serviceNow_evolves
  apply State.advanceTo_evolves
  apply Evolves.ite
  apply State.testBsus_evolves
  apply Evolves.ite
  apply State.testBanks_evolves
  apply Evolves.foldl
  apply Evolves.ite
  apply State.testAllArrays_evolves
  apply Evolves.ite
  apply Evolves.foldl
  assumption
  intro _
  intro _
  intro _
  apply State.selfTestLane_evolves
  assumption
  assumption
  apply Evolves.ite
  apply Evolves.foldl
  assumption
  intro _
  intro _
  intro _
  apply State.selfTestLane_evolves
  assumption
  assumption
  intro _
  intro _
  intro _
  apply State.scramble_evolves
  assumption
  apply Evolves.ite
  apply State.testAllArrays_evolves
  apply Evolves.ite
  apply Evolves.foldl
  assumption
  intro _
  intro _
  intro _
  apply State.selfTestLane_evolves
  assumption
  assumption
  apply Evolves.ite
  apply Evolves.foldl
  assumption
  intro _
  intro _
  intro _
  apply State.selfTestLane_evolves
  assumption
  assumption
  apply Evolves.ite
  apply State.testBanks_evolves
  apply Evolves.foldl
  apply Evolves.ite
  apply State.testAllArrays_evolves
  apply Evolves.ite
  apply Evolves.foldl
  assumption
  intro _
  intro _
  intro _
  apply State.selfTestLane_evolves
  assumption
  assumption
  apply Evolves.ite
  apply Evolves.foldl
  assumption
  intro _
  intro _
  intro _
  apply State.selfTestLane_evolves
  assumption
  assumption
  intro _
  intro _
  intro _
  apply State.scramble_evolves
  assumption
  apply Evolves.ite
  apply State.testAllArrays_evolves
  apply Evolves.ite
  apply Evolves.foldl
  assumption
  intro _
  intro _
  intro _
  apply State.selfTestLane_evolves
  assumption
  assumption
  apply Evolves.ite
  apply Evolves.foldl
  assumption
  intro _
  intro _
  intro _
  apply State.selfTestLane_evolves
  assumption
  assumption

theorem execSelfTest_evolves {r s : State} {n r' rep} (h : Evolves r s) :
    OutEvolves r (execSelfTest n r' rep s) := by
  unfold execSelfTest
  apply onMailbox_evolves
  apply State.command_evolves
  assumption
  intro _
  intro _
  intro _
  dsimp only
  apply Evolves.ite
  apply State.refuse_evolves
  assumption
  apply State.respond_evolves
  apply State.runSelfTest_evolves
  apply State.respondPending_evolves
  assumption

theorem execRetireUnitRestore_evolves {r s : State} {n r'} (h : Evolves r s) :
    OutEvolves r (execRetireUnitRestore n r' s) := by
  unfold execRetireUnitRestore
  apply onMailbox_evolves
  apply State.command_evolves
  assumption
  intro _
  intro _
  intro _
  apply State.retireCommand_evolves
  assumption

theorem execResetDevice_evolves {r s : State} {n r'} (h : Evolves r s) :
    OutEvolves r (execResetDevice n r' s) := by
  unfold execResetDevice
  apply onMailbox_evolves
  apply State.command_evolves
  assumption
  intro _
  intro _
  intro _
  apply State.resetDevice_evolves
  apply State.respond_evolves
  assumption

theorem execOpenSessionHelloTimeout_evolves {r s : State} (h : Evolves r s) :
    OutEvolves r (execOpenSessionHelloTimeout s) := by
  unfold execOpenSessionHelloTimeout
  apply OutEvolves.next
  apply State.finishSession_evolves
  assumption

/-! ### Protection -/

theorem State.switchPorts_evolves {r s : State} {mode} (h : Evolves r s) : Evolves r (State.switchPorts s mode) := by
  refine h.trans { Evolves.refl s with
    ports := List.length_mapIdx.trans, port := fun k => mapIdx_all k fun _ _ q => ?_ }
  split
  · exact q
  · exact q.record

theorem State.setPolicy_evolves {r s : State} {p} (h : Evolves r s) : Evolves r (State.setPolicy s p) := by
  refine State.switchPorts_evolves (h.trans { Evolves.refl s with
    hbm := List.length_map _, stack := fun k => map_all k fun _ q => q.record })

theorem State.newProtection_evolves {r s : State} {p} (h : Evolves r s)
    (k : p.windows = s.flash.protection.windows) : Evolves r (State.newProtection s p) :=
  Evolves.record h rfl rfl rfl rfl rfl rfl k

theorem State.newProtection_changes {s : State} {p} : Changes s (State.newProtection s p) :=
  { Evolves.refl s with }

theorem execSetProtection_changes {r s : State} {n q} (h : Evolves r s) : OutChanges r (execSetProtection n q s) := by
  have key : Changes r (s.command n specSetProtection q fun t p =>
      (let wc := field p 0 2
      let kc := field p 2 2
      if 64 < wc ∨ 16 < kc ∨ field p 4 4 ≠ 0 ∨ p.length ≠ 8 + 32 * wc + 8 * kc then t.refuse n .badField
      else
        match windowsOf p wc with
        | none => t.refuse n .badField
        | some ws =>
          let keys := keysOf p wc kc
          let sessionKey := match t.topo with
            | some d => keys.contains (BitVec.ofNat 64 d.key)
            | none => true
          if !noPair (fun a b => overlaps a.base a.size b.base b.size) ws || keys.contains 0 || !noPair (· == ·) keys ||
              !sessionKey then t.refuse n .badField
          else
            let u := t.newProtection { t.flash.protection with windows := ws, keys := keys }
            u.respond n .ok (leBytes 8 u.flash.protection.epoch))) := by
    unfold State.command
    dsimp only
    split
    · exact h.toChanges
    · split
      · exact (State.overrun_evolves h).toChanges
      · have k : Evolves r ((s.newCascade.submit n specSetProtection.opcode q).checks n specSetProtection q).1 :=
          State.checks_evolves (State.submit_evolves (State.newCascade_evolves h))
        refine Changes.trans ?_ (State.inCascade_evolves (Evolves.refl _)).toChanges
        split
        · exact (State.refuse_evolves k).toChanges
        · split
          · exact (State.refuse_evolves k).toChanges
          · split
            · exact (State.refuse_evolves k).toChanges
            · generalize (match State.topo _ with
                | some d => (keysOf _ _ _).contains (BitVec.ofNat 64 d.key)
                | none => true) = b
              split
              · exact (State.refuse_evolves k).toChanges
              · exact (k.toChanges.trans State.newProtection_changes).trans (State.respond_evolves (Evolves.refl _)).toChanges
  unfold execSetProtection onMailbox
  split
  · exact key
  · trivial

theorem execSetPolicy_evolves {r s : State} {n r'} (h : Evolves r s) :
    OutEvolves r (execSetPolicy n r' s) := by
  unfold execSetPolicy
  apply onMailbox_evolves
  apply State.command_evolves
  assumption
  intro _
  intro _
  intro _
  split
  apply State.refuse_evolves
  assumption
  split
  apply State.refuse_evolves
  assumption
  apply Evolves.ite
  apply State.respond_evolves
  apply State.setPolicy_evolves
  assumption
  apply State.refuse_evolves
  assumption

theorem execMapRegion_evolves {r s : State} {n r'} (h : Evolves r s) :
    OutEvolves r (execMapRegion n r' s) := by
  unfold execMapRegion
  apply onMailbox_evolves
  apply State.command_evolves
  assumption
  intro _
  intro _
  intro _
  dsimp only
  apply Evolves.ite
  apply State.refuse_evolves
  assumption
  split
  apply State.refuse_evolves
  assumption
  apply Evolves.ite
  apply State.refuse_evolves
  assumption
  apply Evolves.ite
  apply State.refuse_evolves
  assumption
  apply State.respond_evolves
  apply State.newProtection_evolves
  assumption
  rfl

/-! ### Bundles -/

theorem State.startStaging_evolves {r s : State} {count}
    (h : Evolves r s) : Evolves r (State.startStaging s count).1 :=
  Evolves.record h rfl rfl Flash.setSlot_eventRing rfl rfl rfl Flash.setSlot_windows

theorem State.writeBlock_evolves {r s : State} {b} (h : Evolves r s) :
    Evolves r (State.writeBlock s b) := by
  unfold State.writeBlock
  refine Evolves.record ?_ rfl rfl rfl rfl rfl rfl rfl
  assumption

theorem State.finishStaging_evolves {r s : State} {n cancelled} (h : Evolves r s) :
    Evolves r (State.finishStaging s n cancelled) := by
  unfold State.finishStaging
  dsimp only
  split <;> exact State.respond_evolves (Evolves.record h rfl rfl Flash.setSlot_eventRing rfl rfl rfl Flash.setSlot_windows)

theorem State.stageBlock_evolves {r s : State} {n index count crc b} (h : Evolves r s) :
    Evolves r (State.stageBlock s n index count crc b) := by
  unfold State.stageBlock
  split
  apply Evolves.ite
  apply State.respond_evolves
  refine Evolves.record ?_ rfl rfl rfl rfl rfl rfl rfl
  refine Evolves.of_pair ‹_› ?_
  split
  apply State.startStaging_evolves
  assumption
  dsimp only
  assumption
  apply Evolves.ite
  apply State.respond_evolves
  refine Evolves.record ?_ rfl rfl rfl rfl rfl rfl rfl
  refine Evolves.of_pair ‹_› ?_
  split
  apply State.startStaging_evolves
  assumption
  dsimp only
  assumption
  dsimp only
  apply Evolves.ite
  apply State.finishStaging_evolves
  apply State.respondPending_evolves
  apply State.writeBlock_evolves
  refine Evolves.of_pair ‹_› ?_
  split
  apply State.startStaging_evolves
  assumption
  dsimp only
  assumption
  apply State.respond_evolves
  apply State.writeBlock_evolves
  refine Evolves.of_pair ‹_› ?_
  split
  apply State.startStaging_evolves
  assumption
  dsimp only
  assumption

theorem State.setActivation_evolves {r s : State} {k} (h : Evolves r s) :
    Evolves r (State.setActivation s k) := by
  unfold State.setActivation
  refine Evolves.record ?_ rfl rfl rfl rfl rfl rfl rfl
  assumption

theorem execActivateBundleCancel_evolves {r s : State} {n r'} (h : Evolves r s) :
    OutEvolves r (execActivateBundleCancel n r' s) := by
  unfold execActivateBundleCancel
  apply onMailbox_evolves
  apply State.command_evolves
  assumption
  intro _
  intro _
  intro _
  apply Evolves.ite
  apply State.refuse_evolves
  assumption
  apply State.respond_evolves
  apply State.setActivation_evolves
  assumption

theorem execActivateBundle_evolves {r s : State} {n r'} (h : Evolves r s) :
    OutEvolves r (execActivateBundle n r' s) := by
  unfold execActivateBundle
  apply onMailbox_evolves
  apply State.command_evolves
  assumption
  intro _
  intro _
  intro _
  split
  apply State.refuse_evolves
  assumption
  dsimp only
  apply Evolves.ite
  apply State.refuse_evolves
  assumption
  apply Evolves.ite
  apply State.refuse_evolves
  assumption
  apply Evolves.ite
  apply State.refuse_evolves
  assumption
  apply State.respond_evolves
  apply State.setActivation_evolves
  assumption

theorem execStageBundle_evolves {r s : State} {n r'} (h : Evolves r s) :
    OutEvolves r (execStageBundle n r' s) := by
  unfold execStageBundle
  apply onMailbox_evolves
  apply State.command_evolves
  assumption
  intro _
  intro _
  intro _
  dsimp only
  apply Evolves.ite
  apply State.refuse_evolves
  assumption
  apply Evolves.ite
  apply State.refuse_evolves
  assumption
  split
  apply State.refuse_evolves
  assumption
  apply State.stageBlock_evolves
  assumption

theorem execAttest_evolves {r s : State} {n r'} (h : Evolves r s) :
    OutEvolves r (execAttest n r' s) := by
  unfold execAttest
  apply onMailbox_evolves
  apply State.command_evolves
  assumption
  intro _
  intro _
  intro _
  apply Evolves.ite
  apply State.refuse_evolves
  assumption
  dsimp only
  apply State.respond_evolves
  refine Evolves.record ?_ rfl rfl rfl rfl rfl rfl rfl
  assumption

end Sys2Proof.Machine
end

