-- ==== Sys2Proof/Laws/EvolvesG.lean ====
section
/-! SUPPORT. What each operation and each command of these files of Machine/ keeps: Control, Load, Font, Issue,
Fabric, RunStep, Stats, Sweep. -/

namespace Sys2Proof.Machine

open Sys2Proof

/-! ### Control -/

theorem State.seqRow_evolves {r s : State} {d p ok f} (h : Evolves r s) (hf : ∀ x, Evolves r x → Evolves r (f x)) :
    OutEvolves r (State.seqRow s d p ok f) := by
  unfold State.seqRow
  apply OutEvolves.ite
  · exact OutEvolves.next (Evolves.ite (hf s h) h)
  · exact OutEvolves.fault

theorem execJump_evolves {r s : State} {d p imm} (h : Evolves r s) :
    OutEvolves r (execJump d p imm s) := by
  unfold execJump
  apply State.seqRow_evolves
  assumption
  intro _
  intro _
  apply State.gotoBundle_evolves
  assumption

theorem State.opSignal_evolves {r s : State} {d p counter scope target inc} (h : Evolves r s) :
    Evolves r (State.opSignal s d p counter scope target inc) := by
  unfold State.opSignal
  split
  assumption
  dsimp only
  apply Evolves.ite
  refine Evolves.record ?_ rfl rfl rfl rfl rfl rfl rfl
  assumption
  apply State.sendEvent_evolves
  assumption
  intro _
  intro _
  intro _
  refine Evolves.record ?_ rfl rfl rfl rfl rfl rfl rfl
  assumption

theorem execSignal_evolves {r s : State} {d p counter scope target increment} (h : Evolves r s) :
    OutEvolves r (execSignal d p counter scope target increment s) := by
  unfold execSignal
  apply OutEvolves.ite
  dsimp only
  apply OutEvolves.next
  apply Evolves.ite
  apply State.opSignal_evolves
  assumption
  assumption
  exact OutEvolves.fault

theorem State.waitConsume_evolves {r s : State} {d p counter threshold consume} (h : Evolves r s) :
    Evolves r (State.waitConsume s d p counter threshold consume) := by
  unfold State.waitConsume
  refine Evolves.ite (State.modTile_evolves h fun _ k => ?_) h
  exact { k with
    counters := (modAt_length _ _ _).trans k.counters
    bound := modAt_all _ k.bound fun _ q => Nat.le_trans (Nat.sub_le _ _) q }

theorem State.opBarrier_evolves {r s : State} {d p id} (h : Evolves r s) : Evolves r (State.opBarrier s d p id) := by
  unfold State.opBarrier
  refine Evolves.ite (State.progFault_evolves h) (State.blockOn_evolves ?_)
  exact h.trans { Evolves.refl s with barriers := (modAt_length _ _ _).trans }

theorem State.opFence_evolves {r s : State} {d p scopes} (h : Evolves r s) :
    Evolves r (State.opFence s d p scopes) := by
  unfold State.opFence
  apply Evolves.ite
  assumption
  apply State.blockOn_evolves
  assumption

theorem State.opHalt_evolves {r s : State} {d p} (h : Evolves r s) :
    Evolves r (State.opHalt s d p) := by
  unfold State.opHalt
  apply State.blockOn_evolves
  assumption

theorem State.askBsu_evolves {r s : State} {st ch} (h : Evolves r s) :
    Evolves r (State.askBsu s st ch) := by
  unfold State.askBsu
  apply State.modBsu_evolves
  assumption
  intro _
  intro _
  split
  refine Bsu.Shape.record ?_
  assumption
  assumption

theorem State.hint_evolves {r s : State} {d f} (h : Evolves r s) :
    Evolves r (State.hint s d f) := by
  unfold State.hint
  split
  split
  apply State.askLight_evolves
  assumption
  assumption
  apply State.askBsu_evolves
  assumption
  apply Evolves.foldl
  assumption
  intro _
  intro _
  intro _
  apply State.askBsu_evolves
  assumption
  assumption

theorem State.nextOf_evolves {r s : State} {d p} (h : Evolves r s) :
    Evolves r (State.nextOf s d p) := by
  unfold State.nextOf
  apply State.gotoBundle_evolves
  assumption

theorem Context.setLoop_shape {x : Context} {n f}
    (h : x.Shape) : Context.Shape { x with loops := modAt x.loops n f } :=
  ⟨(modAt_length _ _ _).trans h.loops, h.params⟩

theorem State.loopFrom_evolves {r s : State} {d p reg count} (h : Evolves r s) :
    Evolves r (State.loopFrom s d p reg count) := by
  unfold State.loopFrom
  refine Evolves.ite (State.progFault_evolves h) (Evolves.ite (State.progFault_evolves h) (State.nextOf_evolves ?_))
  exact State.modCtx_evolves h fun _ => Context.setLoop_shape

theorem State.loopBack_evolves {r s : State} {d p reg} (h : Evolves r s) : Evolves r (State.loopBack s d p reg) := by
  have k : ∀ f, Evolves r (s.modCtx d p (s.tile d p).running fun x => { x with loops := modAt x.loops reg f }) :=
    fun _ => State.modCtx_evolves h fun _ => Context.setLoop_shape
  unfold State.loopBack
  exact Evolves.ite (State.progFault_evolves h)
    (Evolves.ite (State.nextOf_evolves (k _)) (State.gotoBundle_evolves (k _)))

theorem State.setParam_evolves {r s : State} {d p reg v}
    (h : Evolves r s) : Evolves r (State.setParam s d p reg v) := by
  unfold State.setParam
  apply State.nextOf_evolves
  exact State.modCtx_evolves h fun _ k => ⟨k.loops, (modAt_length _ _ _).trans k.params⟩

theorem State.paramAdd_evolves {r s : State} {d p reg imm} (h : Evolves r s) :
    Evolves r (State.paramAdd s d p reg imm) := by
  unfold State.paramAdd
  apply State.setParam_evolves
  assumption

theorem State.jumpGe_evolves {r s : State} {d p reg imm} (h : Evolves r s) :
    Evolves r (State.jumpGe s d p reg imm) := by
  unfold State.jumpGe
  apply Evolves.ite
  apply State.gotoBundle_evolves
  assumption
  apply State.nextOf_evolves
  assumption

theorem State.sequence_evolves {r s : State} {d p f} (h : Evolves r s) :
    Evolves r (State.sequence s d p f) := by
  unfold State.sequence
  split
  apply State.nextOf_evolves
  assumption
  apply State.loopFrom_evolves
  assumption
  apply State.loopFrom_evolves
  assumption
  apply State.loopBack_evolves
  assumption
  apply State.gotoBundle_evolves
  assumption
  apply State.segmentTo_evolves
  assumption
  apply State.paramAdd_evolves
  assumption
  apply State.setParam_evolves
  assumption
  apply State.jumpGe_evolves
  assumption
  assumption

theorem execSegment_evolves {r s : State} {d p imm} (h : Evolves r s) :
    OutEvolves r (execSegment d p imm s) := by
  unfold execSegment
  apply State.seqRow_evolves
  assumption
  intro _
  intro _
  apply State.segmentTo_evolves
  assumption

theorem execPset_evolves {r s : State} {d p reg imm} (h : Evolves r s) :
    OutEvolves r (execPset d p reg imm s) := by
  unfold execPset
  apply State.seqRow_evolves
  assumption
  intro _
  intro _
  apply State.setParam_evolves
  assumption

theorem execSignalArrival_evolves {r s : State} {fromDie fromPos toDie toPos counter} (h : Evolves r s) :
    OutEvolves r (execSignalArrival fromDie fromPos toDie toPos counter s) := by
  unfold execSignalArrival
  apply OutEvolves.ite
  dsimp only
  split
  apply OutEvolves.next
  assumption
  apply OutEvolves.ite
  apply OutEvolves.next
  assumption
  apply OutEvolves.next
  apply State.bump_evolves
  refine Evolves.record ?_ rfl rfl rfl rfl rfl rfl rfl
  assumption
  exact OutEvolves.fault

theorem State.segmentLoaded_evolves {r s : State} {d p l rest} (h : Evolves r s) :
    Evolves r (State.segmentLoaded s d p l rest) := by
  unfold State.segmentLoaded
  dsimp only
  split
  apply State.refill_evolves
  apply State.modTile_evolves
  apply State.modSlot_evolves
  assumption
  exact fun _ k => k.record
  split
  apply State.unblock_evolves
  apply State.prefetch_evolves
  apply State.refill_evolves
  apply State.modTile_evolves
  apply State.modSlot_evolves
  assumption
  exact fun _ k => k.record
  apply State.prefetch_evolves
  apply State.refill_evolves
  apply State.modTile_evolves
  apply State.modSlot_evolves
  assumption
  exact fun _ k => k.record
  apply State.prefetch_evolves
  apply State.refill_evolves
  apply State.modTile_evolves
  apply State.modSlot_evolves
  assumption
  exact fun _ k => k.record
  apply State.prefetch_evolves
  apply State.refill_evolves
  apply State.modTile_evolves
  apply State.modSlot_evolves
  assumption
  exact fun _ k => k.record
  apply State.prefetch_evolves
  apply State.refill_evolves
  apply State.modTile_evolves
  apply State.modSlot_evolves
  assumption
  exact fun _ k => k.record
  apply State.prefetch_evolves
  apply State.refill_evolves
  apply State.modTile_evolves
  apply State.modSlot_evolves
  assumption
  exact fun _ k => k.record

theorem execFence_evolves {r s : State} {d p scopes} (h : Evolves r s) :
    OutEvolves r (execFence d p scopes s) := by
  unfold execFence
  apply OutEvolves.ite
  apply OutEvolves.next
  apply Evolves.ite
  apply State.opFence_evolves
  assumption
  assumption
  exact OutEvolves.fault

theorem execSegmentLoadComplete_evolves {r s : State} {d p} (h : Evolves r s) :
    OutEvolves r (execSegmentLoadComplete d p s) := by
  unfold execSegmentLoadComplete
  apply OutEvolves.ite
  split
  apply OutEvolves.next
  assumption
  apply OutEvolves.next
  apply Evolves.ite
  apply State.segmentLoaded_evolves
  assumption
  assumption
  exact OutEvolves.fault

theorem execLoopEnd_evolves {r s : State} {d p reg} (h : Evolves r s) :
    OutEvolves r (execLoopEnd d p reg s) := by
  unfold execLoopEnd
  apply State.seqRow_evolves
  assumption
  intro _
  intro _
  apply State.loopBack_evolves
  assumption

theorem execLoopBeginP_evolves {r s : State} {d p reg imm} (h : Evolves r s) :
    OutEvolves r (execLoopBeginP d p reg imm s) := by
  unfold execLoopBeginP
  apply State.seqRow_evolves
  assumption
  intro _
  intro _
  apply State.loopFrom_evolves
  assumption

theorem execControlNop_evolves {r s : State} {d p} (h : Evolves r s) :
    OutEvolves r (execControlNop d p s) := by
  unfold execControlNop
  apply OutEvolves.ite
  apply OutEvolves.next
  assumption
  exact OutEvolves.fault

theorem execNextBundle_evolves {r s : State} {d p} (h : Evolves r s) :
    OutEvolves r (execNextBundle d p s) := by
  unfold execNextBundle
  apply State.seqRow_evolves
  assumption
  intro _
  intro _
  apply State.nextOf_evolves
  assumption

theorem execHalt_evolves {r s : State} {d p} (h : Evolves r s) :
    OutEvolves r (execHalt d p s) := by
  unfold execHalt
  apply OutEvolves.ite
  apply OutEvolves.next
  apply Evolves.ite
  apply State.opHalt_evolves
  assumption
  assumption
  exact OutEvolves.fault

theorem execLoopBegin_evolves {r s : State} {d p reg imm} (h : Evolves r s) :
    OutEvolves r (execLoopBegin d p reg imm s) := by
  unfold execLoopBegin
  apply State.seqRow_evolves
  assumption
  intro _
  intro _
  apply State.loopFrom_evolves
  assumption

theorem execContextSwitchComplete_evolves {r s : State} {d p} (h : Evolves r s) :
    OutEvolves r (execContextSwitchComplete d p s) := by
  unfold execContextSwitchComplete
  apply OutEvolves.ite
  split
  apply OutEvolves.next
  assumption
  dsimp only
  apply OutEvolves.next
  apply State.settle_evolves
  apply State.modTile_evolves
  apply State.advanceTo_evolves
  assumption
  exact fun _ k => k.record
  exact OutEvolves.fault

theorem execTileIdleDark_evolves {r s : State} {d p} (h : Evolves r s) :
    OutEvolves r (execTileIdleDark d p s) := by
  unfold execTileIdleDark
  apply OutEvolves.ite
  dsimp only
  apply OutEvolves.ite
  apply OutEvolves.next
  apply State.modTile_evolves
  apply State.advanceTo_evolves
  assumption
  exact fun _ k => k.record
  apply OutEvolves.next
  assumption
  exact OutEvolves.fault

theorem State.opWait_evolves {r s : State} {d p counter threshold consume} (h : Evolves r s) :
    Evolves r (State.opWait s d p counter threshold consume) := by
  unfold State.opWait
  apply Evolves.ite
  apply State.waitConsume_evolves
  assumption
  apply State.blockOn_evolves
  assumption

theorem execWait_evolves {r s : State} {d p counter threshold consume} (h : Evolves r s) :
    OutEvolves r (execWait d p counter threshold consume s) := by
  unfold execWait
  apply OutEvolves.ite
  apply OutEvolves.next
  apply Evolves.ite
  apply State.opWait_evolves
  assumption
  assumption
  exact OutEvolves.fault

theorem execYieldPoint_evolves {r s : State} {d p} (h : Evolves r s) :
    OutEvolves r (execYieldPoint d p s) := by
  unfold execYieldPoint
  apply OutEvolves.ite
  apply OutEvolves.next
  apply Evolves.ite
  apply State.yieldNow_evolves
  assumption
  assumption
  exact OutEvolves.fault

theorem execBarrier_evolves {r s : State} {d p id} (h : Evolves r s) :
    OutEvolves r (execBarrier d p id s) := by
  unfold execBarrier
  apply OutEvolves.ite
  apply OutEvolves.next
  apply Evolves.ite
  apply State.opBarrier_evolves
  assumption
  assumption
  exact OutEvolves.fault

theorem State.openBarrier_evolves {r s : State} {id} (h : Evolves r s) : Evolves r (State.openBarrier s id) := by
  refine Evolves.foldl _ _ ?_ fun _ _ q => State.settle_evolves (State.askLight_evolves q)
  exact h.trans { Evolves.refl s with barriers := (modAt_length _ _ _).trans }

theorem execBarrierOpen_evolves {r s : State} {id} (h : Evolves r s) :
    OutEvolves r (execBarrierOpen id s) := by
  unfold execBarrierOpen
  apply OutEvolves.ite
  dsimp only
  apply OutEvolves.next
  apply Evolves.ite
  apply State.openBarrier_evolves
  assumption
  assumption
  exact OutEvolves.fault

theorem execFenceComplete_evolves {r s : State} {d p ctx} (h : Evolves r s) :
    OutEvolves r (execFenceComplete d p ctx s) := by
  unfold execFenceComplete
  apply OutEvolves.ite
  dsimp only
  split
  apply OutEvolves.next
  apply Evolves.ite
  apply State.unblock_evolves
  assumption
  assumption
  apply OutEvolves.next
  assumption
  apply OutEvolves.next
  assumption
  apply OutEvolves.next
  assumption
  apply OutEvolves.next
  assumption
  apply OutEvolves.next
  assumption
  exact OutEvolves.fault

theorem execPadd_evolves {r s : State} {d p reg imm} (h : Evolves r s) :
    OutEvolves r (execPadd d p reg imm s) := by
  unfold execPadd
  apply State.seqRow_evolves
  assumption
  intro _
  intro _
  apply State.paramAdd_evolves
  assumption

theorem execJumpIfGe_evolves {r s : State} {d p reg imm} (h : Evolves r s) :
    OutEvolves r (execJumpIfGe d p reg imm s) := by
  unfold execJumpIfGe
  apply State.seqRow_evolves
  assumption
  intro _
  intro _
  apply State.jumpGe_evolves
  assumption

theorem execTileLit_evolves {r s : State} {d p} (h : Evolves r s) :
    OutEvolves r (execTileLit d p s) := by
  unfold execTileLit
  apply OutEvolves.ite
  dsimp only
  apply OutEvolves.ite
  apply OutEvolves.next
  apply State.settle_evolves
  apply State.modTile_evolves
  assumption
  exact fun _ k => k.record
  apply OutEvolves.next
  assumption
  exact OutEvolves.fault

/-! ### Load -/

theorem State.zeroPieces_evolves {r s : State} {l} (h : Evolves r s) :
    Evolves r (State.zeroPieces s l) := by
  unfold State.zeroPieces
  apply Evolves.foldl
  assumption
  intro _
  intro _
  intro _
  apply State.writeDev_evolves
  assumption

theorem State.readImage_evolves {r s : State} {a size ecc} (h : Evolves r s) :
    Evolves r (State.readImage s a size ecc).1 := by
  unfold State.readImage
  split
  dsimp only
  assumption
  split
  dsimp only
  refine Evolves.of_pair ‹_› ?_
  apply State.serveRead_evolves
  assumption
  dsimp only
  refine Evolves.of_pair ‹_› ?_
  apply State.serveRead_evolves
  assumption

theorem State.formMap_evolves {r s : State} {g} (h : Evolves r s) : Evolves r (State.formMap s g) :=
  h.trans { Evolves.refl s with
    tiles := List.length_mapIdx, tile := fun k => mapIdx_all k fun _ _ q => q.record }

theorem State.clearPadding_evolves {r s : State} {g} (h : Evolves r s) :
    Evolves r (State.clearPadding s g) := by
  unfold State.clearPadding
  split
  assumption
  dsimp only
  apply State.zeroPieces_evolves
  assumption

theorem State.clearGradients_evolves {r s : State} {g} (h : Evolves r s) :
    Evolves r (State.clearGradients s g) := by
  unfold State.clearGradients
  split
  assumption
  dsimp only
  apply State.zeroPieces_evolves
  assumption

theorem State.install_evolves {r s : State} {g} (h : Evolves r s) : Evolves r (State.install s g).1 := by
  have k := State.mapBsus_evolves (f := Bsu.leaveUpdate s.now) h fun _ => Bsu.leaveUpdate_shape
  unfold State.install
  dsimp only
  apply State.adoptArea_evolves
  apply State.clearPadding_evolves
  apply State.clearGradients_evolves
  refine Evolves.record ?_ rfl rfl rfl rfl rfl rfl rfl
  apply State.writeCopies_evolves
  apply State.formMap_evolves
  exact Evolves.record k rfl rfl rfl rfl rfl rfl rfl

theorem State.loadImage_evolves {r s : State} {n a size ecc} (h : Evolves r s) :
    Evolves r (State.loadImage s n a size ecc) := by
  unfold State.loadImage
  split
  split
  apply State.refuseWith_evolves
  assumption
  split
  apply State.respond_evolves
  refine Evolves.of_pair ‹_› ?_
  apply State.install_evolves
  apply State.respondPending_evolves
  refine Evolves.of_pair ‹_› ?_
  apply State.readImage_evolves
  assumption

theorem execLoadProgram_evolves {r s : State} {n r' ecc} (h : Evolves r s) :
    OutEvolves r (execLoadProgram n r' ecc s) := by
  unfold execLoadProgram
  apply onMailbox_evolves
  apply State.command_evolves
  assumption
  intro _
  intro _
  intro _
  dsimp only
  apply Evolves.ite
  apply State.loadImage_evolves
  assumption
  apply State.refuse_evolves
  assumption

/-! ### Font -/

theorem State.stashFull_evolves {r s : State} {g i n} (h : Evolves r s) :
    Evolves r (State.stashFull s g i n) := by
  unfold State.stashFull
  dsimp only
  apply State.abortStep_evolves
  apply State.newCascade_evolves
  apply State.modFont_evolves
  assumption

theorem State.writeGates_evolves {r s : State} {g d} (h : Evolves r s) :
    Evolves r (State.writeGates s g d) := by
  unfold State.writeGates
  apply Evolves.foldl
  assumption
  intro _
  intro _
  intro _
  apply Evolves.foldl
  assumption
  intro _
  intro _
  intro _
  dsimp only
  apply Evolves.foldl
  assumption
  intro _
  intro _
  intro _
  apply State.tmWrite_evolves
  assumption

theorem Placing.step_evolves {r : State} {hd e i n size} {x : Placing} (h : Evolves r x.s) :
    Evolves r (x.step hd e i n size).s := by
  have k : Evolves r (x.s.modFont e.die fun f => { f with demand := f.demand + size }) := State.modFont_evolves h
  unfold Placing.step
  dsimp only
  split
  · exact k
  · split
    · exact State.modFont_evolves k
    · exact k

theorem State.placeAll_evolves {r s : State} {g hd counts mb} (h : Evolves r s) :
    Evolves r (s.placeAll g hd counts mb).s := by
  unfold State.placeAll
  refine foldl_keep (fun x : Placing => Evolves r x.s) h fun x _ k => ?_
  exact foldl_keep (fun x : Placing => Evolves r x.s) k fun _ _ => Placing.step_evolves

theorem State.placeFont_evolves {r s : State} {counts mb} (h : Evolves r s) :
    Evolves r (State.placeFont s counts mb) := by
  unfold State.placeFont
  split
  · exact h
  · split
    · exact h
    · dsimp only
      split
      · exact State.stashFull_evolves (Evolves.record (State.placeAll_evolves h) rfl rfl rfl rfl rfl rfl rfl)
      · refine State.writeGates_evolves (State.writeGates_evolves ?_)
        exact Evolves.record (State.placeAll_evolves h) rfl rfl rfl rfl rfl rfl rfl

/-! ### Issue -/

theorem State.bundleConsumes_evolves {r s : State} {d p b} (h : Evolves r s) :
    Evolves r (State.bundleConsumes s d p b) := by
  unfold State.bundleConsumes
  split
  apply State.waitConsume_evolves
  assumption
  assumption
  assumption
  assumption
  assumption
  assumption
  assumption
  assumption
  assumption

theorem State.goOn_evolves {r s : State} {f} (h : Evolves r s) (hf : ∀ x, Evolves r x → Evolves r (f x)) :
    Evolves r (State.goOn s f) := by
  unfold State.goOn
  exact Evolves.ite h (hf s h)

theorem State.bundleArith_evolves {r s : State} {d p b ecc} (h : Evolves r s) :
    Evolves r (State.bundleArith s d p b ecc) := by
  unfold State.bundleArith
  dsimp only
  split
  apply State.goOn_evolves
  split
  apply State.issueArray_evolves
  assumption
  assumption
  intro _
  intro _
  apply State.issueVector_evolves
  assumption
  split
  apply State.issueArray_evolves
  assumption
  assumption

theorem State.bundleControl_evolves {r s : State} {d p b} (h : Evolves r s) :
    Evolves r (State.bundleControl s d p b) := by
  unfold State.bundleControl
  split
  assumption
  assumption
  assumption
  apply State.opSignal_evolves
  assumption
  apply State.opBarrier_evolves
  assumption
  apply State.issueXfer_evolves
  assumption
  apply State.opColl_evolves
  assumption
  apply State.opFence_evolves
  assumption
  apply State.opHalt_evolves
  assumption

theorem State.bundleSequence_evolves {r s : State} {d p b} (h : Evolves r s) :
    Evolves r (State.bundleSequence s d p b) := by
  unfold State.bundleSequence
  dsimp only
  split
  apply State.hint_evolves
  assumption
  apply State.goOn_evolves
  apply State.sequence_evolves
  apply State.hint_evolves
  assumption
  intro _
  intro _
  apply State.yieldNow_evolves
  assumption
  apply State.sequence_evolves
  apply State.hint_evolves
  assumption
  apply State.sequence_evolves
  apply State.hint_evolves
  assumption
  apply State.sequence_evolves
  apply State.hint_evolves
  assumption
  apply State.sequence_evolves
  apply State.hint_evolves
  assumption
  apply State.sequence_evolves
  apply State.hint_evolves
  assumption
  apply State.sequence_evolves
  apply State.hint_evolves
  assumption
  apply State.sequence_evolves
  apply State.hint_evolves
  assumption

theorem State.bundleIssues_evolves {r s : State} {d p b ecc} (h : Evolves r s) :
    Evolves r (State.bundleIssues s d p b ecc) := by
  unfold State.bundleIssues
  dsimp only
  apply State.goOn_evolves
  apply State.goOn_evolves
  apply State.goOn_evolves
  apply State.goOn_evolves
  apply State.bundleArith_evolves
  apply State.bundleConsumes_evolves
  apply State.modTile_evolves
  assumption
  exact fun _ k => k.record
  intro _
  intro _
  apply State.streamSlotOp_evolves
  assumption
  intro _
  intro _
  apply State.streamSlotOp_evolves
  assumption
  intro _
  intro _
  apply State.bundleControl_evolves
  assumption
  intro _
  intro _
  apply State.bundleSequence_evolves
  assumption

theorem State.bundleBlocks_evolves {r s : State} {d p b} (h : Evolves r s) :
    Evolves r (State.bundleBlocks s d p b) := by
  unfold State.bundleBlocks
  split
  apply State.blockOn_evolves
  assumption
  assumption
  assumption
  assumption
  assumption
  assumption
  assumption
  assumption
  assumption

theorem State.tryBundle_evolves {r s : State} {d p b ecc} (h : Evolves r s) :
    Evolves r (State.tryBundle s d p b ecc) := by
  unfold State.tryBundle
  apply Evolves.ite
  apply State.bundleBlocks_evolves
  assumption
  apply Evolves.ite
  apply State.issueHold_evolves
  assumption
  apply State.bundleIssues_evolves
  assumption

theorem execBundleIssue_evolves {r s : State} {d p ecc} (h : Evolves r s) :
    OutEvolves r (execBundleIssue d p ecc s) := by
  unfold execBundleIssue
  apply OutEvolves.ite
  apply OutEvolves.next
  apply Evolves.ite
  split
  apply State.tryBundle_evolves
  assumption
  assumption
  assumption
  exact OutEvolves.fault

/-! ### Fabric -/

theorem State.takeAbort_evolves {r s : State} {port p} (h : Evolves r s) :
    Evolves r (State.takeAbort s port p) := by
  unfold State.takeAbort
  dsimp only
  apply Evolves.ite
  assumption
  apply Evolves.ite
  apply State.abortBy_evolves
  apply State.newCascade_evolves
  refine Evolves.record ?_ rfl rfl rfl rfl rfl rfl rfl
  apply State.sendAborts_evolves
  refine Evolves.record ?_ rfl rfl rfl rfl rfl rfl rfl
  assumption
  apply State.sendAborts_evolves
  refine Evolves.record ?_ rfl rfl rfl rfl rfl rfl rfl
  assumption

theorem State.answer_evolves {r s : State} {ptype reason p} (h : Evolves r s) :
    Evolves r (State.answer s ptype reason p) := by
  unfold State.answer
  dsimp only
  apply State.route_evolves
  assumption

theorem State.nack_evolves {r s : State} {reason p} (h : Evolves r s) :
    Evolves r (State.nack s reason p) := by
  unfold State.nack
  apply State.answer_evolves
  assumption

theorem State.letIn_evolves {r s : State} {n p} (h : Evolves r s) :
    Evolves r (State.letIn s n p).1 := by
  unfold State.letIn
  split
  dsimp only
  apply Evolves.ite
  apply State.nack_evolves
  apply State.modPort_evolves
  assumption
  exact fun _ k => k.record
  apply State.modPort_evolves
  assumption
  exact fun _ k => k.record
  split
  dsimp only
  apply State.nack_evolves
  apply State.modPort_evolves
  assumption
  exact fun _ k => k.record
  dsimp only
  apply State.modPort_evolves
  assumption
  exact fun _ k => k.record

theorem State.freed_evolves {r s : State} {n p} (h : Evolves r s) :
    Evolves r (State.freed s n p) := by
  unfold State.freed
  apply State.modPort_evolves
  assumption
  exact fun _ k => k.record

theorem State.packetRow_evolves {r s : State} {n p ptype f} (h : Evolves r s)
    (hf : ∀ x, Evolves r x → Evolves r (f x)) : OutEvolves r (State.packetRow s n p ptype f) := by
  unfold State.packetRow
  refine OutEvolves.ite (OutEvolves.next (Evolves.ite ?_ h)) OutEvolves.fault
  have k := State.letIn_evolves (n := n) (p := p) (State.freed_evolves (n := n) (p := p) h)
  split
  · exact hf _ (Evolves.of_pair ‹_› k)
  · exact Evolves.of_pair ‹_› k

theorem execNackReceive_evolves {r s : State} {port pkt} (h : Evolves r s) :
    OutEvolves r (execNackReceive port pkt s) := by
  unfold execNackReceive
  apply State.packetRow_evolves
  assumption
  intro _
  intro _
  apply Evolves.ite
  apply State.fabricFails_evolves
  assumption
  assumption

theorem State.putWrite_evolves {r s : State} {a bs ecc} (h : Evolves r s) :
    Evolves r (State.putWrite s a bs ecc).1 := by
  unfold State.putWrite
  split
  dsimp only
  apply State.countDenial_evolves
  assumption
  apply State.serveWrite_evolves
  assumption

theorem State.holdEarly_evolves {r s : State} {port p} (h : Evolves r s) :
    Evolves r (State.holdEarly s port p) := by
  unfold State.holdEarly
  apply Evolves.ite
  assumption
  refine Evolves.record ?_ rfl rfl rfl rfl rfl rfl rfl
  assumption

theorem State.collPacket_evolves {r s : State} {port p} (h : Evolves r s) :
    Evolves r (State.collPacket s port p) := by
  unfold State.collPacket
  split
  apply State.nack_evolves
  apply State.modPort_evolves
  assumption
  exact fun _ k => k.record
  apply State.holdEarly_evolves
  assumption
  split
  apply State.takeColl_evolves
  assumption
  apply Evolves.ite
  assumption
  apply State.holdEarly_evolves
  assumption

theorem execCollFlagReceive_evolves {r s : State} {port pkt} (h : Evolves r s) :
    OutEvolves r (execCollFlagReceive port pkt s) := by
  unfold execCollFlagReceive
  apply State.packetRow_evolves
  assumption
  intro _
  intro _
  apply State.collPacket_evolves
  assumption

theorem State.forward_evolves {r s : State} {p} (h : Evolves r s) :
    Evolves r (State.forward s p) := by
  unfold State.forward
  split
  assumption
  split
  apply State.nack_evolves
  assumption
  apply State.nack_evolves
  assumption
  apply State.modPort_evolves
  apply State.sendOn_evolves
  assumption
  exact fun _ k => k.record
  apply State.modPort_evolves
  apply State.sendOn_evolves
  assumption
  exact fun _ k => k.record
  apply State.modPort_evolves
  apply State.sendOn_evolves
  assumption
  exact fun _ k => k.record
  apply State.modPort_evolves
  apply State.sendOn_evolves
  assumption
  exact fun _ k => k.record
  apply State.modPort_evolves
  apply State.sendOn_evolves
  assumption
  exact fun _ k => k.record
  apply State.modPort_evolves
  apply State.sendOn_evolves
  assumption
  exact fun _ k => k.record

theorem execPacketForward_evolves {r s : State} {port pkt} (h : Evolves r s) :
    OutEvolves r (execPacketForward port pkt s) := by
  unfold execPacketForward
  apply OutEvolves.ite
  apply OutEvolves.next
  apply Evolves.ite
  dsimp only
  apply Evolves.ite
  apply State.forward_evolves
  apply State.freed_evolves
  assumption
  apply Evolves.ite
  apply State.nack_evolves
  apply State.modPort_evolves
  apply State.freed_evolves
  assumption
  exact fun _ k => k.record
  apply State.modPort_evolves
  apply State.freed_evolves
  assumption
  exact fun _ k => k.record
  assumption
  exact OutEvolves.fault

theorem execPutReceive_evolves {r s : State} {port pkt ecc} (h : Evolves r s) :
    OutEvolves r (execPutReceive port pkt ecc s) := by
  unfold execPutReceive
  apply State.packetRow_evolves
  assumption
  intro _
  intro _
  split
  apply State.nack_evolves
  refine Evolves.of_pair ‹_› ?_
  apply State.unwire_evolves
  assumption
  split
  apply State.nack_evolves
  refine Evolves.of_pair ‹_› ?_
  apply State.putWrite_evolves
  refine Evolves.of_pair ‹_› ?_
  apply State.unwire_evolves
  assumption
  apply State.answer_evolves
  refine Evolves.of_pair ‹_› ?_
  apply State.putWrite_evolves
  refine Evolves.of_pair ‹_› ?_
  apply State.unwire_evolves
  assumption

theorem execPacketAckReceive_evolves {r s : State} {port pkt} (h : Evolves r s) :
    OutEvolves r (execPacketAckReceive port pkt s) := by
  unfold execPacketAckReceive
  apply State.packetRow_evolves
  assumption
  intro _
  intro _
  dsimp only
  split
  assumption
  apply Evolves.ite
  apply State.finishInst_evolves
  apply State.modInst_evolves
  assumption
  apply State.modInst_evolves
  assumption

theorem execCollDataReceive_evolves {r s : State} {port pkt} (h : Evolves r s) :
    OutEvolves r (execCollDataReceive port pkt s) := by
  unfold execCollDataReceive
  apply State.packetRow_evolves
  assumption
  intro _
  intro _
  apply State.collPacket_evolves
  assumption

theorem execAbortReceive_evolves {r s : State} {port pkt} (h : Evolves r s) :
    OutEvolves r (execAbortReceive port pkt s) := by
  unfold execAbortReceive
  apply State.packetRow_evolves
  assumption
  intro _
  intro _
  apply State.takeAbort_evolves
  assumption

theorem execPutTimeout_evolves {r s : State} {msgId} (h : Evolves r s) :
    OutEvolves r (execPutTimeout msgId s) := by
  unfold execPutTimeout
  split
  apply OutEvolves.next
  assumption
  apply OutEvolves.ite
  apply OutEvolves.next
  apply State.fabricFails_evolves
  apply State.advanceTo_evolves
  assumption
  apply OutEvolves.next
  assumption

/-! ### RunStep -/

theorem State.notCurrent_evolves {r s : State} (h : Evolves r s) :
    Evolves r (State.notCurrent s) := by
  unfold State.notCurrent
  refine Evolves.record ?_ rfl rfl rfl rfl rfl rfl rfl
  assumption

theorem State.setPhase_evolves {r s : State} {p} (h : Evolves r s) :
    Evolves r (State.setPhase s p) := by
  unfold State.setPhase
  refine Evolves.record ?_ rfl rfl rfl rfl rfl rfl rfl
  assumption

theorem State.lightTiles_evolves {r s : State} (h : Evolves r s) :
    Evolves r (State.lightTiles s) := by
  unfold State.lightTiles
  apply Evolves.foldl
  assumption
  intro _
  intro _
  intro _
  apply Evolves.foldl
  assumption
  intro _
  intro _
  intro _
  apply State.askLight_evolves
  assumption

theorem State.placeStep_evolves {r s : State} (h : Evolves r s) :
    Evolves r (State.placeStep s) := by
  unfold State.placeStep
  split
  assumption
  apply State.placeFont_evolves
  apply State.setPhase_evolves
  apply State.lightTiles_evolves
  assumption

theorem State.retakeMb_evolves {r s : State} {g} (h : Evolves r s) :
    Evolves r (State.retakeMb s g) := by
  unfold State.retakeMb
  refine Evolves.record ?_ rfl rfl rfl rfl rfl rfl rfl
  assumption

theorem execStepOpenComplete_evolves {r s : State} (h : Evolves r s) :
    OutEvolves r (execStepOpenComplete s) := by
  unfold execStepOpenComplete
  split
  apply OutEvolves.ite
  dsimp only
  apply OutEvolves.next
  apply Evolves.ite
  apply State.placeStep_evolves
  apply State.retakeMb_evolves
  apply State.resolveDoubt_evolves
  apply State.endUpdate_evolves
  assumption
  apply State.notCurrent_evolves
  apply State.resolveDoubt_evolves
  apply State.endUpdate_evolves
  assumption
  apply OutEvolves.next
  assumption
  apply OutEvolves.next
  assumption

theorem Bsu.newStep_shape {x : Bsu} (h : x.Shape) : (Bsu.newStep x).Shape := ⟨List.length_mapIdx.trans h.slots⟩

theorem State.loadPieces_evolves {r s : State} {d p l}
    (h : Evolves r s) : Evolves r (State.loadPieces s d p l).1 := by
  induction l generalizing s with
  | nil => exact h
  | cons a l ih =>
    obtain ⟨a, n⟩ := a
    have k := State.serveRead_evolves (a := a) (n := n) (ecc := []) h
    unfold State.loadPieces
    split
    · exact ih (Evolves.of_pair ‹_› k)
    · dsimp only
      exact State.streamFails_evolves (State.modSlot_evolves (Evolves.of_pair ‹_› k))

theorem State.loadSegment_evolves {r s : State} {d p segments n} (h : Evolves r s) :
    Evolves r (State.loadSegment s d p segments n).1 := by
  unfold State.loadSegment
  split
  split
  dsimp only
  refine Evolves.of_pair ‹_› ?_
  apply State.loadPieces_evolves
  assumption
  dsimp only
  assumption

theorem Context.atStart_shape {x : Context} {used n entry mb k} (h : x.Shape) :
    (Context.atStart x used n entry mb k).Shape := by
  unfold Context.atStart
  split
  · exact ⟨rfl, rfl⟩
  · exact h.record

theorem Tile.atStart_shape {x : Tile} {used mb k entry b0 b1} (h : x.Shape) :
    (Tile.atStart x used mb k entry b0 b1).Shape where
  contexts := List.length_mapIdx.trans h.contexts
  context := mapIdx_all h.context fun _ _ => Context.atStart_shape
  counters := List.length_replicate
  bound := fun v hv => by
    obtain ⟨-, rfl⟩ := List.mem_replicate.mp hv
    exact Nat.zero_le _
  slots := rfl

theorem State.startTile_evolves {r s : State} {g k mb d p} (h : Evolves r s) :
    Evolves r (State.startTile s g k mb d p) := by
  unfold State.startTile
  split
  assumption
  split
  split
  dsimp only
  apply State.tmWrite_evolves
  apply State.tmWrite_evolves
  apply State.tmWrite_evolves
  apply State.modTile_evolves
  refine Evolves.of_pair ‹_› ?_
  apply State.loadSegment_evolves
  refine Evolves.of_pair ‹_› ?_
  apply State.loadSegment_evolves
  assumption
  intro _
  intro _
  apply Tile.atStart_shape
  assumption

theorem State.clearNoise_evolves {r s : State} (h : Evolves r s) :
    Evolves r (State.clearNoise s) := by
  unfold State.clearNoise
  apply Evolves.foldl
  assumption
  intro _
  intro _
  intro _
  apply Evolves.ite
  apply State.tmWrite_evolves
  assumption
  assumption

theorem State.startTiles_evolves {r s : State} {g k mb} (h : Evolves r s) :
    Evolves r (State.startTiles s g k mb) := by
  unfold State.startTiles
  dsimp only
  apply State.clearNoise_evolves
  apply Evolves.foldl
  assumption
  intro _
  intro _
  intro _
  apply Evolves.foldl
  assumption
  intro _
  intro _
  intro _
  apply State.startTile_evolves
  assumption

theorem execStepComputeStart_evolves {r s : State} (h : Evolves r s) :
    OutEvolves r (execStepComputeStart s) := by
  unfold execStepComputeStart
  split
  apply OutEvolves.ite
  dsimp only
  apply OutEvolves.next
  refine Evolves.record ?_ rfl rfl rfl rfl rfl rfl rfl
  apply State.startTiles_evolves
  assumption
  apply OutEvolves.next
  assumption
  apply OutEvolves.next
  assumption

theorem Tile.newStep_shape {x : Tile} (h : x.Shape) : (Tile.newStep x).Shape :=
  { h with
    contexts := (List.length_map _).trans h.contexts
    context := map_all h.context fun _ q => q.record
    slots := rfl }

theorem State.refuseStep_evolves {r s : State} {n k check st} (h : Evolves r s) :
    Evolves r (State.refuseStep s n k check st) := by
  unfold State.refuseStep
  dsimp only
  apply Evolves.ite
  apply State.sendAborts_evolves
  refine Evolves.record ?_ rfl rfl rfl rfl rfl rfl rfl
  apply State.refuseWith_evolves
  assumption
  apply State.refuseWith_evolves
  assumption

theorem State.lateToken_evolves {r s : State} {t} (h : Evolves r s) :
    Evolves r (State.lateToken s t) := by
  unfold State.lateToken
  dsimp only
  apply State.abortBy_evolves
  apply State.newCascade_evolves
  refine Evolves.record ?_ rfl rfl rfl rfl rfl rfl rfl
  assumption

theorem State.stepEntered_evolves {r s : State} {dev : DevState} {session : Option Session} {run : Option RunStep}
    {stopped : Bool} {fonts : List Font} {stateBlock : StateBlock} {sweep : Sweep} {beacon : Beacon} (h : Evolves r s) :
    Evolves r { s with
      dev := dev, session := session, run := run, stopped := stopped, fonts := fonts, stateBlock := stateBlock
      sweep := sweep, tiles := s.tiles.map Tile.newStep
      hbm := s.hbm.map fun h => { h with bsus := h.bsus.map Bsu.newStep }
      beacon := beacon, barriers := s.barriers.map fun b => { id := b.id } } :=
  h.trans { Evolves.refl s with
    tiles := List.length_map _, tile := fun q => map_all q fun _ => Tile.newStep_shape
    hbm := List.length_map _, stack := fun q => map_all q fun _ z => Stack.mapBsus_shape z fun _ => Bsu.newStep_shape
    barriers := (List.length_map _).trans }

theorem State.enterStep_evolves {r s : State} {n k m named lr g} (h : Evolves r s) :
    Evolves r (State.enterStep s n k m named lr g) := by
  unfold State.enterStep
  apply State.formMap_evolves
  apply State.stepEntered_evolves
  exact State.traceStep_evolves (State.respondPending_evolves (Evolves.ite (State.readEpoch_evolves h) h))

theorem State.runStep_evolves {r s : State} {n k mb lr} (h : Evolves r s) :
    Evolves r (State.runStep s n k mb lr) := by
  unfold State.runStep
  split
  apply State.refuseStep_evolves
  assumption
  assumption
  dsimp only
  split
  apply State.lateToken_evolves
  apply State.enterStep_evolves
  assumption
  apply Evolves.ite
  apply State.issueUpdate_evolves
  apply State.enterStep_evolves
  assumption
  apply State.placeStep_evolves
  apply State.enterStep_evolves
  assumption

theorem execRunStep_evolves {r s : State} {n r'} (h : Evolves r s) :
    OutEvolves r (execRunStep n r' s) := by
  unfold execRunStep
  apply onMailbox_evolves
  apply State.command_evolves
  assumption
  intro _
  intro _
  intro _
  apply Evolves.ite
  apply State.runStep_evolves
  assumption
  apply State.refuse_evolves
  assumption

/-! ### Stats -/

theorem Bsu.ranPart_shape {x : Bsu} {bytes} (h : x.Shape) :
    (Bsu.ranPart bytes x).Shape := by
  unfold Bsu.ranPart
  refine Bsu.Shape.record ?_
  assumption

theorem State.countParts_evolves {r s : State} {l} (h : Evolves r s) :
    Evolves r (State.countParts s l) := by
  unfold State.countParts
  apply Evolves.foldl
  assumption
  intro _
  intro _
  intro _
  apply State.modBsu_evolves
  assumption
  intro _
  intro _
  apply Bsu.ranPart_shape
  assumption

theorem State.putFp32_evolves {r s : State} {t shift i v} (h : Evolves r s) :
    Evolves r (State.putFp32 s t shift i v) := by
  unfold State.putFp32
  apply State.writeTensor_evolves
  assumption

theorem State.scaleGrad_evolves {r s : State} {g h' r'} (h : Evolves r s) :
    Evolves r (State.scaleGrad s g h' r') := by
  unfold State.scaleGrad
  dsimp only
  apply Evolves.foldl
  assumption
  intro _
  intro _
  intro _
  apply State.putFp32_evolves
  assumption

/-! ### Sweep -/

theorem putWord_evolves {r a v x} (h : Evolves r x.1) :
    Evolves r (putWord x a v).1 := by
  unfold putWord
  dsimp only
  apply State.writeDev_evolves
  assumption

theorem State.sweepElem_evolves {r g h' r' y rows cols mean e x} (h : Evolves r x.1) :
    Evolves r (State.sweepElem g h' r' y rows cols mean x e).1 := by
  unfold State.sweepElem
  dsimp only
  apply State.writeDev_evolves
  apply State.writeDev_evolves
  split
  dsimp only
  apply State.writeDev_evolves
  apply putWord_evolves
  split
  apply putWord_evolves
  assumption
  assumption
  apply putWord_evolves
  split
  apply putWord_evolves
  assumption
  assumption

theorem State.sweepRecord_evolves {r g p factor r' st x} (h : Evolves r x.1) :
    Evolves r (State.sweepRecord g p factor x r' st).1 := by
  unfold State.sweepRecord
  dsimp only
  split
  assumption
  apply Evolves.foldl_fst
  apply Evolves.foldl_fst
  assumption
  intro _
  intro _
  intro _
  apply putWord_evolves
  assumption
  intro _
  intro _
  intro _
  apply State.sweepElem_evolves
  assumption

theorem State.zeroTensor_evolves {r s : State} {t} (h : Evolves r s) :
    Evolves r (State.zeroTensor s t) := by
  unfold State.zeroTensor
  apply State.zeroPieces_evolves
  assumption

theorem State.sweepG4e_evolves {r g p factor e x} (h : Evolves r x.1) :
    Evolves r (State.sweepG4e g p factor x e).1 := by
  unfold State.sweepG4e
  split
  split
  dsimp only
  apply State.takeFree_evolves
  apply State.zeroTensor_evolves
  apply State.zeroTensor_evolves
  apply Evolves.ite
  apply State.writeTensor_evolves
  apply Evolves.foldl
  apply Evolves.foldl
  assumption
  intro _
  intro _
  intro _
  apply State.putFp32_evolves
  assumption
  intro _
  intro _
  intro _
  apply State.putFp32_evolves
  assumption
  apply State.writeTensor_evolves
  apply State.writeTensor_evolves
  apply Evolves.foldl
  apply Evolves.foldl
  assumption
  intro _
  intro _
  intro _
  apply State.putFp32_evolves
  assumption
  intro _
  intro _
  intro _
  apply State.putFp32_evolves
  assumption

theorem State.sweepAll_evolves {r s : State} {g p r'} (h : Evolves r s) :
    Evolves r (State.sweepAll s g p r').1 := by
  unfold State.sweepAll
  dsimp only
  apply Evolves.foldl_fst
  dsimp only
  apply Evolves.foldl_fst
  dsimp only
  assumption
  intro _
  intro _
  intro _
  apply State.sweepRecord_evolves
  assumption
  intro _
  intro _
  intro _
  apply State.sweepG4e_evolves
  assumption

end Sys2Proof.Machine
end

