-- ==== Sys2Proof/Laws/EvolvesH.lean ====
section
/-! SUPPORT. What each operation and each command of these files of Machine/ keeps: Update, HostIf, Thermal. -/

namespace Sys2Proof.Machine

open Sys2Proof

/-! ### Update -/

theorem State.answerStep_evolves {r s : State} {r'} (h : Evolves r s) :
    Evolves r (State.answerStep s r') := by
  unfold State.answerStep
  split
  apply State.respond_evolves
  apply State.traceStep_evolves
  assumption

theorem State.leaveStep_evolves {r s : State} (h : Evolves r s) :
    Evolves r (State.leaveStep s) := by
  unfold State.leaveStep
  dsimp only
  split
  apply State.respond_evolves
  refine Evolves.record ?_ rfl rfl rfl rfl rfl rfl rfl
  assumption
  apply State.respond_evolves
  refine Evolves.record ?_ rfl rfl rfl rfl rfl rfl rfl
  assumption
  refine Evolves.record ?_ rfl rfl rfl rfl rfl rfl rfl
  assumption

theorem State.startClear_evolves {r s : State} (h : Evolves r s) :
    Evolves r (State.startClear s) := by
  unfold State.startClear
  split
  apply State.startUpdateOp_evolves
  assumption
  assumption

theorem State.endStep_evolves {r s : State} {r'} (h : Evolves r s) :
    Evolves r (State.endStep s r') := by
  unfold State.endStep
  dsimp only
  apply State.inCascade_evolves
  apply State.applyService_evolves
  apply State.leaveStep_evolves
  apply State.inCascade_evolves
  apply Evolves.ite
  apply State.startClear_evolves
  refine Evolves.record ?_ rfl rfl rfl rfl rfl rfl rfl
  apply State.answerStep_evolves
  apply State.inCascade_evolves
  apply Evolves.ite
  apply State.flip_evolves
  assumption
  assumption
  refine Evolves.record ?_ rfl rfl rfl rfl rfl rfl rfl
  apply State.answerStep_evolves
  apply State.inCascade_evolves
  apply Evolves.ite
  apply State.flip_evolves
  assumption
  assumption

theorem execStepEnd_evolves {r s : State} (h : Evolves r s) :
    OutEvolves r (execStepEnd s) := by
  unfold execStepEnd
  split
  apply OutEvolves.next
  assumption
  apply OutEvolves.next
  apply Evolves.ite
  apply State.endStep_evolves
  assumption
  assumption

theorem State.exportIdle_evolves {r s : State} (h : Evolves r s) :
    Evolves r (State.exportIdle s) := by
  unfold State.exportIdle
  refine Evolves.record ?_ rfl rfl rfl rfl rfl rfl rfl
  assumption

theorem State.startSweep_evolves {r s : State} (h : Evolves r s) :
    Evolves r (State.startSweep s) := by
  unfold State.startSweep
  split
  dsimp only
  apply State.startUpdateOp_evolves
  apply State.startUpdateOp_evolves
  assumption
  assumption

theorem State.exportsDone_evolves {r s : State} (h : Evolves r s) :
    Evolves r (State.exportsDone s) := by
  unfold State.exportsDone
  dsimp only
  apply Evolves.ite
  split
  apply State.startSweep_evolves
  refine Evolves.record ?_ rfl rfl rfl rfl rfl rfl rfl
  apply State.exportIdle_evolves
  assumption
  apply State.exportIdle_evolves
  assumption
  apply State.exportIdle_evolves
  assumption

theorem State.exportFails_evolves {r s : State} {st ch reason} (h : Evolves r s) :
    Evolves r (State.exportFails s st ch reason) := by
  unfold State.exportFails
  dsimp only
  apply State.raise_evolves
  apply State.newCascade_evolves
  apply State.exportsDone_evolves
  apply State.popExport_evolves
  apply State.modBsu_evolves
  assumption
  exact fun _ k => k.record

theorem State.castVote_evolves {r s : State} {vote digest} (h : Evolves r s) :
    Evolves r (State.castVote s vote digest) := by
  unfold State.castVote
  split
  assumption
  dsimp only
  apply State.issueUpdate_evolves
  refine Evolves.record ?_ rfl rfl rfl rfl rfl rfl rfl
  apply State.writePrepared_evolves
  assumption

theorem State.finishSweep_evolves {r s : State} {g p r'} (h : Evolves r s) :
    Evolves r (State.finishSweep s g p r') := by
  unfold State.finishSweep
  dsimp only
  apply Evolves.ite
  apply State.issueUpdate_evolves
  apply State.setPhase_evolves
  refine Evolves.record ?_ rfl rfl rfl rfl rfl rfl rfl
  apply State.sweepAll_evolves
  apply State.endUpdateOp_evolves
  apply State.countParts_evolves
  apply State.countParts_evolves
  assumption
  apply State.castVote_evolves
  refine Evolves.record ?_ rfl rfl rfl rfl rfl rfl rfl
  apply State.sweepAll_evolves
  apply State.endUpdateOp_evolves
  apply State.countParts_evolves
  apply State.countParts_evolves
  assumption

theorem State.countStatsRing_evolves {r s : State} {g h'} (h : Evolves r s) :
    Evolves r (State.countStatsRing s g h') := by
  unfold State.countStatsRing
  dsimp only
  apply Evolves.foldl
  apply Evolves.foldl
  assumption
  intro _
  intro _
  intro _
  apply Evolves.foldl
  assumption
  intro _
  intro _
  intro _
  apply Evolves.ite
  apply State.modBsu_evolves
  assumption
  exact fun _ k => k.record
  assumption
  intro _
  intro _
  intro _
  apply Evolves.foldl
  assumption
  intro _
  intro _
  intro _
  apply Evolves.foldl
  assumption
  intro _
  intro _
  intro _
  apply Evolves.ite
  apply State.modBsu_evolves
  assumption
  exact fun _ k => k.record
  assumption

theorem State.formStats_evolves {r s : State} {g h'} (h : Evolves r s) :
    Evolves r (State.formStats s g h') := by
  unfold State.formStats
  dsimp only
  apply State.issueUpdate_evolves
  apply State.startUpdateOp_evolves
  refine Evolves.record ?_ rfl rfl rfl rfl rfl rfl rfl
  apply State.countStatsRing_evolves
  apply State.countParts_evolves
  apply State.countParts_evolves
  apply Evolves.foldl
  assumption
  intro _
  intro _
  intro _
  apply State.scaleGrad_evolves
  assumption

theorem State.endCompute_evolves {r s : State} (h : Evolves r s) :
    Evolves r (State.endCompute s) := by
  unfold State.endCompute
  split
  assumption
  split
  apply State.setPhase_evolves
  assumption
  split
  apply State.bsuDeviceFails_evolves
  apply State.setPhase_evolves
  assumption
  apply State.formStats_evolves
  assumption

theorem execGradientClearComplete_evolves {r s : State} (h : Evolves r s) :
    OutEvolves r (execGradientClearComplete s) := by
  unfold execGradientClearComplete
  split
  apply OutEvolves.next
  apply Evolves.ite
  dsimp only
  refine Evolves.record ?_ rfl rfl rfl rfl rfl rfl rfl
  apply State.clearGradients_evolves
  apply State.endUpdateOp_evolves
  apply State.countParts_evolves
  assumption
  assumption
  apply OutEvolves.next
  assumption

theorem execDigestExchangeComplete_evolves {r s : State} (h : Evolves r s) :
    OutEvolves r (execDigestExchangeComplete s) := by
  unfold execDigestExchangeComplete
  split
  dsimp only
  apply OutEvolves.ite
  apply OutEvolves.next
  apply State.castVote_evolves
  refine Evolves.record ?_ rfl rfl rfl rfl rfl rfl rfl
  apply State.endUpdate_evolves
  assumption
  apply OutEvolves.next
  assumption
  apply OutEvolves.next
  assumption

theorem State.beginSweep_evolves {r s : State} (h : Evolves r s) :
    Evolves r (State.beginSweep s) := by
  unfold State.beginSweep
  dsimp only
  apply Evolves.ite
  refine Evolves.record ?_ rfl rfl rfl rfl rfl rfl rfl
  assumption
  apply State.startSweep_evolves
  refine Evolves.record ?_ rfl rfl rfl rfl rfl rfl rfl
  assumption

theorem State.noteModes_evolves {r s : State} {word} (h : Evolves r s) :
    Evolves r (State.noteModes s word) := by
  unfold State.noteModes
  apply Evolves.ite
  apply State.inCascade_evolves
  apply State.raise_evolves
  apply State.newCascade_evolves
  refine Evolves.record ?_ rfl rfl rfl rfl rfl rfl rfl
  assumption
  assumption

theorem execSweepComplete_evolves {r s : State} (h : Evolves r s) :
    OutEvolves r (execSweepComplete s) := by
  unfold execSweepComplete
  split
  split
  apply OutEvolves.next
  assumption
  apply OutEvolves.ite
  split
  apply OutEvolves.next
  apply State.bsuDeviceFails_evolves
  assumption
  apply OutEvolves.next
  apply State.finishSweep_evolves
  assumption
  apply OutEvolves.next
  assumption
  apply OutEvolves.next
  assumption

theorem execRecordStatsComplete_evolves {r s : State} (h : Evolves r s) :
    OutEvolves r (execRecordStatsComplete s) := by
  unfold execRecordStatsComplete
  split
  apply OutEvolves.ite
  dsimp only
  apply OutEvolves.next
  apply State.beginSweep_evolves
  refine Evolves.record ?_ rfl rfl rfl rfl rfl rfl rfl
  apply State.endUpdate_evolves
  assumption
  apply OutEvolves.next
  assumption
  apply OutEvolves.next
  assumption

theorem State.noteNoise_evolves {r s : State} {mode mb a g} (h : Evolves r s) :
    Evolves r (State.noteNoise s mode mb a g) := by
  unfold State.noteNoise
  dsimp only
  refine Evolves.record ?_ rfl rfl rfl rfl rfl rfl rfl
  assumption

theorem State.noteStatsPass_evolves {r s : State} (h : Evolves r s) :
    Evolves r (State.noteStatsPass s) := by
  unfold State.noteStatsPass
  dsimp only
  refine Evolves.record ?_ rfl rfl rfl rfl rfl rfl rfl
  apply State.takeFree_evolves
  assumption

theorem execContextHalted_evolves {r s : State} {d p ctx} (h : Evolves r s) :
    OutEvolves r (execContextHalted d p ctx s) := by
  unfold execContextHalted
  apply OutEvolves.ite
  dsimp only
  apply OutEvolves.ite
  apply OutEvolves.next
  apply Evolves.ite
  apply State.endCompute_evolves
  apply State.unblock_evolves
  assumption
  apply State.unblock_evolves
  assumption
  apply OutEvolves.next
  assumption
  exact OutEvolves.fault

theorem execStepStatsComplete_evolves {r s : State} (h : Evolves r s) :
    OutEvolves r (execStepStatsComplete s) := by
  unfold execStepStatsComplete
  split
  apply OutEvolves.ite
  dsimp only
  apply OutEvolves.ite
  apply OutEvolves.next
  apply State.castVote_evolves
  refine Evolves.record ?_ rfl rfl rfl rfl rfl rfl rfl
  apply State.noteNoise_evolves
  apply State.noteModes_evolves
  apply State.noteStatsPass_evolves
  apply State.endUpdateOp_evolves
  apply State.endUpdate_evolves
  assumption
  apply OutEvolves.ite
  apply OutEvolves.next
  apply State.beginSweep_evolves
  apply State.noteNoise_evolves
  apply State.noteModes_evolves
  apply State.noteStatsPass_evolves
  apply State.endUpdateOp_evolves
  apply State.endUpdate_evolves
  assumption
  apply OutEvolves.next
  apply State.issueUpdate_evolves
  apply State.setPhase_evolves
  apply State.noteNoise_evolves
  apply State.noteModes_evolves
  apply State.noteStatsPass_evolves
  apply State.endUpdateOp_evolves
  apply State.endUpdate_evolves
  assumption
  apply OutEvolves.next
  assumption
  apply OutEvolves.next
  assumption

theorem State.divergeStep_evolves {r s : State} {r' w p} (h : Evolves r s) :
    Evolves r (State.divergeStep s r' w p) := by
  unfold State.divergeStep
  dsimp only
  apply State.inCascade_evolves
  apply State.raise_evolves
  apply State.newCascade_evolves
  refine Evolves.record ?_ rfl rfl rfl rfl rfl rfl rfl
  apply State.writeRolledBack_evolves
  assumption

theorem State.commitStep_evolves {r s : State} {p r' rec w o} (h : Evolves r s) :
    Evolves r (State.commitStep s p r' rec w o) := by
  unfold State.commitStep
  dsimp only
  refine Evolves.record ?_ rfl rfl rfl rfl rfl rfl rfl
  apply State.owesExport_evolves
  apply State.writeCommitted_evolves
  assumption

theorem execCommitReadyComplete_evolves {r s : State} (h : Evolves r s) :
    OutEvolves r (execCommitReadyComplete s) := by
  unfold execCommitReadyComplete
  split
  apply OutEvolves.ite
  dsimp only
  split
  apply OutEvolves.next
  apply State.divergeStep_evolves
  apply State.endUpdate_evolves
  assumption
  apply OutEvolves.next
  apply State.commitStep_evolves
  apply State.endUpdate_evolves
  assumption
  apply OutEvolves.next
  assumption
  apply OutEvolves.next
  assumption

theorem execBsuOperationError_evolves {r s : State} {id st ch reason} (h : Evolves r s) :
    OutEvolves r (execBsuOperationError id st ch reason s) := by
  unfold execBsuOperationError
  apply OutEvolves.ite
  dsimp only
  apply OutEvolves.next
  apply Evolves.ite
  assumption
  split
  apply Evolves.ite
  apply State.bsuFails_evolves
  assumption
  assumption
  apply Evolves.ite
  assumption
  apply Evolves.ite
  apply State.bsuDeviceFails_evolves
  assumption
  apply Evolves.ite
  apply State.exportFails_evolves
  assumption
  assumption
  exact OutEvolves.fault

/-! ### HostIf -/

theorem State.complete_evolves {r s : State} {data poisoned} (h : Evolves r s) :
    Evolves r (State.complete s data poisoned) := by
  unfold State.complete
  apply State.modHost_evolves
  assumption
  intro _
  intro _
  assumption
  intro _
  intro _
  assumption

theorem State.hostError_evolves {r s : State} {kind write a} (h : Evolves r s) :
    Evolves r (State.hostError s kind write a) := by
  unfold State.hostError
  apply State.modHost_evolves
  assumption
  intro _
  intro _
  assumption
  intro _
  intro _
  assumption

theorem State.endPause_evolves {r s : State} {st ch} (h : Evolves r s) :
    Evolves r (State.endPause s st ch) := by
  unfold State.endPause
  dsimp only
  apply State.kickBsu_evolves
  apply State.modBsu_evolves
  apply State.modStack_evolves
  apply State.chargeAll_evolves
  apply State.advanceTo_evolves
  assumption
  exact fun _ k => k.record
  exact fun _ k => k.record

theorem State.endForced_evolves {r s : State} {st pch bank} (h : Evolves r s) :
    Evolves r (State.endForced s st pch bank) := by
  unfold State.endForced
  dsimp only
  apply State.modStack_evolves
  apply State.setBank_evolves
  apply State.chargeAll_evolves
  apply State.advanceTo_evolves
  assumption
  exact fun _ k => k.record

theorem State.endHold_evolves {r s : State} {st pch bank} (h : Evolves r s) :
    Evolves r (State.endHold s st pch bank) := by
  unfold State.endHold
  apply Evolves.ite
  apply State.endPause_evolves
  assumption
  apply State.endForced_evolves
  assumption

theorem State.awaitBank_evolves {r s : State} {a} (h : Evolves r s) :
    Evolves r (State.awaitBank s a) := by
  unfold State.awaitBank
  dsimp only
  apply Evolves.ite
  apply State.advanceTo_evolves
  split
  apply Evolves.ite
  apply State.endHold_evolves
  assumption
  assumption
  assumption
  split
  apply Evolves.ite
  apply State.endHold_evolves
  assumption
  assumption
  assumption

theorem State.awaitSlices_evolves {r s : State} {a n} (h : Evolves r s) : Evolves r (State.awaitSlices s a n) := by
  unfold State.awaitSlices
  refine Evolves.foldl _ _ h fun x g k => ?_
  replace k := State.awaitBank_evolves (a := g.1) k
  dsimp only
  generalize x.awaitBank g.1 = t at k ⊢
  refine Evolves.ite ?_ k
  split
  · exact k
  · rename_i q _ _
    have z := State.modBsu_evolves (st := daStack g.1) (ch := q / 2)
      (f := fun b => { b with heldRequests := satAdd b.heldRequests 1 }) k fun _ z => z.record
    generalize t.modBsu _ _ _ = u at z ⊢
    split
    · exact State.endSlice_evolves z
    · exact State.landSlice_evolves z
    · exact State.boundary_evolves (State.releaseSlice_evolves z)
    · exact z

theorem State.windowRead_evolves {r s : State} {off n ecc} (h : Evolves r s) :
    Evolves r (State.windowRead s off n ecc) := by
  unfold State.windowRead
  dsimp only
  split
  apply State.complete_evolves
  apply State.hostError_evolves
  apply State.countDenial_evolves
  assumption
  apply Evolves.ite
  apply State.complete_evolves
  assumption
  split
  apply State.complete_evolves
  refine Evolves.of_pair ‹_› ?_
  apply State.serveRead_evolves
  apply State.countIod_evolves
  apply State.awaitSlices_evolves
  assumption
  apply State.takeFree_evolves
  apply State.complete_evolves
  apply State.hostError_evolves
  refine Evolves.of_pair ‹_› ?_
  apply State.serveRead_evolves
  apply State.countIod_evolves
  apply State.awaitSlices_evolves
  assumption

theorem State.clearInt_evolves {r s : State} {v} (h : Evolves r s) :
    Evolves r (State.clearInt s v) := by
  unfold State.clearInt
  apply State.modHost_evolves
  assumption
  intro _
  intro _
  assumption
  intro _
  intro _
  assumption

theorem execIntStatusClear_evolves {r s : State} {v} (h : Evolves r s) :
    OutEvolves r (execIntStatusClear v s) := by
  unfold execIntStatusClear
  apply OutEvolves.next
  apply Evolves.ite
  apply State.clearInt_evolves
  assumption
  assumption

theorem execBar2Read_evolves {r s : State} {off n ecc} (h : Evolves r s) :
    OutEvolves r (execBar2Read off n ecc s) := by
  unfold execBar2Read
  apply OutEvolves.next
  apply Evolves.ite
  apply State.inCascade_evolves
  apply State.windowRead_evolves
  apply State.newCascade_evolves
  assumption
  assumption

theorem onChannel_evolves {r s : State} {n} (h : Evolves r s) :
    OutEvolves r (onChannel n s) := by
  unfold onChannel
  apply OutEvolves.ite
  apply OutEvolves.next
  assumption
  exact OutEvolves.fault

theorem State.dmaStart_evolves {r s : State} {n} (h : Evolves r s) :
    Evolves r (State.dmaStart s n) := by
  unfold State.dmaStart
  dsimp only
  apply State.dmaSplit_evolves
  apply State.modDma_evolves
  split
  dsimp only
  apply State.countDenial_evolves
  assumption
  split
  dsimp only
  assumption
  split
  dsimp only
  assumption
  dsimp only
  apply State.takeFree_evolves
  apply State.countDenial_evolves
  assumption

theorem State.dmaKick_evolves {r s : State} {n} (h : Evolves r s) :
    Evolves r (State.dmaKick s n) := by
  unfold State.dmaKick
  apply Evolves.ite
  apply State.dmaStart_evolves
  assumption
  assumption

theorem State.writeTail_evolves {r s : State} {n v} (h : Evolves r s) :
    Evolves r (State.writeTail s n v) := by
  unfold State.writeTail
  apply State.dmaKick_evolves
  apply State.modDma_evolves
  assumption

theorem execDmaTailWrite_evolves {r s : State} {n v} (h : Evolves r s) :
    OutEvolves r (execDmaTailWrite n v s) := by
  unfold execDmaTailWrite
  apply onChannel_evolves
  apply Evolves.ite
  apply State.writeTail_evolves
  assumption
  assumption

theorem State.hostStreamsEnd_evolves {r s : State} (h : Evolves r s) :
    Evolves r (State.hostStreamsEnd s) := by
  unfold State.hostStreamsEnd
  dsimp only
  apply Evolves.ite
  assumption
  apply State.endAllInError_evolves
  apply State.newCascade_evolves
  assumption

theorem State.dmaLost_evolves {r s : State} {n} (h : Evolves r s) :
    Evolves r (State.dmaLost s n) := by
  unfold State.dmaLost
  split
  assumption
  apply State.modDma_evolves
  apply State.dmaDrop_evolves
  assumption

theorem HostIf.lose_lengths (x : HostIf) : x.lose.dma.length = x.dma.length ∧ x.lose.msix.length = 64 :=
  ⟨List.length_map _, rfl⟩

theorem State.hostLoses_evolves {r s : State} (h : Evolves r s) : Evolves r { s with
      host := s.host.lose, lamp := { s.lamp with mailboxes := s.lamp.mailboxes.map Mailbox.lose } } :=
  h.trans { Evolves.refl s with
    dma := (HostIf.lose_lengths _).1.trans
    msix := fun _ => (HostIf.lose_lengths _).2
    mailboxes := (List.length_map _).trans }

theorem State.loseHost_evolves {r s : State} (h : Evolves r s) : Evolves r (State.loseHost s) := by
  have k := State.hostStreamsEnd_evolves (Evolves.foldl (List.range 8) State.dmaLost h fun _ _ => State.dmaLost_evolves)
  unfold State.loseHost
  generalize ((List.range 8).foldl State.dmaLost s).hostStreamsEnd = s1 at k ⊢
  have k := State.hostLoses_evolves k
  refine Evolves.ite ?_ k
  exact Evolves.record k rfl rfl rfl rfl rfl rfl rfl

theorem execPerstAssert_evolves {r s : State} (h : Evolves r s) :
    OutEvolves r (execPerstAssert s) := by
  unfold execPerstAssert
  dsimp only
  apply OutEvolves.next
  apply Evolves.ite
  apply State.inCascade_evolves
  apply State.modHost_evolves
  apply State.loseHost_evolves
  apply State.newCascade_evolves
  refine Evolves.record ?_ rfl rfl rfl rfl rfl rfl rfl
  assumption
  intro _
  intro _
  assumption
  intro _
  intro _
  assumption
  refine Evolves.record ?_ rfl rfl rfl rfl rfl rfl rfl
  assumption

theorem execHostLinkLoss_evolves {r s : State} (h : Evolves r s) :
    OutEvolves r (execHostLinkLoss s) := by
  unfold execHostLinkLoss
  apply OutEvolves.next
  apply Evolves.ite
  apply State.inCascade_evolves
  apply State.loseHost_evolves
  apply State.modHost_evolves
  apply State.newCascade_evolves
  assumption
  intro _
  intro _
  assumption
  intro _
  intro _
  assumption
  assumption

theorem State.readLost_evolves {r s : State} {o} (h : Evolves r s) :
    Evolves r (State.readLost s o) := by
  unfold State.readLost
  split
  apply State.requestFails_evolves
  assumption
  assumption

theorem State.writeBack_evolves {r s : State} {n index st cause} (h : Evolves r s) :
    Evolves r (State.writeBack s n index st cause) := by
  unfold State.writeBack
  dsimp only
  apply Evolves.ite
  apply State.hostWrite_evolves
  assumption
  assumption

theorem State.dmaFinish_evolves {r s : State} {n job st cause} (h : Evolves r s) :
    Evolves r (State.dmaFinish s n job st cause) := by
  unfold State.dmaFinish
  dsimp only
  apply State.dmaKick_evolves
  apply Evolves.ite
  apply State.signal_evolves
  apply State.modDma_evolves
  apply State.dmaDrop_evolves
  apply State.writeBack_evolves
  assumption
  apply State.modDma_evolves
  apply State.dmaDrop_evolves
  apply State.writeBack_evolves
  assumption

theorem State.writeRingCtrl_evolves {r s : State} {n v} (h : Evolves r s) :
    Evolves r (State.writeRingCtrl s n v) := by
  unfold State.writeRingCtrl
  dsimp only
  apply State.dmaKick_evolves
  apply State.modDma_evolves
  assumption

theorem State.dmaEnd_evolves {r s : State} {n job out} (h : Evolves r s) :
    Evolves r (State.dmaEnd s n job out) := by
  unfold State.dmaEnd
  split
  apply State.dmaFinish_evolves
  assumption
  apply State.dmaFinish_evolves
  assumption
  apply Evolves.ite
  apply State.dmaFinish_evolves
  assumption
  assumption

theorem execDmaDescriptorComplete_evolves {r s : State} {n out} (h : Evolves r s) :
    OutEvolves r (execDmaDescriptorComplete n out s) := by
  unfold execDmaDescriptorComplete
  apply onChannel_evolves
  split
  apply Evolves.ite
  assumption
  apply State.dmaEnd_evolves
  apply State.newCascade_evolves
  assumption
  assumption

theorem State.writeMemwin_evolves {r s : State} {v} (h : Evolves r s) :
    Evolves r (State.writeMemwin s v) := by
  unfold State.writeMemwin
  apply State.modHost_evolves
  assumption
  intro _
  intro _
  assumption
  intro _
  intro _
  assumption

theorem State.clearHostErr_evolves {r s : State} {v} (h : Evolves r s) :
    Evolves r (State.clearHostErr s v) := by
  unfold State.clearHostErr
  apply Evolves.ite
  apply State.modHost_evolves
  assumption
  intro _
  intro _
  assumption
  intro _
  intro _
  assumption
  assumption

theorem State.writeHostWord_evolves {r s : State} {off v} (h : Evolves r s) :
    Evolves r (State.writeHostWord s off v) := by
  unfold State.writeHostWord
  dsimp only
  split
  apply State.writeMemwin_evolves
  assumption
  apply State.writeMemwin_evolves
  assumption
  apply State.clearInt_evolves
  assumption
  apply State.clearHostErr_evolves
  assumption
  assumption

theorem State.dmaResume_evolves {r s : State} {n} (h : Evolves r s) :
    Evolves r (State.dmaResume s n) := by
  unfold State.dmaResume
  apply State.dmaKick_evolves
  apply State.modDma_evolves
  assumption

theorem State.writeChannel_evolves {r s : State} {n off v} (h : Evolves r s) :
    Evolves r (State.writeChannel s n off v) := by
  unfold State.writeChannel
  dsimp only
  split
  apply State.modDma_evolves
  assumption
  apply State.modDma_evolves
  assumption
  apply Evolves.ite
  apply State.dmaResume_evolves
  apply State.writeRingCtrl_evolves
  assumption
  apply State.writeRingCtrl_evolves
  assumption
  apply State.writeTail_evolves
  assumption
  assumption

theorem HostIf.sendPending_lengths (x : HostIf) :
    x.sendPending.dma.length = x.dma.length ∧ x.sendPending.msix.length = x.msix.length := by
  unfold HostIf.sendPending
  repeat' split
  all_goals exact ⟨rfl, rfl⟩

theorem State.writeBar0_evolves {r s : State} {off v} (h : Evolves r s) : Evolves r (State.writeBar0 s off v) := by
  unfold State.writeBar0
  refine Evolves.ite h (Evolves.ite (State.writeHostWord_evolves h) (Evolves.ite (State.writeChannel_evolves h)
    (Evolves.ite ?_ h)))
  refine State.modHost_evolves h (fun x q => (HostIf.sendPending_lengths _).1.trans q)
    fun x q => (HostIf.sendPending_lengths _).2.trans ((modAt_length _ _ _).trans q)

theorem State.windowWrite_evolves {r s : State} {off data ecc} (h : Evolves r s) :
    Evolves r (State.windowWrite s off data ecc) := by
  unfold State.windowWrite
  dsimp only
  split
  apply State.hostError_evolves
  apply State.countDenial_evolves
  assumption
  apply Evolves.ite
  assumption
  split
  refine Evolves.of_pair ‹_› ?_
  apply State.serveWrite_evolves
  apply State.countIod_evolves
  apply State.awaitSlices_evolves
  assumption
  apply State.hostError_evolves
  refine Evolves.of_pair ‹_› ?_
  apply State.serveWrite_evolves
  apply State.countIod_evolves
  apply State.awaitSlices_evolves
  assumption

theorem State.hostReadLost_evolves {r s : State} {a1} (h : Evolves r s) :
    Evolves r (State.hostReadLost s a1) := by
  unfold State.hostReadLost
  split
  split
  apply Evolves.ite
  apply State.dmaFinish_evolves
  assumption
  assumption
  assumption
  apply State.readLost_evolves
  assumption
  apply State.readLost_evolves
  assumption
  apply Evolves.ite
  apply State.respond_evolves
  assumption
  assumption

theorem execHostReadTimeout_evolves {r s : State} {r'} (h : Evolves r s) :
    OutEvolves r (execHostReadTimeout r' s) := by
  unfold execHostReadTimeout
  apply OutEvolves.ite
  apply OutEvolves.next
  apply State.hostReadLost_evolves
  assumption
  exact OutEvolves.fault

theorem State.hostReturns_evolves {r s : State} {speed width cxl} (h : Evolves r s) :
    Evolves r (State.hostReturns s speed width cxl) := by
  unfold State.hostReturns
  dsimp only
  apply Evolves.ite
  apply State.signal_evolves
  apply State.modHost_evolves
  refine Evolves.record ?_ rfl rfl rfl rfl rfl rfl rfl
  assumption
  intro _
  intro _
  assumption
  intro _
  intro _
  assumption
  apply State.modHost_evolves
  refine Evolves.record ?_ rfl rfl rfl rfl rfl rfl rfl
  assumption
  intro _
  intro _
  assumption
  intro _
  intro _
  assumption

theorem execHostLinkReturn_evolves {r s : State} {speed width cxl} (h : Evolves r s) :
    OutEvolves r (execHostLinkReturn speed width cxl s) := by
  unfold execHostLinkReturn
  apply OutEvolves.next
  apply Evolves.ite
  apply State.hostReturns_evolves
  assumption
  assumption

theorem execMemwinBaseWrite_evolves {r s : State} {v} (h : Evolves r s) :
    OutEvolves r (execMemwinBaseWrite v s) := by
  unfold execMemwinBaseWrite
  apply OutEvolves.next
  apply Evolves.ite
  apply State.writeMemwin_evolves
  assumption
  assumption

theorem State.dmaKickAll_evolves {r s : State} (h : Evolves r s) :
    Evolves r (State.dmaKickAll s) := by
  unfold State.dmaKickAll
  apply Evolves.foldl
  assumption
  intro _
  intro _
  intro _
  apply State.dmaKick_evolves
  assumption

theorem execHostLinkRetrainComplete_evolves {r s : State} (h : Evolves r s) :
    OutEvolves r (execHostLinkRetrainComplete s) := by
  unfold execHostLinkRetrainComplete
  apply OutEvolves.next
  apply Evolves.ite
  apply State.dmaKickAll_evolves
  apply State.modHost_evolves
  assumption
  intro _
  intro _
  assumption
  intro _
  intro _
  assumption
  assumption

theorem execRegisterWrite_evolves {r s : State} {target v} (h : Evolves r s) :
    OutEvolves r (execRegisterWrite target v s) := by
  unfold execRegisterWrite
  apply OutEvolves.next
  apply Evolves.ite
  split
  apply State.writeBar0_evolves
  assumption
  apply State.modHost_evolves
  assumption
  intro _
  intro _
  assumption
  intro _
  intro _
  assumption
  apply State.modHost_evolves
  assumption
  intro _
  intro _
  assumption
  intro _
  intro _
  assumption
  assumption

theorem execHostErrClear_evolves {r s : State} {v} (h : Evolves r s) :
    OutEvolves r (execHostErrClear v s) := by
  unfold execHostErrClear
  apply OutEvolves.next
  apply Evolves.ite
  apply State.clearHostErr_evolves
  assumption
  assumption

theorem execDmaRestart_evolves {r s : State} {n} (h : Evolves r s) :
    OutEvolves r (execDmaRestart n s) := by
  unfold execDmaRestart
  apply onChannel_evolves
  apply Evolves.ite
  apply State.dmaResume_evolves
  assumption
  assumption

theorem execBar2Write_evolves {r s : State} {off data ecc} (h : Evolves r s) :
    OutEvolves r (execBar2Write off data ecc s) := by
  unfold execBar2Write
  apply OutEvolves.next
  apply Evolves.ite
  apply State.inCascade_evolves
  apply State.windowWrite_evolves
  apply State.newCascade_evolves
  assumption
  assumption

theorem execHostLinkRetraining_evolves {r s : State} (h : Evolves r s) :
    OutEvolves r (execHostLinkRetraining s) := by
  unfold execHostLinkRetraining
  apply OutEvolves.next
  apply Evolves.ite
  apply State.modHost_evolves
  assumption
  intro _
  intro _
  assumption
  intro _
  intro _
  assumption
  assumption

theorem execHostSnoop_evolves {r s : State} (h : Evolves r s) :
    OutEvolves r (execHostSnoop s) := by
  unfold execHostSnoop
  apply OutEvolves.next
  apply Evolves.ite
  apply State.modHost_evolves
  assumption
  intro _
  intro _
  assumption
  intro _
  intro _
  assumption
  assumption

/-! ### Thermal -/

theorem State.haltSlices_evolves {r s : State} {st} (h : Evolves r s) :
    Evolves r (State.haltSlices s st) := by
  unfold State.haltSlices
  apply Evolves.foldl
  assumption
  intro _
  intro _
  intro _
  split
  split
  apply State.bsuFails_evolves
  assumption
  assumption
  apply State.bsuDeviceFails_evolves
  assumption
  apply State.exportFails_evolves
  assumption
  apply Evolves.ite
  apply State.bsuDeviceFails_evolves
  assumption
  assumption

theorem stackRow_evolves {r s t : State} {st}
    (h : Evolves r s) (k : Evolves r t) : OutEvolves r (stackRow st s t) := by
  unfold stackRow
  exact OutEvolves.ite (OutEvolves.next (Evolves.ite k h)) OutEvolves.fault

theorem State.postpone_evolves {r s : State} {st pch bank} (h : Evolves r s) :
    Evolves r (State.postpone s st pch bank) := by
  unfold State.postpone
  dsimp only
  apply Evolves.ite
  assumption
  apply Evolves.ite
  apply State.modStack_evolves
  apply State.setBank_evolves
  assumption
  exact fun _ k => k.record
  apply Evolves.ite
  apply Evolves.ite
  apply State.boundary_evolves
  apply State.modBsu_evolves
  apply State.modStack_evolves
  apply State.setBank_evolves
  assumption
  exact fun _ k => k.record
  exact fun _ k => k.record
  apply State.modBsu_evolves
  apply State.modStack_evolves
  apply State.setBank_evolves
  assumption
  exact fun _ k => k.record
  exact fun _ k => k.record
  apply State.setBank_evolves
  apply State.chargeAll_evolves
  apply State.modStack_evolves
  apply State.setBank_evolves
  assumption
  exact fun _ k => k.record

theorem State.refreshNow_evolves {r s : State} {st pch bank} (h : Evolves r s) :
    Evolves r (State.refreshNow s st pch bank) := by
  unfold State.refreshNow
  dsimp only
  apply Evolves.ite
  assumption
  apply State.setBank_evolves
  assumption

theorem execRefreshDue_evolves {r s : State} {st pch bank} (h : Evolves r s) :
    OutEvolves r (execRefreshDue st pch bank s) := by
  unfold execRefreshDue
  apply OutEvolves.ite
  apply stackRow_evolves
  assumption
  apply Evolves.ite
  apply State.postpone_evolves
  assumption
  apply State.refreshNow_evolves
  assumption
  exact OutEvolves.fault

theorem Stack.scrubOn_shape {x : Stack} {now} (h : x.Shape) :
    (Stack.scrubOn now x).Shape := by
  unfold Stack.scrubOn
  split
  split
  refine Stack.Shape.record ?_
  assumption
  dsimp only
  refine Stack.Shape.record ?_
  assumption
  assumption

theorem execSharedQuarterDark_evolves {r s : State} {d q} (h : Evolves r s) :
    OutEvolves r (execSharedQuarterDark d q s) := by
  unfold execSharedQuarterDark
  apply OutEvolves.ite
  dsimp only
  apply OutEvolves.next
  apply Evolves.ite
  refine Evolves.record ?_ rfl rfl rfl rfl rfl rfl rfl
  apply State.advanceTo_evolves
  assumption
  assumption
  exact OutEvolves.fault

theorem execRefreshForced_evolves {r s : State} {st pch bank} (h : Evolves r s) :
    OutEvolves r (execRefreshForced st pch bank s) := by
  unfold execRefreshForced
  apply OutEvolves.ite
  apply stackRow_evolves
  assumption
  apply Evolves.ite
  assumption
  apply Evolves.ite
  apply State.endPause_evolves
  assumption
  apply State.endForced_evolves
  assumption
  exact OutEvolves.fault

theorem execRefreshManagement_evolves {r s : State} {st pch bank} (h : Evolves r s) :
    OutEvolves r (execRefreshManagement st pch bank s) := by
  unfold execRefreshManagement
  apply OutEvolves.ite
  dsimp only
  apply stackRow_evolves
  assumption
  apply Evolves.ite
  apply State.modStack_evolves
  apply State.setBank_evolves
  apply State.chargeAll_evolves
  apply State.advanceTo_evolves
  apply State.setBank_evolves
  apply State.chargeAll_evolves
  assumption
  exact fun _ k => k.record
  assumption
  exact OutEvolves.fault

theorem Stack.leaveStage_shape {x : Stack} {now} (h : x.Shape) :
    (Stack.leaveStage now x).Shape := by
  unfold Stack.leaveStage
  refine Stack.Shape.record ?_
  assumption

theorem Stack.enterStage_shape {x : Stack} {now g} (h : x.Shape) :
    (Stack.enterStage now g x).Shape := by
  unfold Stack.enterStage
  dsimp only
  refine Stack.Shape.record ?_
  apply Stack.leaveStage_shape
  assumption

theorem Stack.noteCalm_shape {x : Stack} {now} (h : x.Shape) :
    (Stack.noteCalm now x).Shape := by
  unfold Stack.noteCalm
  refine Stack.Shape.record ?_
  assumption

theorem Stack.sample_shape {x : Stack} {now temps} (h : x.Shape) :
    (Stack.sample now temps x).Shape := by
  unfold Stack.sample
  dsimp only
  apply Stack.noteCalm_shape
  split
  split
  refine Stack.Shape.record ?_
  apply Stack.enterStage_shape
  refine Stack.Shape.record ?_
  assumption
  apply Stack.enterStage_shape
  refine Stack.Shape.record ?_
  assumption
  split
  refine Stack.Shape.record ?_
  refine Stack.Shape.record ?_
  assumption
  refine Stack.Shape.record ?_
  assumption

theorem State.haltRequests_evolves {r s : State} {st} (h : Evolves r s) :
    Evolves r (State.haltRequests s st) := by
  unfold State.haltRequests
  dsimp only
  apply Evolves.foldl
  assumption
  intro _
  intro _
  intro _
  apply Evolves.ite
  assumption
  apply Evolves.ite
  apply State.requestFails_evolves
  assumption
  apply Evolves.ite
  apply State.requestFails_evolves
  assumption
  assumption

theorem State.enterHalt_evolves {r s : State} {st} (h : Evolves r s) :
    Evolves r (State.enterHalt s st) := by
  unfold State.enterHalt
  dsimp only
  apply State.haltSlices_evolves
  apply State.haltRequests_evolves
  apply State.raise_evolves
  apply State.newCascade_evolves
  apply State.modStack_evolves
  assumption
  exact fun _ k => k.record

theorem execStackSensorSample_evolves {r s : State} {st temps} (h : Evolves r s) :
    OutEvolves r (execStackSensorSample st temps s) := by
  unfold execStackSensorSample
  dsimp only
  apply stackRow_evolves
  assumption
  apply Evolves.ite
  assumption
  apply Evolves.ite
  apply State.inCascade_evolves
  apply State.enterHalt_evolves
  apply State.modStack_evolves
  apply State.advanceTo_evolves
  assumption
  intro _
  intro _
  apply Stack.sample_shape
  assumption
  apply State.modStack_evolves
  apply State.advanceTo_evolves
  assumption
  intro _
  intro _
  apply Stack.sample_shape
  assumption

theorem Stack.visited_shape {x : Stack} {now pch} (h : x.Shape) :
    (Stack.visited now pch x).Shape := by
  unfold Stack.visited
  apply Stack.scrubOn_shape
  refine Stack.Shape.record ?_
  assumption

theorem State.scrubSector_evolves {r s : State} {st pch ecc} (h : Evolves r s) :
    Evolves r (State.scrubSector s st pch ecc) := by
  unfold State.scrubSector
  dsimp only
  apply State.modStack_evolves
  apply Evolves.ite
  apply State.modStack_evolves
  apply State.eccRead_evolves
  apply State.activate_evolves
  apply State.awaitSlices_evolves
  assumption
  exact fun _ k => k.record
  apply State.eccRead_evolves
  apply State.activate_evolves
  apply State.awaitSlices_evolves
  assumption
  intro _
  intro _
  apply Stack.visited_shape
  assumption

theorem execPatrolScrubSector_evolves {r s : State} {st pch ecc} (h : Evolves r s) :
    OutEvolves r (execPatrolScrubSector st pch ecc s) := by
  unfold execPatrolScrubSector
  apply OutEvolves.ite
  dsimp only
  apply stackRow_evolves
  assumption
  apply Evolves.ite
  apply Evolves.ite
  assumption
  apply State.modStack_evolves
  assumption
  intro _
  intro _
  apply Stack.scrubOn_shape
  assumption
  apply State.inCascade_evolves
  apply State.scrubSector_evolves
  apply State.newCascade_evolves
  apply Evolves.ite
  assumption
  apply State.modStack_evolves
  assumption
  intro _
  intro _
  apply Stack.scrubOn_shape
  assumption
  exact OutEvolves.fault

theorem execScrubLate_evolves {r s : State} {st} (h : Evolves r s) :
    OutEvolves r (execScrubLate st s) := by
  unfold execScrubLate
  dsimp only
  apply stackRow_evolves
  assumption
  apply Evolves.ite
  assumption
  apply State.inCascade_evolves
  apply State.raise_evolves
  apply State.newCascade_evolves
  apply State.modStack_evolves
  apply State.advanceTo_evolves
  assumption
  exact fun _ k => k.record

theorem execStageFall_evolves {r s : State} {st} (h : Evolves r s) :
    OutEvolves r (execStageFall st s) := by
  unfold execStageFall
  dsimp only
  apply stackRow_evolves
  assumption
  split
  assumption
  apply Evolves.foldl
  apply State.modStack_evolves
  apply State.advanceTo_evolves
  assumption
  intro _
  intro _
  apply Stack.noteCalm_shape
  refine Stack.Shape.record ?_
  apply Stack.enterStage_shape
  assumption
  intro _
  intro _
  intro _
  apply State.kickBsu_evolves
  assumption

theorem execSharedQuarterLit_evolves {r s : State} {d q} (h : Evolves r s) :
    OutEvolves r (execSharedQuarterLit d q s) := by
  unfold execSharedQuarterLit
  apply OutEvolves.ite
  dsimp only
  apply OutEvolves.next
  apply Evolves.ite
  refine Evolves.record ?_ rfl rfl rfl rfl rfl rfl rfl
  assumption
  assumption
  exact OutEvolves.fault

end Sys2Proof.Machine
end

