-- ==== Sys2Proof/Laws/EvolvesJ.lean ====
section
/-! SUPPORT. What each operation and each command of these files of Machine/ keeps: Debug, Export, I3cBus, Ports,
Snuffer. -/

namespace Sys2Proof.Machine

open Sys2Proof

/-! ### Debug -/

theorem State.modTinder_evolves {r s : State} {f} (h : Evolves r s) :
    Evolves r (State.modTinder s f) := by
  unfold State.modTinder
  refine Evolves.record ?_ rfl rfl rfl rfl rfl rfl rfl
  assumption

theorem State.reply_evolves {r s : State} {lines st} (h : Evolves r s) :
    Evolves r (State.reply s lines st) := by
  unfold State.reply
  dsimp only
  apply State.modTinder_evolves
  assumption

theorem jtagDebug_evolves {r s t : State} (h : Evolves r s) (k : Evolves r t) : OutEvolves r (jtagDebug s t) :=
  OutEvolves.next (Evolves.ite h (Evolves.ite (State.modTinder_evolves h) k))

theorem execCoreHalt_evolves {r s : State} {core} (h : Evolves r s) :
    OutEvolves r (execCoreHalt core s) := by
  unfold execCoreHalt
  apply OutEvolves.ite
  apply jtagDebug_evolves
  assumption
  apply State.modTinder_evolves
  assumption
  exact OutEvolves.fault

theorem State.loopPorts_evolves {r s : State} {die tests} (h : Evolves r s) :
    Evolves r (State.loopPorts s die tests) := by
  unfold State.loopPorts
  apply Evolves.foldl
  assumption
  intro _
  intro _
  intro _
  apply State.modLane_evolves
  assumption

theorem State.blowDebug_evolves {r s : State} (h : Evolves r s) : Evolves r (State.blowDebug s) :=
  State.modTinder_evolves (h.trans { Evolves.refl s with
    fuses := ⟨rfl, Nat.le_refl _, BitVec.and_self, fun _ => rfl⟩ })

theorem execJtagFuseDebug_evolves {r s : State} (h : Evolves r s) :
    OutEvolves r (execJtagFuseDebug s) := by
  unfold execJtagFuseDebug
  apply jtagDebug_evolves
  assumption
  apply State.blowDebug_evolves
  assumption

theorem State.resumeTile_evolves {r s : State} {d p} (h : Evolves r s) :
    Evolves r (State.resumeTile s d p) := by
  unfold State.resumeTile
  apply State.settle_evolves
  apply State.modTile_evolves
  assumption
  exact fun _ k => k.record

theorem tinderCommand_evolves {r s t : State}
    (h : Evolves r s) (k : Evolves r t) : OutEvolves r (tinderCommand s t) :=
  OutEvolves.next (Evolves.ite h (Evolves.ite (State.reply_evolves h) k))

theorem State.debugRead_evolves {r s : State} {a n ecc}
    (h : Evolves r s) : Evolves r (State.debugRead s a n ecc).1 := by
  unfold State.debugRead
  split
  · exact h
  · split
    · exact h
    · split
      · exact h
      · have k := State.serveRead_evolves (a := a) (n := n) (ecc := ecc) (State.awaitSlices_evolves (a := a) (n := n) h)
        split <;> exact Evolves.of_pair ‹_› k

theorem tinderOpen_evolves {r s t : State} (h : Evolves r s) (k : Evolves r t) : OutEvolves r (tinderOpen s t) :=
  OutEvolves.next (Evolves.ite k h)

theorem execTinderStatus_evolves {r s : State} (h : Evolves r s) :
    OutEvolves r (execTinderStatus s) := by
  unfold execTinderStatus
  apply tinderOpen_evolves
  assumption
  apply State.reply_evolves
  assumption

theorem State.jtagNothing_evolves {r s : State} (h : Evolves r s) :
    Evolves r (State.jtagNothing s) := by
  unfold State.jtagNothing
  apply State.takeFree_evolves
  apply State.modTinder_evolves
  assumption

theorem State.debugWrite_evolves {r s : State} {a bs} (h : Evolves r s) :
    Evolves r (State.debugWrite s a bs).1 := by
  unfold State.debugWrite
  split
  dsimp only
  assumption
  split
  dsimp only
  assumption
  split
  dsimp only
  assumption
  split
  dsimp only
  refine Evolves.of_pair ‹_› ?_
  apply State.serveWrite_evolves
  apply State.awaitSlices_evolves
  assumption
  dsimp only
  refine Evolves.of_pair ‹_› ?_
  apply State.serveWrite_evolves
  apply State.awaitSlices_evolves
  assumption

theorem State.debugAccess_evolves {r s : State} {addr v} (h : Evolves r s) :
    Evolves r (State.debugAccess s addr v) := by
  unfold State.debugAccess
  apply Evolves.ite
  apply State.jtagNothing_evolves
  assumption
  split
  split
  apply State.modTinder_evolves
  refine Evolves.of_pair ‹_› ?_
  apply State.debugRead_evolves
  assumption
  apply State.jtagNothing_evolves
  refine Evolves.of_pair ‹_› ?_
  apply State.debugRead_evolves
  assumption
  apply State.modTinder_evolves
  apply State.debugWrite_evolves
  assumption

theorem execTinderPeek_evolves {r s : State} {addr words} (h : Evolves r s) :
    OutEvolves r (execTinderPeek addr words s) := by
  unfold execTinderPeek
  apply tinderCommand_evolves
  assumption
  apply Evolves.ite
  apply State.reply_evolves
  assumption
  split
  apply State.reply_evolves
  refine Evolves.of_pair ‹_› ?_
  apply State.debugRead_evolves
  assumption
  apply State.reply_evolves
  refine Evolves.of_pair ‹_› ?_
  apply State.debugRead_evolves
  assumption

theorem execScanDump_evolves {r s : State} (h : Evolves r s) :
    OutEvolves r (execScanDump s) := by
  unfold execScanDump
  apply jtagDebug_evolves
  assumption
  apply State.takeFree_evolves
  apply State.modTinder_evolves
  assumption

theorem execTinderDump_evolves {r s : State} {addr len ecc} (h : Evolves r s) :
    OutEvolves r (execTinderDump addr len ecc s) := by
  unfold execTinderDump
  apply tinderCommand_evolves h
  apply Evolves.ite (State.reply_evolves h)
  have k := State.debugRead_evolves (a := addr) (n := len) (ecc := ecc) h
  split
  · exact State.reply_evolves (Evolves.of_pair ‹_› k)
  · exact State.reply_evolves (Evolves.of_pair ‹_› k)

theorem execTinderTrace_evolves {r s : State} {mode} (h : Evolves r s) :
    OutEvolves r (execTinderTrace mode s) := by
  unfold execTinderTrace
  apply tinderCommand_evolves
  assumption
  apply State.reply_evolves
  apply State.modTinder_evolves
  assumption

theorem State.scrambleDie_evolves {r s : State} {die} (h : Evolves r s) :
    Evolves r (State.scrambleDie s die) := by
  unfold State.scrambleDie
  apply Evolves.ite
  apply State.scrambleShared_evolves
  apply Evolves.foldl
  assumption
  intro _
  intro _
  intro _
  apply State.scramble_evolves
  assumption
  assumption

theorem execTinderUnlock_evolves {r s : State} {credential} (h : Evolves r s) :
    OutEvolves r (execTinderUnlock credential s) := by
  unfold execTinderUnlock
  apply tinderOpen_evolves
  assumption
  split
  apply State.reply_evolves
  assumption
  apply Evolves.ite
  apply State.reply_evolves
  assumption
  apply Evolves.ite
  apply State.reply_evolves
  apply State.modTinder_evolves
  assumption
  apply State.reply_evolves
  apply State.authFailed_evolves
  assumption

theorem execTinderPoke_evolves {r s : State} {addr v} (h : Evolves r s) :
    OutEvolves r (execTinderPoke addr v s) := by
  unfold execTinderPoke
  apply tinderCommand_evolves
  assumption
  apply Evolves.ite
  apply State.reply_evolves
  assumption
  split
  apply State.reply_evolves
  refine Evolves.of_pair ‹_› ?_
  apply State.debugWrite_evolves
  apply State.modTinder_evolves
  assumption
  apply State.reply_evolves
  refine Evolves.of_pair ‹_› ?_
  apply State.debugWrite_evolves
  apply State.modTinder_evolves
  assumption

theorem execTinderHelp_evolves {r s : State} (h : Evolves r s) :
    OutEvolves r (execTinderHelp s) := by
  unfold execTinderHelp
  apply tinderOpen_evolves
  assumption
  apply State.reply_evolves
  assumption

theorem State.eachTile_evolves {r s : State} {f} (h : Evolves r s)
    (hf : ∀ x d p, Evolves r x → Evolves r (f x d p)) : Evolves r (State.eachTile s f) :=
  Evolves.foldl _ _ h fun _ _ => hf _ _ _

theorem State.startBreak_evolves {r s : State} (h : Evolves r s) :
    Evolves r (State.startBreak s) := by
  unfold State.startBreak
  apply Evolves.ite
  assumption
  apply State.modTinder_evolves
  apply State.eachTile_evolves
  assumption
  intro _
  intro _
  intro _
  intro _
  apply State.endStall_evolves
  assumption

theorem execTinderBreak_evolves {r s : State} (h : Evolves r s) :
    OutEvolves r (execTinderBreak s) := by
  unfold execTinderBreak
  apply tinderCommand_evolves
  assumption
  apply State.reply_evolves
  apply State.startBreak_evolves
  assumption

theorem State.endBreak_evolves {r s : State} (h : Evolves r s) :
    Evolves r (State.endBreak s) := by
  unfold State.endBreak
  apply Evolves.ite
  dsimp only
  apply Evolves.foldl
  apply State.eachTile_evolves
  apply State.modTinder_evolves
  assumption
  intro _
  intro _
  intro _
  intro _
  apply Evolves.ite
  apply State.resumeTile_evolves
  assumption
  assumption
  intro _
  intro _
  intro _
  apply State.kickBsu_evolves
  assumption
  assumption

theorem execTinderGo_evolves {r s : State} (h : Evolves r s) :
    OutEvolves r (execTinderGo s) := by
  unfold execTinderGo
  apply tinderCommand_evolves
  assumption
  apply State.reply_evolves
  apply State.endBreak_evolves
  assumption

theorem execTinderFuseDebug_evolves {r s : State} {unitId} (h : Evolves r s) :
    OutEvolves r (execTinderFuseDebug unitId s) := by
  unfold execTinderFuseDebug
  apply tinderCommand_evolves
  assumption
  apply Evolves.ite
  apply State.blowDebug_evolves
  apply State.reply_evolves
  assumption
  apply State.reply_evolves
  assumption

theorem execDebugAccess_evolves {r s : State} {addr v} (h : Evolves r s) :
    OutEvolves r (execDebugAccess addr v s) := by
  unfold execDebugAccess
  apply jtagDebug_evolves
  assumption
  apply Evolves.ite
  apply State.debugAccess_evolves
  assumption
  apply State.jtagNothing_evolves
  assumption

theorem State.isolate_evolves {r s : State} {die passed tests} (h : Evolves r s) :
    Evolves r (State.isolate s die passed tests) := by
  unfold State.isolate
  apply State.loopPorts_evolves
  apply State.scrambleDie_evolves
  apply State.modDie_evolves
  assumption
  exact fun _ => rfl

theorem execDieIsolate_evolves {r s : State} {die passed tests} (h : Evolves r s) :
    OutEvolves r (execDieIsolate die passed tests s) := by
  unfold execDieIsolate
  apply OutEvolves.ite
  apply OutEvolves.next
  apply Evolves.ite
  apply State.isolate_evolves
  assumption
  assumption
  exact OutEvolves.fault

/-! ### Export -/

theorem State.copyArea_evolves {r s : State} {old c} (h : Evolves r s) :
    Evolves r (State.copyArea s old c) := by
  unfold State.copyArea
  split
  apply State.putArea_evolves
  assumption
  assumption

theorem execCommitCopyRebuilt_evolves {r s : State} {readBack} (h : Evolves r s) :
    OutEvolves r (execCommitCopyRebuilt readBack s) := by
  unfold execCommitCopyRebuilt
  apply OutEvolves.ite
  · dsimp only
    apply OutEvolves.next
    apply State.inCascade_evolves
    refine Evolves.foldl _ _ (State.newCascade_evolves ?_) fun _ _ => State.raise_evolves
    refine Evolves.getD _ ?_ fun _ => State.writeCopies_evolves ?_
    all_goals
      refine Evolves.record ?_ rfl rfl rfl rfl rfl rfl rfl
      exact Evolves.foldl _ _ h fun _ _ => State.copyArea_evolves
  · exact OutEvolves.next h

theorem State.endExports_evolves {r s : State} {l : List Export} {w : Sweep} (h : Evolves r s) :
    Evolves r { s with
      exports := l
      hbm := s.hbm.map fun k => { k with bsus := k.bsus.map fun b => { b with exportPending := false } }
      sweep := w } :=
  h.trans { Evolves.refl s with
    hbm := List.length_map _
    stack := fun k => map_all k fun _ k => Stack.mapBsus_shape k fun _ k => k.record }

theorem State.dropExport_evolves {r s : State} {x' st} (h : Evolves r s) :
    Evolves r (State.dropExport s x' st) := by
  unfold State.dropExport
  apply State.exportsDone_evolves
  apply State.inCascade_evolves
  apply State.raise_evolves
  apply State.newCascade_evolves
  apply State.popExport_evolves
  assumption

theorem State.takeEncoder_evolves {r s : State} {r'} (h : Evolves r s) :
    Evolves r (State.takeEncoder s r') := by
  unfold State.takeEncoder
  apply Evolves.ite
  assumption
  apply State.takeUnit_evolves
  assumption

theorem State.countEncoded_evolves {r s : State} {die x' bs} (h : Evolves r s) :
    Evolves r (State.countEncoded s die x' bs) := by
  unfold State.countEncoded
  dsimp only
  apply State.modFtc_evolves
  assumption

theorem State.askExport_evolves {r s : State} {l} (h : Evolves r s) :
    Evolves r (State.askExport s l) := by
  unfold State.askExport
  apply Evolves.foldl
  apply Evolves.foldl
  assumption
  intro _
  intro _
  intro _
  apply State.modBsu_evolves
  assumption
  exact fun _ k => k.record
  intro _
  intro _
  intro _
  apply State.wakeBsu_evolves
  assumption

theorem execExportStart_evolves {r s : State} (h : Evolves r s) : OutEvolves r (execExportStart s) := by
  have k : ∀ o : Option StreamRef, Evolves r ((o.map s.takeEncoder).getD s) :=
    fun o => Evolves.getD o h fun _ => State.takeEncoder_evolves h
  unfold execExportStart
  split
  · split
    · exact OutEvolves.next h
    · dsimp only
      apply OutEvolves.ite (OutEvolves.next h)
      split
      · exact OutEvolves.next (State.inCascade_evolves (State.exportFails_evolves h))
      · apply OutEvolves.ite (OutEvolves.next (State.dropExport_evolves h))
        apply OutEvolves.ite (OutEvolves.next (k _))
        refine OutEvolves.next (State.askExport_evolves (Evolves.record ?_ rfl rfl rfl rfl rfl rfl rfl))
        exact Evolves.foldl _ _ (k _) fun _ _ => State.countEncoded_evolves
  · exact OutEvolves.next h

theorem execExportComplete_evolves {r s : State} (h : Evolves r s) :
    OutEvolves r (execExportComplete s) := by
  unfold execExportComplete
  split
  apply OutEvolves.ite
  dsimp only
  apply OutEvolves.next
  apply State.exportsDone_evolves
  apply State.popExport_evolves
  refine Evolves.record ?_ rfl rfl rfl rfl rfl rfl rfl
  apply Evolves.ite
  apply State.hostWrite_evolves
  assumption
  split
  apply State.modPort_evolves
  assumption
  exact fun _ k => k.record
  assumption
  apply OutEvolves.next
  assumption
  apply OutEvolves.next
  assumption

/-! ### I3cBus -/

theorem State.i3cReply_evolves {r s : State} {served b} (h : Evolves r s) :
    Evolves r (State.i3cReply s served b) := by
  unfold State.i3cReply
  refine Evolves.record ?_ rfl rfl rfl rfl rfl rfl rfl
  assumption

theorem execI3cStatus_evolves {r s : State} (h : Evolves r s) :
    OutEvolves r (execI3cStatus s) := by
  unfold execI3cStatus
  apply OutEvolves.ite
  apply OutEvolves.next
  apply State.i3cReply_evolves
  assumption
  apply OutEvolves.next
  assumption

theorem execI3cEntdaa_evolves {r s : State} {addr} (h : Evolves r s) :
    OutEvolves r (execI3cEntdaa addr s) := by
  unfold execI3cEntdaa
  apply OutEvolves.ite
  apply OutEvolves.next
  refine Evolves.record ?_ rfl rfl rfl rfl rfl rfl rfl
  assumption
  apply OutEvolves.next
  assumption

theorem State.i3cRefuse_evolves {r s : State} (h : Evolves r s) :
    Evolves r (State.i3cRefuse s) := by
  unfold State.i3cRefuse
  apply State.i3cReply_evolves
  assumption

theorem execI3cRecords_evolves {r s : State} {fromSeq count} (h : Evolves r s) :
    OutEvolves r (execI3cRecords fromSeq count s) := by
  unfold execI3cRecords
  apply OutEvolves.ite
  apply OutEvolves.next
  assumption
  apply OutEvolves.ite
  apply OutEvolves.next
  apply State.i3cRefuse_evolves
  assumption
  split
  apply OutEvolves.next
  apply State.i3cReply_evolves
  refine Evolves.record ?_ rfl rfl rfl rfl rfl rfl rfl
  assumption

theorem execI3cEvents_evolves {r s : State} {fromSeq count} (h : Evolves r s) :
    OutEvolves r (execI3cEvents fromSeq count s) := by
  unfold execI3cEvents
  apply OutEvolves.ite
  apply OutEvolves.next
  assumption
  apply OutEvolves.ite
  apply OutEvolves.next
  apply State.i3cRefuse_evolves
  assumption
  apply OutEvolves.next
  apply State.i3cReply_evolves
  assumption

theorem execI3cRegister_evolves {r s : State} {addr words} (h : Evolves r s) :
    OutEvolves r (execI3cRegister addr words s) := by
  unfold execI3cRegister
  apply OutEvolves.ite
  apply OutEvolves.next
  assumption
  apply OutEvolves.ite
  apply OutEvolves.next
  apply State.i3cRefuse_evolves
  assumption
  apply OutEvolves.next
  apply State.i3cReply_evolves
  assumption

theorem execI3cDisec_evolves {r s : State} (h : Evolves r s) :
    OutEvolves r (execI3cDisec s) := by
  unfold execI3cDisec
  apply OutEvolves.ite
  apply OutEvolves.next
  refine Evolves.record ?_ rfl rfl rfl rfl rfl rfl rfl
  assumption
  apply OutEvolves.next
  assumption

theorem execI3cSetdasa_evolves {r s : State} {addr} (h : Evolves r s) :
    OutEvolves r (execI3cSetdasa addr s) := by
  unfold execI3cSetdasa
  apply OutEvolves.ite
  apply OutEvolves.next
  refine Evolves.record ?_ rfl rfl rfl rfl rfl rfl rfl
  assumption
  apply OutEvolves.next
  assumption

/-! ### Ports -/

theorem Port.acked_shape {x : Port} {seq} (h : x.Shape) :
    (Port.acked x seq).Shape := by
  unfold Port.acked
  split
  refine Port.Shape.record ?_
  assumption
  assumption

theorem Port.replayAll_shape {x : Port} {now} (h : x.Shape) :
    (Port.replayAll now x).Shape := by
  unfold Port.replayAll
  refine Port.Shape.record ?_
  assumption

theorem Port.takeFlit_shape {x : Port} {now f} (h : x.Shape) :
    (Port.takeFlit now f x).Shape := by
  unfold Port.takeFlit
  dsimp only
  apply Port.pump_shape
  refine Port.Shape.record ?_
  split
  apply Port.replayAll_shape
  split
  apply Port.acked_shape
  assumption
  assumption
  split
  apply Port.acked_shape
  assumption
  assumption

theorem execPortLightReturn_evolves {r s : State} {port} (h : Evolves r s) :
    OutEvolves r (execPortLightReturn port s) := by
  unfold execPortLightReturn
  apply OutEvolves.ite
  apply OutEvolves.next
  apply Evolves.ite
  apply State.modPort_evolves
  assumption
  exact fun _ k => k.record
  assumption
  exact OutEvolves.fault

theorem Port.freshLink_shape {x : Port} (h : x.Shape) :
    (Port.freshLink x).Shape := by
  unfold Port.freshLink
  refine Port.Shape.record ?_
  assumption

theorem State.portBack_evolves {r s : State} {n} (h : Evolves r s) :
    Evolves r (State.portBack s n) := by
  unfold State.portBack
  apply Evolves.ite
  apply State.raise_evolves
  apply State.modPort_evolves
  assumption
  exact fun _ k => k.record
  assumption

theorem execPortTrainingComplete_evolves {r s : State} {port tests} (h : Evolves r s) :
    OutEvolves r (execPortTrainingComplete port tests s) := by
  unfold execPortTrainingComplete
  apply OutEvolves.ite
  apply OutEvolves.ite
  split
  apply OutEvolves.ite
  apply OutEvolves.next
  apply State.failPort_evolves
  apply State.raiseNewlyRetired_evolves
  refine Evolves.of_pair ‹_› ?_
  apply State.trainGroup_evolves
  apply State.newCascade_evolves
  assumption
  dsimp only
  apply OutEvolves.next
  apply State.sendHello_evolves
  apply State.portBack_evolves
  apply Evolves.ite
  apply State.raise_evolves
  apply State.raiseNewlyRetired_evolves
  apply State.modPort_evolves
  refine Evolves.of_pair ‹_› ?_
  apply State.trainGroup_evolves
  apply State.newCascade_evolves
  assumption
  intro _
  intro _
  refine Port.Shape.record ?_
  apply Port.freshLink_shape
  assumption
  apply State.raiseNewlyRetired_evolves
  apply State.modPort_evolves
  refine Evolves.of_pair ‹_› ?_
  apply State.trainGroup_evolves
  apply State.newCascade_evolves
  assumption
  intro _
  intro _
  refine Port.Shape.record ?_
  apply Port.freshLink_shape
  assumption
  apply OutEvolves.next
  assumption
  exact OutEvolves.fault

theorem execEthernetLaneFailure_evolves {r s : State} {port lane} (h : Evolves r s) :
    OutEvolves r (execEthernetLaneFailure port lane s) := by
  unfold execEthernetLaneFailure
  apply OutEvolves.ite
  apply OutEvolves.ite
  dsimp only
  apply OutEvolves.next
  apply State.raise_evolves
  apply State.newCascade_evolves
  apply Evolves.ite
  apply State.cutExports_evolves
  apply State.modPort_evolves
  assumption
  exact fun _ k => k.record
  apply State.modPort_evolves
  assumption
  exact fun _ k => k.record
  apply OutEvolves.next
  assumption
  exact OutEvolves.fault

theorem Port.goodFlit_shape {x : Port} {now f} (h : x.Shape) :
    (Port.goodFlit now f x).Shape := by
  unfold Port.goodFlit
  dsimp only
  split
  apply Port.takeFlit_shape
  assumption
  split
  refine Port.Shape.record ?_
  apply Port.takeFlit_shape
  assumption
  refine Port.Shape.record ?_
  apply Port.takeFlit_shape
  assumption

theorem execQuiesce_evolves {r s : State} {port} (h : Evolves r s) :
    OutEvolves r (execQuiesce port s) := by
  unfold execQuiesce
  apply OutEvolves.ite
  apply OutEvolves.next
  apply Evolves.ite
  apply State.modPort_evolves
  assumption
  exact fun _ k => k.record
  assumption
  exact OutEvolves.fault

theorem State.frame_evolves {r s : State} {port answered f} (h : Evolves r s) (hf : ∀ p, p.Shape → (f p).Shape) :
    OutEvolves r (State.frame s port answered f) :=
  OutEvolves.ite (OutEvolves.next (Evolves.ite (State.modPort_evolves h fun _ q => (hf _ q).record) h))
    OutEvolves.fault

theorem execCnpReceive_evolves {r s : State} {port} (h : Evolves r s) :
    OutEvolves r (execCnpReceive port s) := by
  unfold execCnpReceive
  apply State.frame_evolves
  apply State.takeFree_evolves
  assumption
  exact fun _ k => k.record

theorem execArpAndNeighbourDiscovery_evolves {r s : State} {port} (h : Evolves r s) :
    OutEvolves r (execArpAndNeighbourDiscovery port s) := by
  unfold execArpAndNeighbourDiscovery
  apply State.frame_evolves
  assumption
  exact fun _ k => k.record

theorem State.takeHello_evolves {r s : State} {n rank port} (h : Evolves r s) :
    Evolves r (State.takeHello s n rank port) := by
  unfold State.takeHello
  dsimp only
  apply Evolves.ite
  apply Evolves.ite
  apply State.modPort_evolves
  assumption
  exact fun _ k => k.record
  apply State.raise_evolves
  apply State.newCascade_evolves
  apply State.modPort_evolves
  apply State.modPort_evolves
  assumption
  exact fun _ k => k.record
  exact fun _ k => k.record
  apply Evolves.ite
  apply State.modPort_evolves
  apply State.modPort_evolves
  assumption
  exact fun _ k => k.record
  exact fun _ k => k.record
  apply State.modPort_evolves
  assumption
  exact fun _ k => k.record

theorem execFlitReceive_evolves {r s : State} {port flit} (h : Evolves r s) :
    OutEvolves r (execFlitReceive port flit s) := by
  unfold execFlitReceive
  apply OutEvolves.ite
  dsimp only
  apply OutEvolves.next
  apply Evolves.ite
  apply State.modPort_evolves
  assumption
  intro _
  intro _
  split
  apply Port.goodFlit_shape
  assumption
  refine Port.Shape.record ?_
  assumption
  assumption
  exact OutEvolves.fault

theorem execFlitAckTimeout_evolves {r s : State} {port} (h : Evolves r s) :
    OutEvolves r (execFlitAckTimeout port s) := by
  unfold execFlitAckTimeout
  apply OutEvolves.ite
  dsimp only
  apply OutEvolves.next
  apply Evolves.ite
  apply State.modPort_evolves
  apply State.advanceTo_evolves
  assumption
  intro _
  intro _
  apply Port.replayAll_shape
  assumption
  assumption
  exact OutEvolves.fault

theorem State.addPeerChange_evolves {r s : State} {n c} (h : Evolves r s) :
    Evolves r (State.addPeerChange s n c) := by
  unfold State.addPeerChange
  apply State.modPort_evolves
  assumption
  exact fun _ k => k.record

theorem execLaneChange_evolves {r s : State} {port lane width} (h : Evolves r s) :
    OutEvolves r (execLaneChange port lane width s) := by
  unfold execLaneChange
  apply OutEvolves.ite
  dsimp only
  apply OutEvolves.ite
  apply OutEvolves.next
  apply State.addPeerChange_evolves
  apply Evolves.ite
  apply State.modLane_evolves
  assumption
  assumption
  apply OutEvolves.next
  assumption
  exact OutEvolves.fault

theorem execRetrainRequest_evolves {r s : State} {port lane} (h : Evolves r s) :
    OutEvolves r (execRetrainRequest port lane s) := by
  unfold execRetrainRequest
  apply OutEvolves.ite
  apply OutEvolves.next
  apply Evolves.ite
  apply State.addPeerChange_evolves
  assumption
  assumption
  exact OutEvolves.fault

theorem State.helloTurn_evolves {r s : State} {n} (h : Evolves r s) :
    Evolves r (State.helloTurn s n) := by
  unfold State.helloTurn
  dsimp only
  apply Evolves.ite
  apply State.modPort_evolves
  assumption
  exact fun _ k => k.record
  apply Evolves.ite
  apply State.modPort_evolves
  assumption
  exact fun _ k => k.record
  apply State.sendOn_evolves
  assumption

theorem execHelloReceive_evolves {r s : State} {port pkt} (h : Evolves r s) :
    OutEvolves r (execHelloReceive port pkt s) := by
  unfold execHelloReceive
  apply OutEvolves.ite
  apply OutEvolves.ite
  split
  apply OutEvolves.next
  refine Evolves.of_pair ‹_› ?_
  apply State.letIn_evolves
  apply State.freed_evolves
  assumption
  dsimp only
  apply OutEvolves.next
  apply State.checkHello_evolves
  apply State.helloTurn_evolves
  apply State.takeHello_evolves
  refine Evolves.of_pair ‹_› ?_
  apply State.letIn_evolves
  apply State.freed_evolves
  assumption
  apply OutEvolves.next
  assumption
  exact OutEvolves.fault

theorem execPortPeerLoss_evolves {r s : State} {port} (h : Evolves r s) :
    OutEvolves r (execPortPeerLoss port s) := by
  unfold execPortPeerLoss
  apply OutEvolves.ite
  dsimp only
  apply OutEvolves.ite
  apply OutEvolves.next
  apply State.modPort_evolves
  apply State.failPort_evolves
  apply State.newCascade_evolves
  assumption
  exact fun _ k => k.record
  apply OutEvolves.next
  assumption
  exact OutEvolves.fault

theorem execEthernetLinkUp_evolves {r s : State} {port} (h : Evolves r s) :
    OutEvolves r (execEthernetLinkUp port s) := by
  unfold execEthernetLinkUp
  apply OutEvolves.ite
  apply OutEvolves.next
  apply Evolves.ite
  apply State.modPort_evolves
  assumption
  exact fun _ k => k.record
  assumption
  exact OutEvolves.fault

theorem execEthernetRetrain_evolves {r s : State} {port passed} (h : Evolves r s) :
    OutEvolves r (execEthernetRetrain port passed s) := by
  unfold execEthernetRetrain
  apply OutEvolves.ite
  apply OutEvolves.ite
  dsimp only
  apply OutEvolves.next
  apply State.modPort_evolves
  apply State.advanceTo_evolves
  assumption
  intro _
  intro _
  split
  refine Port.Shape.record ?_
  assumption
  refine Port.Shape.record ?_
  assumption
  apply OutEvolves.next
  assumption
  exact OutEvolves.fault

theorem execEthernetInboundRequest_evolves {r s : State} {port} (h : Evolves r s) :
    OutEvolves r (execEthernetInboundRequest port s) := by
  unfold execEthernetInboundRequest
  apply State.frame_evolves
  assumption
  exact fun _ k => k.record

theorem execEcnMarkedTraffic_evolves {r s : State} {port} (h : Evolves r s) :
    OutEvolves r (execEcnMarkedTraffic port s) := by
  unfold execEcnMarkedTraffic
  apply State.frame_evolves
  assumption
  exact fun _ k => k.record

/-! ### Snuffer -/

theorem State.snuffSample_evolves {r s : State} {powerMw cd iod} (h : Evolves r s) :
    Evolves r (State.snuffSample s powerMw cd iod) := by
  unfold State.snuffSample
  dsimp only
  refine Evolves.record ?_ rfl rfl rfl rfl rfl rfl rfl
  assumption

theorem execTileHold_evolves {r s : State} {d p start} (h : Evolves r s) :
    OutEvolves r (execTileHold d p start s) := by
  unfold execTileHold
  apply OutEvolves.ite
  dsimp only
  apply OutEvolves.ite
  apply OutEvolves.ite
  apply OutEvolves.next
  apply State.modTile_evolves
  apply State.endStall_evolves
  apply State.advanceTo_evolves
  assumption
  exact fun _ k => k.record
  apply OutEvolves.next
  assumption
  apply OutEvolves.ite
  apply OutEvolves.next
  apply State.settle_evolves
  refine Evolves.record ?_ rfl rfl rfl rfl rfl rfl rfl
  apply State.modTile_evolves
  apply Evolves.ite
  apply State.addStall_evolves
  apply State.advanceTo_evolves
  assumption
  apply State.advanceTo_evolves
  assumption
  exact fun _ k => k.record
  apply OutEvolves.next
  assumption
  exact OutEvolves.fault

theorem execThermRelease_evolves {r s : State} (h : Evolves r s) :
    OutEvolves r (execThermRelease s) := by
  unfold execThermRelease
  split
  apply OutEvolves.ite
  apply OutEvolves.next
  dsimp only
  refine Evolves.record ?_ rfl rfl rfl rfl rfl rfl rfl
  apply State.advanceTo_evolves
  assumption
  apply OutEvolves.next
  assumption
  apply OutEvolves.next
  assumption

theorem State.setLevel_evolves {r s : State} {n} (h : Evolves r s) : Evolves r (State.setLevel s n) :=
  h.trans { Evolves.refl s with hbm := List.length_map _, stack := fun k => map_all k fun _ q => q.record }

theorem execSnufferLower_evolves {r s : State} (h : Evolves r s) :
    OutEvolves r (execSnufferLower s) := by
  unfold execSnufferLower
  split
  apply OutEvolves.ite
  dsimp only
  apply OutEvolves.next
  refine Evolves.record ?_ rfl rfl rfl rfl rfl rfl rfl
  apply State.setLevel_evolves
  apply State.advanceTo_evolves
  assumption
  apply OutEvolves.next
  assumption
  apply OutEvolves.next
  assumption

theorem execThermAssert_evolves {r s : State} (h : Evolves r s) :
    OutEvolves r (execThermAssert s) := by
  unfold execThermAssert
  apply OutEvolves.ite
  dsimp only
  apply OutEvolves.ite
  apply OutEvolves.next
  refine Evolves.record ?_ rfl rfl rfl rfl rfl rfl rfl
  assumption
  split
  apply OutEvolves.next
  refine Evolves.record ?_ rfl rfl rfl rfl rfl rfl rfl
  apply State.advanceTo_evolves
  assumption
  apply OutEvolves.next
  assumption
  apply OutEvolves.next
  assumption

theorem State.raiseLevel_evolves {r s : State} {byPower byTemp} (h : Evolves r s) :
    Evolves r (State.raiseLevel s byPower byTemp) := by
  unfold State.raiseLevel
  apply Evolves.ite
  apply State.setLevel_evolves
  refine Evolves.record ?_ rfl rfl rfl rfl rfl rfl rfl
  assumption
  assumption

theorem execSnufferWindow_evolves {r s : State} {powerMw cdTempMax iodTemp} (h : Evolves r s) :
    OutEvolves r (execSnufferWindow powerMw cdTempMax iodTemp s) := by
  unfold execSnufferWindow
  apply OutEvolves.ite
  dsimp only
  apply OutEvolves.ite
  apply OutEvolves.next
  apply State.raiseLevel_evolves
  apply State.snuffSample_evolves
  apply State.advanceTo_evolves
  assumption
  apply OutEvolves.next
  apply State.snuffSample_evolves
  apply State.advanceTo_evolves
  assumption
  apply OutEvolves.next
  assumption

end Sys2Proof.Machine
end

