-- ==== Sys2Proof/Laws/EvolvesI.lean ====
section
/-! SUPPORT. What each operation and each command of these files of Machine/ keeps: Dispatch, Step. -/

namespace Sys2Proof.Machine

open Sys2Proof

/-! ### Dispatch -/

theorem exec_evolves {r s : State} (h : Evolves r s) (i : Instr) (hi : ∀ n q, i ≠ .setProtection n q) :
    OutEvolves r (exec i s) :=
  match i, hi with
  | .queryIdentity .., _ => execQueryIdentity_evolves h
  | .queryState .., _ => execQueryState_evolves h
  | .attach .., _ => execAttach_evolves h
  | .readTelemetry .., _ => execReadTelemetry_evolves h
  | .readEvents .., _ => execReadEvents_evolves h
  | .openSession .., _ => execOpenSession_evolves h
  | .setProtection n q, hi => absurd rfl (hi n q)
  | .mapRegion .., _ => execMapRegion_evolves h
  | .setPolicy .., _ => execSetPolicy_evolves h
  | .setCredential .., _ => execSetCredential_evolves h
  | .loadProgram .., _ => execLoadProgram_evolves h
  | .runStep .., _ => execRunStep_evolves h
  | .abortStep .., _ => execAbortStep_evolves h
  | .drain .., _ => execDrain_evolves h
  | .resume .., _ => execResume_evolves h
  | .selfTest .., _ => execSelfTest_evolves h
  | .retireUnitRetire .., _ => execRetireUnitRetire_evolves h
  | .retireUnitRestore .., _ => execRetireUnitRestore_evolves h
  | .stageBundle .., _ => execStageBundle_evolves h
  | .activateBundle .., _ => execActivateBundle_evolves h
  | .activateBundleCancel .., _ => execActivateBundleCancel_evolves h
  | .attest .., _ => execAttest_evolves h
  | .resetDevice .., _ => execResetDevice_evolves h
  | .ownerLockoutExpiry, _ => execOwnerLockoutExpiry_evolves h
  | .doorbellOverrun .., _ => execDoorbellOverrun_evolves h
  | .registerWrite .., _ => execRegisterWrite_evolves h
  | .memwinBaseWrite .., _ => execMemwinBaseWrite_evolves h
  | .intStatusClear .., _ => execIntStatusClear_evolves h
  | .hostErrClear .., _ => execHostErrClear_evolves h
  | .dmaTailWrite .., _ => execDmaTailWrite_evolves h
  | .dmaRestart .., _ => execDmaRestart_evolves h
  | .dmaDescriptorComplete .., _ => execDmaDescriptorComplete_evolves h
  | .bar2Read .., _ => execBar2Read_evolves h
  | .bar2Write .., _ => execBar2Write_evolves h
  | .hostReadTimeout .., _ => execHostReadTimeout_evolves h
  | .hostLinkRetrainComplete, _ => execHostLinkRetrainComplete_evolves h
  | .hostLinkLoss, _ => execHostLinkLoss_evolves h
  | .perstAssert, _ => execPerstAssert_evolves h
  | .hostLinkReturn .., _ => execHostLinkReturn_evolves h
  | .vddPilotUp, _ => execVddPilotUp_evolves h
  | .vddPilotLoss, _ => execVddPilotLoss_evolves h
  | .devResetNRelease .., _ => execDevResetNRelease_evolves h
  | .devResetNAssert, _ => execDevResetNAssert_evolves h
  | .railExcursion .., _ => execRailExcursion_evolves h
  | .railsRestored, _ => execRailsRestored_evolves h
  | .wake .., _ => execWake_evolves h
  | .partStartupTimeout, _ => execPartStartupTimeout_evolves h
  | .partStartupPass .., _ => execPartStartupPass_evolves h
  | .linkTrainingComplete .., _ => execLinkTrainingComplete_evolves h
  | .ringTuningTick .., _ => execRingTuningTick_evolves h
  | .ringOutOfLock .., _ => execRingOutOfLock_evolves h
  | .laneThresholdCrossing .., _ => execLaneThresholdCrossing_evolves h
  | .laneLossOfSignal .., _ => execLaneLossOfSignal_evolves h
  | .quiescePoint .., _ => execQuiescePoint_evolves h
  | .laneRetrainComplete .., _ => execLaneRetrainComplete_evolves h
  | .backgroundRetrain .., _ => execBackgroundRetrain_evolves h
  | .spareLaneRotation .., _ => execSpareLaneRotation_evolves h
  | .bundleIssue .., _ => execBundleIssue_evolves h
  | .arrayNop .., _ => execArrayNop_evolves h
  | .matmul .., _ => execMatmul_evolves h
  | .pairBackward .., _ => execPairBackward_evolves h
  | .arrayPassWriteBack .., _ => execArrayPassWriteBack_evolves h
  | .arrayOpComplete .., _ => execArrayOpComplete_evolves h
  | .flickerReplay .., _ => execFlickerReplay_evolves h
  | .arrayRetired .., _ => execArrayRetired_evolves h
  | .spareSubstitutionComplete .., _ => execSpareSubstitutionComplete_evolves h
  | .tileRetired .., _ => execTileRetired_evolves h
  | .vectorNop .., _ => execVectorNop_evolves h
  | .vectorAdd .., _ => execVectorAdd_evolves h
  | .vectorSub .., _ => execVectorSub_evolves h
  | .vectorMul .., _ => execVectorMul_evolves h
  | .vectorFma .., _ => execVectorFma_evolves h
  | .vectorAxpy .., _ => execVectorAxpy_evolves h
  | .vectorMax .., _ => execVectorMax_evolves h
  | .vectorMin .., _ => execVectorMin_evolves h
  | .vectorExp .., _ => execVectorExp_evolves h
  | .vectorLog .., _ => execVectorLog_evolves h
  | .vectorRcp .., _ => execVectorRcp_evolves h
  | .vectorRsqrt .., _ => execVectorRsqrt_evolves h
  | .vectorSum .., _ => execVectorSum_evolves h
  | .vectorAmax .., _ => execVectorAmax_evolves h
  | .vectorConvert .., _ => execVectorConvert_evolves h
  | .vectorAccum .., _ => execVectorAccum_evolves h
  | .vectorDropout .., _ => execVectorDropout_evolves h
  | .vectorCopy .., _ => execVectorCopy_evolves h
  | .vectorOpComplete .., _ => execVectorOpComplete_evolves h
  | .streamSlotNop .., _ => execStreamSlotNop_evolves h
  | .bind .., _ => execBind_evolves h
  | .start .., _ => execStart_evolves h
  | .consume .., _ => execConsume_evolves h
  | .unbind .., _ => execUnbind_evolves h
  | .controlNop .., _ => execControlNop_evolves h
  | .wait .., _ => execWait_evolves h
  | .signal .., _ => execSignal_evolves h
  | .signalArrival .., _ => execSignalArrival_evolves h
  | .yieldPoint .., _ => execYieldPoint_evolves h
  | .barrier .., _ => execBarrier_evolves h
  | .barrierOpen .., _ => execBarrierOpen_evolves h
  | .xfer .., _ => execXfer_evolves h
  | .xferComplete .., _ => execXferComplete_evolves h
  | .coll .., _ => execColl_evolves h
  | .fence .., _ => execFence_evolves h
  | .fenceComplete .., _ => execFenceComplete_evolves h
  | .halt .., _ => execHalt_evolves h
  | .contextHalted .., _ => execContextHalted_evolves h
  | .nextBundle .., _ => execNextBundle_evolves h
  | .loopBegin .., _ => execLoopBegin_evolves h
  | .loopBeginP .., _ => execLoopBeginP_evolves h
  | .loopEnd .., _ => execLoopEnd_evolves h
  | .jump .., _ => execJump_evolves h
  | .segment .., _ => execSegment_evolves h
  | .segmentLoadComplete .., _ => execSegmentLoadComplete_evolves h
  | .padd .., _ => execPadd_evolves h
  | .pset .., _ => execPset_evolves h
  | .jumpIfGe .., _ => execJumpIfGe_evolves h
  | .contextSwitchComplete .., _ => execContextSwitchComplete_evolves h
  | .tileIdleDark .., _ => execTileIdleDark_evolves h
  | .tileLit .., _ => execTileLit_evolves h
  | .streamEnd .., _ => execStreamEnd_evolves h
  | .streamSeta .., _ => execStreamSeta_evolves h
  | .streamSets .., _ => execStreamSets_evolves h
  | .streamAdds .., _ => execStreamAdds_evolves h
  | .streamAddq .., _ => execStreamAddq_evolves h
  | .streamLoop .., _ => execStreamLoop_evolves h
  | .streamLoopq .., _ => execStreamLoopq_evolves h
  | .streamEndloop .., _ => execStreamEndloop_evolves h
  | .streamMove .., _ => execStreamMove_evolves h
  | .streamIndex .., _ => execStreamIndex_evolves h
  | .streamBackPressureResume .., _ => execStreamBackPressureResume_evolves h
  | .requestLanded .., _ => execRequestLanded_evolves h
  | .streamError .., _ => execStreamError_evolves h
  | .noProgress .., _ => execNoProgress_evolves h
  | .arbiterGrant .., _ => execArbiterGrant_evolves h
  | .ftcUnitGrant .., _ => execFtcUnitGrant_evolves h
  | .stepComputeStart, _ => execStepComputeStart_evolves h
  | .stepOpenComplete, _ => execStepOpenComplete_evolves h
  | .stepStatsComplete, _ => execStepStatsComplete_evolves h
  | .recordStatsComplete, _ => execRecordStatsComplete_evolves h
  | .sweepComplete, _ => execSweepComplete_evolves h
  | .digestExchangeComplete, _ => execDigestExchangeComplete_evolves h
  | .commitReadyComplete, _ => execCommitReadyComplete_evolves h
  | .stepEnd, _ => execStepEnd_evolves h
  | .exportStart, _ => execExportStart_evolves h
  | .exportComplete, _ => execExportComplete_evolves h
  | .gradientClearComplete, _ => execGradientClearComplete_evolves h
  | .commitCopyRebuilt .., _ => execCommitCopyRebuilt_evolves h
  | .bsuAdd .., _ => execBsuAdd_evolves h
  | .bsuMul .., _ => execBsuMul_evolves h
  | .bsuAxpy .., _ => execBsuAxpy_evolves h
  | .bsuScale .., _ => execBsuScale_evolves h
  | .bsuFill .., _ => execBsuFill_evolves h
  | .bsuCopy .., _ => execBsuCopy_evolves h
  | .bsuConvert .., _ => execBsuConvert_evolves h
  | .bsuAccum .., _ => execBsuAccum_evolves h
  | .bsuSum .., _ => execBsuSum_evolves h
  | .bsuNorm2 .., _ => execBsuNorm2_evolves h
  | .bsuAmax .., _ => execBsuAmax_evolves h
  | .bsuGather .., _ => execBsuGather_evolves h
  | .bsuScatterAdd .., _ => execBsuScatterAdd_evolves h
  | .bsuStream .., _ => execBsuStream_evolves h
  | .landingAccum .., _ => execLandingAccum_evolves h
  | .bsuSliceEnd .., _ => execBsuSliceEnd_evolves h
  | .bsuOperationComplete .., _ => execBsuOperationComplete_evolves h
  | .bsuOperationError .., _ => execBsuOperationError_evolves h
  | .bsuIdleDark .., _ => execBsuIdleDark_evolves h
  | .bsuLit .., _ => execBsuLit_evolves h
  | .bsuDutyWindow .., _ => execBsuDutyWindow_evolves h
  | .refreshDue .., _ => execRefreshDue_evolves h
  | .refreshForced .., _ => execRefreshForced_evolves h
  | .refreshManagement .., _ => execRefreshManagement_evolves h
  | .patrolScrubSector .., _ => execPatrolScrubSector_evolves h
  | .scrubLate .., _ => execScrubLate_evolves h
  | .stackSensorSample .., _ => execStackSensorSample_evolves h
  | .stageFall .., _ => execStageFall_evolves h
  | .channelRetired .., _ => execChannelRetired_evolves h
  | .phyCalibration .., _ => execPhyCalibration_evolves h
  | .sharedPageRetired .., _ => execSharedPageRetired_evolves h
  | .beaconPageReplaced .., _ => execBeaconPageReplaced_evolves h
  | .sharedQuarterDark .., _ => execSharedQuarterDark_evolves h
  | .sharedQuarterLit .., _ => execSharedQuarterLit_evolves h
  | .sramScrubWord .., _ => execSramScrubWord_evolves h
  | .laserTracking .., _ => execLaserTracking_evolves h
  | .laserOutputDrop .., _ => execLaserOutputDrop_evolves h
  | .flashRelocation .., _ => execFlashRelocation_evolves h
  | .telemetrySample .., _ => execTelemetrySample_evolves h
  | .snufferWindow .., _ => execSnufferWindow_evolves h
  | .snufferLower, _ => execSnufferLower_evolves h
  | .tileHold .., _ => execTileHold_evolves h
  | .thermAssert, _ => execThermAssert_evolves h
  | .thermRelease, _ => execThermRelease_evolves h
  | .lamplighterRestart .., _ => execLamplighterRestart_evolves h
  | .uncontained cause, _ => execUncontained_evolves (a0 := cause) h
  | .flitReceive .., _ => execFlitReceive_evolves h
  | .flitAckTimeout .., _ => execFlitAckTimeout_evolves h
  | .laneChange .., _ => execLaneChange_evolves h
  | .retrainRequest .., _ => execRetrainRequest_evolves h
  | .quiesce .., _ => execQuiesce_evolves h
  | .packetForward .., _ => execPacketForward_evolves h
  | .putReceive .., _ => execPutReceive_evolves h
  | .packetAckReceive .., _ => execPacketAckReceive_evolves h
  | .nackReceive .., _ => execNackReceive_evolves h
  | .collDataReceive .., _ => execCollDataReceive_evolves h
  | .collFlagReceive .., _ => execCollFlagReceive_evolves h
  | .abortReceive .., _ => execAbortReceive_evolves h
  | .helloReceive .., _ => execHelloReceive_evolves h
  | .putTimeout .., _ => execPutTimeout_evolves h
  | .collectiveStall .., _ => execCollectiveStall_evolves h
  | .collectiveComplete .., _ => execCollectiveComplete_evolves h
  | .portPeerLoss .., _ => execPortPeerLoss_evolves h
  | .portTrainingComplete .., _ => execPortTrainingComplete_evolves h
  | .ethernetLinkUp .., _ => execEthernetLinkUp_evolves h
  | .ethernetLaneFailure .., _ => execEthernetLaneFailure_evolves h
  | .ethernetRetrain .., _ => execEthernetRetrain_evolves h
  | .cnpReceive .., _ => execCnpReceive_evolves h
  | .ethernetInboundRequest .., _ => execEthernetInboundRequest_evolves h
  | .ethReadComplete .., _ => execEthReadComplete_evolves h
  | .i3cStatus, _ => execI3cStatus_evolves h
  | .i3cRecords .., _ => execI3cRecords_evolves h
  | .i3cEvents .., _ => execI3cEvents_evolves h
  | .i3cRegister .., _ => execI3cRegister_evolves h
  | .i3cDisec, _ => execI3cDisec_evolves h
  | .i3cSetdasa .., _ => execI3cSetdasa_evolves h
  | .i3cEntdaa .., _ => execI3cEntdaa_evolves h
  | .tinderHelp, _ => execTinderHelp_evolves h
  | .tinderStatus, _ => execTinderStatus_evolves h
  | .tinderUnlock .., _ => execTinderUnlock_evolves h
  | .tinderPeek .., _ => execTinderPeek_evolves h
  | .tinderPoke .., _ => execTinderPoke_evolves h
  | .tinderDump .., _ => execTinderDump_evolves h
  | .tinderTrace .., _ => execTinderTrace_evolves h
  | .tinderBreak, _ => execTinderBreak_evolves h
  | .tinderGo, _ => execTinderGo_evolves h
  | .tinderFuseDebug .., _ => execTinderFuseDebug_evolves h
  | .jtagFuseDebug, _ => execJtagFuseDebug_evolves h
  | .debugAccess .., _ => execDebugAccess_evolves h
  | .coreHalt .., _ => execCoreHalt_evolves h
  | .scanDump, _ => execScanDump_evolves h
  | .dieIsolate .., _ => execDieIsolate_evolves h
  | .hostLinkRetraining, _ => execHostLinkRetraining_evolves h
  | .openSessionHelloTimeout, _ => execOpenSessionHelloTimeout_evolves h
  | .hostSnoop, _ => execHostSnoop_evolves h
  | .arpAndNeighbourDiscovery .., _ => execArpAndNeighbourDiscovery_evolves h
  | .ecnMarkedTraffic .., _ => execEcnMarkedTraffic_evolves h
  | .portLightReturn .., _ => execPortLightReturn_evolves h
  | .badOpcode .., _ => execBadOpcode_evolves h
  | .flashAppendComplete .., _ => execFlashAppendComplete_evolves h

theorem exec_changes {r s : State} (h : Evolves r s) (i : Instr) : OutChanges r (exec i s) := by
  by_cases k : ∃ n q, i = .setProtection n q
  · obtain ⟨n, q, rfl⟩ := k
    exact execSetProtection_changes h
  · exact (exec_evolves h i fun n q e => k ⟨n, q, e⟩).changes

/-! ### Step -/

theorem State.withFetchWord_eq (s : State) (nbits w : Nat) : s.withFetchWord nbits w = s := rfl

theorem State.idle_pending {s : State} : s.idle.pending = s.pending := by
  unfold State.idle State.pilotStart
  split <;> rfl

theorem State.pending_tail {s : State} (h : s.pending = []) : { s with pending := s.pending.tail } = s := by
  cases s
  dsimp only at h ⊢
  rw [h]
  rfl

/-- A step takes the front of the queue, and its effect stands in the relation to the state without it. -/
theorem step_changes {s t : State} (h : step s = .next t) : Changes { s with pending := s.pending.tail } t := by
  unfold step at h
  split at h
  · rename_i e
    injection h with h
    rw [State.pending_tail e]
    exact h ▸ (State.idle_evolves (Evolves.refl s)).toChanges
  · rename_i c rest e
    have k := exec_changes (Evolves.refl { s with pending := rest }) c
    rw [h] at k
    rw [e]
    exact k

/-- The same where the front of the queue is not SET_PROTECTION. -/
theorem step_evolves {s t : State} (h : step s = .next t) (hc : ∀ n q, s.pending.head? ≠ some (.setProtection n q)) :
    Evolves { s with pending := s.pending.tail } t := by
  unfold step at h
  split at h
  · rename_i e
    injection h with h
    rw [State.pending_tail e]
    exact h ▸ State.idle_evolves (Evolves.refl s)
  · rename_i c rest e
    have k := exec_evolves (Evolves.refl { s with pending := rest }) c fun n q z => hc n q (by rw [e, z]; rfl)
    rw [h] at k
    rw [e]
    exact k

end Sys2Proof.Machine
end

