-- ==== Sys2Proof/Laws/State.lean ====
section
/-! SUPPORT. What each named update leaves alone, one lemma per field, and what a read of a unit finds after it. -/

namespace Sys2Proof.Machine

/-! ### Lists with one element changed -/

theorem length_modAt {α : Type} (l : List α) (i : Nat) (f : α → α) : (modAt l i f).length = l.length := by
  simp [modAt]

theorem modAt_getD_self {α : Type} (l : List α) (i : Nat) (f : α → α) (x : α) (h : i < l.length) :
    (modAt l i f).getD i x = f (l.getD i x) := by
  simp [modAt, List.getD, h]

theorem modAt_getD_ne {α : Type} (l : List α) (i j : Nat) (f : α → α) (x : α) (h : i ≠ j) :
    (modAt l i f).getD j x = l.getD j x := by
  simp [modAt, List.getD, List.getElem?_modify, h]

theorem modAt_modAt {α : Type} (l : List α) (i : Nat) (f g : α → α) :
    modAt (modAt l i f) i g = modAt l i (fun x => g (f x)) := by
  simp only [modAt]
  rw [List.modify_modify_eq]
  rfl

theorem modAt_id {α : Type} (l : List α) (i : Nat) : modAt l i (fun x => x) = l := by
  simp only [modAt]
  exact List.modify_id _ _

/-! ### Fields that an update leaves alone -/


@[simp] theorem State.modTile_pending (s : State) (d p : Nat) (f : Tile → Tile) : (s.modTile d p f).pending = s.pending := rfl
@[simp] theorem State.modTile_dev (s : State) (d p : Nat) (f : Tile → Tile) : (s.modTile d p f).dev = s.dev := rfl
@[simp] theorem State.modTile_now (s : State) (d p : Nat) (f : Tile → Tile) : (s.modTile d p f).now = s.now := rfl
@[simp] theorem State.modTile_freeCount (s : State) (d p : Nat) (f : Tile → Tile) : (s.modTile d p f).freeCount = s.freeCount := rfl
@[simp] theorem State.modTile_pilot (s : State) (d p : Nat) (f : Tile → Tile) : (s.modTile d p f).pilot = s.pilot := rfl
@[simp] theorem State.modTile_fuses (s : State) (d p : Nat) (f : Tile → Tile) : (s.modTile d p f).fuses = s.fuses := rfl
@[simp] theorem State.modTile_flash (s : State) (d p : Nat) (f : Tile → Tile) : (s.modTile d p f).flash = s.flash := rfl
@[simp] theorem State.modTile_bundle (s : State) (d p : Nat) (f : Tile → Tile) : (s.modTile d p f).bundle = s.bundle := rfl
@[simp] theorem State.modTile_events (s : State) (d p : Nat) (f : Tile → Tile) : (s.modTile d p f).events = s.events := rfl
@[simp] theorem State.modTile_tele (s : State) (d p : Nat) (f : Tile → Tile) : (s.modTile d p f).tele = s.tele := rfl
@[simp] theorem State.modTile_i3c (s : State) (d p : Nat) (f : Tile → Tile) : (s.modTile d p f).i3c = s.i3c := rfl
@[simp] theorem State.modTile_tinder (s : State) (d p : Nat) (f : Tile → Tile) : (s.modTile d p f).tinder = s.tinder := rfl
@[simp] theorem State.modTile_dies (s : State) (d p : Nat) (f : Tile → Tile) : (s.modTile d p f).dies = s.dies := rfl
@[simp] theorem State.modTile_floor (s : State) (d p : Nat) (f : Tile → Tile) : (s.modTile d p f).floor = s.floor := rfl
@[simp] theorem State.modTile_links (s : State) (d p : Nat) (f : Tile → Tile) : (s.modTile d p f).links = s.links := rfl
@[simp] theorem State.modTile_copper (s : State) (d p : Nat) (f : Tile → Tile) : (s.modTile d p f).copper = s.copper := rfl
@[simp] theorem State.modTile_lasers (s : State) (d p : Nat) (f : Tile → Tile) : (s.modTile d p f).lasers = s.lasers := rfl
@[simp] theorem State.modTile_ports (s : State) (d p : Nat) (f : Tile → Tile) : (s.modTile d p f).ports = s.ports := rfl
@[simp] theorem State.modTile_beacon (s : State) (d p : Nat) (f : Tile → Tile) : (s.modTile d p f).beacon = s.beacon := rfl
@[simp] theorem State.modTile_ftc (s : State) (d p : Nat) (f : Tile → Tile) : (s.modTile d p f).ftc = s.ftc := rfl
@[simp] theorem State.modTile_hbm (s : State) (d p : Nat) (f : Tile → Tile) : (s.modTile d p f).hbm = s.hbm := rfl
@[simp] theorem State.modTile_bsuOps (s : State) (d p : Nat) (f : Tile → Tile) : (s.modTile d p f).bsuOps = s.bsuOps := rfl
@[simp] theorem State.modTile_nextBsuOp (s : State) (d p : Nat) (f : Tile → Tile) : (s.modTile d p f).nextBsuOp = s.nextBsuOp := rfl
@[simp] theorem State.modTile_host (s : State) (d p : Nat) (f : Tile → Tile) : (s.modTile d p f).host = s.host := rfl
@[simp] theorem State.modTile_lamp (s : State) (d p : Nat) (f : Tile → Tile) : (s.modTile d p f).lamp = s.lamp := rfl
@[simp] theorem State.modTile_session (s : State) (d p : Nat) (f : Tile → Tile) : (s.modTile d p f).session = s.session := rfl
@[simp] theorem State.modTile_program (s : State) (d p : Nat) (f : Tile → Tile) : (s.modTile d p f).program = s.program := rfl
@[simp] theorem State.modTile_fonts (s : State) (d p : Nat) (f : Tile → Tile) : (s.modTile d p f).fonts = s.fonts := rfl
@[simp] theorem State.modTile_commit (s : State) (d p : Nat) (f : Tile → Tile) : (s.modTile d p f).commit = s.commit := rfl
@[simp] theorem State.modTile_copyChannels (s : State) (d p : Nat) (f : Tile → Tile) : (s.modTile d p f).copyChannels = s.copyChannels := rfl
@[simp] theorem State.modTile_sweep (s : State) (d p : Nat) (f : Tile → Tile) : (s.modTile d p f).sweep = s.sweep := rfl
@[simp] theorem State.modTile_exports (s : State) (d p : Nat) (f : Tile → Tile) : (s.modTile d p f).exports = s.exports := rfl
@[simp] theorem State.modTile_stateBlock (s : State) (d p : Nat) (f : Tile → Tile) : (s.modTile d p f).stateBlock = s.stateBlock := rfl
@[simp] theorem State.modTile_g4e (s : State) (d p : Nat) (f : Tile → Tile) : (s.modTile d p f).g4e = s.g4e := rfl
@[simp] theorem State.modTile_run (s : State) (d p : Nat) (f : Tile → Tile) : (s.modTile d p f).run = s.run := rfl
@[simp] theorem State.modTile_clearing (s : State) (d p : Nat) (f : Tile → Tile) : (s.modTile d p f).clearing = s.clearing := rfl
@[simp] theorem State.modTile_clearSince (s : State) (d p : Nat) (f : Tile → Tile) : (s.modTile d p f).clearSince = s.clearSince := rfl
@[simp] theorem State.modTile_stopped (s : State) (d p : Nat) (f : Tile → Tile) : (s.modTile d p f).stopped = s.stopped := rfl
@[simp] theorem State.modTile_requests (s : State) (d p : Nat) (f : Tile → Tile) : (s.modTile d p f).requests = s.requests := rfl
@[simp] theorem State.modTile_nextReq (s : State) (d p : Nat) (f : Tile → Tile) : (s.modTile d p f).nextReq = s.nextReq := rfl
@[simp] theorem State.modTile_signals (s : State) (d p : Nat) (f : Tile → Tile) : (s.modTile d p f).signals = s.signals := rfl
@[simp] theorem State.modTile_barriers (s : State) (d p : Nat) (f : Tile → Tile) : (s.modTile d p f).barriers = s.barriers := rfl
@[simp] theorem State.modTile_sharedLit (s : State) (d p : Nat) (f : Tile → Tile) : (s.modTile d p f).sharedLit = s.sharedLit := rfl
@[simp] theorem State.modTile_sharedAccess (s : State) (d p : Nat) (f : Tile → Tile) : (s.modTile d p f).sharedAccess = s.sharedAccess := rfl
@[simp] theorem State.modTile_sharedRetired (s : State) (d p : Nat) (f : Tile → Tile) : (s.modTile d p f).sharedRetired = s.sharedRetired := rfl
@[simp] theorem State.modTile_sharedTimes (s : State) (d p : Nat) (f : Tile → Tile) : (s.modTile d p f).sharedTimes = s.sharedTimes := rfl
@[simp] theorem State.modTile_sharedCorrected (s : State) (d p : Nat) (f : Tile → Tile) : (s.modTile d p f).sharedCorrected = s.sharedCorrected := rfl
@[simp] theorem State.modTile_sharedScrambled (s : State) (d p : Nat) (f : Tile → Tile) : (s.modTile d p f).sharedScrambled = s.sharedScrambled := rfl
@[simp] theorem State.modTile_timerBase (s : State) (d p : Nat) (f : Tile → Tile) : (s.modTile d p f).timerBase = s.timerBase := rfl
@[simp] theorem State.modTile_mem (s : State) (d p : Nat) (f : Tile → Tile) : (s.modTile d p f).mem = s.mem := rfl
@[simp] theorem State.modTile_hostMem (s : State) (d p : Nat) (f : Tile → Tile) : (s.modTile d p f).hostMem = s.hostMem := rfl
@[simp] theorem State.modTile_badSectors (s : State) (d p : Nat) (f : Tile → Tile) : (s.modTile d p f).badSectors = s.badSectors := rfl

@[simp] theorem State.mapTiles_pending (s : State) (f : Tile → Tile) : (s.mapTiles f).pending = s.pending := rfl
@[simp] theorem State.mapTiles_dev (s : State) (f : Tile → Tile) : (s.mapTiles f).dev = s.dev := rfl
@[simp] theorem State.mapTiles_now (s : State) (f : Tile → Tile) : (s.mapTiles f).now = s.now := rfl
@[simp] theorem State.mapTiles_freeCount (s : State) (f : Tile → Tile) : (s.mapTiles f).freeCount = s.freeCount := rfl
@[simp] theorem State.mapTiles_pilot (s : State) (f : Tile → Tile) : (s.mapTiles f).pilot = s.pilot := rfl
@[simp] theorem State.mapTiles_fuses (s : State) (f : Tile → Tile) : (s.mapTiles f).fuses = s.fuses := rfl
@[simp] theorem State.mapTiles_flash (s : State) (f : Tile → Tile) : (s.mapTiles f).flash = s.flash := rfl
@[simp] theorem State.mapTiles_bundle (s : State) (f : Tile → Tile) : (s.mapTiles f).bundle = s.bundle := rfl
@[simp] theorem State.mapTiles_events (s : State) (f : Tile → Tile) : (s.mapTiles f).events = s.events := rfl
@[simp] theorem State.mapTiles_tele (s : State) (f : Tile → Tile) : (s.mapTiles f).tele = s.tele := rfl
@[simp] theorem State.mapTiles_i3c (s : State) (f : Tile → Tile) : (s.mapTiles f).i3c = s.i3c := rfl
@[simp] theorem State.mapTiles_tinder (s : State) (f : Tile → Tile) : (s.mapTiles f).tinder = s.tinder := rfl
@[simp] theorem State.mapTiles_dies (s : State) (f : Tile → Tile) : (s.mapTiles f).dies = s.dies := rfl
@[simp] theorem State.mapTiles_floor (s : State) (f : Tile → Tile) : (s.mapTiles f).floor = s.floor := rfl
@[simp] theorem State.mapTiles_links (s : State) (f : Tile → Tile) : (s.mapTiles f).links = s.links := rfl
@[simp] theorem State.mapTiles_copper (s : State) (f : Tile → Tile) : (s.mapTiles f).copper = s.copper := rfl
@[simp] theorem State.mapTiles_lasers (s : State) (f : Tile → Tile) : (s.mapTiles f).lasers = s.lasers := rfl
@[simp] theorem State.mapTiles_ports (s : State) (f : Tile → Tile) : (s.mapTiles f).ports = s.ports := rfl
@[simp] theorem State.mapTiles_beacon (s : State) (f : Tile → Tile) : (s.mapTiles f).beacon = s.beacon := rfl
@[simp] theorem State.mapTiles_ftc (s : State) (f : Tile → Tile) : (s.mapTiles f).ftc = s.ftc := rfl
@[simp] theorem State.mapTiles_hbm (s : State) (f : Tile → Tile) : (s.mapTiles f).hbm = s.hbm := rfl
@[simp] theorem State.mapTiles_bsuOps (s : State) (f : Tile → Tile) : (s.mapTiles f).bsuOps = s.bsuOps := rfl
@[simp] theorem State.mapTiles_nextBsuOp (s : State) (f : Tile → Tile) : (s.mapTiles f).nextBsuOp = s.nextBsuOp := rfl
@[simp] theorem State.mapTiles_host (s : State) (f : Tile → Tile) : (s.mapTiles f).host = s.host := rfl
@[simp] theorem State.mapTiles_lamp (s : State) (f : Tile → Tile) : (s.mapTiles f).lamp = s.lamp := rfl
@[simp] theorem State.mapTiles_session (s : State) (f : Tile → Tile) : (s.mapTiles f).session = s.session := rfl
@[simp] theorem State.mapTiles_program (s : State) (f : Tile → Tile) : (s.mapTiles f).program = s.program := rfl
@[simp] theorem State.mapTiles_fonts (s : State) (f : Tile → Tile) : (s.mapTiles f).fonts = s.fonts := rfl
@[simp] theorem State.mapTiles_commit (s : State) (f : Tile → Tile) : (s.mapTiles f).commit = s.commit := rfl
@[simp] theorem State.mapTiles_copyChannels (s : State) (f : Tile → Tile) : (s.mapTiles f).copyChannels = s.copyChannels := rfl
@[simp] theorem State.mapTiles_sweep (s : State) (f : Tile → Tile) : (s.mapTiles f).sweep = s.sweep := rfl
@[simp] theorem State.mapTiles_exports (s : State) (f : Tile → Tile) : (s.mapTiles f).exports = s.exports := rfl
@[simp] theorem State.mapTiles_stateBlock (s : State) (f : Tile → Tile) : (s.mapTiles f).stateBlock = s.stateBlock := rfl
@[simp] theorem State.mapTiles_g4e (s : State) (f : Tile → Tile) : (s.mapTiles f).g4e = s.g4e := rfl
@[simp] theorem State.mapTiles_run (s : State) (f : Tile → Tile) : (s.mapTiles f).run = s.run := rfl
@[simp] theorem State.mapTiles_clearing (s : State) (f : Tile → Tile) : (s.mapTiles f).clearing = s.clearing := rfl
@[simp] theorem State.mapTiles_clearSince (s : State) (f : Tile → Tile) : (s.mapTiles f).clearSince = s.clearSince := rfl
@[simp] theorem State.mapTiles_stopped (s : State) (f : Tile → Tile) : (s.mapTiles f).stopped = s.stopped := rfl
@[simp] theorem State.mapTiles_requests (s : State) (f : Tile → Tile) : (s.mapTiles f).requests = s.requests := rfl
@[simp] theorem State.mapTiles_nextReq (s : State) (f : Tile → Tile) : (s.mapTiles f).nextReq = s.nextReq := rfl
@[simp] theorem State.mapTiles_signals (s : State) (f : Tile → Tile) : (s.mapTiles f).signals = s.signals := rfl
@[simp] theorem State.mapTiles_barriers (s : State) (f : Tile → Tile) : (s.mapTiles f).barriers = s.barriers := rfl
@[simp] theorem State.mapTiles_sharedLit (s : State) (f : Tile → Tile) : (s.mapTiles f).sharedLit = s.sharedLit := rfl
@[simp] theorem State.mapTiles_sharedAccess (s : State) (f : Tile → Tile) : (s.mapTiles f).sharedAccess = s.sharedAccess := rfl
@[simp] theorem State.mapTiles_sharedRetired (s : State) (f : Tile → Tile) : (s.mapTiles f).sharedRetired = s.sharedRetired := rfl
@[simp] theorem State.mapTiles_sharedTimes (s : State) (f : Tile → Tile) : (s.mapTiles f).sharedTimes = s.sharedTimes := rfl
@[simp] theorem State.mapTiles_sharedCorrected (s : State) (f : Tile → Tile) : (s.mapTiles f).sharedCorrected = s.sharedCorrected := rfl
@[simp] theorem State.mapTiles_sharedScrambled (s : State) (f : Tile → Tile) : (s.mapTiles f).sharedScrambled = s.sharedScrambled := rfl
@[simp] theorem State.mapTiles_timerBase (s : State) (f : Tile → Tile) : (s.mapTiles f).timerBase = s.timerBase := rfl
@[simp] theorem State.mapTiles_mem (s : State) (f : Tile → Tile) : (s.mapTiles f).mem = s.mem := rfl
@[simp] theorem State.mapTiles_hostMem (s : State) (f : Tile → Tile) : (s.mapTiles f).hostMem = s.hostMem := rfl
@[simp] theorem State.mapTiles_badSectors (s : State) (f : Tile → Tile) : (s.mapTiles f).badSectors = s.badSectors := rfl

@[simp] theorem State.modCtx_pending (s : State) (d p n : Nat) (f : Context → Context) : (s.modCtx d p n f).pending = s.pending := rfl
@[simp] theorem State.modCtx_dev (s : State) (d p n : Nat) (f : Context → Context) : (s.modCtx d p n f).dev = s.dev := rfl
@[simp] theorem State.modCtx_now (s : State) (d p n : Nat) (f : Context → Context) : (s.modCtx d p n f).now = s.now := rfl
@[simp] theorem State.modCtx_freeCount (s : State) (d p n : Nat) (f : Context → Context) : (s.modCtx d p n f).freeCount = s.freeCount := rfl
@[simp] theorem State.modCtx_pilot (s : State) (d p n : Nat) (f : Context → Context) : (s.modCtx d p n f).pilot = s.pilot := rfl
@[simp] theorem State.modCtx_fuses (s : State) (d p n : Nat) (f : Context → Context) : (s.modCtx d p n f).fuses = s.fuses := rfl
@[simp] theorem State.modCtx_flash (s : State) (d p n : Nat) (f : Context → Context) : (s.modCtx d p n f).flash = s.flash := rfl
@[simp] theorem State.modCtx_bundle (s : State) (d p n : Nat) (f : Context → Context) : (s.modCtx d p n f).bundle = s.bundle := rfl
@[simp] theorem State.modCtx_events (s : State) (d p n : Nat) (f : Context → Context) : (s.modCtx d p n f).events = s.events := rfl
@[simp] theorem State.modCtx_tele (s : State) (d p n : Nat) (f : Context → Context) : (s.modCtx d p n f).tele = s.tele := rfl
@[simp] theorem State.modCtx_i3c (s : State) (d p n : Nat) (f : Context → Context) : (s.modCtx d p n f).i3c = s.i3c := rfl
@[simp] theorem State.modCtx_tinder (s : State) (d p n : Nat) (f : Context → Context) : (s.modCtx d p n f).tinder = s.tinder := rfl
@[simp] theorem State.modCtx_dies (s : State) (d p n : Nat) (f : Context → Context) : (s.modCtx d p n f).dies = s.dies := rfl
@[simp] theorem State.modCtx_floor (s : State) (d p n : Nat) (f : Context → Context) : (s.modCtx d p n f).floor = s.floor := rfl
@[simp] theorem State.modCtx_links (s : State) (d p n : Nat) (f : Context → Context) : (s.modCtx d p n f).links = s.links := rfl
@[simp] theorem State.modCtx_copper (s : State) (d p n : Nat) (f : Context → Context) : (s.modCtx d p n f).copper = s.copper := rfl
@[simp] theorem State.modCtx_lasers (s : State) (d p n : Nat) (f : Context → Context) : (s.modCtx d p n f).lasers = s.lasers := rfl
@[simp] theorem State.modCtx_ports (s : State) (d p n : Nat) (f : Context → Context) : (s.modCtx d p n f).ports = s.ports := rfl
@[simp] theorem State.modCtx_beacon (s : State) (d p n : Nat) (f : Context → Context) : (s.modCtx d p n f).beacon = s.beacon := rfl
@[simp] theorem State.modCtx_ftc (s : State) (d p n : Nat) (f : Context → Context) : (s.modCtx d p n f).ftc = s.ftc := rfl
@[simp] theorem State.modCtx_hbm (s : State) (d p n : Nat) (f : Context → Context) : (s.modCtx d p n f).hbm = s.hbm := rfl
@[simp] theorem State.modCtx_bsuOps (s : State) (d p n : Nat) (f : Context → Context) : (s.modCtx d p n f).bsuOps = s.bsuOps := rfl
@[simp] theorem State.modCtx_nextBsuOp (s : State) (d p n : Nat) (f : Context → Context) : (s.modCtx d p n f).nextBsuOp = s.nextBsuOp := rfl
@[simp] theorem State.modCtx_host (s : State) (d p n : Nat) (f : Context → Context) : (s.modCtx d p n f).host = s.host := rfl
@[simp] theorem State.modCtx_lamp (s : State) (d p n : Nat) (f : Context → Context) : (s.modCtx d p n f).lamp = s.lamp := rfl
@[simp] theorem State.modCtx_session (s : State) (d p n : Nat) (f : Context → Context) : (s.modCtx d p n f).session = s.session := rfl
@[simp] theorem State.modCtx_program (s : State) (d p n : Nat) (f : Context → Context) : (s.modCtx d p n f).program = s.program := rfl
@[simp] theorem State.modCtx_fonts (s : State) (d p n : Nat) (f : Context → Context) : (s.modCtx d p n f).fonts = s.fonts := rfl
@[simp] theorem State.modCtx_commit (s : State) (d p n : Nat) (f : Context → Context) : (s.modCtx d p n f).commit = s.commit := rfl
@[simp] theorem State.modCtx_copyChannels (s : State) (d p n : Nat) (f : Context → Context) : (s.modCtx d p n f).copyChannels = s.copyChannels := rfl
@[simp] theorem State.modCtx_sweep (s : State) (d p n : Nat) (f : Context → Context) : (s.modCtx d p n f).sweep = s.sweep := rfl
@[simp] theorem State.modCtx_exports (s : State) (d p n : Nat) (f : Context → Context) : (s.modCtx d p n f).exports = s.exports := rfl
@[simp] theorem State.modCtx_stateBlock (s : State) (d p n : Nat) (f : Context → Context) : (s.modCtx d p n f).stateBlock = s.stateBlock := rfl
@[simp] theorem State.modCtx_g4e (s : State) (d p n : Nat) (f : Context → Context) : (s.modCtx d p n f).g4e = s.g4e := rfl
@[simp] theorem State.modCtx_run (s : State) (d p n : Nat) (f : Context → Context) : (s.modCtx d p n f).run = s.run := rfl
@[simp] theorem State.modCtx_clearing (s : State) (d p n : Nat) (f : Context → Context) : (s.modCtx d p n f).clearing = s.clearing := rfl
@[simp] theorem State.modCtx_clearSince (s : State) (d p n : Nat) (f : Context → Context) : (s.modCtx d p n f).clearSince = s.clearSince := rfl
@[simp] theorem State.modCtx_stopped (s : State) (d p n : Nat) (f : Context → Context) : (s.modCtx d p n f).stopped = s.stopped := rfl
@[simp] theorem State.modCtx_requests (s : State) (d p n : Nat) (f : Context → Context) : (s.modCtx d p n f).requests = s.requests := rfl
@[simp] theorem State.modCtx_nextReq (s : State) (d p n : Nat) (f : Context → Context) : (s.modCtx d p n f).nextReq = s.nextReq := rfl
@[simp] theorem State.modCtx_signals (s : State) (d p n : Nat) (f : Context → Context) : (s.modCtx d p n f).signals = s.signals := rfl
@[simp] theorem State.modCtx_barriers (s : State) (d p n : Nat) (f : Context → Context) : (s.modCtx d p n f).barriers = s.barriers := rfl
@[simp] theorem State.modCtx_sharedLit (s : State) (d p n : Nat) (f : Context → Context) : (s.modCtx d p n f).sharedLit = s.sharedLit := rfl
@[simp] theorem State.modCtx_sharedAccess (s : State) (d p n : Nat) (f : Context → Context) : (s.modCtx d p n f).sharedAccess = s.sharedAccess := rfl
@[simp] theorem State.modCtx_sharedRetired (s : State) (d p n : Nat) (f : Context → Context) : (s.modCtx d p n f).sharedRetired = s.sharedRetired := rfl
@[simp] theorem State.modCtx_sharedTimes (s : State) (d p n : Nat) (f : Context → Context) : (s.modCtx d p n f).sharedTimes = s.sharedTimes := rfl
@[simp] theorem State.modCtx_sharedCorrected (s : State) (d p n : Nat) (f : Context → Context) : (s.modCtx d p n f).sharedCorrected = s.sharedCorrected := rfl
@[simp] theorem State.modCtx_sharedScrambled (s : State) (d p n : Nat) (f : Context → Context) : (s.modCtx d p n f).sharedScrambled = s.sharedScrambled := rfl
@[simp] theorem State.modCtx_timerBase (s : State) (d p n : Nat) (f : Context → Context) : (s.modCtx d p n f).timerBase = s.timerBase := rfl
@[simp] theorem State.modCtx_mem (s : State) (d p n : Nat) (f : Context → Context) : (s.modCtx d p n f).mem = s.mem := rfl
@[simp] theorem State.modCtx_hostMem (s : State) (d p n : Nat) (f : Context → Context) : (s.modCtx d p n f).hostMem = s.hostMem := rfl
@[simp] theorem State.modCtx_badSectors (s : State) (d p n : Nat) (f : Context → Context) : (s.modCtx d p n f).badSectors = s.badSectors := rfl

@[simp] theorem State.modStack_pending (s : State) (st : Nat) (f : Stack → Stack) : (s.modStack st f).pending = s.pending := rfl
@[simp] theorem State.modStack_dev (s : State) (st : Nat) (f : Stack → Stack) : (s.modStack st f).dev = s.dev := rfl
@[simp] theorem State.modStack_now (s : State) (st : Nat) (f : Stack → Stack) : (s.modStack st f).now = s.now := rfl
@[simp] theorem State.modStack_freeCount (s : State) (st : Nat) (f : Stack → Stack) : (s.modStack st f).freeCount = s.freeCount := rfl
@[simp] theorem State.modStack_pilot (s : State) (st : Nat) (f : Stack → Stack) : (s.modStack st f).pilot = s.pilot := rfl
@[simp] theorem State.modStack_fuses (s : State) (st : Nat) (f : Stack → Stack) : (s.modStack st f).fuses = s.fuses := rfl
@[simp] theorem State.modStack_flash (s : State) (st : Nat) (f : Stack → Stack) : (s.modStack st f).flash = s.flash := rfl
@[simp] theorem State.modStack_bundle (s : State) (st : Nat) (f : Stack → Stack) : (s.modStack st f).bundle = s.bundle := rfl
@[simp] theorem State.modStack_events (s : State) (st : Nat) (f : Stack → Stack) : (s.modStack st f).events = s.events := rfl
@[simp] theorem State.modStack_tele (s : State) (st : Nat) (f : Stack → Stack) : (s.modStack st f).tele = s.tele := rfl
@[simp] theorem State.modStack_i3c (s : State) (st : Nat) (f : Stack → Stack) : (s.modStack st f).i3c = s.i3c := rfl
@[simp] theorem State.modStack_tinder (s : State) (st : Nat) (f : Stack → Stack) : (s.modStack st f).tinder = s.tinder := rfl
@[simp] theorem State.modStack_dies (s : State) (st : Nat) (f : Stack → Stack) : (s.modStack st f).dies = s.dies := rfl
@[simp] theorem State.modStack_floor (s : State) (st : Nat) (f : Stack → Stack) : (s.modStack st f).floor = s.floor := rfl
@[simp] theorem State.modStack_links (s : State) (st : Nat) (f : Stack → Stack) : (s.modStack st f).links = s.links := rfl
@[simp] theorem State.modStack_copper (s : State) (st : Nat) (f : Stack → Stack) : (s.modStack st f).copper = s.copper := rfl
@[simp] theorem State.modStack_lasers (s : State) (st : Nat) (f : Stack → Stack) : (s.modStack st f).lasers = s.lasers := rfl
@[simp] theorem State.modStack_ports (s : State) (st : Nat) (f : Stack → Stack) : (s.modStack st f).ports = s.ports := rfl
@[simp] theorem State.modStack_beacon (s : State) (st : Nat) (f : Stack → Stack) : (s.modStack st f).beacon = s.beacon := rfl
@[simp] theorem State.modStack_ftc (s : State) (st : Nat) (f : Stack → Stack) : (s.modStack st f).ftc = s.ftc := rfl
@[simp] theorem State.modStack_tiles (s : State) (st : Nat) (f : Stack → Stack) : (s.modStack st f).tiles = s.tiles := rfl
@[simp] theorem State.modStack_bsuOps (s : State) (st : Nat) (f : Stack → Stack) : (s.modStack st f).bsuOps = s.bsuOps := rfl
@[simp] theorem State.modStack_nextBsuOp (s : State) (st : Nat) (f : Stack → Stack) : (s.modStack st f).nextBsuOp = s.nextBsuOp := rfl
@[simp] theorem State.modStack_host (s : State) (st : Nat) (f : Stack → Stack) : (s.modStack st f).host = s.host := rfl
@[simp] theorem State.modStack_lamp (s : State) (st : Nat) (f : Stack → Stack) : (s.modStack st f).lamp = s.lamp := rfl
@[simp] theorem State.modStack_session (s : State) (st : Nat) (f : Stack → Stack) : (s.modStack st f).session = s.session := rfl
@[simp] theorem State.modStack_program (s : State) (st : Nat) (f : Stack → Stack) : (s.modStack st f).program = s.program := rfl
@[simp] theorem State.modStack_fonts (s : State) (st : Nat) (f : Stack → Stack) : (s.modStack st f).fonts = s.fonts := rfl
@[simp] theorem State.modStack_commit (s : State) (st : Nat) (f : Stack → Stack) : (s.modStack st f).commit = s.commit := rfl
@[simp] theorem State.modStack_copyChannels (s : State) (st : Nat) (f : Stack → Stack) : (s.modStack st f).copyChannels = s.copyChannels := rfl
@[simp] theorem State.modStack_sweep (s : State) (st : Nat) (f : Stack → Stack) : (s.modStack st f).sweep = s.sweep := rfl
@[simp] theorem State.modStack_exports (s : State) (st : Nat) (f : Stack → Stack) : (s.modStack st f).exports = s.exports := rfl
@[simp] theorem State.modStack_stateBlock (s : State) (st : Nat) (f : Stack → Stack) : (s.modStack st f).stateBlock = s.stateBlock := rfl
@[simp] theorem State.modStack_g4e (s : State) (st : Nat) (f : Stack → Stack) : (s.modStack st f).g4e = s.g4e := rfl
@[simp] theorem State.modStack_run (s : State) (st : Nat) (f : Stack → Stack) : (s.modStack st f).run = s.run := rfl
@[simp] theorem State.modStack_clearing (s : State) (st : Nat) (f : Stack → Stack) : (s.modStack st f).clearing = s.clearing := rfl
@[simp] theorem State.modStack_clearSince (s : State) (st : Nat) (f : Stack → Stack) : (s.modStack st f).clearSince = s.clearSince := rfl
@[simp] theorem State.modStack_stopped (s : State) (st : Nat) (f : Stack → Stack) : (s.modStack st f).stopped = s.stopped := rfl
@[simp] theorem State.modStack_requests (s : State) (st : Nat) (f : Stack → Stack) : (s.modStack st f).requests = s.requests := rfl
@[simp] theorem State.modStack_nextReq (s : State) (st : Nat) (f : Stack → Stack) : (s.modStack st f).nextReq = s.nextReq := rfl
@[simp] theorem State.modStack_signals (s : State) (st : Nat) (f : Stack → Stack) : (s.modStack st f).signals = s.signals := rfl
@[simp] theorem State.modStack_barriers (s : State) (st : Nat) (f : Stack → Stack) : (s.modStack st f).barriers = s.barriers := rfl
@[simp] theorem State.modStack_sharedLit (s : State) (st : Nat) (f : Stack → Stack) : (s.modStack st f).sharedLit = s.sharedLit := rfl
@[simp] theorem State.modStack_sharedAccess (s : State) (st : Nat) (f : Stack → Stack) : (s.modStack st f).sharedAccess = s.sharedAccess := rfl
@[simp] theorem State.modStack_sharedRetired (s : State) (st : Nat) (f : Stack → Stack) : (s.modStack st f).sharedRetired = s.sharedRetired := rfl
@[simp] theorem State.modStack_sharedTimes (s : State) (st : Nat) (f : Stack → Stack) : (s.modStack st f).sharedTimes = s.sharedTimes := rfl
@[simp] theorem State.modStack_sharedCorrected (s : State) (st : Nat) (f : Stack → Stack) : (s.modStack st f).sharedCorrected = s.sharedCorrected := rfl
@[simp] theorem State.modStack_sharedScrambled (s : State) (st : Nat) (f : Stack → Stack) : (s.modStack st f).sharedScrambled = s.sharedScrambled := rfl
@[simp] theorem State.modStack_timerBase (s : State) (st : Nat) (f : Stack → Stack) : (s.modStack st f).timerBase = s.timerBase := rfl
@[simp] theorem State.modStack_mem (s : State) (st : Nat) (f : Stack → Stack) : (s.modStack st f).mem = s.mem := rfl
@[simp] theorem State.modStack_hostMem (s : State) (st : Nat) (f : Stack → Stack) : (s.modStack st f).hostMem = s.hostMem := rfl
@[simp] theorem State.modStack_badSectors (s : State) (st : Nat) (f : Stack → Stack) : (s.modStack st f).badSectors = s.badSectors := rfl

@[simp] theorem State.modChannel_pending (s : State) (st ch : Nat) (f : Channel → Channel) : (s.modChannel st ch f).pending = s.pending := rfl
@[simp] theorem State.modChannel_dev (s : State) (st ch : Nat) (f : Channel → Channel) : (s.modChannel st ch f).dev = s.dev := rfl
@[simp] theorem State.modChannel_now (s : State) (st ch : Nat) (f : Channel → Channel) : (s.modChannel st ch f).now = s.now := rfl
@[simp] theorem State.modChannel_freeCount (s : State) (st ch : Nat) (f : Channel → Channel) : (s.modChannel st ch f).freeCount = s.freeCount := rfl
@[simp] theorem State.modChannel_pilot (s : State) (st ch : Nat) (f : Channel → Channel) : (s.modChannel st ch f).pilot = s.pilot := rfl
@[simp] theorem State.modChannel_fuses (s : State) (st ch : Nat) (f : Channel → Channel) : (s.modChannel st ch f).fuses = s.fuses := rfl
@[simp] theorem State.modChannel_flash (s : State) (st ch : Nat) (f : Channel → Channel) : (s.modChannel st ch f).flash = s.flash := rfl
@[simp] theorem State.modChannel_bundle (s : State) (st ch : Nat) (f : Channel → Channel) : (s.modChannel st ch f).bundle = s.bundle := rfl
@[simp] theorem State.modChannel_events (s : State) (st ch : Nat) (f : Channel → Channel) : (s.modChannel st ch f).events = s.events := rfl
@[simp] theorem State.modChannel_tele (s : State) (st ch : Nat) (f : Channel → Channel) : (s.modChannel st ch f).tele = s.tele := rfl
@[simp] theorem State.modChannel_i3c (s : State) (st ch : Nat) (f : Channel → Channel) : (s.modChannel st ch f).i3c = s.i3c := rfl
@[simp] theorem State.modChannel_tinder (s : State) (st ch : Nat) (f : Channel → Channel) : (s.modChannel st ch f).tinder = s.tinder := rfl
@[simp] theorem State.modChannel_dies (s : State) (st ch : Nat) (f : Channel → Channel) : (s.modChannel st ch f).dies = s.dies := rfl
@[simp] theorem State.modChannel_floor (s : State) (st ch : Nat) (f : Channel → Channel) : (s.modChannel st ch f).floor = s.floor := rfl
@[simp] theorem State.modChannel_links (s : State) (st ch : Nat) (f : Channel → Channel) : (s.modChannel st ch f).links = s.links := rfl
@[simp] theorem State.modChannel_copper (s : State) (st ch : Nat) (f : Channel → Channel) : (s.modChannel st ch f).copper = s.copper := rfl
@[simp] theorem State.modChannel_lasers (s : State) (st ch : Nat) (f : Channel → Channel) : (s.modChannel st ch f).lasers = s.lasers := rfl
@[simp] theorem State.modChannel_ports (s : State) (st ch : Nat) (f : Channel → Channel) : (s.modChannel st ch f).ports = s.ports := rfl
@[simp] theorem State.modChannel_beacon (s : State) (st ch : Nat) (f : Channel → Channel) : (s.modChannel st ch f).beacon = s.beacon := rfl
@[simp] theorem State.modChannel_ftc (s : State) (st ch : Nat) (f : Channel → Channel) : (s.modChannel st ch f).ftc = s.ftc := rfl
@[simp] theorem State.modChannel_tiles (s : State) (st ch : Nat) (f : Channel → Channel) : (s.modChannel st ch f).tiles = s.tiles := rfl
@[simp] theorem State.modChannel_bsuOps (s : State) (st ch : Nat) (f : Channel → Channel) : (s.modChannel st ch f).bsuOps = s.bsuOps := rfl
@[simp] theorem State.modChannel_nextBsuOp (s : State) (st ch : Nat) (f : Channel → Channel) : (s.modChannel st ch f).nextBsuOp = s.nextBsuOp := rfl
@[simp] theorem State.modChannel_host (s : State) (st ch : Nat) (f : Channel → Channel) : (s.modChannel st ch f).host = s.host := rfl
@[simp] theorem State.modChannel_lamp (s : State) (st ch : Nat) (f : Channel → Channel) : (s.modChannel st ch f).lamp = s.lamp := rfl
@[simp] theorem State.modChannel_session (s : State) (st ch : Nat) (f : Channel → Channel) : (s.modChannel st ch f).session = s.session := rfl
@[simp] theorem State.modChannel_program (s : State) (st ch : Nat) (f : Channel → Channel) : (s.modChannel st ch f).program = s.program := rfl
@[simp] theorem State.modChannel_fonts (s : State) (st ch : Nat) (f : Channel → Channel) : (s.modChannel st ch f).fonts = s.fonts := rfl
@[simp] theorem State.modChannel_commit (s : State) (st ch : Nat) (f : Channel → Channel) : (s.modChannel st ch f).commit = s.commit := rfl
@[simp] theorem State.modChannel_copyChannels (s : State) (st ch : Nat) (f : Channel → Channel) : (s.modChannel st ch f).copyChannels = s.copyChannels := rfl
@[simp] theorem State.modChannel_sweep (s : State) (st ch : Nat) (f : Channel → Channel) : (s.modChannel st ch f).sweep = s.sweep := rfl
@[simp] theorem State.modChannel_exports (s : State) (st ch : Nat) (f : Channel → Channel) : (s.modChannel st ch f).exports = s.exports := rfl
@[simp] theorem State.modChannel_stateBlock (s : State) (st ch : Nat) (f : Channel → Channel) : (s.modChannel st ch f).stateBlock = s.stateBlock := rfl
@[simp] theorem State.modChannel_g4e (s : State) (st ch : Nat) (f : Channel → Channel) : (s.modChannel st ch f).g4e = s.g4e := rfl
@[simp] theorem State.modChannel_run (s : State) (st ch : Nat) (f : Channel → Channel) : (s.modChannel st ch f).run = s.run := rfl
@[simp] theorem State.modChannel_clearing (s : State) (st ch : Nat) (f : Channel → Channel) : (s.modChannel st ch f).clearing = s.clearing := rfl
@[simp] theorem State.modChannel_clearSince (s : State) (st ch : Nat) (f : Channel → Channel) : (s.modChannel st ch f).clearSince = s.clearSince := rfl
@[simp] theorem State.modChannel_stopped (s : State) (st ch : Nat) (f : Channel → Channel) : (s.modChannel st ch f).stopped = s.stopped := rfl
@[simp] theorem State.modChannel_requests (s : State) (st ch : Nat) (f : Channel → Channel) : (s.modChannel st ch f).requests = s.requests := rfl
@[simp] theorem State.modChannel_nextReq (s : State) (st ch : Nat) (f : Channel → Channel) : (s.modChannel st ch f).nextReq = s.nextReq := rfl
@[simp] theorem State.modChannel_signals (s : State) (st ch : Nat) (f : Channel → Channel) : (s.modChannel st ch f).signals = s.signals := rfl
@[simp] theorem State.modChannel_barriers (s : State) (st ch : Nat) (f : Channel → Channel) : (s.modChannel st ch f).barriers = s.barriers := rfl
@[simp] theorem State.modChannel_sharedLit (s : State) (st ch : Nat) (f : Channel → Channel) : (s.modChannel st ch f).sharedLit = s.sharedLit := rfl
@[simp] theorem State.modChannel_sharedAccess (s : State) (st ch : Nat) (f : Channel → Channel) : (s.modChannel st ch f).sharedAccess = s.sharedAccess := rfl
@[simp] theorem State.modChannel_sharedRetired (s : State) (st ch : Nat) (f : Channel → Channel) : (s.modChannel st ch f).sharedRetired = s.sharedRetired := rfl
@[simp] theorem State.modChannel_sharedTimes (s : State) (st ch : Nat) (f : Channel → Channel) : (s.modChannel st ch f).sharedTimes = s.sharedTimes := rfl
@[simp] theorem State.modChannel_sharedCorrected (s : State) (st ch : Nat) (f : Channel → Channel) : (s.modChannel st ch f).sharedCorrected = s.sharedCorrected := rfl
@[simp] theorem State.modChannel_sharedScrambled (s : State) (st ch : Nat) (f : Channel → Channel) : (s.modChannel st ch f).sharedScrambled = s.sharedScrambled := rfl
@[simp] theorem State.modChannel_timerBase (s : State) (st ch : Nat) (f : Channel → Channel) : (s.modChannel st ch f).timerBase = s.timerBase := rfl
@[simp] theorem State.modChannel_mem (s : State) (st ch : Nat) (f : Channel → Channel) : (s.modChannel st ch f).mem = s.mem := rfl
@[simp] theorem State.modChannel_hostMem (s : State) (st ch : Nat) (f : Channel → Channel) : (s.modChannel st ch f).hostMem = s.hostMem := rfl
@[simp] theorem State.modChannel_badSectors (s : State) (st ch : Nat) (f : Channel → Channel) : (s.modChannel st ch f).badSectors = s.badSectors := rfl

@[simp] theorem State.modBsu_pending (s : State) (st ch : Nat) (f : Bsu → Bsu) : (s.modBsu st ch f).pending = s.pending := rfl
@[simp] theorem State.modBsu_dev (s : State) (st ch : Nat) (f : Bsu → Bsu) : (s.modBsu st ch f).dev = s.dev := rfl
@[simp] theorem State.modBsu_now (s : State) (st ch : Nat) (f : Bsu → Bsu) : (s.modBsu st ch f).now = s.now := rfl
@[simp] theorem State.modBsu_freeCount (s : State) (st ch : Nat) (f : Bsu → Bsu) : (s.modBsu st ch f).freeCount = s.freeCount := rfl
@[simp] theorem State.modBsu_pilot (s : State) (st ch : Nat) (f : Bsu → Bsu) : (s.modBsu st ch f).pilot = s.pilot := rfl
@[simp] theorem State.modBsu_fuses (s : State) (st ch : Nat) (f : Bsu → Bsu) : (s.modBsu st ch f).fuses = s.fuses := rfl
@[simp] theorem State.modBsu_flash (s : State) (st ch : Nat) (f : Bsu → Bsu) : (s.modBsu st ch f).flash = s.flash := rfl
@[simp] theorem State.modBsu_bundle (s : State) (st ch : Nat) (f : Bsu → Bsu) : (s.modBsu st ch f).bundle = s.bundle := rfl
@[simp] theorem State.modBsu_events (s : State) (st ch : Nat) (f : Bsu → Bsu) : (s.modBsu st ch f).events = s.events := rfl
@[simp] theorem State.modBsu_tele (s : State) (st ch : Nat) (f : Bsu → Bsu) : (s.modBsu st ch f).tele = s.tele := rfl
@[simp] theorem State.modBsu_i3c (s : State) (st ch : Nat) (f : Bsu → Bsu) : (s.modBsu st ch f).i3c = s.i3c := rfl
@[simp] theorem State.modBsu_tinder (s : State) (st ch : Nat) (f : Bsu → Bsu) : (s.modBsu st ch f).tinder = s.tinder := rfl
@[simp] theorem State.modBsu_dies (s : State) (st ch : Nat) (f : Bsu → Bsu) : (s.modBsu st ch f).dies = s.dies := rfl
@[simp] theorem State.modBsu_floor (s : State) (st ch : Nat) (f : Bsu → Bsu) : (s.modBsu st ch f).floor = s.floor := rfl
@[simp] theorem State.modBsu_links (s : State) (st ch : Nat) (f : Bsu → Bsu) : (s.modBsu st ch f).links = s.links := rfl
@[simp] theorem State.modBsu_copper (s : State) (st ch : Nat) (f : Bsu → Bsu) : (s.modBsu st ch f).copper = s.copper := rfl
@[simp] theorem State.modBsu_lasers (s : State) (st ch : Nat) (f : Bsu → Bsu) : (s.modBsu st ch f).lasers = s.lasers := rfl
@[simp] theorem State.modBsu_ports (s : State) (st ch : Nat) (f : Bsu → Bsu) : (s.modBsu st ch f).ports = s.ports := rfl
@[simp] theorem State.modBsu_beacon (s : State) (st ch : Nat) (f : Bsu → Bsu) : (s.modBsu st ch f).beacon = s.beacon := rfl
@[simp] theorem State.modBsu_ftc (s : State) (st ch : Nat) (f : Bsu → Bsu) : (s.modBsu st ch f).ftc = s.ftc := rfl
@[simp] theorem State.modBsu_tiles (s : State) (st ch : Nat) (f : Bsu → Bsu) : (s.modBsu st ch f).tiles = s.tiles := rfl
@[simp] theorem State.modBsu_bsuOps (s : State) (st ch : Nat) (f : Bsu → Bsu) : (s.modBsu st ch f).bsuOps = s.bsuOps := rfl
@[simp] theorem State.modBsu_nextBsuOp (s : State) (st ch : Nat) (f : Bsu → Bsu) : (s.modBsu st ch f).nextBsuOp = s.nextBsuOp := rfl
@[simp] theorem State.modBsu_host (s : State) (st ch : Nat) (f : Bsu → Bsu) : (s.modBsu st ch f).host = s.host := rfl
@[simp] theorem State.modBsu_lamp (s : State) (st ch : Nat) (f : Bsu → Bsu) : (s.modBsu st ch f).lamp = s.lamp := rfl
@[simp] theorem State.modBsu_session (s : State) (st ch : Nat) (f : Bsu → Bsu) : (s.modBsu st ch f).session = s.session := rfl
@[simp] theorem State.modBsu_program (s : State) (st ch : Nat) (f : Bsu → Bsu) : (s.modBsu st ch f).program = s.program := rfl
@[simp] theorem State.modBsu_fonts (s : State) (st ch : Nat) (f : Bsu → Bsu) : (s.modBsu st ch f).fonts = s.fonts := rfl
@[simp] theorem State.modBsu_commit (s : State) (st ch : Nat) (f : Bsu → Bsu) : (s.modBsu st ch f).commit = s.commit := rfl
@[simp] theorem State.modBsu_copyChannels (s : State) (st ch : Nat) (f : Bsu → Bsu) : (s.modBsu st ch f).copyChannels = s.copyChannels := rfl
@[simp] theorem State.modBsu_sweep (s : State) (st ch : Nat) (f : Bsu → Bsu) : (s.modBsu st ch f).sweep = s.sweep := rfl
@[simp] theorem State.modBsu_exports (s : State) (st ch : Nat) (f : Bsu → Bsu) : (s.modBsu st ch f).exports = s.exports := rfl
@[simp] theorem State.modBsu_stateBlock (s : State) (st ch : Nat) (f : Bsu → Bsu) : (s.modBsu st ch f).stateBlock = s.stateBlock := rfl
@[simp] theorem State.modBsu_g4e (s : State) (st ch : Nat) (f : Bsu → Bsu) : (s.modBsu st ch f).g4e = s.g4e := rfl
@[simp] theorem State.modBsu_run (s : State) (st ch : Nat) (f : Bsu → Bsu) : (s.modBsu st ch f).run = s.run := rfl
@[simp] theorem State.modBsu_clearing (s : State) (st ch : Nat) (f : Bsu → Bsu) : (s.modBsu st ch f).clearing = s.clearing := rfl
@[simp] theorem State.modBsu_clearSince (s : State) (st ch : Nat) (f : Bsu → Bsu) : (s.modBsu st ch f).clearSince = s.clearSince := rfl
@[simp] theorem State.modBsu_stopped (s : State) (st ch : Nat) (f : Bsu → Bsu) : (s.modBsu st ch f).stopped = s.stopped := rfl
@[simp] theorem State.modBsu_requests (s : State) (st ch : Nat) (f : Bsu → Bsu) : (s.modBsu st ch f).requests = s.requests := rfl
@[simp] theorem State.modBsu_nextReq (s : State) (st ch : Nat) (f : Bsu → Bsu) : (s.modBsu st ch f).nextReq = s.nextReq := rfl
@[simp] theorem State.modBsu_signals (s : State) (st ch : Nat) (f : Bsu → Bsu) : (s.modBsu st ch f).signals = s.signals := rfl
@[simp] theorem State.modBsu_barriers (s : State) (st ch : Nat) (f : Bsu → Bsu) : (s.modBsu st ch f).barriers = s.barriers := rfl
@[simp] theorem State.modBsu_sharedLit (s : State) (st ch : Nat) (f : Bsu → Bsu) : (s.modBsu st ch f).sharedLit = s.sharedLit := rfl
@[simp] theorem State.modBsu_sharedAccess (s : State) (st ch : Nat) (f : Bsu → Bsu) : (s.modBsu st ch f).sharedAccess = s.sharedAccess := rfl
@[simp] theorem State.modBsu_sharedRetired (s : State) (st ch : Nat) (f : Bsu → Bsu) : (s.modBsu st ch f).sharedRetired = s.sharedRetired := rfl
@[simp] theorem State.modBsu_sharedTimes (s : State) (st ch : Nat) (f : Bsu → Bsu) : (s.modBsu st ch f).sharedTimes = s.sharedTimes := rfl
@[simp] theorem State.modBsu_sharedCorrected (s : State) (st ch : Nat) (f : Bsu → Bsu) : (s.modBsu st ch f).sharedCorrected = s.sharedCorrected := rfl
@[simp] theorem State.modBsu_sharedScrambled (s : State) (st ch : Nat) (f : Bsu → Bsu) : (s.modBsu st ch f).sharedScrambled = s.sharedScrambled := rfl
@[simp] theorem State.modBsu_timerBase (s : State) (st ch : Nat) (f : Bsu → Bsu) : (s.modBsu st ch f).timerBase = s.timerBase := rfl
@[simp] theorem State.modBsu_mem (s : State) (st ch : Nat) (f : Bsu → Bsu) : (s.modBsu st ch f).mem = s.mem := rfl
@[simp] theorem State.modBsu_hostMem (s : State) (st ch : Nat) (f : Bsu → Bsu) : (s.modBsu st ch f).hostMem = s.hostMem := rfl
@[simp] theorem State.modBsu_badSectors (s : State) (st ch : Nat) (f : Bsu → Bsu) : (s.modBsu st ch f).badSectors = s.badSectors := rfl

@[simp] theorem State.modPort_pending (s : State) (n : Nat) (f : Port → Port) : (s.modPort n f).pending = s.pending := rfl
@[simp] theorem State.modPort_dev (s : State) (n : Nat) (f : Port → Port) : (s.modPort n f).dev = s.dev := rfl
@[simp] theorem State.modPort_now (s : State) (n : Nat) (f : Port → Port) : (s.modPort n f).now = s.now := rfl
@[simp] theorem State.modPort_freeCount (s : State) (n : Nat) (f : Port → Port) : (s.modPort n f).freeCount = s.freeCount := rfl
@[simp] theorem State.modPort_pilot (s : State) (n : Nat) (f : Port → Port) : (s.modPort n f).pilot = s.pilot := rfl
@[simp] theorem State.modPort_fuses (s : State) (n : Nat) (f : Port → Port) : (s.modPort n f).fuses = s.fuses := rfl
@[simp] theorem State.modPort_flash (s : State) (n : Nat) (f : Port → Port) : (s.modPort n f).flash = s.flash := rfl
@[simp] theorem State.modPort_bundle (s : State) (n : Nat) (f : Port → Port) : (s.modPort n f).bundle = s.bundle := rfl
@[simp] theorem State.modPort_events (s : State) (n : Nat) (f : Port → Port) : (s.modPort n f).events = s.events := rfl
@[simp] theorem State.modPort_tele (s : State) (n : Nat) (f : Port → Port) : (s.modPort n f).tele = s.tele := rfl
@[simp] theorem State.modPort_i3c (s : State) (n : Nat) (f : Port → Port) : (s.modPort n f).i3c = s.i3c := rfl
@[simp] theorem State.modPort_tinder (s : State) (n : Nat) (f : Port → Port) : (s.modPort n f).tinder = s.tinder := rfl
@[simp] theorem State.modPort_dies (s : State) (n : Nat) (f : Port → Port) : (s.modPort n f).dies = s.dies := rfl
@[simp] theorem State.modPort_floor (s : State) (n : Nat) (f : Port → Port) : (s.modPort n f).floor = s.floor := rfl
@[simp] theorem State.modPort_links (s : State) (n : Nat) (f : Port → Port) : (s.modPort n f).links = s.links := rfl
@[simp] theorem State.modPort_copper (s : State) (n : Nat) (f : Port → Port) : (s.modPort n f).copper = s.copper := rfl
@[simp] theorem State.modPort_lasers (s : State) (n : Nat) (f : Port → Port) : (s.modPort n f).lasers = s.lasers := rfl
@[simp] theorem State.modPort_beacon (s : State) (n : Nat) (f : Port → Port) : (s.modPort n f).beacon = s.beacon := rfl
@[simp] theorem State.modPort_ftc (s : State) (n : Nat) (f : Port → Port) : (s.modPort n f).ftc = s.ftc := rfl
@[simp] theorem State.modPort_tiles (s : State) (n : Nat) (f : Port → Port) : (s.modPort n f).tiles = s.tiles := rfl
@[simp] theorem State.modPort_hbm (s : State) (n : Nat) (f : Port → Port) : (s.modPort n f).hbm = s.hbm := rfl
@[simp] theorem State.modPort_bsuOps (s : State) (n : Nat) (f : Port → Port) : (s.modPort n f).bsuOps = s.bsuOps := rfl
@[simp] theorem State.modPort_nextBsuOp (s : State) (n : Nat) (f : Port → Port) : (s.modPort n f).nextBsuOp = s.nextBsuOp := rfl
@[simp] theorem State.modPort_host (s : State) (n : Nat) (f : Port → Port) : (s.modPort n f).host = s.host := rfl
@[simp] theorem State.modPort_lamp (s : State) (n : Nat) (f : Port → Port) : (s.modPort n f).lamp = s.lamp := rfl
@[simp] theorem State.modPort_session (s : State) (n : Nat) (f : Port → Port) : (s.modPort n f).session = s.session := rfl
@[simp] theorem State.modPort_program (s : State) (n : Nat) (f : Port → Port) : (s.modPort n f).program = s.program := rfl
@[simp] theorem State.modPort_fonts (s : State) (n : Nat) (f : Port → Port) : (s.modPort n f).fonts = s.fonts := rfl
@[simp] theorem State.modPort_commit (s : State) (n : Nat) (f : Port → Port) : (s.modPort n f).commit = s.commit := rfl
@[simp] theorem State.modPort_copyChannels (s : State) (n : Nat) (f : Port → Port) : (s.modPort n f).copyChannels = s.copyChannels := rfl
@[simp] theorem State.modPort_sweep (s : State) (n : Nat) (f : Port → Port) : (s.modPort n f).sweep = s.sweep := rfl
@[simp] theorem State.modPort_exports (s : State) (n : Nat) (f : Port → Port) : (s.modPort n f).exports = s.exports := rfl
@[simp] theorem State.modPort_stateBlock (s : State) (n : Nat) (f : Port → Port) : (s.modPort n f).stateBlock = s.stateBlock := rfl
@[simp] theorem State.modPort_g4e (s : State) (n : Nat) (f : Port → Port) : (s.modPort n f).g4e = s.g4e := rfl
@[simp] theorem State.modPort_run (s : State) (n : Nat) (f : Port → Port) : (s.modPort n f).run = s.run := rfl
@[simp] theorem State.modPort_clearing (s : State) (n : Nat) (f : Port → Port) : (s.modPort n f).clearing = s.clearing := rfl
@[simp] theorem State.modPort_clearSince (s : State) (n : Nat) (f : Port → Port) : (s.modPort n f).clearSince = s.clearSince := rfl
@[simp] theorem State.modPort_stopped (s : State) (n : Nat) (f : Port → Port) : (s.modPort n f).stopped = s.stopped := rfl
@[simp] theorem State.modPort_requests (s : State) (n : Nat) (f : Port → Port) : (s.modPort n f).requests = s.requests := rfl
@[simp] theorem State.modPort_nextReq (s : State) (n : Nat) (f : Port → Port) : (s.modPort n f).nextReq = s.nextReq := rfl
@[simp] theorem State.modPort_signals (s : State) (n : Nat) (f : Port → Port) : (s.modPort n f).signals = s.signals := rfl
@[simp] theorem State.modPort_barriers (s : State) (n : Nat) (f : Port → Port) : (s.modPort n f).barriers = s.barriers := rfl
@[simp] theorem State.modPort_sharedLit (s : State) (n : Nat) (f : Port → Port) : (s.modPort n f).sharedLit = s.sharedLit := rfl
@[simp] theorem State.modPort_sharedAccess (s : State) (n : Nat) (f : Port → Port) : (s.modPort n f).sharedAccess = s.sharedAccess := rfl
@[simp] theorem State.modPort_sharedRetired (s : State) (n : Nat) (f : Port → Port) : (s.modPort n f).sharedRetired = s.sharedRetired := rfl
@[simp] theorem State.modPort_sharedTimes (s : State) (n : Nat) (f : Port → Port) : (s.modPort n f).sharedTimes = s.sharedTimes := rfl
@[simp] theorem State.modPort_sharedCorrected (s : State) (n : Nat) (f : Port → Port) : (s.modPort n f).sharedCorrected = s.sharedCorrected := rfl
@[simp] theorem State.modPort_sharedScrambled (s : State) (n : Nat) (f : Port → Port) : (s.modPort n f).sharedScrambled = s.sharedScrambled := rfl
@[simp] theorem State.modPort_timerBase (s : State) (n : Nat) (f : Port → Port) : (s.modPort n f).timerBase = s.timerBase := rfl
@[simp] theorem State.modPort_mem (s : State) (n : Nat) (f : Port → Port) : (s.modPort n f).mem = s.mem := rfl
@[simp] theorem State.modPort_hostMem (s : State) (n : Nat) (f : Port → Port) : (s.modPort n f).hostMem = s.hostMem := rfl
@[simp] theorem State.modPort_badSectors (s : State) (n : Nat) (f : Port → Port) : (s.modPort n f).badSectors = s.badSectors := rfl

@[simp] theorem State.modLink_pending (s : State) (k : Nat) (f : Link → Link) : (s.modLink k f).pending = s.pending := rfl
@[simp] theorem State.modLink_dev (s : State) (k : Nat) (f : Link → Link) : (s.modLink k f).dev = s.dev := rfl
@[simp] theorem State.modLink_now (s : State) (k : Nat) (f : Link → Link) : (s.modLink k f).now = s.now := rfl
@[simp] theorem State.modLink_freeCount (s : State) (k : Nat) (f : Link → Link) : (s.modLink k f).freeCount = s.freeCount := rfl
@[simp] theorem State.modLink_pilot (s : State) (k : Nat) (f : Link → Link) : (s.modLink k f).pilot = s.pilot := rfl
@[simp] theorem State.modLink_fuses (s : State) (k : Nat) (f : Link → Link) : (s.modLink k f).fuses = s.fuses := rfl
@[simp] theorem State.modLink_flash (s : State) (k : Nat) (f : Link → Link) : (s.modLink k f).flash = s.flash := rfl
@[simp] theorem State.modLink_bundle (s : State) (k : Nat) (f : Link → Link) : (s.modLink k f).bundle = s.bundle := rfl
@[simp] theorem State.modLink_events (s : State) (k : Nat) (f : Link → Link) : (s.modLink k f).events = s.events := rfl
@[simp] theorem State.modLink_tele (s : State) (k : Nat) (f : Link → Link) : (s.modLink k f).tele = s.tele := rfl
@[simp] theorem State.modLink_i3c (s : State) (k : Nat) (f : Link → Link) : (s.modLink k f).i3c = s.i3c := rfl
@[simp] theorem State.modLink_tinder (s : State) (k : Nat) (f : Link → Link) : (s.modLink k f).tinder = s.tinder := rfl
@[simp] theorem State.modLink_dies (s : State) (k : Nat) (f : Link → Link) : (s.modLink k f).dies = s.dies := rfl
@[simp] theorem State.modLink_floor (s : State) (k : Nat) (f : Link → Link) : (s.modLink k f).floor = s.floor := rfl
@[simp] theorem State.modLink_copper (s : State) (k : Nat) (f : Link → Link) : (s.modLink k f).copper = s.copper := rfl
@[simp] theorem State.modLink_lasers (s : State) (k : Nat) (f : Link → Link) : (s.modLink k f).lasers = s.lasers := rfl
@[simp] theorem State.modLink_ports (s : State) (k : Nat) (f : Link → Link) : (s.modLink k f).ports = s.ports := rfl
@[simp] theorem State.modLink_beacon (s : State) (k : Nat) (f : Link → Link) : (s.modLink k f).beacon = s.beacon := rfl
@[simp] theorem State.modLink_ftc (s : State) (k : Nat) (f : Link → Link) : (s.modLink k f).ftc = s.ftc := rfl
@[simp] theorem State.modLink_tiles (s : State) (k : Nat) (f : Link → Link) : (s.modLink k f).tiles = s.tiles := rfl
@[simp] theorem State.modLink_hbm (s : State) (k : Nat) (f : Link → Link) : (s.modLink k f).hbm = s.hbm := rfl
@[simp] theorem State.modLink_bsuOps (s : State) (k : Nat) (f : Link → Link) : (s.modLink k f).bsuOps = s.bsuOps := rfl
@[simp] theorem State.modLink_nextBsuOp (s : State) (k : Nat) (f : Link → Link) : (s.modLink k f).nextBsuOp = s.nextBsuOp := rfl
@[simp] theorem State.modLink_host (s : State) (k : Nat) (f : Link → Link) : (s.modLink k f).host = s.host := rfl
@[simp] theorem State.modLink_lamp (s : State) (k : Nat) (f : Link → Link) : (s.modLink k f).lamp = s.lamp := rfl
@[simp] theorem State.modLink_session (s : State) (k : Nat) (f : Link → Link) : (s.modLink k f).session = s.session := rfl
@[simp] theorem State.modLink_program (s : State) (k : Nat) (f : Link → Link) : (s.modLink k f).program = s.program := rfl
@[simp] theorem State.modLink_fonts (s : State) (k : Nat) (f : Link → Link) : (s.modLink k f).fonts = s.fonts := rfl
@[simp] theorem State.modLink_commit (s : State) (k : Nat) (f : Link → Link) : (s.modLink k f).commit = s.commit := rfl
@[simp] theorem State.modLink_copyChannels (s : State) (k : Nat) (f : Link → Link) : (s.modLink k f).copyChannels = s.copyChannels := rfl
@[simp] theorem State.modLink_sweep (s : State) (k : Nat) (f : Link → Link) : (s.modLink k f).sweep = s.sweep := rfl
@[simp] theorem State.modLink_exports (s : State) (k : Nat) (f : Link → Link) : (s.modLink k f).exports = s.exports := rfl
@[simp] theorem State.modLink_stateBlock (s : State) (k : Nat) (f : Link → Link) : (s.modLink k f).stateBlock = s.stateBlock := rfl
@[simp] theorem State.modLink_g4e (s : State) (k : Nat) (f : Link → Link) : (s.modLink k f).g4e = s.g4e := rfl
@[simp] theorem State.modLink_run (s : State) (k : Nat) (f : Link → Link) : (s.modLink k f).run = s.run := rfl
@[simp] theorem State.modLink_clearing (s : State) (k : Nat) (f : Link → Link) : (s.modLink k f).clearing = s.clearing := rfl
@[simp] theorem State.modLink_clearSince (s : State) (k : Nat) (f : Link → Link) : (s.modLink k f).clearSince = s.clearSince := rfl
@[simp] theorem State.modLink_stopped (s : State) (k : Nat) (f : Link → Link) : (s.modLink k f).stopped = s.stopped := rfl
@[simp] theorem State.modLink_requests (s : State) (k : Nat) (f : Link → Link) : (s.modLink k f).requests = s.requests := rfl
@[simp] theorem State.modLink_nextReq (s : State) (k : Nat) (f : Link → Link) : (s.modLink k f).nextReq = s.nextReq := rfl
@[simp] theorem State.modLink_signals (s : State) (k : Nat) (f : Link → Link) : (s.modLink k f).signals = s.signals := rfl
@[simp] theorem State.modLink_barriers (s : State) (k : Nat) (f : Link → Link) : (s.modLink k f).barriers = s.barriers := rfl
@[simp] theorem State.modLink_sharedLit (s : State) (k : Nat) (f : Link → Link) : (s.modLink k f).sharedLit = s.sharedLit := rfl
@[simp] theorem State.modLink_sharedAccess (s : State) (k : Nat) (f : Link → Link) : (s.modLink k f).sharedAccess = s.sharedAccess := rfl
@[simp] theorem State.modLink_sharedRetired (s : State) (k : Nat) (f : Link → Link) : (s.modLink k f).sharedRetired = s.sharedRetired := rfl
@[simp] theorem State.modLink_sharedTimes (s : State) (k : Nat) (f : Link → Link) : (s.modLink k f).sharedTimes = s.sharedTimes := rfl
@[simp] theorem State.modLink_sharedCorrected (s : State) (k : Nat) (f : Link → Link) : (s.modLink k f).sharedCorrected = s.sharedCorrected := rfl
@[simp] theorem State.modLink_sharedScrambled (s : State) (k : Nat) (f : Link → Link) : (s.modLink k f).sharedScrambled = s.sharedScrambled := rfl
@[simp] theorem State.modLink_timerBase (s : State) (k : Nat) (f : Link → Link) : (s.modLink k f).timerBase = s.timerBase := rfl
@[simp] theorem State.modLink_mem (s : State) (k : Nat) (f : Link → Link) : (s.modLink k f).mem = s.mem := rfl
@[simp] theorem State.modLink_hostMem (s : State) (k : Nat) (f : Link → Link) : (s.modLink k f).hostMem = s.hostMem := rfl
@[simp] theorem State.modLink_badSectors (s : State) (k : Nat) (f : Link → Link) : (s.modLink k f).badSectors = s.badSectors := rfl

@[simp] theorem State.modDie_pending (s : State) (d : Nat) (f : Die → Die) : (s.modDie d f).pending = s.pending := rfl
@[simp] theorem State.modDie_dev (s : State) (d : Nat) (f : Die → Die) : (s.modDie d f).dev = s.dev := rfl
@[simp] theorem State.modDie_now (s : State) (d : Nat) (f : Die → Die) : (s.modDie d f).now = s.now := rfl
@[simp] theorem State.modDie_freeCount (s : State) (d : Nat) (f : Die → Die) : (s.modDie d f).freeCount = s.freeCount := rfl
@[simp] theorem State.modDie_pilot (s : State) (d : Nat) (f : Die → Die) : (s.modDie d f).pilot = s.pilot := rfl
@[simp] theorem State.modDie_fuses (s : State) (d : Nat) (f : Die → Die) : (s.modDie d f).fuses = s.fuses := rfl
@[simp] theorem State.modDie_flash (s : State) (d : Nat) (f : Die → Die) : (s.modDie d f).flash = s.flash := rfl
@[simp] theorem State.modDie_bundle (s : State) (d : Nat) (f : Die → Die) : (s.modDie d f).bundle = s.bundle := rfl
@[simp] theorem State.modDie_events (s : State) (d : Nat) (f : Die → Die) : (s.modDie d f).events = s.events := rfl
@[simp] theorem State.modDie_tele (s : State) (d : Nat) (f : Die → Die) : (s.modDie d f).tele = s.tele := rfl
@[simp] theorem State.modDie_i3c (s : State) (d : Nat) (f : Die → Die) : (s.modDie d f).i3c = s.i3c := rfl
@[simp] theorem State.modDie_tinder (s : State) (d : Nat) (f : Die → Die) : (s.modDie d f).tinder = s.tinder := rfl
@[simp] theorem State.modDie_floor (s : State) (d : Nat) (f : Die → Die) : (s.modDie d f).floor = s.floor := rfl
@[simp] theorem State.modDie_links (s : State) (d : Nat) (f : Die → Die) : (s.modDie d f).links = s.links := rfl
@[simp] theorem State.modDie_copper (s : State) (d : Nat) (f : Die → Die) : (s.modDie d f).copper = s.copper := rfl
@[simp] theorem State.modDie_lasers (s : State) (d : Nat) (f : Die → Die) : (s.modDie d f).lasers = s.lasers := rfl
@[simp] theorem State.modDie_ports (s : State) (d : Nat) (f : Die → Die) : (s.modDie d f).ports = s.ports := rfl
@[simp] theorem State.modDie_beacon (s : State) (d : Nat) (f : Die → Die) : (s.modDie d f).beacon = s.beacon := rfl
@[simp] theorem State.modDie_ftc (s : State) (d : Nat) (f : Die → Die) : (s.modDie d f).ftc = s.ftc := rfl
@[simp] theorem State.modDie_tiles (s : State) (d : Nat) (f : Die → Die) : (s.modDie d f).tiles = s.tiles := rfl
@[simp] theorem State.modDie_hbm (s : State) (d : Nat) (f : Die → Die) : (s.modDie d f).hbm = s.hbm := rfl
@[simp] theorem State.modDie_bsuOps (s : State) (d : Nat) (f : Die → Die) : (s.modDie d f).bsuOps = s.bsuOps := rfl
@[simp] theorem State.modDie_nextBsuOp (s : State) (d : Nat) (f : Die → Die) : (s.modDie d f).nextBsuOp = s.nextBsuOp := rfl
@[simp] theorem State.modDie_host (s : State) (d : Nat) (f : Die → Die) : (s.modDie d f).host = s.host := rfl
@[simp] theorem State.modDie_lamp (s : State) (d : Nat) (f : Die → Die) : (s.modDie d f).lamp = s.lamp := rfl
@[simp] theorem State.modDie_session (s : State) (d : Nat) (f : Die → Die) : (s.modDie d f).session = s.session := rfl
@[simp] theorem State.modDie_program (s : State) (d : Nat) (f : Die → Die) : (s.modDie d f).program = s.program := rfl
@[simp] theorem State.modDie_fonts (s : State) (d : Nat) (f : Die → Die) : (s.modDie d f).fonts = s.fonts := rfl
@[simp] theorem State.modDie_commit (s : State) (d : Nat) (f : Die → Die) : (s.modDie d f).commit = s.commit := rfl
@[simp] theorem State.modDie_copyChannels (s : State) (d : Nat) (f : Die → Die) : (s.modDie d f).copyChannels = s.copyChannels := rfl
@[simp] theorem State.modDie_sweep (s : State) (d : Nat) (f : Die → Die) : (s.modDie d f).sweep = s.sweep := rfl
@[simp] theorem State.modDie_exports (s : State) (d : Nat) (f : Die → Die) : (s.modDie d f).exports = s.exports := rfl
@[simp] theorem State.modDie_stateBlock (s : State) (d : Nat) (f : Die → Die) : (s.modDie d f).stateBlock = s.stateBlock := rfl
@[simp] theorem State.modDie_g4e (s : State) (d : Nat) (f : Die → Die) : (s.modDie d f).g4e = s.g4e := rfl
@[simp] theorem State.modDie_run (s : State) (d : Nat) (f : Die → Die) : (s.modDie d f).run = s.run := rfl
@[simp] theorem State.modDie_clearing (s : State) (d : Nat) (f : Die → Die) : (s.modDie d f).clearing = s.clearing := rfl
@[simp] theorem State.modDie_clearSince (s : State) (d : Nat) (f : Die → Die) : (s.modDie d f).clearSince = s.clearSince := rfl
@[simp] theorem State.modDie_stopped (s : State) (d : Nat) (f : Die → Die) : (s.modDie d f).stopped = s.stopped := rfl
@[simp] theorem State.modDie_requests (s : State) (d : Nat) (f : Die → Die) : (s.modDie d f).requests = s.requests := rfl
@[simp] theorem State.modDie_nextReq (s : State) (d : Nat) (f : Die → Die) : (s.modDie d f).nextReq = s.nextReq := rfl
@[simp] theorem State.modDie_signals (s : State) (d : Nat) (f : Die → Die) : (s.modDie d f).signals = s.signals := rfl
@[simp] theorem State.modDie_barriers (s : State) (d : Nat) (f : Die → Die) : (s.modDie d f).barriers = s.barriers := rfl
@[simp] theorem State.modDie_sharedLit (s : State) (d : Nat) (f : Die → Die) : (s.modDie d f).sharedLit = s.sharedLit := rfl
@[simp] theorem State.modDie_sharedAccess (s : State) (d : Nat) (f : Die → Die) : (s.modDie d f).sharedAccess = s.sharedAccess := rfl
@[simp] theorem State.modDie_sharedRetired (s : State) (d : Nat) (f : Die → Die) : (s.modDie d f).sharedRetired = s.sharedRetired := rfl
@[simp] theorem State.modDie_sharedTimes (s : State) (d : Nat) (f : Die → Die) : (s.modDie d f).sharedTimes = s.sharedTimes := rfl
@[simp] theorem State.modDie_sharedCorrected (s : State) (d : Nat) (f : Die → Die) : (s.modDie d f).sharedCorrected = s.sharedCorrected := rfl
@[simp] theorem State.modDie_sharedScrambled (s : State) (d : Nat) (f : Die → Die) : (s.modDie d f).sharedScrambled = s.sharedScrambled := rfl
@[simp] theorem State.modDie_timerBase (s : State) (d : Nat) (f : Die → Die) : (s.modDie d f).timerBase = s.timerBase := rfl
@[simp] theorem State.modDie_mem (s : State) (d : Nat) (f : Die → Die) : (s.modDie d f).mem = s.mem := rfl
@[simp] theorem State.modDie_hostMem (s : State) (d : Nat) (f : Die → Die) : (s.modDie d f).hostMem = s.hostMem := rfl
@[simp] theorem State.modDie_badSectors (s : State) (d : Nat) (f : Die → Die) : (s.modDie d f).badSectors = s.badSectors := rfl

@[simp] theorem State.modLaser_pending (s : State) (i : Nat) (f : Laser → Laser) : (s.modLaser i f).pending = s.pending := rfl
@[simp] theorem State.modLaser_dev (s : State) (i : Nat) (f : Laser → Laser) : (s.modLaser i f).dev = s.dev := rfl
@[simp] theorem State.modLaser_now (s : State) (i : Nat) (f : Laser → Laser) : (s.modLaser i f).now = s.now := rfl
@[simp] theorem State.modLaser_freeCount (s : State) (i : Nat) (f : Laser → Laser) : (s.modLaser i f).freeCount = s.freeCount := rfl
@[simp] theorem State.modLaser_pilot (s : State) (i : Nat) (f : Laser → Laser) : (s.modLaser i f).pilot = s.pilot := rfl
@[simp] theorem State.modLaser_fuses (s : State) (i : Nat) (f : Laser → Laser) : (s.modLaser i f).fuses = s.fuses := rfl
@[simp] theorem State.modLaser_flash (s : State) (i : Nat) (f : Laser → Laser) : (s.modLaser i f).flash = s.flash := rfl
@[simp] theorem State.modLaser_bundle (s : State) (i : Nat) (f : Laser → Laser) : (s.modLaser i f).bundle = s.bundle := rfl
@[simp] theorem State.modLaser_events (s : State) (i : Nat) (f : Laser → Laser) : (s.modLaser i f).events = s.events := rfl
@[simp] theorem State.modLaser_tele (s : State) (i : Nat) (f : Laser → Laser) : (s.modLaser i f).tele = s.tele := rfl
@[simp] theorem State.modLaser_i3c (s : State) (i : Nat) (f : Laser → Laser) : (s.modLaser i f).i3c = s.i3c := rfl
@[simp] theorem State.modLaser_tinder (s : State) (i : Nat) (f : Laser → Laser) : (s.modLaser i f).tinder = s.tinder := rfl
@[simp] theorem State.modLaser_dies (s : State) (i : Nat) (f : Laser → Laser) : (s.modLaser i f).dies = s.dies := rfl
@[simp] theorem State.modLaser_floor (s : State) (i : Nat) (f : Laser → Laser) : (s.modLaser i f).floor = s.floor := rfl
@[simp] theorem State.modLaser_links (s : State) (i : Nat) (f : Laser → Laser) : (s.modLaser i f).links = s.links := rfl
@[simp] theorem State.modLaser_copper (s : State) (i : Nat) (f : Laser → Laser) : (s.modLaser i f).copper = s.copper := rfl
@[simp] theorem State.modLaser_ports (s : State) (i : Nat) (f : Laser → Laser) : (s.modLaser i f).ports = s.ports := rfl
@[simp] theorem State.modLaser_beacon (s : State) (i : Nat) (f : Laser → Laser) : (s.modLaser i f).beacon = s.beacon := rfl
@[simp] theorem State.modLaser_ftc (s : State) (i : Nat) (f : Laser → Laser) : (s.modLaser i f).ftc = s.ftc := rfl
@[simp] theorem State.modLaser_tiles (s : State) (i : Nat) (f : Laser → Laser) : (s.modLaser i f).tiles = s.tiles := rfl
@[simp] theorem State.modLaser_hbm (s : State) (i : Nat) (f : Laser → Laser) : (s.modLaser i f).hbm = s.hbm := rfl
@[simp] theorem State.modLaser_bsuOps (s : State) (i : Nat) (f : Laser → Laser) : (s.modLaser i f).bsuOps = s.bsuOps := rfl
@[simp] theorem State.modLaser_nextBsuOp (s : State) (i : Nat) (f : Laser → Laser) : (s.modLaser i f).nextBsuOp = s.nextBsuOp := rfl
@[simp] theorem State.modLaser_host (s : State) (i : Nat) (f : Laser → Laser) : (s.modLaser i f).host = s.host := rfl
@[simp] theorem State.modLaser_lamp (s : State) (i : Nat) (f : Laser → Laser) : (s.modLaser i f).lamp = s.lamp := rfl
@[simp] theorem State.modLaser_session (s : State) (i : Nat) (f : Laser → Laser) : (s.modLaser i f).session = s.session := rfl
@[simp] theorem State.modLaser_program (s : State) (i : Nat) (f : Laser → Laser) : (s.modLaser i f).program = s.program := rfl
@[simp] theorem State.modLaser_fonts (s : State) (i : Nat) (f : Laser → Laser) : (s.modLaser i f).fonts = s.fonts := rfl
@[simp] theorem State.modLaser_commit (s : State) (i : Nat) (f : Laser → Laser) : (s.modLaser i f).commit = s.commit := rfl
@[simp] theorem State.modLaser_copyChannels (s : State) (i : Nat) (f : Laser → Laser) : (s.modLaser i f).copyChannels = s.copyChannels := rfl
@[simp] theorem State.modLaser_sweep (s : State) (i : Nat) (f : Laser → Laser) : (s.modLaser i f).sweep = s.sweep := rfl
@[simp] theorem State.modLaser_exports (s : State) (i : Nat) (f : Laser → Laser) : (s.modLaser i f).exports = s.exports := rfl
@[simp] theorem State.modLaser_stateBlock (s : State) (i : Nat) (f : Laser → Laser) : (s.modLaser i f).stateBlock = s.stateBlock := rfl
@[simp] theorem State.modLaser_g4e (s : State) (i : Nat) (f : Laser → Laser) : (s.modLaser i f).g4e = s.g4e := rfl
@[simp] theorem State.modLaser_run (s : State) (i : Nat) (f : Laser → Laser) : (s.modLaser i f).run = s.run := rfl
@[simp] theorem State.modLaser_clearing (s : State) (i : Nat) (f : Laser → Laser) : (s.modLaser i f).clearing = s.clearing := rfl
@[simp] theorem State.modLaser_clearSince (s : State) (i : Nat) (f : Laser → Laser) : (s.modLaser i f).clearSince = s.clearSince := rfl
@[simp] theorem State.modLaser_stopped (s : State) (i : Nat) (f : Laser → Laser) : (s.modLaser i f).stopped = s.stopped := rfl
@[simp] theorem State.modLaser_requests (s : State) (i : Nat) (f : Laser → Laser) : (s.modLaser i f).requests = s.requests := rfl
@[simp] theorem State.modLaser_nextReq (s : State) (i : Nat) (f : Laser → Laser) : (s.modLaser i f).nextReq = s.nextReq := rfl
@[simp] theorem State.modLaser_signals (s : State) (i : Nat) (f : Laser → Laser) : (s.modLaser i f).signals = s.signals := rfl
@[simp] theorem State.modLaser_barriers (s : State) (i : Nat) (f : Laser → Laser) : (s.modLaser i f).barriers = s.barriers := rfl
@[simp] theorem State.modLaser_sharedLit (s : State) (i : Nat) (f : Laser → Laser) : (s.modLaser i f).sharedLit = s.sharedLit := rfl
@[simp] theorem State.modLaser_sharedAccess (s : State) (i : Nat) (f : Laser → Laser) : (s.modLaser i f).sharedAccess = s.sharedAccess := rfl
@[simp] theorem State.modLaser_sharedRetired (s : State) (i : Nat) (f : Laser → Laser) : (s.modLaser i f).sharedRetired = s.sharedRetired := rfl
@[simp] theorem State.modLaser_sharedTimes (s : State) (i : Nat) (f : Laser → Laser) : (s.modLaser i f).sharedTimes = s.sharedTimes := rfl
@[simp] theorem State.modLaser_sharedCorrected (s : State) (i : Nat) (f : Laser → Laser) : (s.modLaser i f).sharedCorrected = s.sharedCorrected := rfl
@[simp] theorem State.modLaser_sharedScrambled (s : State) (i : Nat) (f : Laser → Laser) : (s.modLaser i f).sharedScrambled = s.sharedScrambled := rfl
@[simp] theorem State.modLaser_timerBase (s : State) (i : Nat) (f : Laser → Laser) : (s.modLaser i f).timerBase = s.timerBase := rfl
@[simp] theorem State.modLaser_mem (s : State) (i : Nat) (f : Laser → Laser) : (s.modLaser i f).mem = s.mem := rfl
@[simp] theorem State.modLaser_hostMem (s : State) (i : Nat) (f : Laser → Laser) : (s.modLaser i f).hostMem = s.hostMem := rfl
@[simp] theorem State.modLaser_badSectors (s : State) (i : Nat) (f : Laser → Laser) : (s.modLaser i f).badSectors = s.badSectors := rfl

@[simp] theorem State.modMbox_pending (s : State) (n : Nat) (f : Mailbox → Mailbox) : (s.modMbox n f).pending = s.pending := rfl
@[simp] theorem State.modMbox_dev (s : State) (n : Nat) (f : Mailbox → Mailbox) : (s.modMbox n f).dev = s.dev := rfl
@[simp] theorem State.modMbox_now (s : State) (n : Nat) (f : Mailbox → Mailbox) : (s.modMbox n f).now = s.now := rfl
@[simp] theorem State.modMbox_freeCount (s : State) (n : Nat) (f : Mailbox → Mailbox) : (s.modMbox n f).freeCount = s.freeCount := rfl
@[simp] theorem State.modMbox_pilot (s : State) (n : Nat) (f : Mailbox → Mailbox) : (s.modMbox n f).pilot = s.pilot := rfl
@[simp] theorem State.modMbox_fuses (s : State) (n : Nat) (f : Mailbox → Mailbox) : (s.modMbox n f).fuses = s.fuses := rfl
@[simp] theorem State.modMbox_flash (s : State) (n : Nat) (f : Mailbox → Mailbox) : (s.modMbox n f).flash = s.flash := rfl
@[simp] theorem State.modMbox_bundle (s : State) (n : Nat) (f : Mailbox → Mailbox) : (s.modMbox n f).bundle = s.bundle := rfl
@[simp] theorem State.modMbox_events (s : State) (n : Nat) (f : Mailbox → Mailbox) : (s.modMbox n f).events = s.events := rfl
@[simp] theorem State.modMbox_tele (s : State) (n : Nat) (f : Mailbox → Mailbox) : (s.modMbox n f).tele = s.tele := rfl
@[simp] theorem State.modMbox_i3c (s : State) (n : Nat) (f : Mailbox → Mailbox) : (s.modMbox n f).i3c = s.i3c := rfl
@[simp] theorem State.modMbox_tinder (s : State) (n : Nat) (f : Mailbox → Mailbox) : (s.modMbox n f).tinder = s.tinder := rfl
@[simp] theorem State.modMbox_dies (s : State) (n : Nat) (f : Mailbox → Mailbox) : (s.modMbox n f).dies = s.dies := rfl
@[simp] theorem State.modMbox_floor (s : State) (n : Nat) (f : Mailbox → Mailbox) : (s.modMbox n f).floor = s.floor := rfl
@[simp] theorem State.modMbox_links (s : State) (n : Nat) (f : Mailbox → Mailbox) : (s.modMbox n f).links = s.links := rfl
@[simp] theorem State.modMbox_copper (s : State) (n : Nat) (f : Mailbox → Mailbox) : (s.modMbox n f).copper = s.copper := rfl
@[simp] theorem State.modMbox_lasers (s : State) (n : Nat) (f : Mailbox → Mailbox) : (s.modMbox n f).lasers = s.lasers := rfl
@[simp] theorem State.modMbox_ports (s : State) (n : Nat) (f : Mailbox → Mailbox) : (s.modMbox n f).ports = s.ports := rfl
@[simp] theorem State.modMbox_beacon (s : State) (n : Nat) (f : Mailbox → Mailbox) : (s.modMbox n f).beacon = s.beacon := rfl
@[simp] theorem State.modMbox_ftc (s : State) (n : Nat) (f : Mailbox → Mailbox) : (s.modMbox n f).ftc = s.ftc := rfl
@[simp] theorem State.modMbox_tiles (s : State) (n : Nat) (f : Mailbox → Mailbox) : (s.modMbox n f).tiles = s.tiles := rfl
@[simp] theorem State.modMbox_hbm (s : State) (n : Nat) (f : Mailbox → Mailbox) : (s.modMbox n f).hbm = s.hbm := rfl
@[simp] theorem State.modMbox_bsuOps (s : State) (n : Nat) (f : Mailbox → Mailbox) : (s.modMbox n f).bsuOps = s.bsuOps := rfl
@[simp] theorem State.modMbox_nextBsuOp (s : State) (n : Nat) (f : Mailbox → Mailbox) : (s.modMbox n f).nextBsuOp = s.nextBsuOp := rfl
@[simp] theorem State.modMbox_host (s : State) (n : Nat) (f : Mailbox → Mailbox) : (s.modMbox n f).host = s.host := rfl
@[simp] theorem State.modMbox_session (s : State) (n : Nat) (f : Mailbox → Mailbox) : (s.modMbox n f).session = s.session := rfl
@[simp] theorem State.modMbox_program (s : State) (n : Nat) (f : Mailbox → Mailbox) : (s.modMbox n f).program = s.program := rfl
@[simp] theorem State.modMbox_fonts (s : State) (n : Nat) (f : Mailbox → Mailbox) : (s.modMbox n f).fonts = s.fonts := rfl
@[simp] theorem State.modMbox_commit (s : State) (n : Nat) (f : Mailbox → Mailbox) : (s.modMbox n f).commit = s.commit := rfl
@[simp] theorem State.modMbox_copyChannels (s : State) (n : Nat) (f : Mailbox → Mailbox) : (s.modMbox n f).copyChannels = s.copyChannels := rfl
@[simp] theorem State.modMbox_sweep (s : State) (n : Nat) (f : Mailbox → Mailbox) : (s.modMbox n f).sweep = s.sweep := rfl
@[simp] theorem State.modMbox_exports (s : State) (n : Nat) (f : Mailbox → Mailbox) : (s.modMbox n f).exports = s.exports := rfl
@[simp] theorem State.modMbox_stateBlock (s : State) (n : Nat) (f : Mailbox → Mailbox) : (s.modMbox n f).stateBlock = s.stateBlock := rfl
@[simp] theorem State.modMbox_g4e (s : State) (n : Nat) (f : Mailbox → Mailbox) : (s.modMbox n f).g4e = s.g4e := rfl
@[simp] theorem State.modMbox_run (s : State) (n : Nat) (f : Mailbox → Mailbox) : (s.modMbox n f).run = s.run := rfl
@[simp] theorem State.modMbox_clearing (s : State) (n : Nat) (f : Mailbox → Mailbox) : (s.modMbox n f).clearing = s.clearing := rfl
@[simp] theorem State.modMbox_clearSince (s : State) (n : Nat) (f : Mailbox → Mailbox) : (s.modMbox n f).clearSince = s.clearSince := rfl
@[simp] theorem State.modMbox_stopped (s : State) (n : Nat) (f : Mailbox → Mailbox) : (s.modMbox n f).stopped = s.stopped := rfl
@[simp] theorem State.modMbox_requests (s : State) (n : Nat) (f : Mailbox → Mailbox) : (s.modMbox n f).requests = s.requests := rfl
@[simp] theorem State.modMbox_nextReq (s : State) (n : Nat) (f : Mailbox → Mailbox) : (s.modMbox n f).nextReq = s.nextReq := rfl
@[simp] theorem State.modMbox_signals (s : State) (n : Nat) (f : Mailbox → Mailbox) : (s.modMbox n f).signals = s.signals := rfl
@[simp] theorem State.modMbox_barriers (s : State) (n : Nat) (f : Mailbox → Mailbox) : (s.modMbox n f).barriers = s.barriers := rfl
@[simp] theorem State.modMbox_sharedLit (s : State) (n : Nat) (f : Mailbox → Mailbox) : (s.modMbox n f).sharedLit = s.sharedLit := rfl
@[simp] theorem State.modMbox_sharedAccess (s : State) (n : Nat) (f : Mailbox → Mailbox) : (s.modMbox n f).sharedAccess = s.sharedAccess := rfl
@[simp] theorem State.modMbox_sharedRetired (s : State) (n : Nat) (f : Mailbox → Mailbox) : (s.modMbox n f).sharedRetired = s.sharedRetired := rfl
@[simp] theorem State.modMbox_sharedTimes (s : State) (n : Nat) (f : Mailbox → Mailbox) : (s.modMbox n f).sharedTimes = s.sharedTimes := rfl
@[simp] theorem State.modMbox_sharedCorrected (s : State) (n : Nat) (f : Mailbox → Mailbox) : (s.modMbox n f).sharedCorrected = s.sharedCorrected := rfl
@[simp] theorem State.modMbox_sharedScrambled (s : State) (n : Nat) (f : Mailbox → Mailbox) : (s.modMbox n f).sharedScrambled = s.sharedScrambled := rfl
@[simp] theorem State.modMbox_timerBase (s : State) (n : Nat) (f : Mailbox → Mailbox) : (s.modMbox n f).timerBase = s.timerBase := rfl
@[simp] theorem State.modMbox_mem (s : State) (n : Nat) (f : Mailbox → Mailbox) : (s.modMbox n f).mem = s.mem := rfl
@[simp] theorem State.modMbox_hostMem (s : State) (n : Nat) (f : Mailbox → Mailbox) : (s.modMbox n f).hostMem = s.hostMem := rfl
@[simp] theorem State.modMbox_badSectors (s : State) (n : Nat) (f : Mailbox → Mailbox) : (s.modMbox n f).badSectors = s.badSectors := rfl

@[simp] theorem State.modDma_pending (s : State) (n : Nat) (f : DmaChannel → DmaChannel) : (s.modDma n f).pending = s.pending := rfl
@[simp] theorem State.modDma_dev (s : State) (n : Nat) (f : DmaChannel → DmaChannel) : (s.modDma n f).dev = s.dev := rfl
@[simp] theorem State.modDma_now (s : State) (n : Nat) (f : DmaChannel → DmaChannel) : (s.modDma n f).now = s.now := rfl
@[simp] theorem State.modDma_freeCount (s : State) (n : Nat) (f : DmaChannel → DmaChannel) : (s.modDma n f).freeCount = s.freeCount := rfl
@[simp] theorem State.modDma_pilot (s : State) (n : Nat) (f : DmaChannel → DmaChannel) : (s.modDma n f).pilot = s.pilot := rfl
@[simp] theorem State.modDma_fuses (s : State) (n : Nat) (f : DmaChannel → DmaChannel) : (s.modDma n f).fuses = s.fuses := rfl
@[simp] theorem State.modDma_flash (s : State) (n : Nat) (f : DmaChannel → DmaChannel) : (s.modDma n f).flash = s.flash := rfl
@[simp] theorem State.modDma_bundle (s : State) (n : Nat) (f : DmaChannel → DmaChannel) : (s.modDma n f).bundle = s.bundle := rfl
@[simp] theorem State.modDma_events (s : State) (n : Nat) (f : DmaChannel → DmaChannel) : (s.modDma n f).events = s.events := rfl
@[simp] theorem State.modDma_tele (s : State) (n : Nat) (f : DmaChannel → DmaChannel) : (s.modDma n f).tele = s.tele := rfl
@[simp] theorem State.modDma_i3c (s : State) (n : Nat) (f : DmaChannel → DmaChannel) : (s.modDma n f).i3c = s.i3c := rfl
@[simp] theorem State.modDma_tinder (s : State) (n : Nat) (f : DmaChannel → DmaChannel) : (s.modDma n f).tinder = s.tinder := rfl
@[simp] theorem State.modDma_dies (s : State) (n : Nat) (f : DmaChannel → DmaChannel) : (s.modDma n f).dies = s.dies := rfl
@[simp] theorem State.modDma_floor (s : State) (n : Nat) (f : DmaChannel → DmaChannel) : (s.modDma n f).floor = s.floor := rfl
@[simp] theorem State.modDma_links (s : State) (n : Nat) (f : DmaChannel → DmaChannel) : (s.modDma n f).links = s.links := rfl
@[simp] theorem State.modDma_copper (s : State) (n : Nat) (f : DmaChannel → DmaChannel) : (s.modDma n f).copper = s.copper := rfl
@[simp] theorem State.modDma_lasers (s : State) (n : Nat) (f : DmaChannel → DmaChannel) : (s.modDma n f).lasers = s.lasers := rfl
@[simp] theorem State.modDma_ports (s : State) (n : Nat) (f : DmaChannel → DmaChannel) : (s.modDma n f).ports = s.ports := rfl
@[simp] theorem State.modDma_beacon (s : State) (n : Nat) (f : DmaChannel → DmaChannel) : (s.modDma n f).beacon = s.beacon := rfl
@[simp] theorem State.modDma_ftc (s : State) (n : Nat) (f : DmaChannel → DmaChannel) : (s.modDma n f).ftc = s.ftc := rfl
@[simp] theorem State.modDma_tiles (s : State) (n : Nat) (f : DmaChannel → DmaChannel) : (s.modDma n f).tiles = s.tiles := rfl
@[simp] theorem State.modDma_hbm (s : State) (n : Nat) (f : DmaChannel → DmaChannel) : (s.modDma n f).hbm = s.hbm := rfl
@[simp] theorem State.modDma_bsuOps (s : State) (n : Nat) (f : DmaChannel → DmaChannel) : (s.modDma n f).bsuOps = s.bsuOps := rfl
@[simp] theorem State.modDma_nextBsuOp (s : State) (n : Nat) (f : DmaChannel → DmaChannel) : (s.modDma n f).nextBsuOp = s.nextBsuOp := rfl
@[simp] theorem State.modDma_lamp (s : State) (n : Nat) (f : DmaChannel → DmaChannel) : (s.modDma n f).lamp = s.lamp := rfl
@[simp] theorem State.modDma_session (s : State) (n : Nat) (f : DmaChannel → DmaChannel) : (s.modDma n f).session = s.session := rfl
@[simp] theorem State.modDma_program (s : State) (n : Nat) (f : DmaChannel → DmaChannel) : (s.modDma n f).program = s.program := rfl
@[simp] theorem State.modDma_fonts (s : State) (n : Nat) (f : DmaChannel → DmaChannel) : (s.modDma n f).fonts = s.fonts := rfl
@[simp] theorem State.modDma_commit (s : State) (n : Nat) (f : DmaChannel → DmaChannel) : (s.modDma n f).commit = s.commit := rfl
@[simp] theorem State.modDma_copyChannels (s : State) (n : Nat) (f : DmaChannel → DmaChannel) : (s.modDma n f).copyChannels = s.copyChannels := rfl
@[simp] theorem State.modDma_sweep (s : State) (n : Nat) (f : DmaChannel → DmaChannel) : (s.modDma n f).sweep = s.sweep := rfl
@[simp] theorem State.modDma_exports (s : State) (n : Nat) (f : DmaChannel → DmaChannel) : (s.modDma n f).exports = s.exports := rfl
@[simp] theorem State.modDma_stateBlock (s : State) (n : Nat) (f : DmaChannel → DmaChannel) : (s.modDma n f).stateBlock = s.stateBlock := rfl
@[simp] theorem State.modDma_g4e (s : State) (n : Nat) (f : DmaChannel → DmaChannel) : (s.modDma n f).g4e = s.g4e := rfl
@[simp] theorem State.modDma_run (s : State) (n : Nat) (f : DmaChannel → DmaChannel) : (s.modDma n f).run = s.run := rfl
@[simp] theorem State.modDma_clearing (s : State) (n : Nat) (f : DmaChannel → DmaChannel) : (s.modDma n f).clearing = s.clearing := rfl
@[simp] theorem State.modDma_clearSince (s : State) (n : Nat) (f : DmaChannel → DmaChannel) : (s.modDma n f).clearSince = s.clearSince := rfl
@[simp] theorem State.modDma_stopped (s : State) (n : Nat) (f : DmaChannel → DmaChannel) : (s.modDma n f).stopped = s.stopped := rfl
@[simp] theorem State.modDma_requests (s : State) (n : Nat) (f : DmaChannel → DmaChannel) : (s.modDma n f).requests = s.requests := rfl
@[simp] theorem State.modDma_nextReq (s : State) (n : Nat) (f : DmaChannel → DmaChannel) : (s.modDma n f).nextReq = s.nextReq := rfl
@[simp] theorem State.modDma_signals (s : State) (n : Nat) (f : DmaChannel → DmaChannel) : (s.modDma n f).signals = s.signals := rfl
@[simp] theorem State.modDma_barriers (s : State) (n : Nat) (f : DmaChannel → DmaChannel) : (s.modDma n f).barriers = s.barriers := rfl
@[simp] theorem State.modDma_sharedLit (s : State) (n : Nat) (f : DmaChannel → DmaChannel) : (s.modDma n f).sharedLit = s.sharedLit := rfl
@[simp] theorem State.modDma_sharedAccess (s : State) (n : Nat) (f : DmaChannel → DmaChannel) : (s.modDma n f).sharedAccess = s.sharedAccess := rfl
@[simp] theorem State.modDma_sharedRetired (s : State) (n : Nat) (f : DmaChannel → DmaChannel) : (s.modDma n f).sharedRetired = s.sharedRetired := rfl
@[simp] theorem State.modDma_sharedTimes (s : State) (n : Nat) (f : DmaChannel → DmaChannel) : (s.modDma n f).sharedTimes = s.sharedTimes := rfl
@[simp] theorem State.modDma_sharedCorrected (s : State) (n : Nat) (f : DmaChannel → DmaChannel) : (s.modDma n f).sharedCorrected = s.sharedCorrected := rfl
@[simp] theorem State.modDma_sharedScrambled (s : State) (n : Nat) (f : DmaChannel → DmaChannel) : (s.modDma n f).sharedScrambled = s.sharedScrambled := rfl
@[simp] theorem State.modDma_timerBase (s : State) (n : Nat) (f : DmaChannel → DmaChannel) : (s.modDma n f).timerBase = s.timerBase := rfl
@[simp] theorem State.modDma_mem (s : State) (n : Nat) (f : DmaChannel → DmaChannel) : (s.modDma n f).mem = s.mem := rfl
@[simp] theorem State.modDma_hostMem (s : State) (n : Nat) (f : DmaChannel → DmaChannel) : (s.modDma n f).hostMem = s.hostMem := rfl
@[simp] theorem State.modDma_badSectors (s : State) (n : Nat) (f : DmaChannel → DmaChannel) : (s.modDma n f).badSectors = s.badSectors := rfl

@[simp] theorem State.modFtc_pending (s : State) (die : Nat) (f : Ftc → Ftc) : (s.modFtc die f).pending = s.pending := rfl
@[simp] theorem State.modFtc_dev (s : State) (die : Nat) (f : Ftc → Ftc) : (s.modFtc die f).dev = s.dev := rfl
@[simp] theorem State.modFtc_now (s : State) (die : Nat) (f : Ftc → Ftc) : (s.modFtc die f).now = s.now := rfl
@[simp] theorem State.modFtc_freeCount (s : State) (die : Nat) (f : Ftc → Ftc) : (s.modFtc die f).freeCount = s.freeCount := rfl
@[simp] theorem State.modFtc_pilot (s : State) (die : Nat) (f : Ftc → Ftc) : (s.modFtc die f).pilot = s.pilot := rfl
@[simp] theorem State.modFtc_fuses (s : State) (die : Nat) (f : Ftc → Ftc) : (s.modFtc die f).fuses = s.fuses := rfl
@[simp] theorem State.modFtc_flash (s : State) (die : Nat) (f : Ftc → Ftc) : (s.modFtc die f).flash = s.flash := rfl
@[simp] theorem State.modFtc_bundle (s : State) (die : Nat) (f : Ftc → Ftc) : (s.modFtc die f).bundle = s.bundle := rfl
@[simp] theorem State.modFtc_events (s : State) (die : Nat) (f : Ftc → Ftc) : (s.modFtc die f).events = s.events := rfl
@[simp] theorem State.modFtc_tele (s : State) (die : Nat) (f : Ftc → Ftc) : (s.modFtc die f).tele = s.tele := rfl
@[simp] theorem State.modFtc_i3c (s : State) (die : Nat) (f : Ftc → Ftc) : (s.modFtc die f).i3c = s.i3c := rfl
@[simp] theorem State.modFtc_tinder (s : State) (die : Nat) (f : Ftc → Ftc) : (s.modFtc die f).tinder = s.tinder := rfl
@[simp] theorem State.modFtc_dies (s : State) (die : Nat) (f : Ftc → Ftc) : (s.modFtc die f).dies = s.dies := rfl
@[simp] theorem State.modFtc_floor (s : State) (die : Nat) (f : Ftc → Ftc) : (s.modFtc die f).floor = s.floor := rfl
@[simp] theorem State.modFtc_links (s : State) (die : Nat) (f : Ftc → Ftc) : (s.modFtc die f).links = s.links := rfl
@[simp] theorem State.modFtc_copper (s : State) (die : Nat) (f : Ftc → Ftc) : (s.modFtc die f).copper = s.copper := rfl
@[simp] theorem State.modFtc_lasers (s : State) (die : Nat) (f : Ftc → Ftc) : (s.modFtc die f).lasers = s.lasers := rfl
@[simp] theorem State.modFtc_ports (s : State) (die : Nat) (f : Ftc → Ftc) : (s.modFtc die f).ports = s.ports := rfl
@[simp] theorem State.modFtc_beacon (s : State) (die : Nat) (f : Ftc → Ftc) : (s.modFtc die f).beacon = s.beacon := rfl
@[simp] theorem State.modFtc_tiles (s : State) (die : Nat) (f : Ftc → Ftc) : (s.modFtc die f).tiles = s.tiles := rfl
@[simp] theorem State.modFtc_hbm (s : State) (die : Nat) (f : Ftc → Ftc) : (s.modFtc die f).hbm = s.hbm := rfl
@[simp] theorem State.modFtc_bsuOps (s : State) (die : Nat) (f : Ftc → Ftc) : (s.modFtc die f).bsuOps = s.bsuOps := rfl
@[simp] theorem State.modFtc_nextBsuOp (s : State) (die : Nat) (f : Ftc → Ftc) : (s.modFtc die f).nextBsuOp = s.nextBsuOp := rfl
@[simp] theorem State.modFtc_host (s : State) (die : Nat) (f : Ftc → Ftc) : (s.modFtc die f).host = s.host := rfl
@[simp] theorem State.modFtc_lamp (s : State) (die : Nat) (f : Ftc → Ftc) : (s.modFtc die f).lamp = s.lamp := rfl
@[simp] theorem State.modFtc_session (s : State) (die : Nat) (f : Ftc → Ftc) : (s.modFtc die f).session = s.session := rfl
@[simp] theorem State.modFtc_program (s : State) (die : Nat) (f : Ftc → Ftc) : (s.modFtc die f).program = s.program := rfl
@[simp] theorem State.modFtc_fonts (s : State) (die : Nat) (f : Ftc → Ftc) : (s.modFtc die f).fonts = s.fonts := rfl
@[simp] theorem State.modFtc_commit (s : State) (die : Nat) (f : Ftc → Ftc) : (s.modFtc die f).commit = s.commit := rfl
@[simp] theorem State.modFtc_copyChannels (s : State) (die : Nat) (f : Ftc → Ftc) : (s.modFtc die f).copyChannels = s.copyChannels := rfl
@[simp] theorem State.modFtc_sweep (s : State) (die : Nat) (f : Ftc → Ftc) : (s.modFtc die f).sweep = s.sweep := rfl
@[simp] theorem State.modFtc_exports (s : State) (die : Nat) (f : Ftc → Ftc) : (s.modFtc die f).exports = s.exports := rfl
@[simp] theorem State.modFtc_stateBlock (s : State) (die : Nat) (f : Ftc → Ftc) : (s.modFtc die f).stateBlock = s.stateBlock := rfl
@[simp] theorem State.modFtc_g4e (s : State) (die : Nat) (f : Ftc → Ftc) : (s.modFtc die f).g4e = s.g4e := rfl
@[simp] theorem State.modFtc_run (s : State) (die : Nat) (f : Ftc → Ftc) : (s.modFtc die f).run = s.run := rfl
@[simp] theorem State.modFtc_clearing (s : State) (die : Nat) (f : Ftc → Ftc) : (s.modFtc die f).clearing = s.clearing := rfl
@[simp] theorem State.modFtc_clearSince (s : State) (die : Nat) (f : Ftc → Ftc) : (s.modFtc die f).clearSince = s.clearSince := rfl
@[simp] theorem State.modFtc_stopped (s : State) (die : Nat) (f : Ftc → Ftc) : (s.modFtc die f).stopped = s.stopped := rfl
@[simp] theorem State.modFtc_requests (s : State) (die : Nat) (f : Ftc → Ftc) : (s.modFtc die f).requests = s.requests := rfl
@[simp] theorem State.modFtc_nextReq (s : State) (die : Nat) (f : Ftc → Ftc) : (s.modFtc die f).nextReq = s.nextReq := rfl
@[simp] theorem State.modFtc_signals (s : State) (die : Nat) (f : Ftc → Ftc) : (s.modFtc die f).signals = s.signals := rfl
@[simp] theorem State.modFtc_barriers (s : State) (die : Nat) (f : Ftc → Ftc) : (s.modFtc die f).barriers = s.barriers := rfl
@[simp] theorem State.modFtc_sharedLit (s : State) (die : Nat) (f : Ftc → Ftc) : (s.modFtc die f).sharedLit = s.sharedLit := rfl
@[simp] theorem State.modFtc_sharedAccess (s : State) (die : Nat) (f : Ftc → Ftc) : (s.modFtc die f).sharedAccess = s.sharedAccess := rfl
@[simp] theorem State.modFtc_sharedRetired (s : State) (die : Nat) (f : Ftc → Ftc) : (s.modFtc die f).sharedRetired = s.sharedRetired := rfl
@[simp] theorem State.modFtc_sharedTimes (s : State) (die : Nat) (f : Ftc → Ftc) : (s.modFtc die f).sharedTimes = s.sharedTimes := rfl
@[simp] theorem State.modFtc_sharedCorrected (s : State) (die : Nat) (f : Ftc → Ftc) : (s.modFtc die f).sharedCorrected = s.sharedCorrected := rfl
@[simp] theorem State.modFtc_sharedScrambled (s : State) (die : Nat) (f : Ftc → Ftc) : (s.modFtc die f).sharedScrambled = s.sharedScrambled := rfl
@[simp] theorem State.modFtc_timerBase (s : State) (die : Nat) (f : Ftc → Ftc) : (s.modFtc die f).timerBase = s.timerBase := rfl
@[simp] theorem State.modFtc_mem (s : State) (die : Nat) (f : Ftc → Ftc) : (s.modFtc die f).mem = s.mem := rfl
@[simp] theorem State.modFtc_hostMem (s : State) (die : Nat) (f : Ftc → Ftc) : (s.modFtc die f).hostMem = s.hostMem := rfl
@[simp] theorem State.modFtc_badSectors (s : State) (die : Nat) (f : Ftc → Ftc) : (s.modFtc die f).badSectors = s.badSectors := rfl

@[simp] theorem State.modFont_pending (s : State) (die : Nat) (f : Font → Font) : (s.modFont die f).pending = s.pending := rfl
@[simp] theorem State.modFont_dev (s : State) (die : Nat) (f : Font → Font) : (s.modFont die f).dev = s.dev := rfl
@[simp] theorem State.modFont_now (s : State) (die : Nat) (f : Font → Font) : (s.modFont die f).now = s.now := rfl
@[simp] theorem State.modFont_freeCount (s : State) (die : Nat) (f : Font → Font) : (s.modFont die f).freeCount = s.freeCount := rfl
@[simp] theorem State.modFont_pilot (s : State) (die : Nat) (f : Font → Font) : (s.modFont die f).pilot = s.pilot := rfl
@[simp] theorem State.modFont_fuses (s : State) (die : Nat) (f : Font → Font) : (s.modFont die f).fuses = s.fuses := rfl
@[simp] theorem State.modFont_flash (s : State) (die : Nat) (f : Font → Font) : (s.modFont die f).flash = s.flash := rfl
@[simp] theorem State.modFont_bundle (s : State) (die : Nat) (f : Font → Font) : (s.modFont die f).bundle = s.bundle := rfl
@[simp] theorem State.modFont_events (s : State) (die : Nat) (f : Font → Font) : (s.modFont die f).events = s.events := rfl
@[simp] theorem State.modFont_tele (s : State) (die : Nat) (f : Font → Font) : (s.modFont die f).tele = s.tele := rfl
@[simp] theorem State.modFont_i3c (s : State) (die : Nat) (f : Font → Font) : (s.modFont die f).i3c = s.i3c := rfl
@[simp] theorem State.modFont_tinder (s : State) (die : Nat) (f : Font → Font) : (s.modFont die f).tinder = s.tinder := rfl
@[simp] theorem State.modFont_dies (s : State) (die : Nat) (f : Font → Font) : (s.modFont die f).dies = s.dies := rfl
@[simp] theorem State.modFont_floor (s : State) (die : Nat) (f : Font → Font) : (s.modFont die f).floor = s.floor := rfl
@[simp] theorem State.modFont_links (s : State) (die : Nat) (f : Font → Font) : (s.modFont die f).links = s.links := rfl
@[simp] theorem State.modFont_copper (s : State) (die : Nat) (f : Font → Font) : (s.modFont die f).copper = s.copper := rfl
@[simp] theorem State.modFont_lasers (s : State) (die : Nat) (f : Font → Font) : (s.modFont die f).lasers = s.lasers := rfl
@[simp] theorem State.modFont_ports (s : State) (die : Nat) (f : Font → Font) : (s.modFont die f).ports = s.ports := rfl
@[simp] theorem State.modFont_beacon (s : State) (die : Nat) (f : Font → Font) : (s.modFont die f).beacon = s.beacon := rfl
@[simp] theorem State.modFont_ftc (s : State) (die : Nat) (f : Font → Font) : (s.modFont die f).ftc = s.ftc := rfl
@[simp] theorem State.modFont_tiles (s : State) (die : Nat) (f : Font → Font) : (s.modFont die f).tiles = s.tiles := rfl
@[simp] theorem State.modFont_hbm (s : State) (die : Nat) (f : Font → Font) : (s.modFont die f).hbm = s.hbm := rfl
@[simp] theorem State.modFont_bsuOps (s : State) (die : Nat) (f : Font → Font) : (s.modFont die f).bsuOps = s.bsuOps := rfl
@[simp] theorem State.modFont_nextBsuOp (s : State) (die : Nat) (f : Font → Font) : (s.modFont die f).nextBsuOp = s.nextBsuOp := rfl
@[simp] theorem State.modFont_host (s : State) (die : Nat) (f : Font → Font) : (s.modFont die f).host = s.host := rfl
@[simp] theorem State.modFont_lamp (s : State) (die : Nat) (f : Font → Font) : (s.modFont die f).lamp = s.lamp := rfl
@[simp] theorem State.modFont_session (s : State) (die : Nat) (f : Font → Font) : (s.modFont die f).session = s.session := rfl
@[simp] theorem State.modFont_program (s : State) (die : Nat) (f : Font → Font) : (s.modFont die f).program = s.program := rfl
@[simp] theorem State.modFont_commit (s : State) (die : Nat) (f : Font → Font) : (s.modFont die f).commit = s.commit := rfl
@[simp] theorem State.modFont_copyChannels (s : State) (die : Nat) (f : Font → Font) : (s.modFont die f).copyChannels = s.copyChannels := rfl
@[simp] theorem State.modFont_sweep (s : State) (die : Nat) (f : Font → Font) : (s.modFont die f).sweep = s.sweep := rfl
@[simp] theorem State.modFont_exports (s : State) (die : Nat) (f : Font → Font) : (s.modFont die f).exports = s.exports := rfl
@[simp] theorem State.modFont_stateBlock (s : State) (die : Nat) (f : Font → Font) : (s.modFont die f).stateBlock = s.stateBlock := rfl
@[simp] theorem State.modFont_g4e (s : State) (die : Nat) (f : Font → Font) : (s.modFont die f).g4e = s.g4e := rfl
@[simp] theorem State.modFont_run (s : State) (die : Nat) (f : Font → Font) : (s.modFont die f).run = s.run := rfl
@[simp] theorem State.modFont_clearing (s : State) (die : Nat) (f : Font → Font) : (s.modFont die f).clearing = s.clearing := rfl
@[simp] theorem State.modFont_clearSince (s : State) (die : Nat) (f : Font → Font) : (s.modFont die f).clearSince = s.clearSince := rfl
@[simp] theorem State.modFont_stopped (s : State) (die : Nat) (f : Font → Font) : (s.modFont die f).stopped = s.stopped := rfl
@[simp] theorem State.modFont_requests (s : State) (die : Nat) (f : Font → Font) : (s.modFont die f).requests = s.requests := rfl
@[simp] theorem State.modFont_nextReq (s : State) (die : Nat) (f : Font → Font) : (s.modFont die f).nextReq = s.nextReq := rfl
@[simp] theorem State.modFont_signals (s : State) (die : Nat) (f : Font → Font) : (s.modFont die f).signals = s.signals := rfl
@[simp] theorem State.modFont_barriers (s : State) (die : Nat) (f : Font → Font) : (s.modFont die f).barriers = s.barriers := rfl
@[simp] theorem State.modFont_sharedLit (s : State) (die : Nat) (f : Font → Font) : (s.modFont die f).sharedLit = s.sharedLit := rfl
@[simp] theorem State.modFont_sharedAccess (s : State) (die : Nat) (f : Font → Font) : (s.modFont die f).sharedAccess = s.sharedAccess := rfl
@[simp] theorem State.modFont_sharedRetired (s : State) (die : Nat) (f : Font → Font) : (s.modFont die f).sharedRetired = s.sharedRetired := rfl
@[simp] theorem State.modFont_sharedTimes (s : State) (die : Nat) (f : Font → Font) : (s.modFont die f).sharedTimes = s.sharedTimes := rfl
@[simp] theorem State.modFont_sharedCorrected (s : State) (die : Nat) (f : Font → Font) : (s.modFont die f).sharedCorrected = s.sharedCorrected := rfl
@[simp] theorem State.modFont_sharedScrambled (s : State) (die : Nat) (f : Font → Font) : (s.modFont die f).sharedScrambled = s.sharedScrambled := rfl
@[simp] theorem State.modFont_timerBase (s : State) (die : Nat) (f : Font → Font) : (s.modFont die f).timerBase = s.timerBase := rfl
@[simp] theorem State.modFont_mem (s : State) (die : Nat) (f : Font → Font) : (s.modFont die f).mem = s.mem := rfl
@[simp] theorem State.modFont_hostMem (s : State) (die : Nat) (f : Font → Font) : (s.modFont die f).hostMem = s.hostMem := rfl
@[simp] theorem State.modFont_badSectors (s : State) (die : Nat) (f : Font → Font) : (s.modFont die f).badSectors = s.badSectors := rfl

@[simp] theorem State.modHost_pending (s : State) (f : HostIf → HostIf) : (s.modHost f).pending = s.pending := rfl
@[simp] theorem State.modHost_dev (s : State) (f : HostIf → HostIf) : (s.modHost f).dev = s.dev := rfl
@[simp] theorem State.modHost_now (s : State) (f : HostIf → HostIf) : (s.modHost f).now = s.now := rfl
@[simp] theorem State.modHost_freeCount (s : State) (f : HostIf → HostIf) : (s.modHost f).freeCount = s.freeCount := rfl
@[simp] theorem State.modHost_pilot (s : State) (f : HostIf → HostIf) : (s.modHost f).pilot = s.pilot := rfl
@[simp] theorem State.modHost_fuses (s : State) (f : HostIf → HostIf) : (s.modHost f).fuses = s.fuses := rfl
@[simp] theorem State.modHost_flash (s : State) (f : HostIf → HostIf) : (s.modHost f).flash = s.flash := rfl
@[simp] theorem State.modHost_bundle (s : State) (f : HostIf → HostIf) : (s.modHost f).bundle = s.bundle := rfl
@[simp] theorem State.modHost_events (s : State) (f : HostIf → HostIf) : (s.modHost f).events = s.events := rfl
@[simp] theorem State.modHost_tele (s : State) (f : HostIf → HostIf) : (s.modHost f).tele = s.tele := rfl
@[simp] theorem State.modHost_i3c (s : State) (f : HostIf → HostIf) : (s.modHost f).i3c = s.i3c := rfl
@[simp] theorem State.modHost_tinder (s : State) (f : HostIf → HostIf) : (s.modHost f).tinder = s.tinder := rfl
@[simp] theorem State.modHost_dies (s : State) (f : HostIf → HostIf) : (s.modHost f).dies = s.dies := rfl
@[simp] theorem State.modHost_floor (s : State) (f : HostIf → HostIf) : (s.modHost f).floor = s.floor := rfl
@[simp] theorem State.modHost_links (s : State) (f : HostIf → HostIf) : (s.modHost f).links = s.links := rfl
@[simp] theorem State.modHost_copper (s : State) (f : HostIf → HostIf) : (s.modHost f).copper = s.copper := rfl
@[simp] theorem State.modHost_lasers (s : State) (f : HostIf → HostIf) : (s.modHost f).lasers = s.lasers := rfl
@[simp] theorem State.modHost_ports (s : State) (f : HostIf → HostIf) : (s.modHost f).ports = s.ports := rfl
@[simp] theorem State.modHost_beacon (s : State) (f : HostIf → HostIf) : (s.modHost f).beacon = s.beacon := rfl
@[simp] theorem State.modHost_ftc (s : State) (f : HostIf → HostIf) : (s.modHost f).ftc = s.ftc := rfl
@[simp] theorem State.modHost_tiles (s : State) (f : HostIf → HostIf) : (s.modHost f).tiles = s.tiles := rfl
@[simp] theorem State.modHost_hbm (s : State) (f : HostIf → HostIf) : (s.modHost f).hbm = s.hbm := rfl
@[simp] theorem State.modHost_bsuOps (s : State) (f : HostIf → HostIf) : (s.modHost f).bsuOps = s.bsuOps := rfl
@[simp] theorem State.modHost_nextBsuOp (s : State) (f : HostIf → HostIf) : (s.modHost f).nextBsuOp = s.nextBsuOp := rfl
@[simp] theorem State.modHost_lamp (s : State) (f : HostIf → HostIf) : (s.modHost f).lamp = s.lamp := rfl
@[simp] theorem State.modHost_session (s : State) (f : HostIf → HostIf) : (s.modHost f).session = s.session := rfl
@[simp] theorem State.modHost_program (s : State) (f : HostIf → HostIf) : (s.modHost f).program = s.program := rfl
@[simp] theorem State.modHost_fonts (s : State) (f : HostIf → HostIf) : (s.modHost f).fonts = s.fonts := rfl
@[simp] theorem State.modHost_commit (s : State) (f : HostIf → HostIf) : (s.modHost f).commit = s.commit := rfl
@[simp] theorem State.modHost_copyChannels (s : State) (f : HostIf → HostIf) : (s.modHost f).copyChannels = s.copyChannels := rfl
@[simp] theorem State.modHost_sweep (s : State) (f : HostIf → HostIf) : (s.modHost f).sweep = s.sweep := rfl
@[simp] theorem State.modHost_exports (s : State) (f : HostIf → HostIf) : (s.modHost f).exports = s.exports := rfl
@[simp] theorem State.modHost_stateBlock (s : State) (f : HostIf → HostIf) : (s.modHost f).stateBlock = s.stateBlock := rfl
@[simp] theorem State.modHost_g4e (s : State) (f : HostIf → HostIf) : (s.modHost f).g4e = s.g4e := rfl
@[simp] theorem State.modHost_run (s : State) (f : HostIf → HostIf) : (s.modHost f).run = s.run := rfl
@[simp] theorem State.modHost_clearing (s : State) (f : HostIf → HostIf) : (s.modHost f).clearing = s.clearing := rfl
@[simp] theorem State.modHost_clearSince (s : State) (f : HostIf → HostIf) : (s.modHost f).clearSince = s.clearSince := rfl
@[simp] theorem State.modHost_stopped (s : State) (f : HostIf → HostIf) : (s.modHost f).stopped = s.stopped := rfl
@[simp] theorem State.modHost_requests (s : State) (f : HostIf → HostIf) : (s.modHost f).requests = s.requests := rfl
@[simp] theorem State.modHost_nextReq (s : State) (f : HostIf → HostIf) : (s.modHost f).nextReq = s.nextReq := rfl
@[simp] theorem State.modHost_signals (s : State) (f : HostIf → HostIf) : (s.modHost f).signals = s.signals := rfl
@[simp] theorem State.modHost_barriers (s : State) (f : HostIf → HostIf) : (s.modHost f).barriers = s.barriers := rfl
@[simp] theorem State.modHost_sharedLit (s : State) (f : HostIf → HostIf) : (s.modHost f).sharedLit = s.sharedLit := rfl
@[simp] theorem State.modHost_sharedAccess (s : State) (f : HostIf → HostIf) : (s.modHost f).sharedAccess = s.sharedAccess := rfl
@[simp] theorem State.modHost_sharedRetired (s : State) (f : HostIf → HostIf) : (s.modHost f).sharedRetired = s.sharedRetired := rfl
@[simp] theorem State.modHost_sharedTimes (s : State) (f : HostIf → HostIf) : (s.modHost f).sharedTimes = s.sharedTimes := rfl
@[simp] theorem State.modHost_sharedCorrected (s : State) (f : HostIf → HostIf) : (s.modHost f).sharedCorrected = s.sharedCorrected := rfl
@[simp] theorem State.modHost_sharedScrambled (s : State) (f : HostIf → HostIf) : (s.modHost f).sharedScrambled = s.sharedScrambled := rfl
@[simp] theorem State.modHost_timerBase (s : State) (f : HostIf → HostIf) : (s.modHost f).timerBase = s.timerBase := rfl
@[simp] theorem State.modHost_mem (s : State) (f : HostIf → HostIf) : (s.modHost f).mem = s.mem := rfl
@[simp] theorem State.modHost_hostMem (s : State) (f : HostIf → HostIf) : (s.modHost f).hostMem = s.hostMem := rfl
@[simp] theorem State.modHost_badSectors (s : State) (f : HostIf → HostIf) : (s.modHost f).badSectors = s.badSectors := rfl

@[simp] theorem State.modTinder_pending (s : State) (f : Tinder → Tinder) : (s.modTinder f).pending = s.pending := rfl
@[simp] theorem State.modTinder_dev (s : State) (f : Tinder → Tinder) : (s.modTinder f).dev = s.dev := rfl
@[simp] theorem State.modTinder_now (s : State) (f : Tinder → Tinder) : (s.modTinder f).now = s.now := rfl
@[simp] theorem State.modTinder_freeCount (s : State) (f : Tinder → Tinder) : (s.modTinder f).freeCount = s.freeCount := rfl
@[simp] theorem State.modTinder_pilot (s : State) (f : Tinder → Tinder) : (s.modTinder f).pilot = s.pilot := rfl
@[simp] theorem State.modTinder_fuses (s : State) (f : Tinder → Tinder) : (s.modTinder f).fuses = s.fuses := rfl
@[simp] theorem State.modTinder_flash (s : State) (f : Tinder → Tinder) : (s.modTinder f).flash = s.flash := rfl
@[simp] theorem State.modTinder_bundle (s : State) (f : Tinder → Tinder) : (s.modTinder f).bundle = s.bundle := rfl
@[simp] theorem State.modTinder_events (s : State) (f : Tinder → Tinder) : (s.modTinder f).events = s.events := rfl
@[simp] theorem State.modTinder_tele (s : State) (f : Tinder → Tinder) : (s.modTinder f).tele = s.tele := rfl
@[simp] theorem State.modTinder_i3c (s : State) (f : Tinder → Tinder) : (s.modTinder f).i3c = s.i3c := rfl
@[simp] theorem State.modTinder_dies (s : State) (f : Tinder → Tinder) : (s.modTinder f).dies = s.dies := rfl
@[simp] theorem State.modTinder_floor (s : State) (f : Tinder → Tinder) : (s.modTinder f).floor = s.floor := rfl
@[simp] theorem State.modTinder_links (s : State) (f : Tinder → Tinder) : (s.modTinder f).links = s.links := rfl
@[simp] theorem State.modTinder_copper (s : State) (f : Tinder → Tinder) : (s.modTinder f).copper = s.copper := rfl
@[simp] theorem State.modTinder_lasers (s : State) (f : Tinder → Tinder) : (s.modTinder f).lasers = s.lasers := rfl
@[simp] theorem State.modTinder_ports (s : State) (f : Tinder → Tinder) : (s.modTinder f).ports = s.ports := rfl
@[simp] theorem State.modTinder_beacon (s : State) (f : Tinder → Tinder) : (s.modTinder f).beacon = s.beacon := rfl
@[simp] theorem State.modTinder_ftc (s : State) (f : Tinder → Tinder) : (s.modTinder f).ftc = s.ftc := rfl
@[simp] theorem State.modTinder_tiles (s : State) (f : Tinder → Tinder) : (s.modTinder f).tiles = s.tiles := rfl
@[simp] theorem State.modTinder_hbm (s : State) (f : Tinder → Tinder) : (s.modTinder f).hbm = s.hbm := rfl
@[simp] theorem State.modTinder_bsuOps (s : State) (f : Tinder → Tinder) : (s.modTinder f).bsuOps = s.bsuOps := rfl
@[simp] theorem State.modTinder_nextBsuOp (s : State) (f : Tinder → Tinder) : (s.modTinder f).nextBsuOp = s.nextBsuOp := rfl
@[simp] theorem State.modTinder_host (s : State) (f : Tinder → Tinder) : (s.modTinder f).host = s.host := rfl
@[simp] theorem State.modTinder_lamp (s : State) (f : Tinder → Tinder) : (s.modTinder f).lamp = s.lamp := rfl
@[simp] theorem State.modTinder_session (s : State) (f : Tinder → Tinder) : (s.modTinder f).session = s.session := rfl
@[simp] theorem State.modTinder_program (s : State) (f : Tinder → Tinder) : (s.modTinder f).program = s.program := rfl
@[simp] theorem State.modTinder_fonts (s : State) (f : Tinder → Tinder) : (s.modTinder f).fonts = s.fonts := rfl
@[simp] theorem State.modTinder_commit (s : State) (f : Tinder → Tinder) : (s.modTinder f).commit = s.commit := rfl
@[simp] theorem State.modTinder_copyChannels (s : State) (f : Tinder → Tinder) : (s.modTinder f).copyChannels = s.copyChannels := rfl
@[simp] theorem State.modTinder_sweep (s : State) (f : Tinder → Tinder) : (s.modTinder f).sweep = s.sweep := rfl
@[simp] theorem State.modTinder_exports (s : State) (f : Tinder → Tinder) : (s.modTinder f).exports = s.exports := rfl
@[simp] theorem State.modTinder_stateBlock (s : State) (f : Tinder → Tinder) : (s.modTinder f).stateBlock = s.stateBlock := rfl
@[simp] theorem State.modTinder_g4e (s : State) (f : Tinder → Tinder) : (s.modTinder f).g4e = s.g4e := rfl
@[simp] theorem State.modTinder_run (s : State) (f : Tinder → Tinder) : (s.modTinder f).run = s.run := rfl
@[simp] theorem State.modTinder_clearing (s : State) (f : Tinder → Tinder) : (s.modTinder f).clearing = s.clearing := rfl
@[simp] theorem State.modTinder_clearSince (s : State) (f : Tinder → Tinder) : (s.modTinder f).clearSince = s.clearSince := rfl
@[simp] theorem State.modTinder_stopped (s : State) (f : Tinder → Tinder) : (s.modTinder f).stopped = s.stopped := rfl
@[simp] theorem State.modTinder_requests (s : State) (f : Tinder → Tinder) : (s.modTinder f).requests = s.requests := rfl
@[simp] theorem State.modTinder_nextReq (s : State) (f : Tinder → Tinder) : (s.modTinder f).nextReq = s.nextReq := rfl
@[simp] theorem State.modTinder_signals (s : State) (f : Tinder → Tinder) : (s.modTinder f).signals = s.signals := rfl
@[simp] theorem State.modTinder_barriers (s : State) (f : Tinder → Tinder) : (s.modTinder f).barriers = s.barriers := rfl
@[simp] theorem State.modTinder_sharedLit (s : State) (f : Tinder → Tinder) : (s.modTinder f).sharedLit = s.sharedLit := rfl
@[simp] theorem State.modTinder_sharedAccess (s : State) (f : Tinder → Tinder) : (s.modTinder f).sharedAccess = s.sharedAccess := rfl
@[simp] theorem State.modTinder_sharedRetired (s : State) (f : Tinder → Tinder) : (s.modTinder f).sharedRetired = s.sharedRetired := rfl
@[simp] theorem State.modTinder_sharedTimes (s : State) (f : Tinder → Tinder) : (s.modTinder f).sharedTimes = s.sharedTimes := rfl
@[simp] theorem State.modTinder_sharedCorrected (s : State) (f : Tinder → Tinder) : (s.modTinder f).sharedCorrected = s.sharedCorrected := rfl
@[simp] theorem State.modTinder_sharedScrambled (s : State) (f : Tinder → Tinder) : (s.modTinder f).sharedScrambled = s.sharedScrambled := rfl
@[simp] theorem State.modTinder_timerBase (s : State) (f : Tinder → Tinder) : (s.modTinder f).timerBase = s.timerBase := rfl
@[simp] theorem State.modTinder_mem (s : State) (f : Tinder → Tinder) : (s.modTinder f).mem = s.mem := rfl
@[simp] theorem State.modTinder_hostMem (s : State) (f : Tinder → Tinder) : (s.modTinder f).hostMem = s.hostMem := rfl
@[simp] theorem State.modTinder_badSectors (s : State) (f : Tinder → Tinder) : (s.modTinder f).badSectors = s.badSectors := rfl

@[simp] theorem State.advanceTo_pending (s : State) (t : Nat) : (s.advanceTo t).pending = s.pending := rfl
@[simp] theorem State.advanceTo_dev (s : State) (t : Nat) : (s.advanceTo t).dev = s.dev := rfl
@[simp] theorem State.advanceTo_freeCount (s : State) (t : Nat) : (s.advanceTo t).freeCount = s.freeCount := rfl
@[simp] theorem State.advanceTo_pilot (s : State) (t : Nat) : (s.advanceTo t).pilot = s.pilot := rfl
@[simp] theorem State.advanceTo_fuses (s : State) (t : Nat) : (s.advanceTo t).fuses = s.fuses := rfl
@[simp] theorem State.advanceTo_flash (s : State) (t : Nat) : (s.advanceTo t).flash = s.flash := rfl
@[simp] theorem State.advanceTo_bundle (s : State) (t : Nat) : (s.advanceTo t).bundle = s.bundle := rfl
@[simp] theorem State.advanceTo_events (s : State) (t : Nat) : (s.advanceTo t).events = s.events := rfl
@[simp] theorem State.advanceTo_tele (s : State) (t : Nat) : (s.advanceTo t).tele = s.tele := rfl
@[simp] theorem State.advanceTo_i3c (s : State) (t : Nat) : (s.advanceTo t).i3c = s.i3c := rfl
@[simp] theorem State.advanceTo_tinder (s : State) (t : Nat) : (s.advanceTo t).tinder = s.tinder := rfl
@[simp] theorem State.advanceTo_dies (s : State) (t : Nat) : (s.advanceTo t).dies = s.dies := rfl
@[simp] theorem State.advanceTo_floor (s : State) (t : Nat) : (s.advanceTo t).floor = s.floor := rfl
@[simp] theorem State.advanceTo_links (s : State) (t : Nat) : (s.advanceTo t).links = s.links := rfl
@[simp] theorem State.advanceTo_copper (s : State) (t : Nat) : (s.advanceTo t).copper = s.copper := rfl
@[simp] theorem State.advanceTo_lasers (s : State) (t : Nat) : (s.advanceTo t).lasers = s.lasers := rfl
@[simp] theorem State.advanceTo_ports (s : State) (t : Nat) : (s.advanceTo t).ports = s.ports := rfl
@[simp] theorem State.advanceTo_beacon (s : State) (t : Nat) : (s.advanceTo t).beacon = s.beacon := rfl
@[simp] theorem State.advanceTo_ftc (s : State) (t : Nat) : (s.advanceTo t).ftc = s.ftc := rfl
@[simp] theorem State.advanceTo_tiles (s : State) (t : Nat) : (s.advanceTo t).tiles = s.tiles := rfl
@[simp] theorem State.advanceTo_hbm (s : State) (t : Nat) : (s.advanceTo t).hbm = s.hbm := rfl
@[simp] theorem State.advanceTo_bsuOps (s : State) (t : Nat) : (s.advanceTo t).bsuOps = s.bsuOps := rfl
@[simp] theorem State.advanceTo_nextBsuOp (s : State) (t : Nat) : (s.advanceTo t).nextBsuOp = s.nextBsuOp := rfl
@[simp] theorem State.advanceTo_host (s : State) (t : Nat) : (s.advanceTo t).host = s.host := rfl
@[simp] theorem State.advanceTo_lamp (s : State) (t : Nat) : (s.advanceTo t).lamp = s.lamp := rfl
@[simp] theorem State.advanceTo_session (s : State) (t : Nat) : (s.advanceTo t).session = s.session := rfl
@[simp] theorem State.advanceTo_program (s : State) (t : Nat) : (s.advanceTo t).program = s.program := rfl
@[simp] theorem State.advanceTo_fonts (s : State) (t : Nat) : (s.advanceTo t).fonts = s.fonts := rfl
@[simp] theorem State.advanceTo_commit (s : State) (t : Nat) : (s.advanceTo t).commit = s.commit := rfl
@[simp] theorem State.advanceTo_copyChannels (s : State) (t : Nat) : (s.advanceTo t).copyChannels = s.copyChannels := rfl
@[simp] theorem State.advanceTo_sweep (s : State) (t : Nat) : (s.advanceTo t).sweep = s.sweep := rfl
@[simp] theorem State.advanceTo_exports (s : State) (t : Nat) : (s.advanceTo t).exports = s.exports := rfl
@[simp] theorem State.advanceTo_stateBlock (s : State) (t : Nat) : (s.advanceTo t).stateBlock = s.stateBlock := rfl
@[simp] theorem State.advanceTo_g4e (s : State) (t : Nat) : (s.advanceTo t).g4e = s.g4e := rfl
@[simp] theorem State.advanceTo_run (s : State) (t : Nat) : (s.advanceTo t).run = s.run := rfl
@[simp] theorem State.advanceTo_clearing (s : State) (t : Nat) : (s.advanceTo t).clearing = s.clearing := rfl
@[simp] theorem State.advanceTo_clearSince (s : State) (t : Nat) : (s.advanceTo t).clearSince = s.clearSince := rfl
@[simp] theorem State.advanceTo_stopped (s : State) (t : Nat) : (s.advanceTo t).stopped = s.stopped := rfl
@[simp] theorem State.advanceTo_requests (s : State) (t : Nat) : (s.advanceTo t).requests = s.requests := rfl
@[simp] theorem State.advanceTo_nextReq (s : State) (t : Nat) : (s.advanceTo t).nextReq = s.nextReq := rfl
@[simp] theorem State.advanceTo_signals (s : State) (t : Nat) : (s.advanceTo t).signals = s.signals := rfl
@[simp] theorem State.advanceTo_barriers (s : State) (t : Nat) : (s.advanceTo t).barriers = s.barriers := rfl
@[simp] theorem State.advanceTo_sharedLit (s : State) (t : Nat) : (s.advanceTo t).sharedLit = s.sharedLit := rfl
@[simp] theorem State.advanceTo_sharedAccess (s : State) (t : Nat) : (s.advanceTo t).sharedAccess = s.sharedAccess := rfl
@[simp] theorem State.advanceTo_sharedRetired (s : State) (t : Nat) : (s.advanceTo t).sharedRetired = s.sharedRetired := rfl
@[simp] theorem State.advanceTo_sharedTimes (s : State) (t : Nat) : (s.advanceTo t).sharedTimes = s.sharedTimes := rfl
@[simp] theorem State.advanceTo_sharedCorrected (s : State) (t : Nat) : (s.advanceTo t).sharedCorrected = s.sharedCorrected := rfl
@[simp] theorem State.advanceTo_sharedScrambled (s : State) (t : Nat) : (s.advanceTo t).sharedScrambled = s.sharedScrambled := rfl
@[simp] theorem State.advanceTo_timerBase (s : State) (t : Nat) : (s.advanceTo t).timerBase = s.timerBase := rfl
@[simp] theorem State.advanceTo_mem (s : State) (t : Nat) : (s.advanceTo t).mem = s.mem := rfl
@[simp] theorem State.advanceTo_hostMem (s : State) (t : Nat) : (s.advanceTo t).hostMem = s.hostMem := rfl
@[simp] theorem State.advanceTo_badSectors (s : State) (t : Nat) : (s.advanceTo t).badSectors = s.badSectors := rfl

@[simp] theorem State.signal_pending (s : State) (v : Nat) : (s.signal v).pending = s.pending := rfl
@[simp] theorem State.signal_dev (s : State) (v : Nat) : (s.signal v).dev = s.dev := rfl
@[simp] theorem State.signal_now (s : State) (v : Nat) : (s.signal v).now = s.now := rfl
@[simp] theorem State.signal_freeCount (s : State) (v : Nat) : (s.signal v).freeCount = s.freeCount := rfl
@[simp] theorem State.signal_pilot (s : State) (v : Nat) : (s.signal v).pilot = s.pilot := rfl
@[simp] theorem State.signal_fuses (s : State) (v : Nat) : (s.signal v).fuses = s.fuses := rfl
@[simp] theorem State.signal_flash (s : State) (v : Nat) : (s.signal v).flash = s.flash := rfl
@[simp] theorem State.signal_bundle (s : State) (v : Nat) : (s.signal v).bundle = s.bundle := rfl
@[simp] theorem State.signal_events (s : State) (v : Nat) : (s.signal v).events = s.events := rfl
@[simp] theorem State.signal_tele (s : State) (v : Nat) : (s.signal v).tele = s.tele := rfl
@[simp] theorem State.signal_i3c (s : State) (v : Nat) : (s.signal v).i3c = s.i3c := rfl
@[simp] theorem State.signal_tinder (s : State) (v : Nat) : (s.signal v).tinder = s.tinder := rfl
@[simp] theorem State.signal_dies (s : State) (v : Nat) : (s.signal v).dies = s.dies := rfl
@[simp] theorem State.signal_floor (s : State) (v : Nat) : (s.signal v).floor = s.floor := rfl
@[simp] theorem State.signal_links (s : State) (v : Nat) : (s.signal v).links = s.links := rfl
@[simp] theorem State.signal_copper (s : State) (v : Nat) : (s.signal v).copper = s.copper := rfl
@[simp] theorem State.signal_lasers (s : State) (v : Nat) : (s.signal v).lasers = s.lasers := rfl
@[simp] theorem State.signal_ports (s : State) (v : Nat) : (s.signal v).ports = s.ports := rfl
@[simp] theorem State.signal_beacon (s : State) (v : Nat) : (s.signal v).beacon = s.beacon := rfl
@[simp] theorem State.signal_ftc (s : State) (v : Nat) : (s.signal v).ftc = s.ftc := rfl
@[simp] theorem State.signal_tiles (s : State) (v : Nat) : (s.signal v).tiles = s.tiles := rfl
@[simp] theorem State.signal_hbm (s : State) (v : Nat) : (s.signal v).hbm = s.hbm := rfl
@[simp] theorem State.signal_bsuOps (s : State) (v : Nat) : (s.signal v).bsuOps = s.bsuOps := rfl
@[simp] theorem State.signal_nextBsuOp (s : State) (v : Nat) : (s.signal v).nextBsuOp = s.nextBsuOp := rfl
@[simp] theorem State.signal_lamp (s : State) (v : Nat) : (s.signal v).lamp = s.lamp := rfl
@[simp] theorem State.signal_session (s : State) (v : Nat) : (s.signal v).session = s.session := rfl
@[simp] theorem State.signal_program (s : State) (v : Nat) : (s.signal v).program = s.program := rfl
@[simp] theorem State.signal_fonts (s : State) (v : Nat) : (s.signal v).fonts = s.fonts := rfl
@[simp] theorem State.signal_commit (s : State) (v : Nat) : (s.signal v).commit = s.commit := rfl
@[simp] theorem State.signal_copyChannels (s : State) (v : Nat) : (s.signal v).copyChannels = s.copyChannels := rfl
@[simp] theorem State.signal_sweep (s : State) (v : Nat) : (s.signal v).sweep = s.sweep := rfl
@[simp] theorem State.signal_exports (s : State) (v : Nat) : (s.signal v).exports = s.exports := rfl
@[simp] theorem State.signal_stateBlock (s : State) (v : Nat) : (s.signal v).stateBlock = s.stateBlock := rfl
@[simp] theorem State.signal_g4e (s : State) (v : Nat) : (s.signal v).g4e = s.g4e := rfl
@[simp] theorem State.signal_run (s : State) (v : Nat) : (s.signal v).run = s.run := rfl
@[simp] theorem State.signal_clearing (s : State) (v : Nat) : (s.signal v).clearing = s.clearing := rfl
@[simp] theorem State.signal_clearSince (s : State) (v : Nat) : (s.signal v).clearSince = s.clearSince := rfl
@[simp] theorem State.signal_stopped (s : State) (v : Nat) : (s.signal v).stopped = s.stopped := rfl
@[simp] theorem State.signal_requests (s : State) (v : Nat) : (s.signal v).requests = s.requests := rfl
@[simp] theorem State.signal_nextReq (s : State) (v : Nat) : (s.signal v).nextReq = s.nextReq := rfl
@[simp] theorem State.signal_signals (s : State) (v : Nat) : (s.signal v).signals = s.signals := rfl
@[simp] theorem State.signal_barriers (s : State) (v : Nat) : (s.signal v).barriers = s.barriers := rfl
@[simp] theorem State.signal_sharedLit (s : State) (v : Nat) : (s.signal v).sharedLit = s.sharedLit := rfl
@[simp] theorem State.signal_sharedAccess (s : State) (v : Nat) : (s.signal v).sharedAccess = s.sharedAccess := rfl
@[simp] theorem State.signal_sharedRetired (s : State) (v : Nat) : (s.signal v).sharedRetired = s.sharedRetired := rfl
@[simp] theorem State.signal_sharedTimes (s : State) (v : Nat) : (s.signal v).sharedTimes = s.sharedTimes := rfl
@[simp] theorem State.signal_sharedCorrected (s : State) (v : Nat) : (s.signal v).sharedCorrected = s.sharedCorrected := rfl
@[simp] theorem State.signal_sharedScrambled (s : State) (v : Nat) : (s.signal v).sharedScrambled = s.sharedScrambled := rfl
@[simp] theorem State.signal_timerBase (s : State) (v : Nat) : (s.signal v).timerBase = s.timerBase := rfl
@[simp] theorem State.signal_mem (s : State) (v : Nat) : (s.signal v).mem = s.mem := rfl
@[simp] theorem State.signal_hostMem (s : State) (v : Nat) : (s.signal v).hostMem = s.hostMem := rfl
@[simp] theorem State.signal_badSectors (s : State) (v : Nat) : (s.signal v).badSectors = s.badSectors := rfl

@[simp] theorem State.takeFree_pending (s : State) : (s.takeFree).pending = s.pending := rfl
@[simp] theorem State.takeFree_dev (s : State) : (s.takeFree).dev = s.dev := rfl
@[simp] theorem State.takeFree_now (s : State) : (s.takeFree).now = s.now := rfl
@[simp] theorem State.takeFree_pilot (s : State) : (s.takeFree).pilot = s.pilot := rfl
@[simp] theorem State.takeFree_fuses (s : State) : (s.takeFree).fuses = s.fuses := rfl
@[simp] theorem State.takeFree_flash (s : State) : (s.takeFree).flash = s.flash := rfl
@[simp] theorem State.takeFree_bundle (s : State) : (s.takeFree).bundle = s.bundle := rfl
@[simp] theorem State.takeFree_events (s : State) : (s.takeFree).events = s.events := rfl
@[simp] theorem State.takeFree_tele (s : State) : (s.takeFree).tele = s.tele := rfl
@[simp] theorem State.takeFree_i3c (s : State) : (s.takeFree).i3c = s.i3c := rfl
@[simp] theorem State.takeFree_tinder (s : State) : (s.takeFree).tinder = s.tinder := rfl
@[simp] theorem State.takeFree_dies (s : State) : (s.takeFree).dies = s.dies := rfl
@[simp] theorem State.takeFree_floor (s : State) : (s.takeFree).floor = s.floor := rfl
@[simp] theorem State.takeFree_links (s : State) : (s.takeFree).links = s.links := rfl
@[simp] theorem State.takeFree_copper (s : State) : (s.takeFree).copper = s.copper := rfl
@[simp] theorem State.takeFree_lasers (s : State) : (s.takeFree).lasers = s.lasers := rfl
@[simp] theorem State.takeFree_ports (s : State) : (s.takeFree).ports = s.ports := rfl
@[simp] theorem State.takeFree_beacon (s : State) : (s.takeFree).beacon = s.beacon := rfl
@[simp] theorem State.takeFree_ftc (s : State) : (s.takeFree).ftc = s.ftc := rfl
@[simp] theorem State.takeFree_tiles (s : State) : (s.takeFree).tiles = s.tiles := rfl
@[simp] theorem State.takeFree_hbm (s : State) : (s.takeFree).hbm = s.hbm := rfl
@[simp] theorem State.takeFree_bsuOps (s : State) : (s.takeFree).bsuOps = s.bsuOps := rfl
@[simp] theorem State.takeFree_nextBsuOp (s : State) : (s.takeFree).nextBsuOp = s.nextBsuOp := rfl
@[simp] theorem State.takeFree_host (s : State) : (s.takeFree).host = s.host := rfl
@[simp] theorem State.takeFree_lamp (s : State) : (s.takeFree).lamp = s.lamp := rfl
@[simp] theorem State.takeFree_session (s : State) : (s.takeFree).session = s.session := rfl
@[simp] theorem State.takeFree_program (s : State) : (s.takeFree).program = s.program := rfl
@[simp] theorem State.takeFree_fonts (s : State) : (s.takeFree).fonts = s.fonts := rfl
@[simp] theorem State.takeFree_commit (s : State) : (s.takeFree).commit = s.commit := rfl
@[simp] theorem State.takeFree_copyChannels (s : State) : (s.takeFree).copyChannels = s.copyChannels := rfl
@[simp] theorem State.takeFree_sweep (s : State) : (s.takeFree).sweep = s.sweep := rfl
@[simp] theorem State.takeFree_exports (s : State) : (s.takeFree).exports = s.exports := rfl
@[simp] theorem State.takeFree_stateBlock (s : State) : (s.takeFree).stateBlock = s.stateBlock := rfl
@[simp] theorem State.takeFree_g4e (s : State) : (s.takeFree).g4e = s.g4e := rfl
@[simp] theorem State.takeFree_run (s : State) : (s.takeFree).run = s.run := rfl
@[simp] theorem State.takeFree_clearing (s : State) : (s.takeFree).clearing = s.clearing := rfl
@[simp] theorem State.takeFree_clearSince (s : State) : (s.takeFree).clearSince = s.clearSince := rfl
@[simp] theorem State.takeFree_stopped (s : State) : (s.takeFree).stopped = s.stopped := rfl
@[simp] theorem State.takeFree_requests (s : State) : (s.takeFree).requests = s.requests := rfl
@[simp] theorem State.takeFree_nextReq (s : State) : (s.takeFree).nextReq = s.nextReq := rfl
@[simp] theorem State.takeFree_signals (s : State) : (s.takeFree).signals = s.signals := rfl
@[simp] theorem State.takeFree_barriers (s : State) : (s.takeFree).barriers = s.barriers := rfl
@[simp] theorem State.takeFree_sharedLit (s : State) : (s.takeFree).sharedLit = s.sharedLit := rfl
@[simp] theorem State.takeFree_sharedAccess (s : State) : (s.takeFree).sharedAccess = s.sharedAccess := rfl
@[simp] theorem State.takeFree_sharedRetired (s : State) : (s.takeFree).sharedRetired = s.sharedRetired := rfl
@[simp] theorem State.takeFree_sharedTimes (s : State) : (s.takeFree).sharedTimes = s.sharedTimes := rfl
@[simp] theorem State.takeFree_sharedCorrected (s : State) : (s.takeFree).sharedCorrected = s.sharedCorrected := rfl
@[simp] theorem State.takeFree_sharedScrambled (s : State) : (s.takeFree).sharedScrambled = s.sharedScrambled := rfl
@[simp] theorem State.takeFree_timerBase (s : State) : (s.takeFree).timerBase = s.timerBase := rfl
@[simp] theorem State.takeFree_mem (s : State) : (s.takeFree).mem = s.mem := rfl
@[simp] theorem State.takeFree_hostMem (s : State) : (s.takeFree).hostMem = s.hostMem := rfl
@[simp] theorem State.takeFree_badSectors (s : State) : (s.takeFree).badSectors = s.badSectors := rfl

@[simp] theorem State.newCascade_pending (s : State) : (s.newCascade).pending = s.pending := rfl
@[simp] theorem State.newCascade_dev (s : State) : (s.newCascade).dev = s.dev := rfl
@[simp] theorem State.newCascade_now (s : State) : (s.newCascade).now = s.now := rfl
@[simp] theorem State.newCascade_freeCount (s : State) : (s.newCascade).freeCount = s.freeCount := rfl
@[simp] theorem State.newCascade_pilot (s : State) : (s.newCascade).pilot = s.pilot := rfl
@[simp] theorem State.newCascade_fuses (s : State) : (s.newCascade).fuses = s.fuses := rfl
@[simp] theorem State.newCascade_flash (s : State) : (s.newCascade).flash = s.flash := rfl
@[simp] theorem State.newCascade_bundle (s : State) : (s.newCascade).bundle = s.bundle := rfl
@[simp] theorem State.newCascade_tele (s : State) : (s.newCascade).tele = s.tele := rfl
@[simp] theorem State.newCascade_i3c (s : State) : (s.newCascade).i3c = s.i3c := rfl
@[simp] theorem State.newCascade_tinder (s : State) : (s.newCascade).tinder = s.tinder := rfl
@[simp] theorem State.newCascade_dies (s : State) : (s.newCascade).dies = s.dies := rfl
@[simp] theorem State.newCascade_floor (s : State) : (s.newCascade).floor = s.floor := rfl
@[simp] theorem State.newCascade_links (s : State) : (s.newCascade).links = s.links := rfl
@[simp] theorem State.newCascade_copper (s : State) : (s.newCascade).copper = s.copper := rfl
@[simp] theorem State.newCascade_lasers (s : State) : (s.newCascade).lasers = s.lasers := rfl
@[simp] theorem State.newCascade_ports (s : State) : (s.newCascade).ports = s.ports := rfl
@[simp] theorem State.newCascade_beacon (s : State) : (s.newCascade).beacon = s.beacon := rfl
@[simp] theorem State.newCascade_ftc (s : State) : (s.newCascade).ftc = s.ftc := rfl
@[simp] theorem State.newCascade_tiles (s : State) : (s.newCascade).tiles = s.tiles := rfl
@[simp] theorem State.newCascade_hbm (s : State) : (s.newCascade).hbm = s.hbm := rfl
@[simp] theorem State.newCascade_bsuOps (s : State) : (s.newCascade).bsuOps = s.bsuOps := rfl
@[simp] theorem State.newCascade_nextBsuOp (s : State) : (s.newCascade).nextBsuOp = s.nextBsuOp := rfl
@[simp] theorem State.newCascade_host (s : State) : (s.newCascade).host = s.host := rfl
@[simp] theorem State.newCascade_lamp (s : State) : (s.newCascade).lamp = s.lamp := rfl
@[simp] theorem State.newCascade_session (s : State) : (s.newCascade).session = s.session := rfl
@[simp] theorem State.newCascade_program (s : State) : (s.newCascade).program = s.program := rfl
@[simp] theorem State.newCascade_fonts (s : State) : (s.newCascade).fonts = s.fonts := rfl
@[simp] theorem State.newCascade_commit (s : State) : (s.newCascade).commit = s.commit := rfl
@[simp] theorem State.newCascade_copyChannels (s : State) : (s.newCascade).copyChannels = s.copyChannels := rfl
@[simp] theorem State.newCascade_sweep (s : State) : (s.newCascade).sweep = s.sweep := rfl
@[simp] theorem State.newCascade_exports (s : State) : (s.newCascade).exports = s.exports := rfl
@[simp] theorem State.newCascade_stateBlock (s : State) : (s.newCascade).stateBlock = s.stateBlock := rfl
@[simp] theorem State.newCascade_g4e (s : State) : (s.newCascade).g4e = s.g4e := rfl
@[simp] theorem State.newCascade_run (s : State) : (s.newCascade).run = s.run := rfl
@[simp] theorem State.newCascade_clearing (s : State) : (s.newCascade).clearing = s.clearing := rfl
@[simp] theorem State.newCascade_clearSince (s : State) : (s.newCascade).clearSince = s.clearSince := rfl
@[simp] theorem State.newCascade_stopped (s : State) : (s.newCascade).stopped = s.stopped := rfl
@[simp] theorem State.newCascade_requests (s : State) : (s.newCascade).requests = s.requests := rfl
@[simp] theorem State.newCascade_nextReq (s : State) : (s.newCascade).nextReq = s.nextReq := rfl
@[simp] theorem State.newCascade_signals (s : State) : (s.newCascade).signals = s.signals := rfl
@[simp] theorem State.newCascade_barriers (s : State) : (s.newCascade).barriers = s.barriers := rfl
@[simp] theorem State.newCascade_sharedLit (s : State) : (s.newCascade).sharedLit = s.sharedLit := rfl
@[simp] theorem State.newCascade_sharedAccess (s : State) : (s.newCascade).sharedAccess = s.sharedAccess := rfl
@[simp] theorem State.newCascade_sharedRetired (s : State) : (s.newCascade).sharedRetired = s.sharedRetired := rfl
@[simp] theorem State.newCascade_sharedTimes (s : State) : (s.newCascade).sharedTimes = s.sharedTimes := rfl
@[simp] theorem State.newCascade_sharedCorrected (s : State) : (s.newCascade).sharedCorrected = s.sharedCorrected := rfl
@[simp] theorem State.newCascade_sharedScrambled (s : State) : (s.newCascade).sharedScrambled = s.sharedScrambled := rfl
@[simp] theorem State.newCascade_timerBase (s : State) : (s.newCascade).timerBase = s.timerBase := rfl
@[simp] theorem State.newCascade_mem (s : State) : (s.newCascade).mem = s.mem := rfl
@[simp] theorem State.newCascade_hostMem (s : State) : (s.newCascade).hostMem = s.hostMem := rfl
@[simp] theorem State.newCascade_badSectors (s : State) : (s.newCascade).badSectors = s.badSectors := rfl

@[simp] theorem State.inCascade_pending (s : State) (root : Option Nat) : (s.inCascade root).pending = s.pending := rfl
@[simp] theorem State.inCascade_dev (s : State) (root : Option Nat) : (s.inCascade root).dev = s.dev := rfl
@[simp] theorem State.inCascade_now (s : State) (root : Option Nat) : (s.inCascade root).now = s.now := rfl
@[simp] theorem State.inCascade_freeCount (s : State) (root : Option Nat) : (s.inCascade root).freeCount = s.freeCount := rfl
@[simp] theorem State.inCascade_pilot (s : State) (root : Option Nat) : (s.inCascade root).pilot = s.pilot := rfl
@[simp] theorem State.inCascade_fuses (s : State) (root : Option Nat) : (s.inCascade root).fuses = s.fuses := rfl
@[simp] theorem State.inCascade_flash (s : State) (root : Option Nat) : (s.inCascade root).flash = s.flash := rfl
@[simp] theorem State.inCascade_bundle (s : State) (root : Option Nat) : (s.inCascade root).bundle = s.bundle := rfl
@[simp] theorem State.inCascade_tele (s : State) (root : Option Nat) : (s.inCascade root).tele = s.tele := rfl
@[simp] theorem State.inCascade_i3c (s : State) (root : Option Nat) : (s.inCascade root).i3c = s.i3c := rfl
@[simp] theorem State.inCascade_tinder (s : State) (root : Option Nat) : (s.inCascade root).tinder = s.tinder := rfl
@[simp] theorem State.inCascade_dies (s : State) (root : Option Nat) : (s.inCascade root).dies = s.dies := rfl
@[simp] theorem State.inCascade_floor (s : State) (root : Option Nat) : (s.inCascade root).floor = s.floor := rfl
@[simp] theorem State.inCascade_links (s : State) (root : Option Nat) : (s.inCascade root).links = s.links := rfl
@[simp] theorem State.inCascade_copper (s : State) (root : Option Nat) : (s.inCascade root).copper = s.copper := rfl
@[simp] theorem State.inCascade_lasers (s : State) (root : Option Nat) : (s.inCascade root).lasers = s.lasers := rfl
@[simp] theorem State.inCascade_ports (s : State) (root : Option Nat) : (s.inCascade root).ports = s.ports := rfl
@[simp] theorem State.inCascade_beacon (s : State) (root : Option Nat) : (s.inCascade root).beacon = s.beacon := rfl
@[simp] theorem State.inCascade_ftc (s : State) (root : Option Nat) : (s.inCascade root).ftc = s.ftc := rfl
@[simp] theorem State.inCascade_tiles (s : State) (root : Option Nat) : (s.inCascade root).tiles = s.tiles := rfl
@[simp] theorem State.inCascade_hbm (s : State) (root : Option Nat) : (s.inCascade root).hbm = s.hbm := rfl
@[simp] theorem State.inCascade_bsuOps (s : State) (root : Option Nat) : (s.inCascade root).bsuOps = s.bsuOps := rfl
@[simp] theorem State.inCascade_nextBsuOp (s : State) (root : Option Nat) : (s.inCascade root).nextBsuOp = s.nextBsuOp := rfl
@[simp] theorem State.inCascade_host (s : State) (root : Option Nat) : (s.inCascade root).host = s.host := rfl
@[simp] theorem State.inCascade_lamp (s : State) (root : Option Nat) : (s.inCascade root).lamp = s.lamp := rfl
@[simp] theorem State.inCascade_session (s : State) (root : Option Nat) : (s.inCascade root).session = s.session := rfl
@[simp] theorem State.inCascade_program (s : State) (root : Option Nat) : (s.inCascade root).program = s.program := rfl
@[simp] theorem State.inCascade_fonts (s : State) (root : Option Nat) : (s.inCascade root).fonts = s.fonts := rfl
@[simp] theorem State.inCascade_commit (s : State) (root : Option Nat) : (s.inCascade root).commit = s.commit := rfl
@[simp] theorem State.inCascade_copyChannels (s : State) (root : Option Nat) : (s.inCascade root).copyChannels = s.copyChannels := rfl
@[simp] theorem State.inCascade_sweep (s : State) (root : Option Nat) : (s.inCascade root).sweep = s.sweep := rfl
@[simp] theorem State.inCascade_exports (s : State) (root : Option Nat) : (s.inCascade root).exports = s.exports := rfl
@[simp] theorem State.inCascade_stateBlock (s : State) (root : Option Nat) : (s.inCascade root).stateBlock = s.stateBlock := rfl
@[simp] theorem State.inCascade_g4e (s : State) (root : Option Nat) : (s.inCascade root).g4e = s.g4e := rfl
@[simp] theorem State.inCascade_run (s : State) (root : Option Nat) : (s.inCascade root).run = s.run := rfl
@[simp] theorem State.inCascade_clearing (s : State) (root : Option Nat) : (s.inCascade root).clearing = s.clearing := rfl
@[simp] theorem State.inCascade_clearSince (s : State) (root : Option Nat) : (s.inCascade root).clearSince = s.clearSince := rfl
@[simp] theorem State.inCascade_stopped (s : State) (root : Option Nat) : (s.inCascade root).stopped = s.stopped := rfl
@[simp] theorem State.inCascade_requests (s : State) (root : Option Nat) : (s.inCascade root).requests = s.requests := rfl
@[simp] theorem State.inCascade_nextReq (s : State) (root : Option Nat) : (s.inCascade root).nextReq = s.nextReq := rfl
@[simp] theorem State.inCascade_signals (s : State) (root : Option Nat) : (s.inCascade root).signals = s.signals := rfl
@[simp] theorem State.inCascade_barriers (s : State) (root : Option Nat) : (s.inCascade root).barriers = s.barriers := rfl
@[simp] theorem State.inCascade_sharedLit (s : State) (root : Option Nat) : (s.inCascade root).sharedLit = s.sharedLit := rfl
@[simp] theorem State.inCascade_sharedAccess (s : State) (root : Option Nat) : (s.inCascade root).sharedAccess = s.sharedAccess := rfl
@[simp] theorem State.inCascade_sharedRetired (s : State) (root : Option Nat) : (s.inCascade root).sharedRetired = s.sharedRetired := rfl
@[simp] theorem State.inCascade_sharedTimes (s : State) (root : Option Nat) : (s.inCascade root).sharedTimes = s.sharedTimes := rfl
@[simp] theorem State.inCascade_sharedCorrected (s : State) (root : Option Nat) : (s.inCascade root).sharedCorrected = s.sharedCorrected := rfl
@[simp] theorem State.inCascade_sharedScrambled (s : State) (root : Option Nat) : (s.inCascade root).sharedScrambled = s.sharedScrambled := rfl
@[simp] theorem State.inCascade_timerBase (s : State) (root : Option Nat) : (s.inCascade root).timerBase = s.timerBase := rfl
@[simp] theorem State.inCascade_mem (s : State) (root : Option Nat) : (s.inCascade root).mem = s.mem := rfl
@[simp] theorem State.inCascade_hostMem (s : State) (root : Option Nat) : (s.inCascade root).hostMem = s.hostMem := rfl
@[simp] theorem State.inCascade_badSectors (s : State) (root : Option Nat) : (s.inCascade root).badSectors = s.badSectors := rfl

@[simp] theorem State.advanceTo_now (s : State) (t : Nat) : (s.advanceTo t).now = max s.now t := rfl

@[simp] theorem State.takeFree_freeCount (s : State) : s.takeFree.freeCount = s.freeCount + 1 := rfl

@[simp] theorem State.modHost_host (s : State) (f : HostIf → HostIf) : (s.modHost f).host = f s.host := rfl

@[simp] theorem State.modTinder_tinder (s : State) (f : Tinder → Tinder) : (s.modTinder f).tinder = f s.tinder := rfl

/-! ### What a read of a unit finds -/

theorem State.tile_modTile (s : State) (d p : Nat) (f : Tile → Tile) (h : tileIx d p < s.tiles.length) :
    (s.modTile d p f).tile d p = f (s.tile d p) :=
  modAt_getD_self _ _ _ _ h

theorem State.tile_modTile_ne (s : State) (d p : Nat) (e q : Nat) (f : Tile → Tile) (h : tileIx d p ≠ tileIx e q) : (s.modTile d p f).tile e q = s.tile e q :=
  modAt_getD_ne _ _ _ _ _ h

theorem State.modTile_twice (s : State) (d p : Nat) (f g : Tile → Tile) : (s.modTile d p f).modTile d p g = s.modTile d p (fun x => g (f x)) := by
  simp only [State.modTile, modAt_modAt]

theorem State.stack_modStack (s : State) (st : Nat) (f : Stack → Stack) (h : st < s.hbm.length) :
    (s.modStack st f).stack st = f (s.stack st) :=
  modAt_getD_self _ _ _ _ h

theorem State.stack_modStack_ne (s : State) (st : Nat) (u : Nat) (f : Stack → Stack) (h : st ≠ u) : (s.modStack st f).stack u = s.stack u :=
  modAt_getD_ne _ _ _ _ _ h

theorem State.modStack_twice (s : State) (st : Nat) (f g : Stack → Stack) : (s.modStack st f).modStack st g = s.modStack st (fun x => g (f x)) := by
  simp only [State.modStack, modAt_modAt]

theorem State.port_modPort (s : State) (n : Nat) (f : Port → Port) (h : n < s.ports.length) :
    (s.modPort n f).port n = f (s.port n) :=
  modAt_getD_self _ _ _ _ h

theorem State.port_modPort_ne (s : State) (n : Nat) (u : Nat) (f : Port → Port) (h : n ≠ u) : (s.modPort n f).port u = s.port u :=
  modAt_getD_ne _ _ _ _ _ h

theorem State.modPort_twice (s : State) (n : Nat) (f g : Port → Port) : (s.modPort n f).modPort n g = s.modPort n (fun x => g (f x)) := by
  simp only [State.modPort, modAt_modAt]

theorem State.link_modLink (s : State) (n : Nat) (f : Link → Link) (h : n < s.links.length) :
    (s.modLink n f).link n = f (s.link n) :=
  modAt_getD_self _ _ _ _ h

theorem State.link_modLink_ne (s : State) (n : Nat) (u : Nat) (f : Link → Link) (h : n ≠ u) : (s.modLink n f).link u = s.link u :=
  modAt_getD_ne _ _ _ _ _ h

theorem State.modLink_twice (s : State) (n : Nat) (f g : Link → Link) : (s.modLink n f).modLink n g = s.modLink n (fun x => g (f x)) := by
  simp only [State.modLink, modAt_modAt]

theorem State.die_modDie (s : State) (n : Nat) (f : Die → Die) (h : n < s.dies.length) :
    (s.modDie n f).die n = f (s.die n) :=
  modAt_getD_self _ _ _ _ h

theorem State.die_modDie_ne (s : State) (n : Nat) (u : Nat) (f : Die → Die) (h : n ≠ u) : (s.modDie n f).die u = s.die u :=
  modAt_getD_ne _ _ _ _ _ h

theorem State.modDie_twice (s : State) (n : Nat) (f g : Die → Die) : (s.modDie n f).modDie n g = s.modDie n (fun x => g (f x)) := by
  simp only [State.modDie, modAt_modAt]

theorem State.laser_modLaser (s : State) (n : Nat) (f : Laser → Laser) (h : n < s.lasers.length) :
    (s.modLaser n f).laser n = f (s.laser n) :=
  modAt_getD_self _ _ _ _ h

theorem State.laser_modLaser_ne (s : State) (n : Nat) (u : Nat) (f : Laser → Laser) (h : n ≠ u) : (s.modLaser n f).laser u = s.laser u :=
  modAt_getD_ne _ _ _ _ _ h

theorem State.modLaser_twice (s : State) (n : Nat) (f g : Laser → Laser) : (s.modLaser n f).modLaser n g = s.modLaser n (fun x => g (f x)) := by
  simp only [State.modLaser, modAt_modAt]

theorem State.mbox_modMbox (s : State) (n : Nat) (f : Mailbox → Mailbox) (h : n < s.lamp.mailboxes.length) :
    (s.modMbox n f).mbox n = f (s.mbox n) :=
  modAt_getD_self _ _ _ _ h

theorem State.mbox_modMbox_ne (s : State) (n : Nat) (u : Nat) (f : Mailbox → Mailbox) (h : n ≠ u) : (s.modMbox n f).mbox u = s.mbox u :=
  modAt_getD_ne _ _ _ _ _ h

theorem State.modMbox_twice (s : State) (n : Nat) (f g : Mailbox → Mailbox) : (s.modMbox n f).modMbox n g = s.modMbox n (fun x => g (f x)) := by
  simp only [State.modMbox, modAt_modAt]

theorem State.dmaCh_modDma (s : State) (n : Nat) (f : DmaChannel → DmaChannel) (h : n < s.host.dma.length) :
    (s.modDma n f).dmaCh n = f (s.dmaCh n) :=
  modAt_getD_self _ _ _ _ h

theorem State.dmaCh_modDma_ne (s : State) (n : Nat) (u : Nat) (f : DmaChannel → DmaChannel) (h : n ≠ u) : (s.modDma n f).dmaCh u = s.dmaCh u :=
  modAt_getD_ne _ _ _ _ _ h

theorem State.modDma_twice (s : State) (n : Nat) (f g : DmaChannel → DmaChannel) : (s.modDma n f).modDma n g = s.modDma n (fun x => g (f x)) := by
  simp only [State.modDma, modAt_modAt]

theorem State.font_modFont (s : State) (n : Nat) (f : Font → Font) (h : n < s.fonts.length) :
    (s.modFont n f).font n = f (s.font n) :=
  modAt_getD_self _ _ _ _ h

theorem State.font_modFont_ne (s : State) (n : Nat) (u : Nat) (f : Font → Font) (h : n ≠ u) : (s.modFont n f).font u = s.font u :=
  modAt_getD_ne _ _ _ _ _ h

theorem State.modFont_twice (s : State) (n : Nat) (f g : Font → Font) : (s.modFont n f).modFont n g = s.modFont n (fun x => g (f x)) := by
  simp only [State.modFont, modAt_modAt]

end Sys2Proof.Machine
end

