-- ==== Sys2Proof/Laws/Mailbox.lean ====
section
/-! SUPPORT. What the shared mailbox operations do: a request that passes the checks of R621 reaches the command's own
body, and a response changes its mailbox, its vector and the result's place in host memory. -/

namespace Sys2Proof.Machine

theorem State.checkRole_state {s : State} {spec : CmdSpec} {r : Request} (h : (s.checkRole spec r).2 = true) :
    s.checkRole spec r = (s, true) := by
  unfold State.checkRole at h ⊢
  split
  · rename_i h0
    rw [if_pos h0] at h
    exact Prod.ext rfl h
  · rename_i h0
    rw [if_neg h0] at h
    split
    · rename_i h1
      rw [if_pos h1] at h
      cases h
    · rename_i h1
      rw [if_neg h1] at h
      split
      · rename_i h2
        rw [h2] at h
        exact Prod.ext rfl h
      · rename_i d h2
        rw [h2] at h
        dsimp only at h
        split
        · rfl
        · rename_i h3
          rw [if_neg h3] at h
          cases h

/-- The checks read nothing that the copying of the request changes. -/
theorem State.copied_checkRole {s : State} {n : Nat} {spec : CmdSpec} {r : Request}
    (h : (s.checkRole spec r).2 = true) : ((s.copied n spec r).checkRole spec r).2 = true := by
  have e : s.copied n spec r = s.newCascade.submit n spec.opcode r := rfl
  rw [e]
  unfold State.checkRole at h ⊢
  have l : (s.newCascade.submit n spec.opcode r).lockedOut = s.lockedOut := rfl
  have f : (s.newCascade.submit n spec.opcode r).flash = s.flash := rfl
  rw [l, f]
  split
  · rename_i h0
    rw [if_pos h0] at h
    exact h
  · rename_i h0
    rw [if_neg h0] at h
    split
    · rename_i h1
      rw [if_pos h1] at h
      exact h
    · rename_i h1
      rw [if_neg h1] at h
      split
      · rename_i h2
        rw [h2] at h
        exact h
      · rename_i d h2
        rw [h2] at h
        dsimp only at h
        split
        · rfl
        · rename_i h3
          rw [if_neg h3] at h
          cases h

theorem State.copied_mbox_ne (s : State) (n i : Nat) (spec : CmdSpec) (r : Request) (h : i ≠ n) :
    (s.copied n spec r).mbox i = s.mbox i :=
  modAt_getD_ne _ _ _ _ _ (Ne.symm h)

theorem State.copied_conflicts (s : State) (n : Nat) (spec : CmdSpec) (r : Request) (c : Option CmdClass) :
    (s.copied n spec r).conflicts n c = s.conflicts n c := by
  unfold State.conflicts
  cases c with
  | none => rfl
  | some c =>
    refine congrArg (List.any (List.range 16)) (funext fun i => ?_)
    by_cases h : i = n
    · simp [h]
    · rw [State.copied_mbox_ne s n i spec r h]

/-- An accepted request reaches the body of its command with the payload (R621). -/
theorem State.command_accepted {s : State} {n : Nat} {spec : CmdSpec} {r : Request} {p : List Byte}
    {body : State → List Byte → State} (a : s.Accepts n spec r p) :
    s.command n spec r body = (body (s.copied n spec r) p).inCascade none := by
  have role := State.checkRole_state (State.copied_checkRole (n := n) a.role)
  have e : s.newCascade.submit n spec.opcode r = s.copied n spec r := rfl
  have conflict := (State.copied_conflicts s n spec r spec.cls).trans a.conflict
  have payload : (s.copied n spec r).payload r = some p := a.payload
  have result : (s.copied n spec r).resultOk r = true := a.result
  have dev : (s.copied n spec r).dev = s.dev := rfl
  have host : (s.copied n spec r).host = s.host := rfl
  have bundle : (s.copied n spec r).bundle = s.bundle := rfl
  have d : (s.host.detached && !spec.detachedOk) = false := by
    rcases a.attached with h | h <;> simp [h]
  have i : (s.bundle.running == .r && s.dev != .booting && !spec.recovery) = false := by
    by_cases h : s.bundle.running = .r
    · rcases a.image h with k | k <;> simp [k]
    · simp [h]
  unfold State.command
  rw [e]
  simp only [a.serves, a.free, Bool.not_true, if_false, Bool.false_eq_true]
  simp only [State.checks, a.header, role, conflict, payload, result, dev, host, bundle, a.allowed, d, i, Bool.not_true,
    Bool.false_or, if_false, if_true, Bool.false_eq_true]

theorem onMailbox_accepted {s : State} {n : Nat} {spec : CmdSpec} {r : Request} {p : List Byte}
    {body : State → List Byte → State} (a : s.Accepts n spec r p) :
    onMailbox n (s.command n spec r body) = .next ((body (s.copied n spec r) p).inCascade none) := by
  rw [State.command_accepted a]
  exact if_pos a.there

theorem State.copied_mbox {s : State} {n : Nat} (spec : CmdSpec) (r : Request) (h : n < s.lamp.mailboxes.length) :
    (s.copied n spec r).mbox n = { s.mbox n with state := .submitted, opcode := spec.opcode, request := r } :=
  modAt_getD_self _ _ _ _ h

/-- What a FINAL response other than INTERNAL does (R609, R610, R613), of a mailbox with no held command. -/
theorem State.respond_answers {b : State} {n : Nat} {st : Status} {result : List Byte} (k : st ≠ .internal)
    (l : n < b.lamp.mailboxes.length) (h : (b.mbox n).heldRunning = false) :
    Answered n (b.mbox n).request (b.mbox n).opcode st result b (b.respond n st result) ∧
    { b.respond n st result with
      lamp := b.lamp
      host := b.host
      hostMem := b.hostMem } = b ∧
    { (b.respond n st result).host with intStatus := b.host.intStatus, pba := b.host.pba } = b.host ∧
    { (b.respond n st result).lamp with mailboxes := b.lamp.mailboxes } = b.lamp ∧
    ∀ m, m ≠ n → (b.respond n st result).mbox m = b.mbox m := by
  have held : (b.mbox n).held.filter (·.running) = none := by
    unfold Mailbox.heldRunning at h
    cases e : (b.mbox n).held with
    | none => rfl
    | some x =>
      rw [e] at h
      simp only [Option.map_some, Option.getD_some] at h
      simp [Option.filter, h]
  have e : b.respond n st result = b.respondWith n true st 0 result := if_neg k
  rw [e]
  unfold State.respondWith
  dsimp only
  rw [held]
  dsimp only
  have place : (b.placeResult (b.mbox n).request result).1 = { b with
      hostMem :=
        if (b.mbox n).request.flags.getLsbD 1 = true ∧ b.host.speed ≠ 0 then
          (b.hostWrite (b.mbox n).request.resultAddr.toNat (result.take (b.mbox n).request.resultCapacity)).hostMem
        else b.hostMem } := by
    unfold State.placeResult
    dsimp only
    cases (b.mbox n).request.flags.getLsbD 1
    · rfl
    · by_cases y : b.host.speed = 0 <;> simp [y, State.hostWrite]
  have rest : (b.placeResult (b.mbox n).request result).2 =
      (if (b.mbox n).request.flags.getLsbD 1 then [] else result.take 1984,
        decide ((if (b.mbox n).request.flags.getLsbD 1 then (b.mbox n).request.resultCapacity else 1984) < result.length),
        (b.mbox n).request.flags.getLsbD 1) := by
    unfold State.placeResult
    dsimp only
    cases (b.mbox n).request.flags.getLsbD 1 <;> rfl
  rw [show b.placeResult (b.mbox n).request result = (_, _) from Prod.ext place rest]
  dsimp only
  refine ⟨?_, rfl, rfl, rfl, ?_⟩
  · constructor
    all_goals first
      | rfl
      | (simp only [State.mbox, State.modMbox, State.signal]
         rw [modAt_getD_self _ _ _ _ l]
         try rfl)
    intro x
    exact if_neg (Bool.eq_false_iff.mp x)
  · intro m hm
    exact modAt_getD_ne _ _ _ _ _ (Ne.symm hm)

/-- A command whose effect on the copied state is `u`, and which then answers: its response, and what it leaves as `u`
has it. -/
theorem State.answered {s u : State} {n : Nat} {spec : CmdSpec} {r : Request} {st : Status} {result : List Byte}
    (i : s.Inv) (l : n < 16) (k : st ≠ .internal) (free : (s.mbox n).open_ = true)
    (lamp : u.lamp.mailboxes = (s.copied n spec r).lamp.mailboxes) :
    Answered n r spec.opcode st result u ((u.respond n st result).inCascade none) ∧
    { (u.respond n st result).inCascade none with
      events := u.events
      lamp := u.lamp
      host := u.host
      hostMem := u.hostMem } = u ∧
    ((u.respond n st result).inCascade none).events = { u.events with cascade := none } ∧
    { ((u.respond n st result).inCascade none).host with intStatus := u.host.intStatus, pba := u.host.pba } = u.host ∧
    { ((u.respond n st result).inCascade none).lamp with mailboxes := u.lamp.mailboxes } = u.lamp ∧
    ∀ m, m ≠ n → ((u.respond n st result).inCascade none).mbox m = s.mbox m := by
  have size : n < s.lamp.mailboxes.length := by
    rw [i.shape.mailboxes]
    exact l
  have mb : ∀ m, u.mbox m = (s.copied n spec r).mbox m := fun m => congrArg (fun x => x.getD m {}) lamp
  have own := (mb n).trans (State.copied_mbox spec r size)
  have us : n < u.lamp.mailboxes.length := by
    rw [lamp]
    exact Nat.lt_of_lt_of_eq size (length_modAt _ _ _).symm
  have held : (u.mbox n).heldRunning = false := by
    have h := Bool.and_eq_true_iff.mp free
    rw [own]
    simpa [Mailbox.heldRunning] using h.2
  have a := State.respond_answers (st := st) (result := result) k us held
  have req : (u.mbox n).request = r := by rw [own]
  have op : (u.mbox n).opcode = spec.opcode := by rw [own]
  rw [req, op] at a
  obtain ⟨a1, a2, a3, a4, a5⟩ := a
  have e := congrArg State.events a2
  refine ⟨⟨a1.state, a1.final, a1.status, a1.sequence, a1.opcode, a1.length, a1.external, a1.truncated, a1.inline,
    a1.hostMem, a1.vector⟩, congrArg (fun x : State => { x with events := u.events }) a2,
    congrArg (fun x : Events => { x with cascade := none }) e, a3, a4, fun m hm => ?_⟩
  exact (a5 m hm).trans ((mb m).trans (State.copied_mbox_ne s n m spec r hm))

/-- The same where the effect is none: the response, and the frame. -/
theorem State.answered_only {s : State} {n : Nat} {spec : CmdSpec} {r : Request} {st : Status} {result : List Byte}
    (i : s.Inv) (l : n < 16) (k : st ≠ .internal) (free : (s.mbox n).open_ = true) :
    Answered n r spec.opcode st result s (((s.copied n spec r).respond n st result).inCascade none) ∧
    KeepsRest n s (((s.copied n spec r).respond n st result).inCascade none) := by
  obtain ⟨a, b, e, h, m, o⟩ := State.answered (st := st) (result := result) i l k free
    (rfl : (s.copied n spec r).lamp.mailboxes = (s.copied n spec r).lamp.mailboxes)
  refine ⟨⟨a.state, a.final, a.status, a.sequence, a.opcode, a.length, a.external, a.truncated, a.inline, a.hostMem,
    a.vector⟩, ?_, ?_, h, ?_, ?_, o⟩
  · exact congrArg
      (fun x : State => { x with events := s.events, host := s.host, lamp := s.lamp, hostMem := s.hostMem }) b
  · exact congrArg (fun x : Events => { x with cascade := s.events.cascade }) e
  · exact congrArg (fun x : Lamplighter => { x with mailboxes := s.lamp.mailboxes, commands := s.lamp.commands }) m
  · exact congrArg Lamplighter.commands m

end Sys2Proof.Machine
end

