-- ==== Sys2Proof/Laws/PerInstr.lean ====
section
/-! SUPPORT. For each command: a well-formed one answers a next state, and one that names a unit the package does not
have faults by name. No command is refused. -/

namespace Sys2Proof.Laws.Operands

open Sys2Proof Sys2Proof.Machine

/-- What well-formedness of a command decides. -/
def Statement (i : Instr) : Prop :=
  (i.wf = true → ∀ s, ∃ t, exec i s = .next t) ∧ (i.wf = false → ∀ s, exec i s = .fault .noSuchUnit)

/-- A command that names no unit. -/
theorem of_next {i : Instr} (w : i.wf = true) (h : ∀ s, ∃ t, exec i s = .next t) : Statement i :=
  ⟨fun _ => h, fun n => by rw [w] at n; cases n⟩

theorem linkLaneCount_eq (k : Nat) : linkLaneCount k = lanesOfLink k := by
  rcases k with _ | _ | _ <;> rfl

theorem laneExists_eq (r : LaneRef) : laneExists r = r.wf := by
  cases r <;> simp [laneExists, LaneRef.wf, linkLaneCount_eq]

theorem and_of {p q : Prop} [Decidable p] [Decidable q] (w : (decide p && decide q) = true) : p ∧ q := by
  simpa using w

theorem not_and_of {p q : Prop} [Decidable p] [Decidable q] (w : (decide p && decide q) = false) (h : p ∧ q) : False := by
  simp [h.1, h.2] at w

theorem ring_of {k l r : Nat} (w : (LaneRef.wf (.die k l) && decide (r < 5)) = true) :
    k < 3 ∧ l < linkLaneCount k ∧ r < 5 := by
  simpa [LaneRef.wf, linkLaneCount_eq, and_assoc] using w

theorem not_ring_of {k l r : Nat} (w : (LaneRef.wf (.die k l) && decide (r < 5)) = false)
    (h : k < 3 ∧ l < linkLaneCount k ∧ r < 5) : False := by
  have m : l < lanesOfLink k := by simpa [linkLaneCount_eq] using h.2.1
  simp [LaneRef.wf, h.1, h.2.2, m] at w

theorem refExists_eq (r : StreamRef) : refExists r = r.wf := by
  cases r <;> rfl

theorem ownerExists_eq (o : ReqOwner) : ownerExists o = o.wf := by
  cases o <;> rfl

theorem pointExists_eq (x : Point) : pointExists x = x.wf := by
  cases x <;> rfl

theorem sramExists_eq (x : SramRef) : sramExists x = x.wf := by
  cases x <;> rfl

theorem hostReadExists_eq (x : HostRead) : hostReadExists x = x.wf := by
  cases x <;> rfl

theorem queryIdentity (n : Nat) (r : Request) : Statement (.queryIdentity n r) := by
  exact ⟨fun w s => ⟨_, if_pos (c := n < 16) (of_decide_eq_true w)⟩, fun w s => if_neg (c := n < 16) (of_decide_eq_false w)⟩

theorem queryState (n : Nat) (r : Request) : Statement (.queryState n r) := by
  exact ⟨fun w s => ⟨_, if_pos (c := n < 16) (of_decide_eq_true w)⟩, fun w s => if_neg (c := n < 16) (of_decide_eq_false w)⟩

theorem attach (n : Nat) (r : Request) : Statement (.attach n r) := by
  exact ⟨fun w s => ⟨_, if_pos (c := n < 16) (of_decide_eq_true w)⟩, fun w s => if_neg (c := n < 16) (of_decide_eq_false w)⟩

theorem readTelemetry (n : Nat) (r : Request) : Statement (.readTelemetry n r) := by
  exact ⟨fun w s => ⟨_, if_pos (c := n < 16) (of_decide_eq_true w)⟩, fun w s => if_neg (c := n < 16) (of_decide_eq_false w)⟩

theorem readEvents (n : Nat) (r : Request) : Statement (.readEvents n r) := by
  exact ⟨fun w s => ⟨_, if_pos (c := n < 16) (of_decide_eq_true w)⟩, fun w s => if_neg (c := n < 16) (of_decide_eq_false w)⟩

theorem openSession (n : Nat) (r : Request) : Statement (.openSession n r) := by
  exact ⟨fun w s => ⟨_, if_pos (c := n < 16) (of_decide_eq_true w)⟩, fun w s => if_neg (c := n < 16) (of_decide_eq_false w)⟩

theorem setProtection (n : Nat) (r : Request) : Statement (.setProtection n r) := by
  exact ⟨fun w s => ⟨_, if_pos (c := n < 16) (of_decide_eq_true w)⟩, fun w s => if_neg (c := n < 16) (of_decide_eq_false w)⟩

theorem mapRegion (n : Nat) (r : Request) : Statement (.mapRegion n r) := by
  exact ⟨fun w s => ⟨_, if_pos (c := n < 16) (of_decide_eq_true w)⟩, fun w s => if_neg (c := n < 16) (of_decide_eq_false w)⟩

theorem setPolicy (n : Nat) (r : Request) : Statement (.setPolicy n r) := by
  exact ⟨fun w s => ⟨_, if_pos (c := n < 16) (of_decide_eq_true w)⟩, fun w s => if_neg (c := n < 16) (of_decide_eq_false w)⟩

theorem setCredential (n : Nat) (r : Request) : Statement (.setCredential n r) := by
  exact ⟨fun w s => ⟨_, if_pos (c := n < 16) (of_decide_eq_true w)⟩, fun w s => if_neg (c := n < 16) (of_decide_eq_false w)⟩

theorem loadProgram (n : Nat) (r : Request) (ecc : Ecc) : Statement (.loadProgram n r ecc) := by
  exact ⟨fun w s => ⟨_, if_pos (c := n < 16) (of_decide_eq_true w)⟩, fun w s => if_neg (c := n < 16) (of_decide_eq_false w)⟩

theorem runStep (n : Nat) (r : Request) : Statement (.runStep n r) := by
  exact ⟨fun w s => ⟨_, if_pos (c := n < 16) (of_decide_eq_true w)⟩, fun w s => if_neg (c := n < 16) (of_decide_eq_false w)⟩

theorem abortStep (n : Nat) (r : Request) : Statement (.abortStep n r) := by
  exact ⟨fun w s => ⟨_, if_pos (c := n < 16) (of_decide_eq_true w)⟩, fun w s => if_neg (c := n < 16) (of_decide_eq_false w)⟩

theorem drain (n : Nat) (r : Request) : Statement (.drain n r) := by
  exact ⟨fun w s => ⟨_, if_pos (c := n < 16) (of_decide_eq_true w)⟩, fun w s => if_neg (c := n < 16) (of_decide_eq_false w)⟩

theorem resume (n : Nat) (r : Request) : Statement (.resume n r) := by
  exact ⟨fun w s => ⟨_, if_pos (c := n < 16) (of_decide_eq_true w)⟩, fun w s => if_neg (c := n < 16) (of_decide_eq_false w)⟩

theorem selfTest (n : Nat) (r : Request) (rep : SelfTestReport) : Statement (.selfTest n r rep) := by
  exact ⟨fun w s => ⟨_, if_pos (c := n < 16) (of_decide_eq_true w)⟩, fun w s => if_neg (c := n < 16) (of_decide_eq_false w)⟩

theorem retireUnitRetire (n : Nat) (r : Request) : Statement (.retireUnitRetire n r) := by
  exact ⟨fun w s => ⟨_, if_pos (c := n < 16) (of_decide_eq_true w)⟩, fun w s => if_neg (c := n < 16) (of_decide_eq_false w)⟩

theorem retireUnitRestore (n : Nat) (r : Request) : Statement (.retireUnitRestore n r) := by
  exact ⟨fun w s => ⟨_, if_pos (c := n < 16) (of_decide_eq_true w)⟩, fun w s => if_neg (c := n < 16) (of_decide_eq_false w)⟩

theorem stageBundle (n : Nat) (r : Request) : Statement (.stageBundle n r) := by
  exact ⟨fun w s => ⟨_, if_pos (c := n < 16) (of_decide_eq_true w)⟩, fun w s => if_neg (c := n < 16) (of_decide_eq_false w)⟩

theorem activateBundle (n : Nat) (r : Request) : Statement (.activateBundle n r) := by
  exact ⟨fun w s => ⟨_, if_pos (c := n < 16) (of_decide_eq_true w)⟩, fun w s => if_neg (c := n < 16) (of_decide_eq_false w)⟩

theorem activateBundleCancel (n : Nat) (r : Request) : Statement (.activateBundleCancel n r) := by
  exact ⟨fun w s => ⟨_, if_pos (c := n < 16) (of_decide_eq_true w)⟩, fun w s => if_neg (c := n < 16) (of_decide_eq_false w)⟩

theorem attest (n : Nat) (r : Request) : Statement (.attest n r) := by
  exact ⟨fun w s => ⟨_, if_pos (c := n < 16) (of_decide_eq_true w)⟩, fun w s => if_neg (c := n < 16) (of_decide_eq_false w)⟩

theorem resetDevice (n : Nat) (r : Request) : Statement (.resetDevice n r) := by
  exact ⟨fun w s => ⟨_, if_pos (c := n < 16) (of_decide_eq_true w)⟩, fun w s => if_neg (c := n < 16) (of_decide_eq_false w)⟩

theorem ownerLockoutExpiry : Statement (.ownerLockoutExpiry) := by
  refine of_next rfl fun s => ?_
  change ∃ t, execOwnerLockoutExpiry s = _
  unfold execOwnerLockoutExpiry
  repeat' first | split | dsimp only
  all_goals exact ⟨_, rfl⟩

theorem doorbellOverrun (n : Nat) : Statement (.doorbellOverrun n) := by
  exact ⟨fun w s => ⟨_, if_pos (c := n < 16) (of_decide_eq_true w)⟩, fun w s => if_neg (c := n < 16) (of_decide_eq_false w)⟩

theorem registerWrite (target : RegTarget) (value : BitVec 32) : Statement (.registerWrite target value) := by
  exact of_next rfl fun s => ⟨_, rfl⟩

theorem memwinBaseWrite (value : BitVec 64) : Statement (.memwinBaseWrite value) := by
  exact of_next rfl fun s => ⟨_, rfl⟩

theorem intStatusClear (value : BitVec 64) : Statement (.intStatusClear value) := by
  exact of_next rfl fun s => ⟨_, rfl⟩

theorem hostErrClear (value : BitVec 32) : Statement (.hostErrClear value) := by
  exact of_next rfl fun s => ⟨_, rfl⟩

theorem dmaTailWrite (ch : Nat) (value : BitVec 32) : Statement (.dmaTailWrite ch value) := by
  exact ⟨fun w s => ⟨_, if_pos (c := ch < 8) (of_decide_eq_true w)⟩, fun w s => if_neg (c := ch < 8) (of_decide_eq_false w)⟩

theorem dmaRestart (ch : Nat) : Statement (.dmaRestart ch) := by
  exact ⟨fun w s => ⟨_, if_pos (c := ch < 8) (of_decide_eq_true w)⟩, fun w s => if_neg (c := ch < 8) (of_decide_eq_false w)⟩

theorem dmaDescriptorComplete (ch : Nat) (outcome : XferOutcome) : Statement (.dmaDescriptorComplete ch outcome) := by
  exact ⟨fun w s => ⟨_, if_pos (c := ch < 8) (of_decide_eq_true w)⟩, fun w s => if_neg (c := ch < 8) (of_decide_eq_false w)⟩

theorem bar2Read (offset len : Nat) (ecc : Ecc) : Statement (.bar2Read offset len ecc) := by
  exact of_next rfl fun s => ⟨_, rfl⟩

theorem bar2Write (offset : Nat) (data : List Byte) (ecc : Ecc) : Statement (.bar2Write offset data ecc) := by
  exact of_next rfl fun s => ⟨_, rfl⟩

theorem hostReadTimeout (read : HostRead) : Statement (.hostReadTimeout read) := by
  exact ⟨fun w s => ⟨_, if_pos (c := hostReadExists read = true) ((hostReadExists_eq _).trans w)⟩, fun w s => if_neg (c := hostReadExists read = true) (Bool.eq_false_iff.mp ((hostReadExists_eq _).trans w))⟩

theorem hostLinkRetrainComplete : Statement (.hostLinkRetrainComplete) := by
  exact of_next rfl fun s => ⟨_, rfl⟩

theorem hostLinkLoss : Statement (.hostLinkLoss) := by
  exact of_next rfl fun s => ⟨_, rfl⟩

theorem perstAssert : Statement (.perstAssert) := by
  refine of_next rfl fun s => ?_
  change ∃ t, execPerstAssert s = _
  unfold execPerstAssert
  repeat' first | split | dsimp only
  all_goals exact ⟨_, rfl⟩

theorem hostLinkReturn (speed width : Nat) (cxl : Bool) : Statement (.hostLinkReturn speed width cxl) := by
  exact of_next rfl fun s => ⟨_, rfl⟩

theorem vddPilotUp : Statement (.vddPilotUp) := by
  refine of_next rfl fun s => ?_
  change ∃ t, execVddPilotUp s = _
  unfold execVddPilotUp
  repeat' first | split | dsimp only
  all_goals exact ⟨_, rfl⟩

theorem vddPilotLoss : Statement (.vddPilotLoss) := by
  refine of_next rfl fun s => ?_
  change ∃ t, execVddPilotLoss s = _
  unfold execVddPilotLoss
  repeat' first | split | dsimp only
  all_goals exact ⟨_, rfl⟩

theorem devResetNRelease (rails : BitVec 8) (straps : BitVec 2) : Statement (.devResetNRelease rails straps) := by
  refine of_next rfl fun s => ?_
  change ∃ t, execDevResetNRelease rails straps s = _
  unfold execDevResetNRelease
  repeat' first | split | dsimp only
  all_goals exact ⟨_, rfl⟩

theorem devResetNAssert : Statement (.devResetNAssert) := by
  refine of_next rfl fun s => ?_
  change ∃ t, execDevResetNAssert s = _
  unfold execDevResetNAssert
  repeat' first | split | dsimp only
  all_goals exact ⟨_, rfl⟩

theorem railExcursion (rail : Rail) : Statement (.railExcursion rail) := by
  refine of_next rfl fun s => ?_
  change ∃ t, execRailExcursion rail s = _
  unfold execRailExcursion
  repeat' first | split | dsimp only
  all_goals exact ⟨_, rfl⟩

theorem railsRestored : Statement (.railsRestored) := by
  refine of_next rfl fun s => ?_
  change ∃ t, execRailsRestored s = _
  unfold execRailsRestored
  repeat' first | split | dsimp only
  all_goals exact ⟨_, rfl⟩

theorem wake (rep : WakeReport) : Statement (.wake rep) := by
  refine of_next rfl fun s => ?_
  change ∃ t, execWake rep s = _
  unfold execWake
  repeat' first | split | dsimp only
  all_goals exact ⟨_, rfl⟩

theorem partStartupTimeout : Statement (.partStartupTimeout) := by
  refine of_next rfl fun s => ?_
  change ∃ t, execPartStartupTimeout s = _
  unfold execPartStartupTimeout
  repeat' first | split | dsimp only
  all_goals exact ⟨_, rfl⟩

theorem partStartupPass (rep : PartReport) : Statement (.partStartupPass rep) := by
  refine of_next rfl fun s => ?_
  change ∃ t, execPartStartupPass rep s = _
  unfold execPartStartupPass
  repeat' first | split | dsimp only
  all_goals exact ⟨_, rfl⟩

theorem linkTrainingComplete (rep : SelfTestReport) : Statement (.linkTrainingComplete rep) := by
  refine of_next rfl fun s => ?_
  change ∃ t, execLinkTrainingComplete rep s = _
  unfold execLinkTrainingComplete
  repeat' first | split | dsimp only
  all_goals exact ⟨_, rfl⟩

theorem ringTuningTick (link lane role : Nat) (heater detune : BitVec 16) (tuning : Tuning) : Statement (.ringTuningTick link lane role heater detune tuning) := by
  refine ⟨fun w s => ?_, fun w s => if_neg (c := link < 3 ∧ lane < linkLaneCount link ∧ role < 5) (fun h => not_ring_of w h)⟩
  have e : exec (.ringTuningTick link lane role heater detune tuning) s = _ := if_pos (c := link < 3 ∧ lane < linkLaneCount link ∧ role < 5) (ring_of w)
  rw [e]
  repeat' first | split | dsimp only
  all_goals exact ⟨_, rfl⟩

theorem ringOutOfLock (link lane role : Nat) : Statement (.ringOutOfLock link lane role) := by
  refine ⟨fun w s => ?_, fun w s => if_neg (c := link < 3 ∧ lane < linkLaneCount link ∧ role < 5) (fun h => not_ring_of w h)⟩
  have e : exec (.ringOutOfLock link lane role) s = _ := if_pos (c := link < 3 ∧ lane < linkLaneCount link ∧ role < 5) (ring_of w)
  rw [e]
  repeat' split
  all_goals exact ⟨_, rfl⟩

theorem laneThresholdCrossing (lane : LaneRef) (bitErrors codewords : Nat) : Statement (.laneThresholdCrossing lane bitErrors codewords) := by
  refine ⟨fun w s => ?_, fun w s => if_neg (c := laneExists lane = true) (Bool.eq_false_iff.mp ((laneExists_eq _).trans w))⟩
  have e : exec (.laneThresholdCrossing lane bitErrors codewords) s = _ := if_pos (c := laneExists lane = true) ((laneExists_eq _).trans w)
  rw [e]
  repeat' first | split | dsimp only
  all_goals exact ⟨_, rfl⟩

theorem laneLossOfSignal (lane : LaneRef) : Statement (.laneLossOfSignal lane) := by
  refine ⟨fun w s => ?_, fun w s => if_neg (c := laneExists lane = true) (Bool.eq_false_iff.mp ((laneExists_eq _).trans w))⟩
  have e : exec (.laneLossOfSignal lane) s = _ := if_pos (c := laneExists lane = true) ((laneExists_eq _).trans w)
  rw [e]
  repeat' split
  all_goals exact ⟨_, rfl⟩

theorem quiescePoint (link : LaneRef) : Statement (.quiescePoint link) := by
  refine ⟨fun w s => ?_, fun w s => if_neg (c := laneExists link = true) (Bool.eq_false_iff.mp ((laneExists_eq _).trans w))⟩
  have e : exec (.quiescePoint link) s = _ := if_pos (c := laneExists link = true) ((laneExists_eq _).trans w)
  rw [e]
  repeat' split
  all_goals exact ⟨_, rfl⟩

theorem laneRetrainComplete (lane : LaneRef) (passed : Bool) : Statement (.laneRetrainComplete lane passed) := by
  refine ⟨fun w s => ?_, fun w s => if_neg (c := laneExists lane = true) (Bool.eq_false_iff.mp ((laneExists_eq _).trans w))⟩
  have e : exec (.laneRetrainComplete lane passed) s = _ := if_pos (c := laneExists lane = true) ((laneExists_eq _).trans w)
  rw [e]
  repeat' split
  all_goals exact ⟨_, rfl⟩

theorem backgroundRetrain (lane : LaneRef) (passed : Bool) : Statement (.backgroundRetrain lane passed) := by
  refine ⟨fun w s => ?_, fun w s => if_neg (c := laneExists lane = true) (Bool.eq_false_iff.mp ((laneExists_eq _).trans w))⟩
  have e : exec (.backgroundRetrain lane passed) s = _ := if_pos (c := laneExists lane = true) ((laneExists_eq _).trans w)
  rw [e]
  repeat' split
  all_goals exact ⟨_, rfl⟩

theorem spareLaneRotation (link : Nat) : Statement (.spareLaneRotation link) := by
  refine ⟨fun w s => ?_, fun w s => if_neg (c := link < 3) (of_decide_eq_false w)⟩
  have e : exec (.spareLaneRotation link) s = _ := if_pos (c := link < 3) (of_decide_eq_true w)
  rw [e]
  repeat' first | split | dsimp only
  all_goals exact ⟨_, rfl⟩

theorem bundleIssue (d p : Nat) (ecc : Ecc) : Statement (.bundleIssue d p ecc) := by
  exact ⟨fun w s => ⟨_, if_pos (c := tileExists d p = true) w⟩, fun w s => if_neg (c := tileExists d p = true) (Bool.eq_false_iff.mp w)⟩

theorem arrayNop (d p : Nat) : Statement (.arrayNop d p) := by
  exact ⟨fun w s => ⟨_, if_pos (c := tileExists d p = true) w⟩, fun w s => if_neg (c := tileExists d p = true) (Bool.eq_false_iff.mp w)⟩

theorem matmul (d p : Nat) (slot : ArraySlot) (ecc : Ecc) : Statement (.matmul d p slot ecc) := by
  exact ⟨fun w s => ⟨_, if_pos (c := tileExists d p = true) w⟩, fun w s => if_neg (c := tileExists d p = true) (Bool.eq_false_iff.mp w)⟩

theorem pairBackward (d p : Nat) (slot : ArraySlot) (ecc : Ecc) : Statement (.pairBackward d p slot ecc) := by
  exact ⟨fun w s => ⟨_, if_pos (c := tileExists d p = true) w⟩, fun w s => if_neg (c := tileExists d p = true) (Bool.eq_false_iff.mp w)⟩

theorem arrayPassWriteBack (d p : Nat) (upsets : List Upset) : Statement (.arrayPassWriteBack d p upsets) := by
  refine ⟨fun w s => ?_, fun w s => if_neg (c := tileExists d p = true) (Bool.eq_false_iff.mp w)⟩
  have e : exec (.arrayPassWriteBack d p upsets) s = _ := if_pos (c := tileExists d p = true) w
  rw [e]
  repeat' split
  all_goals exact ⟨_, rfl⟩

theorem arrayOpComplete (d p : Nat) : Statement (.arrayOpComplete d p) := by
  refine ⟨fun w s => ?_, fun w s => if_neg (c := tileExists d p = true) (Bool.eq_false_iff.mp w)⟩
  have e : exec (.arrayOpComplete d p) s = _ := if_pos (c := tileExists d p = true) w
  rw [e]
  repeat' split
  all_goals exact ⟨_, rfl⟩

theorem flickerReplay (d p : Nat) : Statement (.flickerReplay d p) := by
  refine ⟨fun w s => ?_, fun w s => if_neg (c := tileExists d p = true) (Bool.eq_false_iff.mp w)⟩
  have e : exec (.flickerReplay d p) s = _ := if_pos (c := tileExists d p = true) w
  rw [e]
  repeat' split
  all_goals exact ⟨_, rfl⟩

theorem arrayRetired (d p a : Nat) : Statement (.arrayRetired d p a) := by
  refine ⟨fun w s => ?_, fun w s => if_neg (c := (tileExists d p && decide (a < 17)) = true) (Bool.eq_false_iff.mp w)⟩
  have e : exec (.arrayRetired d p a) s = _ := if_pos (c := (tileExists d p && decide (a < 17)) = true) w
  rw [e]
  repeat' split
  all_goals exact ⟨_, rfl⟩

theorem spareSubstitutionComplete (d p : Nat) : Statement (.spareSubstitutionComplete d p) := by
  refine ⟨fun w s => ?_, fun w s => if_neg (c := tileExists d p = true) (Bool.eq_false_iff.mp w)⟩
  have e : exec (.spareSubstitutionComplete d p) s = _ := if_pos (c := tileExists d p = true) w
  rw [e]
  repeat' split
  all_goals exact ⟨_, rfl⟩

theorem tileRetired (d p : Nat) : Statement (.tileRetired d p) := by
  refine ⟨fun w s => ?_, fun w s => if_neg (c := tileExists d p = true) (Bool.eq_false_iff.mp w)⟩
  have e : exec (.tileRetired d p) s = _ := if_pos (c := tileExists d p = true) w
  rw [e]
  repeat' split
  all_goals exact ⟨_, rfl⟩

theorem vectorNop (d p : Nat) : Statement (.vectorNop d p) := by
  exact ⟨fun w s => ⟨_, if_pos (c := tileExists d p = true) w⟩, fun w s => if_neg (c := tileExists d p = true) (Bool.eq_false_iff.mp w)⟩

theorem vectorAdd (d p desc done : Nat) (ecc : Ecc) : Statement (.vectorAdd d p desc done ecc) := by
  exact ⟨fun w s => ⟨_, if_pos (c := tileExists d p = true) w⟩, fun w s => if_neg (c := tileExists d p = true) (Bool.eq_false_iff.mp w)⟩

theorem vectorSub (d p desc done : Nat) (ecc : Ecc) : Statement (.vectorSub d p desc done ecc) := by
  exact ⟨fun w s => ⟨_, if_pos (c := tileExists d p = true) w⟩, fun w s => if_neg (c := tileExists d p = true) (Bool.eq_false_iff.mp w)⟩

theorem vectorMul (d p desc done : Nat) (ecc : Ecc) : Statement (.vectorMul d p desc done ecc) := by
  exact ⟨fun w s => ⟨_, if_pos (c := tileExists d p = true) w⟩, fun w s => if_neg (c := tileExists d p = true) (Bool.eq_false_iff.mp w)⟩

theorem vectorFma (d p desc done : Nat) (ecc : Ecc) : Statement (.vectorFma d p desc done ecc) := by
  exact ⟨fun w s => ⟨_, if_pos (c := tileExists d p = true) w⟩, fun w s => if_neg (c := tileExists d p = true) (Bool.eq_false_iff.mp w)⟩

theorem vectorAxpy (d p desc done : Nat) (ecc : Ecc) : Statement (.vectorAxpy d p desc done ecc) := by
  exact ⟨fun w s => ⟨_, if_pos (c := tileExists d p = true) w⟩, fun w s => if_neg (c := tileExists d p = true) (Bool.eq_false_iff.mp w)⟩

theorem vectorMax (d p desc done : Nat) (ecc : Ecc) : Statement (.vectorMax d p desc done ecc) := by
  exact ⟨fun w s => ⟨_, if_pos (c := tileExists d p = true) w⟩, fun w s => if_neg (c := tileExists d p = true) (Bool.eq_false_iff.mp w)⟩

theorem vectorMin (d p desc done : Nat) (ecc : Ecc) : Statement (.vectorMin d p desc done ecc) := by
  exact ⟨fun w s => ⟨_, if_pos (c := tileExists d p = true) w⟩, fun w s => if_neg (c := tileExists d p = true) (Bool.eq_false_iff.mp w)⟩

theorem vectorExp (d p desc done : Nat) (ecc : Ecc) : Statement (.vectorExp d p desc done ecc) := by
  exact ⟨fun w s => ⟨_, if_pos (c := tileExists d p = true) w⟩, fun w s => if_neg (c := tileExists d p = true) (Bool.eq_false_iff.mp w)⟩

theorem vectorLog (d p desc done : Nat) (ecc : Ecc) : Statement (.vectorLog d p desc done ecc) := by
  exact ⟨fun w s => ⟨_, if_pos (c := tileExists d p = true) w⟩, fun w s => if_neg (c := tileExists d p = true) (Bool.eq_false_iff.mp w)⟩

theorem vectorRcp (d p desc done : Nat) (ecc : Ecc) : Statement (.vectorRcp d p desc done ecc) := by
  exact ⟨fun w s => ⟨_, if_pos (c := tileExists d p = true) w⟩, fun w s => if_neg (c := tileExists d p = true) (Bool.eq_false_iff.mp w)⟩

theorem vectorRsqrt (d p desc done : Nat) (ecc : Ecc) : Statement (.vectorRsqrt d p desc done ecc) := by
  exact ⟨fun w s => ⟨_, if_pos (c := tileExists d p = true) w⟩, fun w s => if_neg (c := tileExists d p = true) (Bool.eq_false_iff.mp w)⟩

theorem vectorSum (d p desc done : Nat) (ecc : Ecc) : Statement (.vectorSum d p desc done ecc) := by
  exact ⟨fun w s => ⟨_, if_pos (c := tileExists d p = true) w⟩, fun w s => if_neg (c := tileExists d p = true) (Bool.eq_false_iff.mp w)⟩

theorem vectorAmax (d p desc done : Nat) (ecc : Ecc) : Statement (.vectorAmax d p desc done ecc) := by
  exact ⟨fun w s => ⟨_, if_pos (c := tileExists d p = true) w⟩, fun w s => if_neg (c := tileExists d p = true) (Bool.eq_false_iff.mp w)⟩

theorem vectorConvert (d p desc done : Nat) (ecc : Ecc) : Statement (.vectorConvert d p desc done ecc) := by
  exact ⟨fun w s => ⟨_, if_pos (c := tileExists d p = true) w⟩, fun w s => if_neg (c := tileExists d p = true) (Bool.eq_false_iff.mp w)⟩

theorem vectorAccum (d p desc done : Nat) (ecc : Ecc) : Statement (.vectorAccum d p desc done ecc) := by
  exact ⟨fun w s => ⟨_, if_pos (c := tileExists d p = true) w⟩, fun w s => if_neg (c := tileExists d p = true) (Bool.eq_false_iff.mp w)⟩

theorem vectorDropout (d p desc done : Nat) (ecc : Ecc) : Statement (.vectorDropout d p desc done ecc) := by
  exact ⟨fun w s => ⟨_, if_pos (c := tileExists d p = true) w⟩, fun w s => if_neg (c := tileExists d p = true) (Bool.eq_false_iff.mp w)⟩

theorem vectorCopy (d p desc done : Nat) (ecc : Ecc) : Statement (.vectorCopy d p desc done ecc) := by
  exact ⟨fun w s => ⟨_, if_pos (c := tileExists d p = true) w⟩, fun w s => if_neg (c := tileExists d p = true) (Bool.eq_false_iff.mp w)⟩

theorem vectorOpComplete (d p : Nat) : Statement (.vectorOpComplete d p) := by
  refine ⟨fun w s => ?_, fun w s => if_neg (c := tileExists d p = true) (Bool.eq_false_iff.mp w)⟩
  have e : exec (.vectorOpComplete d p) s = _ := if_pos (c := tileExists d p = true) w
  rw [e]
  repeat' split
  all_goals exact ⟨_, rfl⟩

theorem streamSlotNop (d p : Nat) : Statement (.streamSlotNop d p) := by
  exact ⟨fun w s => ⟨_, if_pos (c := tileExists d p = true) w⟩, fun w s => if_neg (c := tileExists d p = true) (Bool.eq_false_iff.mp w)⟩

theorem bind (d p slot prog : Nat) : Statement (.bind d p slot prog) := by
  exact ⟨fun w s => ⟨_, if_pos (c := tileExists d p = true) w⟩, fun w s => if_neg (c := tileExists d p = true) (Bool.eq_false_iff.mp w)⟩

theorem start (d p slot arg done : Nat) : Statement (.start d p slot arg done) := by
  exact ⟨fun w s => ⟨_, if_pos (c := tileExists d p = true) w⟩, fun w s => if_neg (c := tileExists d p = true) (Bool.eq_false_iff.mp w)⟩

theorem consume (d p slot blocks : Nat) : Statement (.consume d p slot blocks) := by
  exact ⟨fun w s => ⟨_, if_pos (c := tileExists d p = true) w⟩, fun w s => if_neg (c := tileExists d p = true) (Bool.eq_false_iff.mp w)⟩

theorem unbind (d p slot : Nat) : Statement (.unbind d p slot) := by
  exact ⟨fun w s => ⟨_, if_pos (c := tileExists d p = true) w⟩, fun w s => if_neg (c := tileExists d p = true) (Bool.eq_false_iff.mp w)⟩

theorem controlNop (d p : Nat) : Statement (.controlNop d p) := by
  exact ⟨fun w s => ⟨_, if_pos (c := tileExists d p = true) w⟩, fun w s => if_neg (c := tileExists d p = true) (Bool.eq_false_iff.mp w)⟩

theorem wait (d p counter threshold : Nat) (consume : Bool) : Statement (.wait d p counter threshold consume) := by
  exact ⟨fun w s => ⟨_, if_pos (c := tileExists d p = true) w⟩, fun w s => if_neg (c := tileExists d p = true) (Bool.eq_false_iff.mp w)⟩

theorem signal (d p counter scope target increment : Nat) : Statement (.signal d p counter scope target increment) := by
  exact ⟨fun w s => ⟨_, if_pos (c := tileExists d p = true) w⟩, fun w s => if_neg (c := tileExists d p = true) (Bool.eq_false_iff.mp w)⟩

theorem signalArrival (fromDie fromPos toDie toPos counter : Nat) : Statement (.signalArrival fromDie fromPos toDie toPos counter) := by
  refine ⟨fun w s => ?_, fun w s => if_neg (c := (tileExists fromDie fromPos && tileExists toDie toPos && decide (counter < 256)) = true) (Bool.eq_false_iff.mp w)⟩
  have e : exec (.signalArrival fromDie fromPos toDie toPos counter) s = _ := if_pos (c := (tileExists fromDie fromPos && tileExists toDie toPos && decide (counter < 256)) = true) w
  rw [e]
  repeat' split
  all_goals exact ⟨_, rfl⟩

theorem yieldPoint (d p : Nat) : Statement (.yieldPoint d p) := by
  exact ⟨fun w s => ⟨_, if_pos (c := tileExists d p = true) w⟩, fun w s => if_neg (c := tileExists d p = true) (Bool.eq_false_iff.mp w)⟩

theorem barrier (d p id : Nat) : Statement (.barrier d p id) := by
  exact ⟨fun w s => ⟨_, if_pos (c := (tileExists d p && decide (id < 32)) = true) w⟩, fun w s => if_neg (c := (tileExists d p && decide (id < 32)) = true) (Bool.eq_false_iff.mp w)⟩

theorem barrierOpen (id : Nat) : Statement (.barrierOpen id) := by
  exact ⟨fun w s => ⟨_, if_pos (c := id < 32) (of_decide_eq_true w)⟩, fun w s => if_neg (c := id < 32) (of_decide_eq_false w)⟩

theorem xfer (d p desc done : Nat) : Statement (.xfer d p desc done) := by
  exact ⟨fun w s => ⟨_, if_pos (c := tileExists d p = true) w⟩, fun w s => if_neg (c := tileExists d p = true) (Bool.eq_false_iff.mp w)⟩

theorem xferComplete (d p : Nat) : Statement (.xferComplete d p) := by
  refine ⟨fun w s => ?_, fun w s => if_neg (c := tileExists d p = true) (Bool.eq_false_iff.mp w)⟩
  have e : exec (.xferComplete d p) s = _ := if_pos (c := tileExists d p = true) w
  rw [e]
  repeat' first | split | dsimp only
  all_goals exact ⟨_, rfl⟩

theorem coll (d p entry done : Nat) : Statement (.coll d p entry done) := by
  exact ⟨fun w s => ⟨_, if_pos (c := tileExists d p = true) w⟩, fun w s => if_neg (c := tileExists d p = true) (Bool.eq_false_iff.mp w)⟩

theorem fence (d p scopes : Nat) : Statement (.fence d p scopes) := by
  exact ⟨fun w s => ⟨_, if_pos (c := tileExists d p = true) w⟩, fun w s => if_neg (c := tileExists d p = true) (Bool.eq_false_iff.mp w)⟩

theorem fenceComplete (d p ctx : Nat) : Statement (.fenceComplete d p ctx) := by
  refine ⟨fun w s => ?_, fun w s => if_neg (c := (tileExists d p && decide (ctx < 8)) = true) (Bool.eq_false_iff.mp w)⟩
  have e : exec (.fenceComplete d p ctx) s = _ := if_pos (c := (tileExists d p && decide (ctx < 8)) = true) w
  rw [e]
  repeat' split
  all_goals exact ⟨_, rfl⟩

theorem halt (d p : Nat) : Statement (.halt d p) := by
  exact ⟨fun w s => ⟨_, if_pos (c := tileExists d p = true) w⟩, fun w s => if_neg (c := tileExists d p = true) (Bool.eq_false_iff.mp w)⟩

theorem contextHalted (d p ctx : Nat) : Statement (.contextHalted d p ctx) := by
  refine ⟨fun w s => ?_, fun w s => if_neg (c := (tileExists d p && decide (ctx < 8)) = true) (Bool.eq_false_iff.mp w)⟩
  have e : exec (.contextHalted d p ctx) s = _ := if_pos (c := (tileExists d p && decide (ctx < 8)) = true) w
  rw [e]
  repeat' split
  all_goals exact ⟨_, rfl⟩

theorem nextBundle (d p : Nat) : Statement (.nextBundle d p) := by
  exact ⟨fun w s => ⟨_, if_pos (c := tileExists d p = true) w⟩, fun w s => if_neg (c := tileExists d p = true) (Bool.eq_false_iff.mp w)⟩

theorem loopBegin (d p reg imm : Nat) : Statement (.loopBegin d p reg imm) := by
  exact ⟨fun w s => ⟨_, if_pos (c := tileExists d p = true) w⟩, fun w s => if_neg (c := tileExists d p = true) (Bool.eq_false_iff.mp w)⟩

theorem loopBeginP (d p reg imm : Nat) : Statement (.loopBeginP d p reg imm) := by
  exact ⟨fun w s => ⟨_, if_pos (c := tileExists d p = true) w⟩, fun w s => if_neg (c := tileExists d p = true) (Bool.eq_false_iff.mp w)⟩

theorem loopEnd (d p reg : Nat) : Statement (.loopEnd d p reg) := by
  exact ⟨fun w s => ⟨_, if_pos (c := tileExists d p = true) w⟩, fun w s => if_neg (c := tileExists d p = true) (Bool.eq_false_iff.mp w)⟩

theorem jump (d p imm : Nat) : Statement (.jump d p imm) := by
  exact ⟨fun w s => ⟨_, if_pos (c := tileExists d p = true) w⟩, fun w s => if_neg (c := tileExists d p = true) (Bool.eq_false_iff.mp w)⟩

theorem segment (d p imm : Nat) : Statement (.segment d p imm) := by
  exact ⟨fun w s => ⟨_, if_pos (c := tileExists d p = true) w⟩, fun w s => if_neg (c := tileExists d p = true) (Bool.eq_false_iff.mp w)⟩

theorem segmentLoadComplete (d p : Nat) : Statement (.segmentLoadComplete d p) := by
  refine ⟨fun w s => ?_, fun w s => if_neg (c := tileExists d p = true) (Bool.eq_false_iff.mp w)⟩
  have e : exec (.segmentLoadComplete d p) s = _ := if_pos (c := tileExists d p = true) w
  rw [e]
  repeat' split
  all_goals exact ⟨_, rfl⟩

theorem padd (d p reg imm : Nat) : Statement (.padd d p reg imm) := by
  exact ⟨fun w s => ⟨_, if_pos (c := tileExists d p = true) w⟩, fun w s => if_neg (c := tileExists d p = true) (Bool.eq_false_iff.mp w)⟩

theorem pset (d p reg imm : Nat) : Statement (.pset d p reg imm) := by
  exact ⟨fun w s => ⟨_, if_pos (c := tileExists d p = true) w⟩, fun w s => if_neg (c := tileExists d p = true) (Bool.eq_false_iff.mp w)⟩

theorem jumpIfGe (d p reg imm : Nat) : Statement (.jumpIfGe d p reg imm) := by
  exact ⟨fun w s => ⟨_, if_pos (c := tileExists d p = true) w⟩, fun w s => if_neg (c := tileExists d p = true) (Bool.eq_false_iff.mp w)⟩

theorem contextSwitchComplete (d p : Nat) : Statement (.contextSwitchComplete d p) := by
  refine ⟨fun w s => ?_, fun w s => if_neg (c := tileExists d p = true) (Bool.eq_false_iff.mp w)⟩
  have e : exec (.contextSwitchComplete d p) s = _ := if_pos (c := tileExists d p = true) w
  rw [e]
  repeat' split
  all_goals exact ⟨_, rfl⟩

theorem tileIdleDark (d p : Nat) : Statement (.tileIdleDark d p) := by
  refine ⟨fun w s => ?_, fun w s => if_neg (c := tileExists d p = true) (Bool.eq_false_iff.mp w)⟩
  have e : exec (.tileIdleDark d p) s = _ := if_pos (c := tileExists d p = true) w
  rw [e]
  repeat' split
  all_goals exact ⟨_, rfl⟩

theorem tileLit (d p : Nat) : Statement (.tileLit d p) := by
  refine ⟨fun w s => ?_, fun w s => if_neg (c := tileExists d p = true) (Bool.eq_false_iff.mp w)⟩
  have e : exec (.tileLit d p) s = _ := if_pos (c := tileExists d p = true) w
  rw [e]
  repeat' split
  all_goals exact ⟨_, rfl⟩

theorem streamEnd (r : StreamRef) : Statement (.streamEnd r) := by
  exact ⟨fun w s => ⟨_, if_pos (c := refExists r = true) ((refExists_eq _).trans w)⟩, fun w s => if_neg (c := refExists r = true) (Bool.eq_false_iff.mp ((refExists_eq _).trans w))⟩

theorem streamSeta (r : StreamRef) : Statement (.streamSeta r) := by
  exact ⟨fun w s => ⟨_, if_pos (c := refExists r = true) ((refExists_eq _).trans w)⟩, fun w s => if_neg (c := refExists r = true) (Bool.eq_false_iff.mp ((refExists_eq _).trans w))⟩

theorem streamSets (r : StreamRef) : Statement (.streamSets r) := by
  exact ⟨fun w s => ⟨_, if_pos (c := refExists r = true) ((refExists_eq _).trans w)⟩, fun w s => if_neg (c := refExists r = true) (Bool.eq_false_iff.mp ((refExists_eq _).trans w))⟩

theorem streamAdds (r : StreamRef) : Statement (.streamAdds r) := by
  exact ⟨fun w s => ⟨_, if_pos (c := refExists r = true) ((refExists_eq _).trans w)⟩, fun w s => if_neg (c := refExists r = true) (Bool.eq_false_iff.mp ((refExists_eq _).trans w))⟩

theorem streamAddq (r : StreamRef) : Statement (.streamAddq r) := by
  exact ⟨fun w s => ⟨_, if_pos (c := refExists r = true) ((refExists_eq _).trans w)⟩, fun w s => if_neg (c := refExists r = true) (Bool.eq_false_iff.mp ((refExists_eq _).trans w))⟩

theorem streamLoop (r : StreamRef) : Statement (.streamLoop r) := by
  exact ⟨fun w s => ⟨_, if_pos (c := refExists r = true) ((refExists_eq _).trans w)⟩, fun w s => if_neg (c := refExists r = true) (Bool.eq_false_iff.mp ((refExists_eq _).trans w))⟩

theorem streamLoopq (r : StreamRef) : Statement (.streamLoopq r) := by
  exact ⟨fun w s => ⟨_, if_pos (c := refExists r = true) ((refExists_eq _).trans w)⟩, fun w s => if_neg (c := refExists r = true) (Bool.eq_false_iff.mp ((refExists_eq _).trans w))⟩

theorem streamEndloop (r : StreamRef) : Statement (.streamEndloop r) := by
  exact ⟨fun w s => ⟨_, if_pos (c := refExists r = true) ((refExists_eq _).trans w)⟩, fun w s => if_neg (c := refExists r = true) (Bool.eq_false_iff.mp ((refExists_eq _).trans w))⟩

theorem streamMove (r : StreamRef) : Statement (.streamMove r) := by
  exact ⟨fun w s => ⟨_, if_pos (c := refExists r = true) ((refExists_eq _).trans w)⟩, fun w s => if_neg (c := refExists r = true) (Bool.eq_false_iff.mp ((refExists_eq _).trans w))⟩

theorem streamIndex (r : StreamRef) : Statement (.streamIndex r) := by
  exact ⟨fun w s => ⟨_, if_pos (c := refExists r = true) ((refExists_eq _).trans w)⟩, fun w s => if_neg (c := refExists r = true) (Bool.eq_false_iff.mp ((refExists_eq _).trans w))⟩

theorem streamBackPressureResume (r : StreamRef) : Statement (.streamBackPressureResume r) := by
  exact ⟨fun w s => ⟨_, if_pos (c := refExists r = true) ((refExists_eq _).trans w)⟩, fun w s => if_neg (c := refExists r = true) (Bool.eq_false_iff.mp ((refExists_eq _).trans w))⟩

theorem requestLanded (owner : ReqOwner) (seq : Nat) (ecc : Ecc) : Statement (.requestLanded owner seq ecc) := by
  refine ⟨fun w s => ?_, fun w s => if_neg (c := ownerExists owner = true) (Bool.eq_false_iff.mp ((ownerExists_eq _).trans w))⟩
  have e : exec (.requestLanded owner seq ecc) s = _ := if_pos (c := ownerExists owner = true) ((ownerExists_eq _).trans w)
  rw [e]
  repeat' split
  all_goals exact ⟨_, rfl⟩

theorem streamError (r : StreamRef) (reason tier : Nat) (destSide : Bool) : Statement (.streamError r reason tier destSide) := by
  exact ⟨fun w s => ⟨_, if_pos (c := refExists r = true) ((refExists_eq _).trans w)⟩, fun w s => if_neg (c := refExists r = true) (Bool.eq_false_iff.mp ((refExists_eq _).trans w))⟩

theorem noProgress (owner : ReqOwner) : Statement (.noProgress owner) := by
  exact ⟨fun w s => ⟨_, if_pos (c := ownerExists owner = true) ((ownerExists_eq _).trans w)⟩, fun w s => if_neg (c := ownerExists owner = true) (Bool.eq_false_iff.mp ((ownerExists_eq _).trans w))⟩

theorem arbiterGrant (pt : Point) (ecc : Ecc) : Statement (.arbiterGrant pt ecc) := by
  exact ⟨fun w s => ⟨_, if_pos (c := pointExists pt = true) ((pointExists_eq _).trans w)⟩, fun w s => if_neg (c := pointExists pt = true) (Bool.eq_false_iff.mp ((pointExists_eq _).trans w))⟩

theorem ftcUnitGrant (die : Nat) (encoder : Bool) : Statement (.ftcUnitGrant die encoder) := by
  exact ⟨fun w s => ⟨_, if_pos (c := die < 3) (of_decide_eq_true w)⟩, fun w s => if_neg (c := die < 3) (of_decide_eq_false w)⟩

theorem stepComputeStart : Statement (.stepComputeStart) := by
  refine of_next rfl fun s => ?_
  change ∃ t, execStepComputeStart s = _
  unfold execStepComputeStart
  repeat' first | split | dsimp only
  all_goals exact ⟨_, rfl⟩

theorem stepOpenComplete : Statement (.stepOpenComplete) := by
  refine of_next rfl fun s => ?_
  change ∃ t, execStepOpenComplete s = _
  unfold execStepOpenComplete
  repeat' first | split | dsimp only
  all_goals exact ⟨_, rfl⟩

theorem stepStatsComplete : Statement (.stepStatsComplete) := by
  refine of_next rfl fun s => ?_
  change ∃ t, execStepStatsComplete s = _
  unfold execStepStatsComplete
  repeat' first | split | dsimp only
  all_goals exact ⟨_, rfl⟩

theorem recordStatsComplete : Statement (.recordStatsComplete) := by
  refine of_next rfl fun s => ?_
  change ∃ t, execRecordStatsComplete s = _
  unfold execRecordStatsComplete
  repeat' first | split | dsimp only
  all_goals exact ⟨_, rfl⟩

theorem sweepComplete : Statement (.sweepComplete) := by
  refine of_next rfl fun s => ?_
  change ∃ t, execSweepComplete s = _
  unfold execSweepComplete
  repeat' first | split | dsimp only
  all_goals exact ⟨_, rfl⟩

theorem digestExchangeComplete : Statement (.digestExchangeComplete) := by
  refine of_next rfl fun s => ?_
  change ∃ t, execDigestExchangeComplete s = _
  unfold execDigestExchangeComplete
  repeat' first | split | dsimp only
  all_goals exact ⟨_, rfl⟩

theorem commitReadyComplete : Statement (.commitReadyComplete) := by
  refine of_next rfl fun s => ?_
  change ∃ t, execCommitReadyComplete s = _
  unfold execCommitReadyComplete
  repeat' first | split | dsimp only
  all_goals exact ⟨_, rfl⟩

theorem stepEnd : Statement (.stepEnd) := by
  refine of_next rfl fun s => ?_
  change ∃ t, execStepEnd s = _
  unfold execStepEnd
  repeat' first | split | dsimp only
  all_goals exact ⟨_, rfl⟩

theorem exportStart : Statement (.exportStart) := by
  refine of_next rfl fun s => ?_
  change ∃ t, execExportStart s = _
  unfold execExportStart
  repeat' first | split | dsimp only
  all_goals exact ⟨_, rfl⟩

theorem exportComplete : Statement (.exportComplete) := by
  refine of_next rfl fun s => ?_
  change ∃ t, execExportComplete s = _
  unfold execExportComplete
  repeat' first | split | dsimp only
  all_goals exact ⟨_, rfl⟩

theorem gradientClearComplete : Statement (.gradientClearComplete) := by
  refine of_next rfl fun s => ?_
  change ∃ t, execGradientClearComplete s = _
  unfold execGradientClearComplete
  repeat' first | split | dsimp only
  all_goals exact ⟨_, rfl⟩

theorem commitCopyRebuilt (readBack : Bool) : Statement (.commitCopyRebuilt readBack) := by
  refine of_next rfl fun s => ?_
  change ∃ t, execCommitCopyRebuilt readBack s = _
  unfold execCommitCopyRebuilt
  repeat' first | split | dsimp only
  all_goals exact ⟨_, rfl⟩

theorem bsuAdd (d p done : Nat) (desc : BsuDesc) : Statement (.bsuAdd d p done desc) := by
  exact ⟨fun w s => ⟨_, if_pos (c := tileExists d p = true) w⟩, fun w s => if_neg (c := tileExists d p = true) (Bool.eq_false_iff.mp w)⟩

theorem bsuMul (d p done : Nat) (desc : BsuDesc) : Statement (.bsuMul d p done desc) := by
  exact ⟨fun w s => ⟨_, if_pos (c := tileExists d p = true) w⟩, fun w s => if_neg (c := tileExists d p = true) (Bool.eq_false_iff.mp w)⟩

theorem bsuAxpy (d p done : Nat) (desc : BsuDesc) : Statement (.bsuAxpy d p done desc) := by
  exact ⟨fun w s => ⟨_, if_pos (c := tileExists d p = true) w⟩, fun w s => if_neg (c := tileExists d p = true) (Bool.eq_false_iff.mp w)⟩

theorem bsuScale (d p done : Nat) (desc : BsuDesc) : Statement (.bsuScale d p done desc) := by
  exact ⟨fun w s => ⟨_, if_pos (c := tileExists d p = true) w⟩, fun w s => if_neg (c := tileExists d p = true) (Bool.eq_false_iff.mp w)⟩

theorem bsuFill (d p done : Nat) (desc : BsuDesc) : Statement (.bsuFill d p done desc) := by
  exact ⟨fun w s => ⟨_, if_pos (c := tileExists d p = true) w⟩, fun w s => if_neg (c := tileExists d p = true) (Bool.eq_false_iff.mp w)⟩

theorem bsuCopy (d p done : Nat) (desc : BsuDesc) : Statement (.bsuCopy d p done desc) := by
  exact ⟨fun w s => ⟨_, if_pos (c := tileExists d p = true) w⟩, fun w s => if_neg (c := tileExists d p = true) (Bool.eq_false_iff.mp w)⟩

theorem bsuConvert (d p done : Nat) (desc : BsuDesc) : Statement (.bsuConvert d p done desc) := by
  exact ⟨fun w s => ⟨_, if_pos (c := tileExists d p = true) w⟩, fun w s => if_neg (c := tileExists d p = true) (Bool.eq_false_iff.mp w)⟩

theorem bsuAccum (d p done : Nat) (desc : BsuDesc) : Statement (.bsuAccum d p done desc) := by
  exact ⟨fun w s => ⟨_, if_pos (c := tileExists d p = true) w⟩, fun w s => if_neg (c := tileExists d p = true) (Bool.eq_false_iff.mp w)⟩

theorem bsuSum (d p done : Nat) (desc : BsuDesc) : Statement (.bsuSum d p done desc) := by
  exact ⟨fun w s => ⟨_, if_pos (c := tileExists d p = true) w⟩, fun w s => if_neg (c := tileExists d p = true) (Bool.eq_false_iff.mp w)⟩

theorem bsuNorm2 (d p done : Nat) (desc : BsuDesc) : Statement (.bsuNorm2 d p done desc) := by
  exact ⟨fun w s => ⟨_, if_pos (c := tileExists d p = true) w⟩, fun w s => if_neg (c := tileExists d p = true) (Bool.eq_false_iff.mp w)⟩

theorem bsuAmax (d p done : Nat) (desc : BsuDesc) : Statement (.bsuAmax d p done desc) := by
  exact ⟨fun w s => ⟨_, if_pos (c := tileExists d p = true) w⟩, fun w s => if_neg (c := tileExists d p = true) (Bool.eq_false_iff.mp w)⟩

theorem bsuGather (d p done : Nat) (desc : BsuDesc) : Statement (.bsuGather d p done desc) := by
  exact ⟨fun w s => ⟨_, if_pos (c := tileExists d p = true) w⟩, fun w s => if_neg (c := tileExists d p = true) (Bool.eq_false_iff.mp w)⟩

theorem bsuScatterAdd (d p done : Nat) (desc : BsuDesc) : Statement (.bsuScatterAdd d p done desc) := by
  exact ⟨fun w s => ⟨_, if_pos (c := tileExists d p = true) w⟩, fun w s => if_neg (c := tileExists d p = true) (Bool.eq_false_iff.mp w)⟩

theorem bsuStream (d p done : Nat) (desc : BsuDesc) : Statement (.bsuStream d p done desc) := by
  exact ⟨fun w s => ⟨_, if_pos (c := tileExists d p = true) w⟩, fun w s => if_neg (c := tileExists d p = true) (Bool.eq_false_iff.mp w)⟩

theorem landingAccum (st ch : Nat) (ecc : Ecc) : Statement (.landingAccum st ch ecc) := by
  exact ⟨fun w s => ⟨_, if_pos (c := bsuExists st ch = true) w⟩, fun w s => if_neg (c := bsuExists st ch = true) (Bool.eq_false_iff.mp w)⟩

theorem bsuSliceEnd (st ch : Nat) (ecc : Ecc) : Statement (.bsuSliceEnd st ch ecc) := by
  exact ⟨fun w s => ⟨_, if_pos (c := bsuExists st ch = true) w⟩, fun w s => if_neg (c := bsuExists st ch = true) (Bool.eq_false_iff.mp w)⟩

theorem bsuOperationComplete (id : Nat) : Statement (.bsuOperationComplete id) := by
  refine of_next rfl fun s => ?_
  change ∃ t, execBsuOperationComplete id s = _
  unfold execBsuOperationComplete
  repeat' first | split | dsimp only
  all_goals exact ⟨_, rfl⟩

theorem bsuOperationError (id st ch reason : Nat) : Statement (.bsuOperationError id st ch reason) := by
  exact ⟨fun w s => ⟨_, if_pos (c := bsuExists st ch = true) w⟩, fun w s => if_neg (c := bsuExists st ch = true) (Bool.eq_false_iff.mp w)⟩

theorem bsuIdleDark (st ch : Nat) : Statement (.bsuIdleDark st ch) := by
  refine ⟨fun w s => ?_, fun w s => if_neg (c := bsuExists st ch = true) (Bool.eq_false_iff.mp w)⟩
  have e : exec (.bsuIdleDark st ch) s = _ := if_pos (c := bsuExists st ch = true) w
  rw [e]
  repeat' split
  all_goals exact ⟨_, rfl⟩

theorem bsuLit (st ch : Nat) : Statement (.bsuLit st ch) := by
  refine ⟨fun w s => ?_, fun w s => if_neg (c := bsuExists st ch = true) (Bool.eq_false_iff.mp w)⟩
  have e : exec (.bsuLit st ch) s = _ := if_pos (c := bsuExists st ch = true) w
  rw [e]
  repeat' split
  all_goals exact ⟨_, rfl⟩

theorem bsuDutyWindow (st ch : Nat) : Statement (.bsuDutyWindow st ch) := by
  refine ⟨fun w s => ?_, fun w s => if_neg (c := bsuExists st ch = true) (Bool.eq_false_iff.mp w)⟩
  have e : exec (.bsuDutyWindow st ch) s = _ := if_pos (c := bsuExists st ch = true) w
  rw [e]
  repeat' split
  all_goals exact ⟨_, rfl⟩

theorem refreshDue (st pch bank : Nat) : Statement (.refreshDue st pch bank) := by
  refine ⟨fun w s => ?_, fun w s => if_neg (c := bankExists st pch bank = true) (Bool.eq_false_iff.mp w)⟩
  have h : st < 8 := by
    have k : (decide (st < 8) && decide (pch < 64) && decide (bank < 64)) = true := w
    simp only [Bool.and_eq_true, decide_eq_true_eq] at k
    exact k.1.1
  have e : exec (.refreshDue st pch bank) s = _ := if_pos (c := bankExists st pch bank = true) w
  exact ⟨_, e.trans (if_pos h)⟩

theorem refreshForced (st pch bank : Nat) : Statement (.refreshForced st pch bank) := by
  refine ⟨fun w s => ?_, fun w s => if_neg (c := bankExists st pch bank = true) (Bool.eq_false_iff.mp w)⟩
  have h : st < 8 := by
    have k : (decide (st < 8) && decide (pch < 64) && decide (bank < 64)) = true := w
    simp only [Bool.and_eq_true, decide_eq_true_eq] at k
    exact k.1.1
  have e : exec (.refreshForced st pch bank) s = _ := if_pos (c := bankExists st pch bank = true) w
  exact ⟨_, e.trans (if_pos h)⟩

theorem refreshManagement (st pch bank : Nat) : Statement (.refreshManagement st pch bank) := by
  refine ⟨fun w s => ?_, fun w s => if_neg (c := bankExists st pch bank = true) (Bool.eq_false_iff.mp w)⟩
  have h : st < 8 := by
    have k : (decide (st < 8) && decide (pch < 64) && decide (bank < 64)) = true := w
    simp only [Bool.and_eq_true, decide_eq_true_eq] at k
    exact k.1.1
  have e : exec (.refreshManagement st pch bank) s = _ := if_pos (c := bankExists st pch bank = true) w
  exact ⟨_, e.trans (if_pos h)⟩

theorem patrolScrubSector (st pch : Nat) (ecc : Ecc) : Statement (.patrolScrubSector st pch ecc) := by
  refine ⟨fun w s => ?_, fun w s => ?_⟩
  · have h : st < 8 ∧ pch < 64 := and_of w
    have e : exec (.patrolScrubSector st pch ecc) s = _ := if_pos h.2
    exact ⟨_, e.trans (if_pos h.1)⟩
  · by_cases h : pch < 64
    · have k : ¬st < 8 := fun k => not_and_of w ⟨k, h⟩
      have e : exec (.patrolScrubSector st pch ecc) s = _ := if_pos h
      exact e.trans (if_neg k)
    · exact if_neg h

theorem scrubLate (st : Nat) : Statement (.scrubLate st) := by
  exact ⟨fun w s => ⟨_, if_pos (c := st < 8) (of_decide_eq_true w)⟩, fun w s => if_neg (c := st < 8) (of_decide_eq_false w)⟩

theorem stackSensorSample (st : Nat) (temps : List Int) : Statement (.stackSensorSample st temps) := by
  exact ⟨fun w s => ⟨_, if_pos (c := st < 8) (of_decide_eq_true w)⟩, fun w s => if_neg (c := st < 8) (of_decide_eq_false w)⟩

theorem stageFall (st : Nat) : Statement (.stageFall st) := by
  exact ⟨fun w s => ⟨_, if_pos (c := st < 8) (of_decide_eq_true w)⟩, fun w s => if_neg (c := st < 8) (of_decide_eq_false w)⟩

theorem channelRetired (st ch : Nat) (threshold : Nat) : Statement (.channelRetired st ch threshold) := by
  refine ⟨fun w s => ?_, fun w s => if_neg (c := st < 8 ∧ ch < 32) (fun h => not_and_of w h)⟩
  have e : exec (.channelRetired st ch threshold) s = _ := if_pos (c := st < 8 ∧ ch < 32) (and_of w)
  rw [e]
  repeat' split
  all_goals exact ⟨_, rfl⟩

theorem phyCalibration (st pch : Nat) : Statement (.phyCalibration st pch) := by
  refine ⟨fun w s => ?_, fun w s => if_neg (c := st < 8 ∧ pch < 64) (fun h => not_and_of w h)⟩
  have e : exec (.phyCalibration st pch) s = _ := if_pos (c := st < 8 ∧ pch < 64) (and_of w)
  rw [e]
  repeat' split
  all_goals exact ⟨_, rfl⟩

theorem sharedPageRetired (die page : Nat) : Statement (.sharedPageRetired die page) := by
  refine ⟨fun w s => ?_, fun w s => if_neg (c := die < 2 ∧ page < 12288) (fun h => not_and_of w h)⟩
  have e : exec (.sharedPageRetired die page) s = _ := if_pos (c := die < 2 ∧ page < 12288) (and_of w)
  rw [e]
  repeat' split
  all_goals exact ⟨_, rfl⟩

theorem beaconPageReplaced (page : Nat) : Statement (.beaconPageReplaced page) := by
  refine ⟨fun w s => ?_, fun w s => if_neg (c := page < 8192) (of_decide_eq_false w)⟩
  have e : exec (.beaconPageReplaced page) s = _ := if_pos (c := page < 8192) (of_decide_eq_true w)
  rw [e]
  repeat' split
  all_goals exact ⟨_, rfl⟩

theorem sharedQuarterDark (die quarter : Nat) : Statement (.sharedQuarterDark die quarter) := by
  exact ⟨fun w s => ⟨_, if_pos (c := quarterExists die quarter = true) w⟩, fun w s => if_neg (c := quarterExists die quarter = true) (Bool.eq_false_iff.mp w)⟩

theorem sharedQuarterLit (die quarter : Nat) : Statement (.sharedQuarterLit die quarter) := by
  exact ⟨fun w s => ⟨_, if_pos (c := quarterExists die quarter = true) w⟩, fun w s => if_neg (c := quarterExists die quarter = true) (Bool.eq_false_iff.mp w)⟩

theorem sramScrubWord (word : SramRef) (ecc : Option EccOutcome) (passDone : Bool)
    : Statement (.sramScrubWord word ecc passDone) := by
  refine ⟨fun w s => ?_, fun w s => if_neg (c := sramExists word = true) (Bool.eq_false_iff.mp ((sramExists_eq _).trans w))⟩
  have e : exec (.sramScrubWord word ecc passDone) s = _ := if_pos (c := sramExists word = true) ((sramExists_eq _).trans w)
  rw [e]
  repeat' split
  all_goals exact ⟨_, rfl⟩

theorem laserTracking (source drive output : Nat) (temp : BitVec 16) : Statement (.laserTracking source drive output temp) := by
  refine ⟨fun w s => ?_, fun w s => if_neg (c := source < 20) (of_decide_eq_false w)⟩
  have e : exec (.laserTracking source drive output temp) s = _ := if_pos (c := source < 20) (of_decide_eq_true w)
  rw [e]
  repeat' first | split | dsimp only
  all_goals exact ⟨_, rfl⟩

theorem laserOutputDrop (source output : Nat) : Statement (.laserOutputDrop source output) := by
  refine ⟨fun w s => ?_, fun w s => if_neg (c := source < 20) (of_decide_eq_false w)⟩
  have e : exec (.laserOutputDrop source output) s = _ := if_pos (c := source < 20) (of_decide_eq_true w)
  rw [e]
  repeat' split
  all_goals exact ⟨_, rfl⟩

theorem flashRelocation (block : Nat) (eraseOk : Bool) : Statement (.flashRelocation block eraseOk) := by
  refine ⟨fun w s => ?_, fun w s => if_neg (c := block < 256) (of_decide_eq_false w)⟩
  have e : exec (.flashRelocation block eraseOk) s = _ := if_pos (c := block < 256) (of_decide_eq_true w)
  rw [e]
  repeat' split
  all_goals exact ⟨_, rfl⟩

theorem telemetrySample (meanPowerMw : Nat) : Statement (.telemetrySample meanPowerMw) := by
  refine of_next rfl fun s => ?_
  change ∃ t, execTelemetrySample meanPowerMw s = _
  unfold execTelemetrySample
  repeat' first | split | dsimp only
  all_goals exact ⟨_, rfl⟩

theorem snufferWindow (powerMw : Nat) (cdTempMax iodTemp : Int) : Statement (.snufferWindow powerMw cdTempMax iodTemp) := by
  refine of_next rfl fun s => ?_
  change ∃ t, execSnufferWindow powerMw cdTempMax iodTemp s = _
  unfold execSnufferWindow
  repeat' first | split | dsimp only
  all_goals exact ⟨_, rfl⟩

theorem snufferLower : Statement (.snufferLower) := by
  refine of_next rfl fun s => ?_
  change ∃ t, execSnufferLower s = _
  unfold execSnufferLower
  repeat' first | split | dsimp only
  all_goals exact ⟨_, rfl⟩

theorem tileHold (d p : Nat) (start : Bool) : Statement (.tileHold d p start) := by
  refine ⟨fun w s => ?_, fun w s => if_neg (c := tileExists d p = true) (Bool.eq_false_iff.mp w)⟩
  have e : exec (.tileHold d p start) s = _ := if_pos (c := tileExists d p = true) w
  rw [e]
  repeat' split
  all_goals exact ⟨_, rfl⟩

theorem thermAssert : Statement (.thermAssert) := by
  refine of_next rfl fun s => ?_
  change ∃ t, execThermAssert s = _
  unfold execThermAssert
  repeat' first | split | dsimp only
  all_goals exact ⟨_, rfl⟩

theorem thermRelease : Statement (.thermRelease) := by
  refine of_next rfl fun s => ?_
  change ∃ t, execThermRelease s = _
  unfold execThermRelease
  repeat' first | split | dsimp only
  all_goals exact ⟨_, rfl⟩

theorem lamplighterRestart (cause : RestartCause) : Statement (.lamplighterRestart cause) := by
  refine of_next rfl fun s => ?_
  change ∃ t, execLamplighterRestart cause s = _
  unfold execLamplighterRestart
  repeat' first | split | dsimp only
  all_goals exact ⟨_, rfl⟩

theorem uncontained (cause : UncontainedCause) : Statement (.uncontained cause) := by
  refine of_next rfl fun s => ?_
  change ∃ t, execUncontained cause s = _
  unfold execUncontained
  repeat' first | split | dsimp only
  all_goals exact ⟨_, rfl⟩

theorem flitReceive (port : Nat) (flit : Flit) : Statement (.flitReceive port flit) := by
  exact ⟨fun w s => ⟨_, if_pos (c := port < 8) (of_decide_eq_true w)⟩, fun w s => if_neg (c := port < 8) (of_decide_eq_false w)⟩

theorem flitAckTimeout (port : Nat) : Statement (.flitAckTimeout port) := by
  exact ⟨fun w s => ⟨_, if_pos (c := port < 8) (of_decide_eq_true w)⟩, fun w s => if_neg (c := port < 8) (of_decide_eq_false w)⟩

theorem laneChange (port lane width : Nat) : Statement (.laneChange port lane width) := by
  refine ⟨fun w s => ?_, fun w s => if_neg (c := (decide (port < 8) && decide (lane < 5)) = true) (Bool.eq_false_iff.mp w)⟩
  have e : exec (.laneChange port lane width) s = _ := if_pos (c := (decide (port < 8) && decide (lane < 5)) = true) w
  rw [e]
  repeat' split
  all_goals exact ⟨_, rfl⟩

theorem retrainRequest (port lane : Nat) : Statement (.retrainRequest port lane) := by
  exact ⟨fun w s => ⟨_, if_pos (c := (decide (port < 8) && decide (lane < 5)) = true) w⟩, fun w s => if_neg (c := (decide (port < 8) && decide (lane < 5)) = true) (Bool.eq_false_iff.mp w)⟩

theorem quiesce (port : Nat) : Statement (.quiesce port) := by
  exact ⟨fun w s => ⟨_, if_pos (c := port < 8) (of_decide_eq_true w)⟩, fun w s => if_neg (c := port < 8) (of_decide_eq_false w)⟩

theorem packetForward (port : Nat) (pkt : Packet) : Statement (.packetForward port pkt) := by
  exact ⟨fun w s => ⟨_, if_pos (c := port < 8) (of_decide_eq_true w)⟩, fun w s => if_neg (c := port < 8) (of_decide_eq_false w)⟩

theorem putReceive (port : Nat) (pkt : Packet) (ecc : Ecc) : Statement (.putReceive port pkt ecc) := by
  exact ⟨fun w s => ⟨_, if_pos (c := port < 8) (of_decide_eq_true w)⟩, fun w s => if_neg (c := port < 8) (of_decide_eq_false w)⟩

theorem packetAckReceive (port : Nat) (pkt : Packet) : Statement (.packetAckReceive port pkt) := by
  exact ⟨fun w s => ⟨_, if_pos (c := port < 8) (of_decide_eq_true w)⟩, fun w s => if_neg (c := port < 8) (of_decide_eq_false w)⟩

theorem nackReceive (port : Nat) (pkt : Packet) : Statement (.nackReceive port pkt) := by
  exact ⟨fun w s => ⟨_, if_pos (c := port < 8) (of_decide_eq_true w)⟩, fun w s => if_neg (c := port < 8) (of_decide_eq_false w)⟩

theorem collDataReceive (port : Nat) (pkt : Packet) : Statement (.collDataReceive port pkt) := by
  exact ⟨fun w s => ⟨_, if_pos (c := port < 8) (of_decide_eq_true w)⟩, fun w s => if_neg (c := port < 8) (of_decide_eq_false w)⟩

theorem collFlagReceive (port : Nat) (pkt : Packet) : Statement (.collFlagReceive port pkt) := by
  exact ⟨fun w s => ⟨_, if_pos (c := port < 8) (of_decide_eq_true w)⟩, fun w s => if_neg (c := port < 8) (of_decide_eq_false w)⟩

theorem abortReceive (port : Nat) (pkt : Packet) : Statement (.abortReceive port pkt) := by
  exact ⟨fun w s => ⟨_, if_pos (c := port < 8) (of_decide_eq_true w)⟩, fun w s => if_neg (c := port < 8) (of_decide_eq_false w)⟩

theorem helloReceive (port : Nat) (pkt : Packet) : Statement (.helloReceive port pkt) := by
  refine ⟨fun w s => ?_, fun w s => if_neg (c := port < 8) (of_decide_eq_false w)⟩
  have e : exec (.helloReceive port pkt) s = _ := if_pos (c := port < 8) (of_decide_eq_true w)
  rw [e]
  repeat' split
  all_goals exact ⟨_, rfl⟩

theorem putTimeout (msgId : Nat) : Statement (.putTimeout msgId) := by
  refine of_next rfl fun s => ?_
  change ∃ t, execPutTimeout msgId s = _
  unfold execPutTimeout
  repeat' first | split | dsimp only
  all_goals exact ⟨_, rfl⟩

theorem collectiveStall (entry sequence : Nat) : Statement (.collectiveStall entry sequence) := by
  refine of_next rfl fun s => ?_
  change ∃ t, execCollectiveStall entry sequence s = _
  unfold execCollectiveStall
  repeat' first | split | dsimp only
  all_goals exact ⟨_, rfl⟩

theorem collectiveComplete (entry sequence : Nat) : Statement (.collectiveComplete entry sequence) := by
  refine of_next rfl fun s => ?_
  change ∃ t, execCollectiveComplete entry sequence s = _
  unfold execCollectiveComplete
  repeat' first | split | dsimp only
  all_goals exact ⟨_, rfl⟩

theorem portPeerLoss (port : Nat) : Statement (.portPeerLoss port) := by
  refine ⟨fun w s => ?_, fun w s => if_neg (c := port < 8) (of_decide_eq_false w)⟩
  have e : exec (.portPeerLoss port) s = _ := if_pos (c := port < 8) (of_decide_eq_true w)
  rw [e]
  repeat' split
  all_goals exact ⟨_, rfl⟩

theorem portTrainingComplete (port : Nat) (tests : List LaneTest) : Statement (.portTrainingComplete port tests) := by
  refine ⟨fun w s => ?_, fun w s => if_neg (c := port < 8) (of_decide_eq_false w)⟩
  have e : exec (.portTrainingComplete port tests) s = _ := if_pos (c := port < 8) (of_decide_eq_true w)
  rw [e]
  repeat' first | split | dsimp only
  all_goals exact ⟨_, rfl⟩

theorem ethernetLinkUp (port : Nat) : Statement (.ethernetLinkUp port) := by
  exact ⟨fun w s => ⟨_, if_pos (c := port < 8) (of_decide_eq_true w)⟩, fun w s => if_neg (c := port < 8) (of_decide_eq_false w)⟩

theorem ethernetLaneFailure (port lane : Nat) : Statement (.ethernetLaneFailure port lane) := by
  refine ⟨fun w s => ?_, fun w s => if_neg (c := (decide (port < 8) && decide (lane < 5)) = true) (Bool.eq_false_iff.mp w)⟩
  have e : exec (.ethernetLaneFailure port lane) s = _ := if_pos (c := (decide (port < 8) && decide (lane < 5)) = true) w
  rw [e]
  repeat' split
  all_goals exact ⟨_, rfl⟩

theorem ethernetRetrain (port : Nat) (passed : Bool) : Statement (.ethernetRetrain port passed) := by
  refine ⟨fun w s => ?_, fun w s => if_neg (c := port < 8) (of_decide_eq_false w)⟩
  have e : exec (.ethernetRetrain port passed) s = _ := if_pos (c := port < 8) (of_decide_eq_true w)
  rw [e]
  repeat' split
  all_goals exact ⟨_, rfl⟩

theorem cnpReceive (port : Nat) : Statement (.cnpReceive port) := by
  exact ⟨fun w s => ⟨_, if_pos (c := port < 8) (of_decide_eq_true w)⟩, fun w s => if_neg (c := port < 8) (of_decide_eq_false w)⟩

theorem ethernetInboundRequest (port : Nat) : Statement (.ethernetInboundRequest port) := by
  exact ⟨fun w s => ⟨_, if_pos (c := port < 8) (of_decide_eq_true w)⟩, fun w s => if_neg (c := port < 8) (of_decide_eq_false w)⟩

theorem ethReadComplete (entry sequence : Nat) (data : Option (List Byte))
    : Statement (.ethReadComplete entry sequence data) := by
  refine of_next rfl fun s => ?_
  change ∃ t, execEthReadComplete entry sequence data s = _
  unfold execEthReadComplete
  repeat' first | split | dsimp only
  all_goals exact ⟨_, rfl⟩

theorem i3cStatus : Statement (.i3cStatus) := by
  refine of_next rfl fun s => ?_
  change ∃ t, execI3cStatus s = _
  unfold execI3cStatus
  repeat' first | split | dsimp only
  all_goals exact ⟨_, rfl⟩

theorem i3cRecords (fromSeq count : Nat) : Statement (.i3cRecords fromSeq count) := by
  refine of_next rfl fun s => ?_
  change ∃ t, execI3cRecords fromSeq count s = _
  unfold execI3cRecords
  repeat' first | split | dsimp only
  all_goals exact ⟨_, rfl⟩

theorem i3cEvents (fromSeq count : Nat) : Statement (.i3cEvents fromSeq count) := by
  refine of_next rfl fun s => ?_
  change ∃ t, execI3cEvents fromSeq count s = _
  unfold execI3cEvents
  repeat' first | split | dsimp only
  all_goals exact ⟨_, rfl⟩

theorem i3cRegister (addr words : Nat) : Statement (.i3cRegister addr words) := by
  refine of_next rfl fun s => ?_
  change ∃ t, execI3cRegister addr words s = _
  unfold execI3cRegister
  repeat' first | split | dsimp only
  all_goals exact ⟨_, rfl⟩

theorem i3cDisec : Statement (.i3cDisec) := by
  refine of_next rfl fun s => ?_
  change ∃ t, execI3cDisec s = _
  unfold execI3cDisec
  repeat' first | split | dsimp only
  all_goals exact ⟨_, rfl⟩

theorem i3cSetdasa (addr : BitVec 7) : Statement (.i3cSetdasa addr) := by
  refine of_next rfl fun s => ?_
  change ∃ t, execI3cSetdasa addr s = _
  unfold execI3cSetdasa
  repeat' first | split | dsimp only
  all_goals exact ⟨_, rfl⟩

theorem i3cEntdaa (addr : BitVec 7) : Statement (.i3cEntdaa addr) := by
  refine of_next rfl fun s => ?_
  change ∃ t, execI3cEntdaa addr s = _
  unfold execI3cEntdaa
  repeat' first | split | dsimp only
  all_goals exact ⟨_, rfl⟩

theorem tinderHelp : Statement (.tinderHelp) := by
  exact of_next rfl fun s => ⟨_, rfl⟩

theorem tinderStatus : Statement (.tinderStatus) := by
  exact of_next rfl fun s => ⟨_, rfl⟩

theorem tinderUnlock (credential : BitVec 128) : Statement (.tinderUnlock credential) := by
  exact of_next rfl fun s => ⟨_, rfl⟩

theorem tinderPeek (addr words : Nat) : Statement (.tinderPeek addr words) := by
  exact of_next rfl fun s => ⟨_, rfl⟩

theorem tinderPoke (addr : Nat) (value : BitVec 32) : Statement (.tinderPoke addr value) := by
  exact of_next rfl fun s => ⟨_, rfl⟩

theorem tinderDump (addr len : Nat) (ecc : Ecc) : Statement (.tinderDump addr len ecc) := by
  exact of_next rfl fun s => ⟨_, rfl⟩

theorem tinderTrace (mode : TraceMode) : Statement (.tinderTrace mode) := by
  exact of_next rfl fun s => ⟨_, rfl⟩

theorem tinderBreak : Statement (.tinderBreak) := by
  exact of_next rfl fun s => ⟨_, rfl⟩

theorem tinderGo : Statement (.tinderGo) := by
  exact of_next rfl fun s => ⟨_, rfl⟩

theorem tinderFuseDebug (unitId : BitVec 128) : Statement (.tinderFuseDebug unitId) := by
  exact of_next rfl fun s => ⟨_, rfl⟩

theorem jtagFuseDebug : Statement (.jtagFuseDebug) := by
  exact of_next rfl fun s => ⟨_, rfl⟩

theorem debugAccess (addr : Nat) (value : Option (BitVec 32)) : Statement (.debugAccess addr value) := by
  exact of_next rfl fun s => ⟨_, rfl⟩

theorem coreHalt (core : Nat) : Statement (.coreHalt core) := by
  exact ⟨fun w s => ⟨_, if_pos (c := core < 2) (of_decide_eq_true w)⟩, fun w s => if_neg (c := core < 2) (of_decide_eq_false w)⟩

theorem scanDump : Statement (.scanDump) := by
  exact of_next rfl fun s => ⟨_, rfl⟩

theorem dieIsolate (die : Nat) (passed : Bool) (tests : List LaneTest) : Statement (.dieIsolate die passed tests) := by
  exact ⟨fun w s => ⟨_, if_pos (c := die < 11) (of_decide_eq_true w)⟩, fun w s => if_neg (c := die < 11) (of_decide_eq_false w)⟩

theorem hostLinkRetraining : Statement (.hostLinkRetraining) := by
  exact of_next rfl fun s => ⟨_, rfl⟩

theorem openSessionHelloTimeout : Statement (.openSessionHelloTimeout) := by
  exact of_next rfl fun s => ⟨_, rfl⟩

theorem hostSnoop : Statement (.hostSnoop) := by
  exact of_next rfl fun s => ⟨_, rfl⟩

theorem arpAndNeighbourDiscovery (port : Nat) : Statement (.arpAndNeighbourDiscovery port) := by
  exact ⟨fun w s => ⟨_, if_pos (c := port < 8) (of_decide_eq_true w)⟩, fun w s => if_neg (c := port < 8) (of_decide_eq_false w)⟩

theorem ecnMarkedTraffic (port : Nat) : Statement (.ecnMarkedTraffic port) := by
  exact ⟨fun w s => ⟨_, if_pos (c := port < 8) (of_decide_eq_true w)⟩, fun w s => if_neg (c := port < 8) (of_decide_eq_false w)⟩

theorem portLightReturn (port : Nat) : Statement (.portLightReturn port) := by
  exact ⟨fun w s => ⟨_, if_pos (c := port < 8) (of_decide_eq_true w)⟩, fun w s => if_neg (c := port < 8) (of_decide_eq_false w)⟩

theorem badOpcode (n opcode : Nat) (r : Request) : Statement (.badOpcode n opcode r) := by
  exact ⟨fun w s => ⟨_, if_pos (c := n < 16) (of_decide_eq_true w)⟩, fun w s => if_neg (c := n < 16) (of_decide_eq_false w)⟩

theorem flashAppendComplete (ok : Bool) : Statement (.flashAppendComplete ok) := by
  refine of_next rfl fun s => ?_
  change ∃ t, execFlashAppendComplete ok s = _
  unfold execFlashAppendComplete
  repeat' first | split | dsimp only
  all_goals exact ⟨_, rfl⟩

end Sys2Proof.Laws.Operands
end

