-- ==== Sys2Proof/Tests/Slice0.lean ====
section
/-! SUPPORT. Tests: a smoke test of each well-formedness check, single commands on small states with results taken
from the manual, and for each statement with hypotheses a state and operands that meet them. -/

namespace Sys2Proof.Tests

open Sys2Proof Sys2Proof.Machine

set_option Elab.async false

/-! ### Small states -/

/-- A powered device in READY: every die lit, the host link up. -/
def lit : State :=
  { State.reset with
    dev := .ready
    pilot := { vddPilot := true, devResetN := true, railsUp := 0xFF }
    dies := State.reset.dies.map fun d => { d with state := .lit }
    host := { speed := 6, width := 16, detached := false } }

theorem fresh_context : Context.Shape {} := ⟨by decide, by decide⟩

theorem fresh_tile (i : Nat) : (Tile.atReset i).Shape := by
  have h : ∀ st, Tile.Shape { state := st } := fun st =>
    { contexts := rfl
      context := fun c hc => by
        rw [List.eq_of_mem_replicate (a := ({} : Context)) (n := 8) hc]; exact fresh_context
      counters := by exact List.length_replicate
      bound := fun v hv => by rw [List.eq_of_mem_replicate (a := 0) (n := 256) hv]; decide
      slots := by exact List.length_replicate }
  unfold Tile.atReset
  split
  · exact h _
  · exact h _

theorem fresh_stack : Stack.Shape {} where
  channels := by exact List.length_replicate
  bsus := by exact List.length_replicate
  bsu := fun b hb => by
    rw [List.eq_of_mem_replicate (a := ({} : Bsu)) (n := 32) hb]; exact ⟨by exact List.length_replicate⟩

theorem lit_inv : lit.Inv where
  shape :=
    { tiles := (List.length_map _).trans List.length_range
      tile := fun t ht => by
        obtain ⟨i, -, rfl⟩ := List.mem_map.1 ht
        exact fresh_tile _
      hbm := by exact List.length_replicate
      stack := fun k hk => by rw [List.eq_of_mem_replicate (a := ({} : Stack)) (n := 8) hk]; exact fresh_stack
      ports := by exact List.length_replicate
      port := fun p hp => by rw [List.eq_of_mem_replicate (a := ({} : Port)) (n := 8) hp]; exact ⟨rfl⟩
      links := by decide
      dies := by decide
      lasers := by decide
      ftc := rfl
      barriers := by decide
      mailboxes := by exact List.length_replicate
      dma := by exact List.length_replicate
      msix := by exact List.length_replicate }
  mem := rfl
  hostMem := rfl
  ring := ⟨by decide, by decide, by decide⟩
  flashRing := ⟨by decide, by decide, by decide⟩

/-- The invariant of a state that differs from another only where the invariant does not look. -/
theorem inv_of {s t : State} (h : s.Inv) (tiles : t.tiles = s.tiles := by rfl) (hbm : t.hbm = s.hbm := by rfl)
    (ports : t.ports = s.ports := by rfl) (links : t.links = s.links := by rfl) (dies : t.dies = s.dies := by rfl)
    (lasers : t.lasers = s.lasers := by rfl) (ftc : t.ftc = s.ftc := by rfl)
    (barriers : t.barriers = s.barriers := by rfl) (mail : t.lamp.mailboxes = s.lamp.mailboxes := by rfl)
    (dma : t.host.dma = s.host.dma := by rfl) (msix : t.host.msix = s.host.msix := by rfl)
    (mem : t.mem = s.mem := by rfl) (hostMem : t.hostMem = s.hostMem := by rfl) (ev : t.events = s.events := by rfl)
    (fl : t.flash.eventRing = s.flash.eventRing := by rfl) : t.Inv where
  shape :=
    { tiles := tiles ▸ h.shape.tiles, tile := tiles ▸ h.shape.tile, hbm := hbm ▸ h.shape.hbm, stack := hbm ▸ h.shape.stack
      ports := ports ▸ h.shape.ports, port := ports ▸ h.shape.port, links := links ▸ h.shape.links
      dies := dies ▸ h.shape.dies, lasers := lasers ▸ h.shape.lasers, ftc := ftc ▸ h.shape.ftc
      barriers := barriers ▸ h.shape.barriers, mailboxes := mail ▸ h.shape.mailboxes, dma := dma ▸ h.shape.dma
      msix := msix ▸ h.shape.msix }
  mem := mem ▸ h.mem
  hostMem := hostMem ▸ h.hostMem
  ring := ev ▸ h.ring
  flashRing := fl ▸ ev ▸ h.flashRing

def zeros_ (n : Nat) : List Byte := List.replicate n 0

/-- A program of one tile on CD0 with one segment of four bundles, and one stream program of the given header
whose first instruction is `w`. -/
def progOf (head w : Nat) : Program :=
  { programId := 1, requiredFeatures := 0, tilesCd0 := 1, tilesCd1 := 0, contextsUsed := 2, modeFlags := 0, mbDefault := 1
    sections :=
      [(1, leBytes 16 (2 ^ 64), 1), (2, leBytes 16 (4 * 2 ^ 32), 1), (3, zeros_ 128, 4),
        (5, leBytes 24 (2 ^ 64), 1),
        (7, leBytes 16 16 ++ leBytes 48 head ++ leBytes 16 w, 1)] }

/-- The stream program has two instructions, the second END. -/
def prog (w : Nat) : Program := progOf 2 w

/-- A step in its compute phase. -/
def step1 : RunStep :=
  { k := 1, mb := 4, mbNamed := 4, lrFactor := 0, mailbox := 0, acceptedNs := 0, phase := .compute, contextsIssued := true }

/-- A lit tile, logical tile 0, two of whose contexts are ready. -/
def used (t : Tile) : Tile :=
  { t with
    lit := true, logicalId := some 0, buffers := [some (0, zeros_ 128), none]
    contexts := modAt (modAt t.contexts 0 fun c => { c with state := .ready }) 1 fun c => { c with state := .ready } }

theorem used_shape (t : Tile) (h : t.Shape) : (used t).Shape where
  contexts := (modAt_length _ _ _).trans ((modAt_length _ _ _).trans h.contexts)
  context := modAt_all _ (modAt_all _ h.context fun _ k => ⟨k.loops, k.params⟩) fun _ k => ⟨k.loops, k.params⟩
  counters := h.counters
  bound := h.bound
  slots := h.slots

/-- `lit` with the step running on tile 0 of CD0, which is `f` of a used tile. -/
def wickAs (w : Nat) (f : Tile → Tile) : State :=
  ({ lit with dev := .running, program := some (prog w), run := some step1 } : State).modTile 0 0 fun t => f (used t)

def wick (w : Nat) : State := wickAs w id

theorem wick_inv (w : Nat) (f : Tile → Tile) (hf : ∀ t, t.Shape → (f t).Shape) : (wickAs w f).Inv :=
  (State.modTile_evolves (Evolves.refl _) fun t h => hf _ (used_shape t h)).inv (inv_of lit_inv)

/-- The state after a command that runs. -/
def after (i : Instr) (s : State) : State :=
  match exec i s with
  | .next t => t
  | _ => s

/-! ### Every well-formedness check refuses a term -/

theorem test_wf_mailbox : (Instr.resume 16 {}).wf = false := by decide
theorem test_wf_dma_channel : (Instr.dmaRestart 8).wf = false := by decide
theorem test_wf_host_read : (Instr.hostReadTimeout (.dma 8)).wf = false ∧ (Instr.hostReadTimeout (.mailbox 16)).wf = false ∧
    (Instr.hostReadTimeout (.tileStream 0 0 128)).wf = false ∧ (Instr.hostReadTimeout (.bsuStream 0 0 16)).wf = false := by
  decide
theorem test_wf_lane : (Instr.laneLossOfSignal (.die 3 0)).wf = false ∧ (Instr.laneLossOfSignal (.die 1 22)).wf = false ∧
    (Instr.laneLossOfSignal (.port 8 0)).wf = false ∧ (Instr.laneLossOfSignal (.port 0 5)).wf = false := by decide
theorem test_wf_ring_role : (Instr.ringOutOfLock 0 43 5).wf = false ∧ (Instr.ringOutOfLock 0 44 4).wf = false := by decide
theorem test_wf_link : (Instr.spareLaneRotation 3).wf = false := by decide
theorem test_wf_tile : (Instr.yieldPoint 2 0).wf = false ∧ (Instr.yieldPoint 0 50).wf = false := by decide
theorem test_wf_array : (Instr.arrayRetired 0 0 17).wf = false := by decide
theorem test_wf_counter : (Instr.signalArrival 0 0 1 0 256).wf = false ∧ (Instr.signalArrival 2 0 1 0 0).wf = false := by decide
theorem test_wf_barrier : (Instr.barrier 0 0 32).wf = false ∧ (Instr.barrierOpen 32).wf = false := by decide
theorem test_wf_context : (Instr.fenceComplete 0 0 8).wf = false ∧ (Instr.contextHalted 0 0 8).wf = false := by decide
theorem test_wf_stream : (Instr.streamEnd (.tile 0 0 128)).wf = false ∧ (Instr.streamEnd (.bsu 0 32 0)).wf = false ∧
    (Instr.streamEnd (.bsu 0 0 16)).wf = false := by decide
theorem test_wf_owner : (Instr.noProgress (.tileSlot 0 0 128)).wf = false ∧ (Instr.noProgress (.bsuSlot 8 0 0)).wf = false ∧
    (Instr.noProgress (.dma 8)).wf = false ∧ (Instr.noProgress (.xfer 0 50 0)).wf = false := by decide
theorem test_wf_point : (Instr.arbiterGrant (.pseudoChannel 0 64) []).wf = false ∧
    (Instr.arbiterGrant (.diePort 0 64) []).wf = false ∧ (Instr.arbiterGrant (.linkCc 2) []).wf = false ∧
    (Instr.arbiterGrant (.tilePort 0 50) []).wf = false := by decide
theorem test_wf_codec : (Instr.ftcUnitGrant 3 true).wf = false := by decide
theorem test_wf_bank_side_unit : (Instr.bsuLit 8 0).wf = false ∧ (Instr.bsuLit 0 32).wf = false := by decide
theorem test_wf_bank : (Instr.refreshDue 8 0 0).wf = false ∧ (Instr.refreshDue 0 64 0).wf = false ∧
    (Instr.refreshDue 0 0 64).wf = false := by decide
theorem test_wf_stack : (Instr.stageFall 8).wf = false ∧ (Instr.phyCalibration 0 64).wf = false ∧
    (Instr.channelRetired 0 32 1).wf = false := by decide
theorem test_wf_page : (Instr.sharedPageRetired 2 0).wf = false ∧ (Instr.sharedPageRetired 0 12288).wf = false ∧
    (Instr.beaconPageReplaced 8192).wf = false := by decide
theorem test_wf_quarter : (Instr.sharedQuarterLit 0 4).wf = false ∧ (Instr.sharedQuarterDark 2 0).wf = false := by decide
theorem test_wf_sram : (Instr.sramScrubWord (.tileMemory 0 50) none true).wf = false ∧
    (Instr.sramScrubWord (.sharedBuffer 0 12288) none true).wf = false ∧
    (Instr.sramScrubWord (.bsuSram 8 0) none true).wf = false ∧
    (Instr.sramScrubWord (.beaconBuffer 8192) none true).wf = false := by decide
theorem test_wf_laser : (Instr.laserOutputDrop 20 0).wf = false := by decide
theorem test_wf_flash_block : (Instr.flashRelocation 256 true).wf = false := by decide
theorem test_wf_port : (Instr.quiesce 8).wf = false ∧ (Instr.retrainRequest 0 5).wf = false := by decide
theorem test_wf_core : (Instr.coreHalt 2).wf = false := by decide
theorem test_wf_die : (Instr.dieIsolate 11 true []).wf = false := by decide
theorem test_wf_highest : (Instr.arrayRetired 1 49 16).wf = true ∧ (Instr.refreshDue 7 63 63).wf = true ∧
    (Instr.laneLossOfSignal (.die 0 43)).wf = true ∧ (Instr.streamEnd (.tile 1 49 127)).wf = true := by decide
theorem test_no_such_unit : exec (.yieldPoint 0 50) lit = .fault .noSuchUnit := rfl
theorem test_decode_gives_nothing : decodeTableWord 8 0 = none := rfl

/-! ### Witnesses: mailbox commands -/

/-- A request with an inline payload. -/
def req (p : List Byte) : Request := { payloadLength := p.length, payload := p, sequence := 7 }

/-- The same with the OWNER role. -/
def ownReq (p : List Byte) : Request := { req p with role := 1, credential := 5 }

/-- `lit` claimed by an Owner whose credential is 5. -/
def owned : State := { lit with flash := { lit.flash with ownerDigest := some (credentialDigest 5) } }

theorem owned_inv : owned.Inv := inv_of lit_inv

theorem owner_passes (s : State) (spec : CmdSpec) (r : Request) (h : r.role = 1) (l : s.lockedOut = false)
    (d : s.flash.ownerDigest = some (credentialDigest r.credential)) : (s.checkRole spec r).2 = true := by
  simp [State.checkRole, h, l, d]

/-- A request of no role that passes the checks. -/
theorem plain_accepted (s : State) (n : Nat) (spec : CmdSpec) (p : List Byte) (there : n < 16 := by decide)
    (serves : s.lampServes = true := by decide +kernel) (free : (s.mbox n).open_ = true := by decide +kernel)
    (header : headerOk spec (req p) = true := by decide +kernel) (role : spec.owner = false := by rfl)
    (attached : s.host.detached = false ∨ spec.detachedOk = true := by decide +kernel)
    (allowed : spec.states s.dev = true := by decide +kernel)
    (image : s.bundle.running = .r → s.dev = .booting ∨ spec.recovery = true := by decide +kernel)
    (conflict : s.conflicts n spec.cls = false := by decide +kernel) : s.Accepts n spec (req p) p where
  there := there
  serves := serves
  free := free
  header := header
  role := by simp [State.checkRole, req, role]
  attached := attached
  allowed := allowed
  image := image
  conflict := conflict
  payload := by simp [State.payload, req, sliceZ]
  result := by simp [State.resultOk, req]

/-- A request of the Owner that passes the checks. -/
theorem owner_accepted (s : State) (n : Nat) (spec : CmdSpec) (p : List Byte) 
    (digest : s.flash.ownerDigest = some (credentialDigest 5) := by rfl) (there : n < 16 := by decide)
    (serves : s.lampServes = true := by decide +kernel) (free : (s.mbox n).open_ = true := by decide +kernel)
    (header : headerOk spec (ownReq p) = true := by decide +kernel)
    (lock : s.lockedOut = false := by decide +kernel)
    (attached : s.host.detached = false ∨ spec.detachedOk = true := by decide +kernel)
    (allowed : spec.states s.dev = true := by decide +kernel)
    (image : s.bundle.running = .r → s.dev = .booting ∨ spec.recovery = true := by decide +kernel)
    (conflict : s.conflicts n spec.cls = false := by decide +kernel) : s.Accepts n spec (ownReq p) p where
  there := there
  serves := serves
  free := free
  header := header
  role := owner_passes s spec _ rfl lock digest
  attached := attached
  allowed := allowed
  image := image
  conflict := conflict
  payload := by simp [State.payload, ownReq, req, sliceZ]
  result := by simp [State.resultOk, ownReq, req]

theorem witness_QueriesAnswerAndChangeNothingElse :
    lit.Inv ∧ lit.Accepts 0 specQueryIdentity (req []) [] ∧ lit.Accepts 15 specQueryState (req []) [] ∧
    (let p := zeros_ 32 ++ leBytes 8 1
     lit.Accepts 0 specAttest (req p) p ∧ field p 32 1 ≤ 1 ∧ field p 33 7 = 0) :=
  ⟨lit_inv, plain_accepted .., plain_accepted .., plain_accepted .., by decide +kernel, by decide +kernel⟩

theorem witness_RecordReadsReturnTheRecordsFromASequenceNumber :
    lit.Inv ∧
    (let p := leBytes 8 0 ++ leBytes 2 2048 ++ leBytes 2 1 ++ leBytes 2 2047 ++ leBytes 2 0
     lit.Accepts 0 specReadTelemetry (req p) p ∧ 1 ≤ field p 8 2 ∧ field p 8 2 ≤ 2048 ∧ field p 10 1 ≤ 1 ∧
     field p 11 1 = 0 ∧ field p 14 2 = 0 ∧ (field p 10 1 = 1 → 1 ≤ field p 12 2 ∧ field p 12 2 ≤ 2047)) ∧
    (let p := leBytes 8 0 ++ leBytes 2 1024 ++ leBytes 1 3 ++ zeros_ 5
     lit.Accepts 0 specReadEvents (req p) p ∧ 1 ≤ field p 8 2 ∧ field p 8 2 ≤ 1024 ∧ field p 10 1 ≤ 3 ∧ field p 11 5 = 0) :=
  ⟨lit_inv, ⟨plain_accepted .., by decide +kernel⟩, plain_accepted .., by decide +kernel⟩

theorem witness_AttachEndsDetachmentAndReleasesWhatWasHeld :
    ({ lit with host := { lit.host with detached := true } } : State).Inv ∧
    ({ lit with host := { lit.host with detached := true } } : State).Accepts 0 specAttach (req []) [] :=
  ⟨inv_of lit_inv, plain_accepted ..⟩

/-- One window of a page, read and write, and one key. -/
def windowPayload : List Byte :=
  leBytes 2 1 ++ leBytes 2 1 ++ leBytes 4 0 ++ leBytes 8 (0xC * 2 ^ 40) ++ leBytes 8 0x1000 ++ leBytes 8 0x1000 ++
    leBytes 8 3 ++ leBytes 8 9

theorem witness_OwnerCommandsReplaceTheSetUp_credential :
    owned.Inv ∧ owned.Accepts 0 specSetCredential (ownReq (zeros_ 16)) (zeros_ 16) := ⟨owned_inv, owner_accepted ..⟩

theorem witness_OwnerCommandsReplaceTheSetUp_protection :
    ∃ ws : List Window, let p := windowPayload
    owned.Accepts 0 specSetProtection (ownReq p) p ∧ field p 0 2 ≤ 64 ∧ field p 2 2 ≤ 16 ∧ field p 4 4 = 0 ∧
      p.length = 8 + 32 * field p 0 2 + 8 * field p 2 2 ∧ windowsOf p (field p 0 2) = some ws ∧
      noPair (fun a b => overlaps a.base a.size b.base b.size) ws = true ∧
      0 ∉ keysOf p (field p 0 2) (field p 2 2) ∧ noPair (· == ·) (keysOf p (field p 0 2) (field p 2 2)) = true ∧
      ∀ d, owned.topo = some d → BitVec.ofNat 64 d.key ∈ keysOf p (field p 0 2) (field p 2 2) :=
  ⟨[{ base := 0xC * 2 ^ 40, hostBase := 0x1000, size := 0x1000, read := true, write := true }],
    owner_accepted .., by decide +kernel, by decide +kernel, by decide +kernel, by decide +kernel, by decide +kernel,
    by decide +kernel, by decide +kernel, by decide +kernel, fun d h => by cases h⟩

/-- MAP_REGION of entry 4,095: a page of stacked memory, readable and writable. -/
def mapPayload : List Byte :=
  leBytes 2 1 ++ zeros_ 6 ++ leBytes 2 4095 ++ zeros_ 6 ++ leBytes 8 0 ++ leBytes 8 4096 ++ leBytes 4 0 ++ leBytes 4 3 ++
    leBytes 8 0

def page0 : Region := { base := 0, size := 4096, space := 0, stackMask := 0, layout := 0, compression := 0, rights := 3, tag := 0 }

theorem witness_OwnerCommandsReplaceTheSetUp_map :
    ∃ ops : List MapOp, let p := mapPayload
    let r := ownReq p
    owned.Accepts 15 specMapRegion r p ∧ 1 ≤ field p 0 2 ∧
      field p 0 2 ≤ (if r.flags.getLsbD 0 = true then 1638 else 48) ∧ field p 2 6 = 0 ∧ p.length = 8 + 40 * field p 0 2 ∧
      owned.mapOps p (field p 0 2) = some ops ∧
      owned.tableDisjoint (applyMapOps owned.flash.protection.regions ops) ops = true ∧
      ∀ o ∈ ops, ∀ e, o.entry = some e → owned.regionUnavailable e = false := by
  refine ⟨[{ index := 4095, entry := some page0 }], owner_accepted .., by decide +kernel, by decide +kernel,
    by decide +kernel, by decide +kernel, by decide +kernel, by decide +kernel, ?_⟩
  intro o ho e he
  simp only [List.mem_singleton] at ho
  subst ho
  cases he
  decide +kernel

/-- Policy item 0x0C, STEERING, set to 2. -/
def policyPayload : List Byte := leBytes 2 0x0C ++ leBytes 2 1 ++ leBytes 8 2

theorem witness_OwnerCommandsReplaceTheSetUp_policy :
    ∃ (items : List (Nat × List Byte)) (q : Policy), let p := policyPayload
    owned.Accepts 0 specSetPolicy (ownReq p) p ∧ policyItems p.length p = some items ∧
      owned.applyItems items owned.flash.policy = .ok q ∧ berRule q = true ∧ owned.thermalRule q = true :=
  ⟨[(0x0C, [2])], { owned.flash.policy with steerMode := 2 }, owner_accepted .., by decide +kernel, rfl,
    by decide +kernel, by decide +kernel⟩

/-- `lit` with key 9 installed. -/
def keyed : State := { lit with flash := { lit.flash with protection := { lit.flash.protection with keys := [9] } } }

/-- A session of one device. -/
def sessionPayload : List Byte :=
  zeros_ 32 ++ leBytes 4 0x10000 ++ leBytes 4 0x10101 ++ leBytes 8 9 ++ zeros_ 48

theorem witness_SessionAndProgramCommandsInstallWhatTheyCheck_session :
    keyed.Inv ∧ let p := sessionPayload
    keyed.Accepts 0 specOpenSession (req p) p ∧ field p 0x1A 6 = 0 ∧ (topoOf (slice p 0x20 64)).valid = true ∧
      field p 0x18 2 < (topoOf (slice p 0x20 64)).devices ∧
      keyed.ethernetClash ((topoOf (slice p 0x20 64)).ports (field p 0x18 2)) = false ∧
      keyed.flash.protection.keys.contains (BitVec.ofNat 64 (topoOf (slice p 0x20 64)).key) = true :=
  ⟨inv_of lit_inv, plain_accepted .., by decide +kernel⟩
/-- An image of one tile with one segment of one bundle. -/
def imageWith (digest : List Byte) : List Byte :=
  let dir := fun (ty off len n : Nat) => leBytes 4 ty ++ leBytes 4 off ++ leBytes 4 len ++ leBytes 4 n
  leBytes 4 0x5056535A ++ leBytes 2 1 ++ leBytes 2 0x100 ++ leBytes 8 0x240 ++ leBytes 8 0 ++ [1, 0, 1, 0, 6, 0, 1, 0] ++
    leBytes 8 1 ++ zeros_ 24 ++ digest ++ zeros_ 128 ++
    dir 1 0x180 16 1 ++ dir 2 0x1C0 16 1 ++ dir 3 0x200 32 1 ++ dir 4 0x240 0 0 ++ dir 6 0x240 0 0 ++ dir 7 0x240 0 0 ++
    zeros_ 32 ++ leBytes 64 (2 ^ 64) ++ leBytes 64 (2 ^ 32) ++ zeros_ 64

theorem keccak_absorb_length (n : Nat) : ∀ (a : List (BitVec 64)) (bs : List Byte), a.length = 25 → (keccakAbsorb n a bs).length = 25 := by
  have round : ∀ (l : List Nat) (a : List (BitVec 64)), a.length = 25 →
      (l.foldl (fun s i => keccakRound s (keccakConst i)) a).length = 25 := by
    intro l
    induction l with
    | nil => intro a h; exact h
    | cons x l ih => intro a _; exact ih _ (by simp [keccakRound])
  induction n with
  | zero => intro a bs h; exact h
  | succ n ih => intro a bs _; exact ih _ _ (round _ _ (by simp [keccakXor]))

theorem digest_length (m : List Byte) : (shake256 m 64).length = 64 := by
  have lanes : ∀ l : List (BitVec 64), (l.flatMap fun x => leBytes 8 x.toNat).length = 8 * l.length := by
    intro l
    induction l with
    | nil => rfl
    | cons x l ih => simp [ih]; omega
  have a := keccak_absorb_length (m.length / 136 + 1) (List.replicate 25 0)
  simp only [shake256, List.length_take]
  simp only [keccakSqueeze, List.length_append, lanes, List.length_take]
  rw [a _ (by simp)]
  rfl

/-- The image with its digest in place. -/
def image : List Byte := imageWith ((List.range 64).map fun i => (shake256 (imageWith (zeros_ 64)) 64).getD i 0)

theorem image_digest : imageDigestOk image = true := by
  have h : image.take 0x40 ++ zeros 64 ++ image.drop 0x80 = imageWith (zeros_ 64) := rfl
  have k : slice image 0x40 64 = (List.range 64).map fun i => (shake256 (imageWith (zeros_ 64)) 64).getD i 0 := rfl
  rw [imageDigestOk, h, k, beq_iff_eq]
  refine List.ext_getElem (by simp [digest_length]) fun i h1 h2 => ?_
  simp [List.getElem?_eq_getElem h1]

/-- The memory that holds bytes from an address upward. -/
def cells (x : Nat) : List Byte → List Host.Cell
  | [] => []
  | b :: bs => if b = 0 then cells (x + 1) bs else (x, b) :: cells (x + 1) bs

theorem cells_above (bs : List Byte) : ∀ x, ∀ c ∈ cells x bs, x ≤ c.1 ∧ c.2 ≠ 0 := by
  induction bs with
  | nil => intro x c h; cases h
  | cons b bs ih =>
    intro x c h
    rw [cells] at h
    split at h
    · exact ⟨Nat.le_of_succ_le (ih _ c h).1, (ih _ c h).2⟩
    · rcases List.mem_cons.1 h with rfl | h
      · exact ⟨Nat.le_refl _, by assumption⟩
      · exact ⟨Nat.le_of_succ_le (ih _ c h).1, (ih _ c h).2⟩

theorem cells_wf (bs : List Byte) (x : Nat) : Mem.wf (cells x bs) = true := by
  rw [Mem.wf_iff]
  refine ⟨?_, fun c h => (cells_above bs x c h).2⟩
  induction bs generalizing x with
  | nil => exact .nil
  | cons b bs ih =>
    rw [cells]
    split
    · exact ih _
    · exact .cons (fun c h => (cells_above bs _ c h).1) (ih _)

theorem cells_get (bs : List Byte) : ∀ x i, Mem.get (cells x bs) (x + i) = bs.getD i 0 := by
  induction bs with
  | nil => intro x i; rfl
  | cons b bs ih =>
    intro x i
    cases i with
    | zero =>
      rw [cells]
      split
      · show Mem.get (cells (x + 1) bs) x = _
        rw [Mem.get_below fun c h => (cells_above bs (x + 1) c h).1]; simp_all [Mem.unlisted]
      · simp [Mem.get]
    | succ i =>
      have e : x + (i + 1) = x + 1 + i := by omega
      rw [cells]
      split
      · rw [e, ih]; simp
      · rw [Mem.get, if_neg (by omega), if_neg (by omega), e, ih]; simp

/-- `lit` with a window of a page, host memory from 0x1000, that holds the image. -/
def imaged : State :=
  { lit with
    hostMem := cells 0x1000 image
    flash := { lit.flash with protection := { lit.flash.protection with
      windows := [{ base := 0xC * 2 ^ 40, hostBase := 0x1000, size := 0x1000, read := true, write := true }] } } }

theorem imaged_inv : imaged.Inv :=
  { lit_inv with shape := { lit_inv.shape with }, hostMem := cells_wf _ _ }

/-- LOAD_PROGRAM of the image. -/
def loadPayload : List Byte := leBytes 8 (0xC * 2 ^ 40) ++ leBytes 8 0x240

def loading : State := imaged.copied 0 specLoadProgram (req loadPayload)

theorem image_read : loading.readImage (0xC * 2 ^ 40) 0x240 [] = (loading, image) := by
  have open_ : ∀ i, i < 0x240 → loading.hostByte false (0xC * 2 ^ 40 + i) = some (0x1000 + i) := by decide +kernel
  have bytes : loading.hostRead (0xC * 2 ^ 40) 0x240 = some image := by
    have allowed : loading.hostAllowed false (0xC * 2 ^ 40) 0x240 = true :=
      List.all_eq_true.2 fun i hi => by rw [open_ i (List.mem_range.1 hi)]; rfl
    have mem : loading.hostMem = cells 0x1000 image := rfl
    rw [State.hostRead, if_pos allowed, mem]
    have len : image.length = 0x240 := by decide +kernel
    refine congrArg some (List.ext_getElem (by rw [List.length_map, List.length_range, len]) fun i h1 h2 => ?_)
    rw [List.length_map, List.length_range] at h1
    rw [List.getElem_map, List.getElem_range, open_ i h1, Option.getD_some, cells_get, List.getD_eq_getElem?_getD,
      List.getElem?_eq_getElem h2, Option.getD_some]
  have reach : (loading.checkAccess none false (0xC * 2 ^ 40) 0x240).isSome = false := by decide +kernel
  rw [State.readImage, if_neg (by rw [reach]; decide), State.serveRead, if_pos (by decide), bytes]

theorem image_passes : loading.loadFailure image 0x240 = none := by
  have h1 : imageSizeOk image 0x240 = true := by decide +kernel
  have h3 : imageTablesOk image (programOf image) = true := by decide +kernel
  have h4 : imageCodeOk (programOf image) = true := by decide +kernel
  have h5 : loading.floor.toNat &&& (programOf image).requiredFeatures = (programOf image).requiredFeatures := by
    decide +kernel
  have h6 : loading.tilesSuffice (programOf image) = true := by decide +kernel
  have h7 : ({ loading with program := some (programOf image) } : State).placedOk (programOf image) = true := by
    decide +kernel
  have h8 : loading.regionsGone (programOf image) = false := by decide +kernel
  simp only [State.loadFailure, h1, image_digest, h3, h4, h5, h6, h7, h8]
  rfl

theorem witness_SessionAndProgramCommandsInstallWhatTheyCheck_load :
    ∃ (t : State) (b : List Byte), let p := loadPayload
    imaged.Inv ∧ imaged.Accepts 0 specLoadProgram (req p) p ∧ (daSpace (field p 0 8) = 0 ∨ daSpace (field p 0 8) = 0xC) ∧
      (imaged.copied 0 specLoadProgram (req p)).readImage (field p 0 8) (field p 8 8) [] = (t, b) ∧
      t.loadFailure b (field p 8 8) = none := by
  have a : field loadPayload 0 8 = 0xC * 2 ^ 40 := by decide +kernel
  have n : field loadPayload 8 8 = 0x240 := by decide +kernel
  refine ⟨loading, image, imaged_inv, plain_accepted .., by decide +kernel, ?_, ?_⟩
  · rw [a, n]; exact image_read
  · rw [n]; exact image_passes

/-- `imaged` in RUNNING's place: a session of one device and the program loaded. -/
def ready : State :=
  { lit with
    session := some { jobId := 1, seed := 2, firstStep := 0, rank := 0, topology := slice sessionPayload 0x20 64 }
    program := some (prog 0) }

/-- RUN_STEP 7 of 3 micro-batches, LR_FACTOR 1. -/
def stepPayload : List Byte := leBytes 8 7 ++ leBytes 2 3 ++ leBytes 2 0 ++ leBytes 4 0x3F800000

theorem witness_SessionAndProgramCommandsInstallWhatTheyCheck_step :
    ready.Inv ∧ let p := stepPayload
    ready.Accepts 0 specRunStep (req p) p ∧ stepPayloadOk p = true ∧ ready.program = some (prog 0) ∧
      (ready.copied 0 specRunStep (req p)).stepFailure (field p 0 8) (field p 8 2) = none :=
  ⟨inv_of lit_inv, plain_accepted .., by decide +kernel, rfl, by decide +kernel⟩

theorem witness_SessionAndProgramCommandsInstallWhatTheyCheck_timeout :
    ({ lit with lamp := { lit.lamp with helloWait := some 0 } } : State).Inv ∧
    ({ lit with lamp := { lit.lamp with helloWait := some 0 } } : State).lamp.helloWait = some 0 := ⟨inv_of lit_inv, rfl⟩

/-- `lit` in another state. -/
def inState (d : DevState) : State := { lit with dev := d }

theorem in_state_inv (d : DevState) : (inState d).Inv := inv_of lit_inv

theorem witness_StepAndStateCommandsMoveTheDevice_drain :
    let p := leBytes 8 1
    lit.Accepts 0 specDrain (req p) p ∧ field p 0 1 ≤ 1 ∧ field p 1 7 = 0 ∧ lit.dev = .ready ∧
      (inState .running).Accepts 0 specDrain (req p) p ∧ (inState .running).dev = .running :=
  ⟨plain_accepted .., by decide +kernel, by decide +kernel, rfl, plain_accepted .., rfl⟩

theorem witness_StepAndStateCommandsMoveTheDevice_resume :
    (inState .maintenance).Inv ∧ (inState .maintenance).Accepts 0 specResume (req []) [] ∧
      (inState .maintenance).givesService = true := ⟨in_state_inv _, plain_accepted .., by decide +kernel⟩

theorem witness_StepAndStateCommandsMoveTheDevice_abort :
    (wick 0).Inv ∧ (let p := leBytes 8 1
    (wick 0).Accepts 0 specAbortStep (req p) p ∧ (wick 0).run = some step1 ∧ field p 0 8 = step1.k) :=
  ⟨wick_inv _ _ fun _ h => h, plain_accepted .., rfl, by decide +kernel⟩

theorem witness_StepAndStateCommandsMoveTheDevice_reset : lit.Inv ∧ lit.Accepts 0 specResetDevice (req []) [] :=
  ⟨lit_inv, plain_accepted ..⟩

/-- `owned` with a bundle in slot B. -/
def staged : State := { owned with flash := { owned.flash with slotB := FlashSlot.atReset } }

theorem witness_StepAndStateCommandsMoveTheDevice_activate :
    staged.Inv ∧ let p := leBytes 8 1
    staged.Accepts 0 specActivateBundle (ownReq p) p ∧ slotCode (field p 0 1) = some Slot.b ∧ field p 1 1 ≤ 1 ∧ field p 2 6 = 0 ∧
      Slot.b ≠ staged.bundle.running ∧ staged.fuses.rollbackCounter ≤ (staged.flash.slot .b).rollbackIndex ∧
      (staged.flash.slot .b).state ≠ .empty ∧ (staged.flash.slot .b).state ≠ .invalid ∧
      (staged.flash.slot .b).state ≠ .failedBoot :=
  ⟨inv_of lit_inv, owner_accepted .., by decide +kernel, by decide +kernel, by decide +kernel, by decide +kernel,
    by decide +kernel, by decide +kernel, by decide +kernel, by decide +kernel⟩

theorem witness_ServiceCommandsTestRetireAndStage_test :
    let p := leBytes 8 15
    lit.Accepts 0 specSelfTest (req p) p ∧ 1 ≤ field p 0 1 ∧ field p 0 1 ≤ 15 ∧ field p 1 7 = 0 :=
  ⟨plain_accepted .., by decide +kernel⟩

/-- RETIRE_UNIT of lane 43 of link 0. -/
def retirePayload (action : Nat) : List Byte := leBytes 8 action ++ [1, 0, 0, 0, 43, 0, 0, 0]

def lane43 : UnitAddr := { kind := .dieLane, die := 0, link := 0, index := 43 }

/-- `owned` with that lane retired. -/
def lost43 : State := owned.modLane (.die 0 43) fun l => { l with state := .retired }

theorem witness_ServiceCommandsTestRetireAndStage_retire :
    (let p := retirePayload 0
     owned.Accepts 0 specRetireUnit (ownReq p) p ∧ field p 0 1 = 0 ∧ field p 1 7 = 0 ∧ unitOfBytes (slice p 8 8) = some lane43 ∧
      (owned.copied 0 specRetireUnit (ownReq p)).retirable lane43 = true ∧
      (owned.copied 0 specRetireUnit (ownReq p)).unitRetired lane43 = false) ∧
    (let p := retirePayload 1
     lost43.Accepts 0 specRetireUnit (ownReq p) p ∧ field p 0 1 = 1 ∧ field p 1 7 = 0 ∧ unitOfBytes (slice p 8 8) = some lane43 ∧
      (lost43.copied 0 specRetireUnit (ownReq p)).retirable lane43 = true ∧
      (lost43.copied 0 specRetireUnit (ownReq p)).unitRetired lane43 = true) :=
  ⟨⟨owner_accepted .., by decide +kernel, by decide +kernel, by decide +kernel, by decide +kernel, by decide +kernel⟩,
    owner_accepted .., by decide +kernel, by decide +kernel, by decide +kernel, by decide +kernel, by decide +kernel⟩

/-- A bundle of one block of 64 bytes. -/
def block0 : List Byte := leBytes 4 0x4E455247 ++ leBytes 2 1 ++ leBytes 2 0x100 ++ zeros_ 8 ++ leBytes 48 64

/-- `owned` with the block in host memory at 0x1000, behind a window of a page. -/
def staging : State :=
  { owned with
    hostMem := Mem.write [] 0x1000 block0
    flash := { owned.flash with protection := imaged.flash.protection } }

def stagePayload : List Byte :=
  leBytes 4 0 ++ leBytes 4 1 ++ leBytes 4 64 ++ leBytes 4 (crc32c block0).toNat ++ leBytes 8 (0xC * 2 ^ 40) ++ leBytes 8 0

theorem witness_ServiceCommandsTestRetireAndStage_stage :
    let p := stagePayload
    let r := ownReq p
    staging.Accepts 0 specStageBundle r p ∧ r.flags.getLsbD 0 = false ∧ 1 ≤ field p 4 4 ∧ field p 4 4 ≤ 1024 ∧
      field p 0 4 < field p 4 4 ∧ field p 0x18 8 = 0 ∧ daSpace (field p 0x10 8) = 0xC ∧
      (field p 0 4 + 1 ≠ field p 4 4 → field p 8 4 = 65536) ∧ 1 ≤ field p 8 4 ∧ field p 8 4 ≤ 65536 ∧
      field p 8 4 % 64 = 0 ∧ (field p 0 4 = 0 ∨ staging.bundle.stage = .staging ∧ field p 0 4 = staging.bundle.nextIndex ∧
        field p 4 4 = staging.bundle.blockCount) ∧
      staging.hostRead (field p 0x10 8) (field p 8 4) = some block0 ∧ (crc32c block0).toNat = field p 0xC 4 ∧
      (field p 0 4 = 0 → stageHeaderOk block0 (field p 4 4) = true) :=
  ⟨owner_accepted .., by decide +kernel⟩

/-- A request that fails its role check: nobody's, for a command of the Owner. -/
theorem witness_RefusedRequestsHaveNoEffectButTheResponse :
    lit.Inv ∧ mailboxCommand (.setCredential 15 (req (zeros_ 16))) = some (15, specSetCredential, req (zeros_ 16)) ∧
      lit.lampServes = true ∧ (lit.mbox 15).open_ = true ∧
      ((lit.copied 15 specSetCredential (req (zeros_ 16))).checks 15 specSetCredential (req (zeros_ 16))).2 =
        .error .notPrivileged := ⟨lit_inv, rfl, by decide +kernel, by decide +kernel, rfl⟩

/-- `owned` while OWNER requests are locked out for 1 ns more. -/
def locked : State := { owned with lamp := { owned.lamp with lockoutUntil := some 1 } }

theorem witness_LockoutShutsOutEveryOwnerRequest :
    (locked.Inv ∧ (let r := ownReq (zeros_ 16)
      mailboxCommand (.setCredential 0 r) = some (0, specSetCredential, r) ∧ locked.lampServes = true ∧
        (locked.mbox 0).open_ = true ∧ locked.lockedOut = true ∧ r.role = 1 ∧ headerOk specSetCredential r = true)) ∧
    15 ≤ (inWindow 0 minNs ({ lit with lamp := { lit.lamp with authFails := List.replicate 15 0 } } : State).lamp.authFails).length :=
  ⟨⟨inv_of lit_inv, rfl, by decide +kernel, by decide +kernel, by decide +kernel, rfl, by decide +kernel⟩, by decide +kernel⟩

theorem witness_UnlitDeviceTakesNoMailboxCommand :
    mailboxCommand (.resume 0 {}) = some (0, specResume, {}) ∧ State.reset.dev = .dark ∧ (inState .pilot).dev = .pilot ∧
      ({ lit with lamp := { lit.lamp with dead := true } } : State).lamp.dead = true := ⟨rfl, rfl, rfl, rfl⟩

/-- `lit` with mailbox 0 PENDING. -/
def busy : State := lit.modMbox 0 fun m => { m with state := .pending }

theorem busy_inv : busy.Inv :=
  { lit_inv with shape := { lit_inv.shape with mailboxes := (modAt_length _ _ _).trans lit_inv.shape.mailboxes } }

theorem witness_DoorbellsOnABusyMailboxAreCounted :
    busy.Inv ∧ busy.lampServes = true ∧ lit.lampServes = true ∧ (busy.mbox 0).open_ = false ∧
      mailboxCommand (.resume 0 {}) = some (0, specResume, {}) ∧ (lit.mbox 0).open_ = true ∧
      locked.lamp.lockoutUntil = some 1 := ⟨busy_inv, by decide +kernel, by decide +kernel, by decide +kernel, rfl, by decide +kernel, rfl⟩

/-! ### Witnesses: the host interface -/

theorem witness_HostRegisterWritesFollowTheirAccessType :
    lit.dev.lit = true ∧ 0x1000F % 4 ≠ 0 ∧ 0x10020 ≤ 0x10FFF ∧ 0x10FFF < 0x11000 := by decide +kernel

/-- `lit` with DMA channel 7 enabled, its ring of two descriptors at 0x1000 behind the window. -/
def dmaSet (f : DmaChannel → DmaChannel) : State :=
  ({ lit with flash := { lit.flash with protection := imaged.flash.protection } } : State).modDma 7 fun c =>
    f { c with enable := true, state := .idle, ringLog2 := 1, ringBase := 0xC * 2 ^ 40 }

theorem dma_set_inv (f : DmaChannel → DmaChannel) : (dmaSet f).Inv :=
  { lit_inv with shape := { lit_inv.shape with dma := (modAt_length _ _ _).trans lit_inv.shape.dma } }

/-- A descriptor of one page of stacked memory to the host. -/
def desc0 : Descriptor := { src := 0, dst := 0xC * 2 ^ 40, length := 32, flags := 0, reserved := false }

/-- The channel's descriptor is in flight, bound to end as `failed` says. -/
def inFlight (failed : Option (Status × Nat)) : State :=
  dmaSet fun c => { c with state := .active, current := some { desc := desc0, index := 1, failed := failed } }

theorem witness_DmaChannelsProcessDescriptorsInOrder_tail :
    (dmaSet id).Inv ∧ (dmaSet id).dev.lit = true ∧
      (let u := (dmaSet id).modDma 7 (fun c => { c with tail := (1#32).toNat % 2 ^ 15 })
       (u.dmaCh 7).ready = true ∧ (dmaSet id).host.speed ≠ 0 ∧ (dmaSet id).host.retraining = false) ∧
      (let u := (dmaSet id).modDma 7 (fun c => { c with tail := (2#32).toNat % 2 ^ 15 })
       (u.dmaCh 7).ready = false) := ⟨dma_set_inv _, by decide +kernel⟩

theorem witness_DmaChannelsProcessDescriptorsInOrder_restart :
    let s := dmaSet fun c => { c with state := .halted, lastStatus := .badField }
    s.Inv ∧ s.dev.lit = true ∧ (s.dmaCh 7).state = .halted := ⟨dma_set_inv _, by decide +kernel⟩

theorem witness_DmaChannelsProcessDescriptorsInOrder_fails :
    let job : DmaJob := { desc := desc0, index := 1, failed := some (.badField, 0) }
    (inFlight job.failed).Inv ∧ ((inFlight job.failed).dmaCh 7).current = some job ∧
      (inFlight job.failed).host.retraining = false ∧ job.failed = some (.badField, 0) ∧ Status.badField ≠ .ok :=
  ⟨dma_set_inv _, by decide +kernel⟩

theorem witness_DmaChannelsProcessDescriptorsInOrder_moves :
    let s := inFlight none
    let job : DmaJob := { desc := desc0, index := 1 }
    s.Inv ∧ (s.dmaCh 7).current = some job ∧ job.failed = none ∧ s.host.retraining = false ∧ job.moved ≠ job.desc.length ∧
      ({ job with moved := 32 } : DmaJob).moved = job.desc.length :=
  ⟨dma_set_inv _, by decide +kernel⟩

/-- `lit` with a page of stacked memory in region 0. -/
def mapped : State :=
  { lit with flash := { lit.flash with protection := { lit.flash.protection with
    regions := lit.flash.protection.regions.set 0 (some page0) } } }

theorem witness_MemoryWindowServesOrRecordsAnError_refused :
    lit.dev.lit = true ∧ 2 ^ 36 - 4 + 4 ≤ 2 ^ 36 ∧
      lit.newCascade.checkWindow false (lit.host.memwinPage.toNat * 4096 + (2 ^ 36 - 4)) 4 = some .protection ∧
      lit.newCascade.checkWindow true (lit.host.memwinPage.toNat * 4096 + 0) 4 = some .protection := by decide +kernel

/-- The last word of the page. -/
def lastWord : Nat := mapped.host.memwinPage.toNat * 4096 + 4092

theorem pair_of {α β : Type} {x : α × β} {b : β} (h : x.2 = b) : ∃ a, x = (a, b) := ⟨x.1, by rw [← h]⟩

theorem ok_of {ε α : Type} {x : Except ε α} {a : α} (h : x.toOption = some a) : x = .ok a := by
  cases x with
  | ok b => cases h; rfl
  | error e => cases h

theorem window_reads : (((mapped.newCascade.awaitSlices lastWord 4).countIod lastWord 4).serveRead lastWord 4 []).2 = .ok [0, 0, 0, 0] :=
  ok_of (by decide +kernel)

theorem window_writes : (((mapped.newCascade.awaitSlices lastWord 4).countIod lastWord 4).serveWrite lastWord [1, 2, 3, 4] []).2 = none := by
  decide +kernel

theorem window_allows :
    mapped.newCascade.checkWindow false lastWord 4 = none ∧ mapped.newCascade.checkWindow true lastWord 4 = none := by
  decide +kernel

theorem witness_MemoryWindowServesOrRecordsAnError_served :
    ∃ (s1 s2 : State) (b : List Byte), mapped.dev.lit = true ∧ mapped.newCascade.checkWindow false lastWord 4 = none ∧ mapped.iodIgnored lastWord = false ∧
      ((mapped.newCascade.awaitSlices lastWord 4).countIod lastWord 4).serveRead lastWord 4 [] = (s1, .ok b) ∧
      mapped.newCascade.checkWindow true lastWord 4 = none ∧
      ((mapped.newCascade.awaitSlices lastWord 4).countIod lastWord 4).serveWrite lastWord [1, 2, 3, 4] [] = (s2, none) := by
  obtain ⟨s1, h1⟩ := pair_of window_reads
  obtain ⟨s2, h2⟩ := pair_of window_writes
  exact ⟨s1, s2, _, rfl, window_allows.1, by decide +kernel, h1, window_allows.2, h2⟩

/-- A device whose host has enabled CXL.cache. -/
def coherent : State := { lit with floor := BitVec.ofNat 64 (2 ^ 16), host := { lit.host with cxlTrained := true, cxlEnabled := true } }

/-- A request of tile 49's stream 127 that waits to read host memory. -/
def hostReq : Req :=
  { owner := .tileSlot 1 49 127, seq := 0, instr := 0, cls := 0, die := 1, deadline := 0, src := 0xC * 2 ^ 40, dst := 0
    srcTier := 0, dstTier := 0, len := 32, points := [] }

theorem witness_MemoryWindowServesOrRecordsAnError_lost :
    (coherent.dev.lit = true ∧ coherent.cxlCache = true) ∧
    ((lit.modMbox 15 fun m => { m with state := .submitted }).mbox 15).state = .submitted ∧
    (let job : DmaJob := { desc := { desc0 with src := 0xC * 2 ^ 40, dst := 0 }, index := 1 }
     let s := dmaSet fun c => { c with state := .active, current := some job }
     (s.dmaCh 7).current = some job ∧ job.failed = none ∧ job.desc.toDevice = true) ∧
    ({ lit with requests := [hostReq] } : State).requests.find? (fun q =>
      q.owner == .tileSlot 1 49 127 && !q.discarded && q.data.isNone && daSpace q.src == 0xC) = some hostReq := by decide +kernel

theorem witness_HostLinkLossResetsTheHostInterfaceOnly :
    lit.host.speed ≠ 0 ∧ lit.host.retraining = false ∧ lit.dev.lit = true ∧
      ({ lit with host := { lit.host with retraining := true } } : State).host.retraining = true ∧
      ({ lit with host := {} } : State).host.speed = 0 ∧ 4 ∈ [4, 5, 6] ∧ 16 ∈ [4, 8, 16] := by decide +kernel

/-! ### Witnesses: boot, links, tiles -/

theorem witness_EmptyQueueOnlyLetsTimePass :
    lit.pending = [] ∧ lit.dev ≠ .dark ∧
      (let s : State := { lit with dev := .dark }
       s.pending = [] ∧ s.dev = .dark ∧ s.pilot.vddPilot = true ∧ s.pilot.devResetN = true ∧ s.pilot.railsUp = 0xFF#8) := by
  decide +kernel

/-- `lit` with one command in its queue. -/
def queued (i : Instr) : State := { lit with pending := [i] }

theorem witness_EveryStepKeepsTheInvariant : lit.Inv ∧ ∃ t, step lit = .next t := ⟨lit_inv, _, rfl⟩

theorem witness_StepsConsumeTheQueueFromTheFront : ∃ t, step (queued .tinderHelp) = .next t := ⟨_, rfl⟩

theorem witness_FusesAreOnlyEverBlown : ∃ t, step (queued .jtagFuseDebug) = .next t := ⟨_, rfl⟩

theorem witness_EventSequenceNumbersNeverRepeat :
    (∃ t, step (queued .thermAssert) = .next t) ∧ RingOk 4096 lit.events.nextSeq lit.events.ring ∧
      RingOk 1024 lit.events.nextSeq lit.flash.eventRing := ⟨⟨_, rfl⟩, lit_inv.ring, lit_inv.flashRing⟩

theorem witness_HostMemoryIsWrittenOnlyThroughWindows :
    Mem.wf lit.hostMem = true ∧ (∃ t, step (queued .hostSnoop) = .next t) ∧
      (∀ (n : Nat) (r : Request), (queued .hostSnoop).pending.head? ≠ some (.setProtection n r)) ∧
      ¬∃ w ∈ lit.flash.protection.windows, w.write = true ∧ w.hostBase ≤ 0 ∧ 0 < w.hostBase + w.size :=
  ⟨rfl, ⟨_, rfl⟩, fun _ _ h => (by cases h), fun ⟨_, h, _⟩ => (by cases h)⟩

theorem witness_WellFormedCommandsRun : (Instr.yieldPoint 1 49).wf = true ∧ (Instr.yieldPoint 1 50).wf = false := by decide

theorem witness_ResetSourcesKeepWhatTheirTableKeeps :
    State.reset.pilot.vddPilot = false ∧ State.reset.pilot.devResetN = false ∧ lit.pilot.vddPilot = true ∧
      lit.pilot.devResetN = true ∧ Rail.vddqHbm ≠ .vppHbm ∧ Rail.vddqHbm ≠ .vddHbm := by decide +kernel

/-- A device in PILOT whose last boot left the main image running and its images retained. -/
def warmPilot : State :=
  { lit with
    dev := .pilot
    pilot := { lit.pilot with lastBootOnMain := true, origin := .reset, warm := some { slot := .a, digest := [], partDigests := [], heaters := [], phyTraining := 0 } } }

theorem witness_BootRunsBundlesUntilOneStarts_wake :
    lit.pilotStart.dev ≠ .pilot ∧ (inState .pilot).pilotStart.dev = .pilot ∧
      warmPilot.pilotStart.dev = .pilot ∧ warmPilot.coldCause {} = .none ∧
      (inState .pilot).coldCause {} ≠ .none ∧ ({ sramTestPass := false } : WakeReport).sramTestPass = false := by decide +kernel

/-- A boot of slot A that waits for one part, the main image's lamp part or `p`. -/
def bootOf (p : Option Part) (done : Bool) : Boot :=
  { kind := .coldPowerUp, slot := .a, tried := [], loading := p, toLoad := [], partsDone := done }

theorem witness_BootRunsBundlesUntilOneStarts_parts :
    (let s : State := { inState .booting with pilot := { lit.pilot with boot := some (bootOf (some .mbdFirmware) false) } }
     s.pilot.boot = some (bootOf (some .mbdFirmware) false) ∧ (bootOf (some .mbdFirmware) false).loading = some .mbdFirmware) ∧
    inWindowOf (lit.flash.slot .b).ranges (lit.die 2) = false ∧
    inWindowOf (lit.flash.slot .a).ranges (lit.die 2) = true ∧
    Part.wickMicrocode ≠ .mbdFirmware ∧ Part.wickMicrocode ≠ .lampMain ∧
    (∀ b, lit.pilot.boot = some b → b.loading = none) ∧
    (let s : State := { inState .booting with pilot := { lit.pilot with boot := some (bootOf none true) } }
     s.dev = .booting ∧ s.pilot.boot = some (bootOf none true) ∧ (bootOf none true).partsDone = true) ∧
    ∀ b, lit.pilot.boot = some b → b.partsDone = true → lit.dev ≠ .booting :=
  ⟨⟨rfl, rfl⟩, by decide +kernel, by decide +kernel, by decide, by decide, fun _ h => (by cases h), ⟨rfl, rfl, rfl⟩, fun _ h => (by cases h)⟩

/-- `lit` with lane 0 of link 0 a suspect that waits for its background retrain. -/
def suspect : State := lit.modLane (.die 0 0) fun l => { l with state := .suspect, backgroundDue := some 5 }

theorem witness_LinksHandleTheirLanesAsTheSparingProcedureSays :
    2 < 3 ∧ 21 < linkLaneCount 2 ∧ 4 < 5 ∧ laneExists (.die 0 43) = true ∧ laneExists (.port 7 4) = true ∧
      (suspect.lane (.die 0 0)).state = .suspect ∧ (suspect.lane (.die 0 0)).backgroundDue = some 5 ∧
      (lit.lane (.die 0 0)).state ≠ .suspect ∧ lit.dev = .ready ∧ (lit.link 2).state ≠ .failed ∧
      ((lit.modLink 2 fun k => { k with pending := [.retrain 0] }).link 2).pending ≠ [] ∧
      ((lit.modLane (.die 2 0) fun l => { l with retraining := true }).link 2).lanes.any (·.retraining) = true ∧ (inState .running).dev ≠ .ready ∧
      (inState .running).dev ≠ .maintenance := by decide +kernel

/-- `wick` with its running context changed. -/
def wickCtx (w : Nat) (f : Context → Context) : State := wickAs w fun t => { t with contexts := modAt t.contexts 0 f }

theorem witness_SequencingOperationsActAsTheirTableGives :
    tileExists 0 0 = true ∧ (wick 0).canIssue 0 0 = true ∧ 4095 < 4096 ∧
      ((wick 0).tile 0 0).current.bundle + 1 < ((wick 0).segmentOf 0 0 0).bundles ∧
      (let s := wickCtx 0 fun c => { c with bundle := 3, params := modAt c.params 1 fun _ => 5 }
       let c := (s.tile 0 0).current
       s.canIssue 0 0 = true ∧ (s.segmentOf 0 0 c.segment).bundles ≤ c.bundle + 1 ∧
         c.params.getD 15 0 < c.params.getD 1 0 ∧ c.params.getD 1 0 ≤ c.params.getD 1 0) ∧
      (let s := wickCtx 0 fun c => { c with loops := modAt c.loops 3 fun _ => { count := 4095, start := 0, segment := 0 } }
       let c := (s.tile 0 0).current
       let l := c.loops.getD 3 {}
       s.canIssue 0 0 = true ∧ l.segment = c.segment ∧ 0 < l.count ∧ l.count < 4096 ∧
         l.start < (s.segmentOf 0 0 c.segment).bundles) ∧
      (let s := wickCtx 0 fun c => { c with loops := modAt c.loops 0 fun _ => { count := 1, start := 0, segment := 1 } }
       s.canIssue 0 0 = true ∧ ((s.tile 0 0).current.loops.getD 0 {}).segment ≠ (s.tile 0 0).current.segment) ∧
      lit.canIssue 0 0 = false := by decide +kernel

/-- A signal in flight from tile 0 of CD0 to itself. -/
def signal0 : SignalMsg := { fromDie := 0, fromPos := 0, toDie := 0, toPos := 0, counter := 255, increment := 1 }

theorem witness_ControlOperationsHoldSignalAndSwitch :
    tileExists 0 0 = true ∧ (wick 0).canIssue 0 0 = true ∧
      (wick 0).signalTarget 0 0 0 0 = some (0, 0) ∧ (wick 0).signalTarget 0 0 2 47 = none ∧
      (let s : State := { wick 0 with signals := [signal0] }
       s.signals.find? (fun m => m.fromDie == 0 && m.fromPos == 0 && m.toDie == 0 && m.toPos == 0 && m.counter == 255) =
         some signal0 ∧ s.stopped = false) ∧
      lit.signals.find? (fun m => m.fromDie == 0) = none ∧ (wick 0).barrierMember 0 0 0 = true ∧ 31 < 32 ∧
      (let s := wickAs 0 fun t => { t with contexts := modAt t.contexts 7 fun c =>
          { c with state := .blocked, reason := .fence 31 0 } }
       ((s.tile 0 0).ctx 7).reason = .fence 31 0) ∧
      ((wickAs 0 fun t => { t with segLoads := [{ segment := 0, buffer := 1, ctx := some 0 }] }).tile 0 0).segLoads =
        [{ segment := 0, buffer := 1, ctx := some 0 }] ∧
      ((wickAs 0 fun t => { t with switching := some 1 }).tile 0 0).switching = some 1 ∧
      ((wick 0).tile 0 0).switching = none := by decide +kernel

theorem witness_EventsReachTheirCountersOrFault :
    let s := wickAs 0 fun t => { t with counters := modAt t.counters 255 fun _ => 0xFFFE }
    s.Inv ∧ tileExists 0 0 = true ∧ s.stepOpen = true ∧ s.stopped = false ∧ s.faultedNow = false ∧ s.usedTile 0 0 = true ∧
      (s.tile 0 0).counters.getD 255 0 + 1 ≤ 0xFFFF ∧ 0xFFFF < (s.tile 0 0).counters.getD 255 0 + 2 := by
  refine ⟨wick_inv _ _ fun t h => ?_, by decide +kernel⟩
  exact ⟨h.contexts, h.context, (modAt_length _ _ _).trans h.counters,
    fun v hv => by
      have := modAt_all (P := fun v => v ≤ 0xFFFF) 255 h.bound (f := fun _ => 0xFFFE) (fun _ _ => by decide) v hv
      exact this, h.slots⟩

/-! ### Witnesses: operations, retirement, streams -/

/-- A vector descriptor of one FP32 element: A at 0x100, B at 0x200, destination 0x300. -/
def vecDesc : List Byte := leBytes 4 0x100 ++ leBytes 4 0x200 ++ leBytes 4 0x300 ++ leBytes 4 1 ++ zeros_ 16

/-- `wick` with that descriptor as descriptor 1,023 of the tile. -/
def vecWick (f : Tile → Tile) : State := { wickAs 0 f with mem := Mem.write [] (tileBase 0 0 + descOffset 1023) vecDesc }

theorem vec_wick_inv (f : Tile → Tile) (hf : ∀ t, t.Shape → (f t).Shape) : (vecWick f).Inv :=
  let h := wick_inv 0 f hf
  { h with shape := { h.shape with }, mem := Mem.wf_write _ _ rfl }

/-- A queued addition of that descriptor. -/
def addOp : VecOp := { op := .add, desc := vecDescOf vecDesc, done := 0, ctx := 0, segment := 0, bundle := 0 }

theorem witness_VectorRowsQueueTheirOperation :
    let s := vecWick id
    tileExists 0 0 = true ∧ s.canIssue 0 0 = true ∧ 1023 < 1024 ∧ 255 < 256 ∧ (s.tile 0 0).vectorQueue.length < 2 ∧
      vecDescOk .add (s.tmRead 0 0 (descOffset 1023) 32) = true ∧ vecDescOk .add (s.tmRead 0 0 (descOffset 0) 32) = false ∧
      (s.tmEcc 0 0 [(0, .corrected), (1, .uncorrectable)]).2 = true ∧ (s.tmEcc 0 0 [(0, .corrected)]).2 = false ∧ lit.canIssue 0 0 = false ∧
      (let s := vecWick fun t => { t with vectorQueue := [addOp, addOp] }
       s.canIssue 0 0 = true ∧ 2 ≤ (s.tile 0 0).vectorQueue.length) := by decide +kernel

/-- An array operation that waits for its replay, with destination 0x300 under its retention lock. -/
def arrayOp : ArrayOp :=
  { slot := { pair := false, fmtA := 0, fmtB := 0, fmtOut := .fp32, init := .zero, amax := false, maskEn := false
              transA := false, transB := false, dxOnly := false, oddSrc := false, accBlock := 0, desc := 0, done := 0, fmtP := 0 }
    desc := { opa := 0, opb := 0, opp := 0, dst := 0, dst2 := 0, mask := 0, depth := 4, rows := 4, group := 1 }
    ctx := 0, segment := 0, bundle := 0, mask := 0, locks := [(0x300, 4)], phase := .awaitReplay }

theorem witness_VectorAddWritesTheRoundedSums :
    (let s := vecWick fun t => { t with vectorQueue := [addOp] }
     s.Inv ∧ tileExists 0 0 = true ∧ s.gridRuns 0 0 = true ∧ (s.tile 0 0).vectorQueue = addOp :: [] ∧ addOp.op = .add ∧
      fmtOf addOp.desc.fmtA = .fp32 ∧ fmtOf addOp.desc.fmtB = .fp32 ∧ fmtOf addOp.desc.fmtD = .fp32 ∧
      (s.tile 0 0).vecBlocked addOp = false ∧ addOp.desc.recordAmax = false ∧ addOp.desc.dst + 4 * 1 ≤ amaxCell addOp.ctx) ∧
    (let s := vecWick fun t => { t with vectorQueue := [addOp], arrayQueue := [arrayOp] }
     (s.tile 0 0).vecBlocked addOp = true) :=
  ⟨⟨vec_wick_inv _ fun _ h => { h with }, by decide +kernel⟩, by decide +kernel⟩

theorem witness_ArrayOperationsRunTheirPassesAndReplays :
    arrayOp.slot.pair = false ∧ { arrayOp.slot with pair := true }.pair = true ∧ ((wick 0).tile 0 0).arrayQueue = [] ∧
      (let s := wickAs 0 fun t => { t with arrayQueue := [arrayOp], arrayRetired := 8 }
       tileExists 0 0 = true ∧ (s.tile 0 0).arrayQueue = arrayOp :: [] ∧ (s.tile 0 0).pendingSpare = 3 :: [] ∧
         s.gridRuns 0 0 = true ∧ arrayOp.phase = .awaitReplay ∧ (s.tile 0 0).spareAvailable = true) := by decide +kernel

theorem witness_UnitsRetireAtTheirThresholds :
    lit.flickerThreshold 1 49 16 = none ∧
      (lit.modTile 1 49 fun t => { t with flickerTimes := modAt t.flickerTimes 16 fun _ => [0, 0] }).flickerThreshold 1 49 16 =
        some .flickerWindow ∧
      nextAppend lit.events.appends = none ∧
      nextAppend ({ lit with events := { lit.events with appends := [.event 0] } } : State).events.appends =
        some (.event 0) := by decide +kernel

/-- A bundle of one WAIT on counter 255, threshold 65,535, with CONSUME. -/
def waitBundle : Nat := (1 + 255 * 2 ^ 4 + 65535 * 2 ^ 12 + 2 ^ 28) * 2 ^ 176

theorem witness_NothingIssuesWhileTheTilesAreStopped :
    tileExists 0 0 = true ∧ lit.run = none ∧ (wick 0).canIssue 0 0 = true ∧
      (∃ w, (wick 0).fetchBundle 0 0 = some w ∧ (wick 0).bundleWaitMet 0 0 (bundleOf w) = true) ∧
      (∃ w k th c, let s := wickAs 0 fun t => { t with buffers := [some (0, leBytes 128 waitBundle), none] }
       s.canIssue 0 0 = true ∧ s.fetchBundle 0 0 = some w ∧ (bundleOf w).control = .wait k th c ∧
        (s.tile 0 0).counters.getD k 0 < th) :=
  ⟨by decide +kernel, rfl, by decide +kernel, ⟨0, by decide +kernel⟩, waitBundle, 255, 65535, true, by decide +kernel⟩

/-- A used tile whose slot 126 is `x`. -/
def slotWick (w : Nat) (x : StreamSlot) : State := wickAs w fun t => { t with slots := modAt t.slots 126 fun _ => x }

theorem witness_SlotOperationsFollowTheStateOfTheirSlot :
    126 < 127 ∧ (wick 0).canIssue 0 0 = true ∧ lit.canIssue 0 0 = false ∧ 0 < (prog 0).entries secStreams ∧ 15 < 16 ∧ 255 < 256 ∧
      ((wick 0).tile 0 0).slots.length = 128 ∧ (((wick 0).tile 0 0).slot 126).state = .unbound ∧
      (((slotWick 0 { state := .error }).tile 0 0).slot 126).state = .error ∧
      (let x := ((slotWick 0 { state := .idle, blocksHeld := 4095 }).tile 0 0).slot 126
       x.state = .idle ∧ 4095 ≤ x.blocksHeld) ∧
      (let x := ((slotWick 0 { state := .running, blocksHeld := 4094 }).tile 0 0).slot 126
       x.state = .running ∧ x.blocksHeld < 4095) := by decide +kernel

/-- The running slot of `slotWick` is at an instruction of operation `op`. -/
def at_ (s : State) (op : Nat) : Prop :=
  let r := StreamRef.tile 0 0 126
  let c := s.chargeOwner (refOwner r)
  c.slotAt r = s.slotAt r ∧ c.headOf r = s.headOf r ∧
  s.streamActs r = true ∧ (s.slotAt r).pc < (s.headOf r).count ∧ (s.streamInstr r).op = op

theorem witness_StreamInstructionsActAsTheirTableGives :
    refExists (.tile 0 0 126) = true ∧ refExists (.bsu 7 31 15) = true ∧
      (∀ op : Fin 10, at_ (slotWick op.val { state := .running }) op.val) ∧
      ((slotWick 0 { state := .running }).headOf (.tile 0 0 126)).encodeFtc = false ∧
      (∃ s : State, at_ s 9 ∧ (s.slotAt (.tile 0 0 126)).fifo = [5] ∧ (s.headOf (.tile 0 0 126)).indexLimit = 5) ∧
      (∃ s : State, at_ s 9 ∧ (s.slotAt (.tile 0 0 126)).fifo = [4] ∧ (s.headOf (.tile 0 0 126)).indexLimit = 5) ∧
      (∃ s : State, at_ s 9 ∧ (s.slotAt (.tile 0 0 126)).fifo = [] ∧ (s.slotAt (.tile 0 0 126)).indexDone = true) ∧
      (∃ s : State, at_ s 9 ∧ (s.slotAt (.tile 0 0 126)).fifo = [] ∧ (s.slotAt (.tile 0 0 126)).indexDone = false) ∧
      (lit.streamActs (.tile 0 0 126) = false) := by
  refine ⟨by decide, by decide, by unfold at_; decide +kernel, by decide +kernel, ?_, ?_, ?_, ?_, by decide +kernel⟩
  · exact ⟨{ slotWick 9 { state := .running, fifo := [5] } with program := some (progOf (2 + 5 * 2 ^ 256) 9) }, by unfold at_; decide +kernel⟩
  · exact ⟨{ slotWick 9 { state := .running, fifo := [4] } with program := some (progOf (2 + 5 * 2 ^ 256) 9) }, by unfold at_; decide +kernel⟩
  · exact ⟨slotWick 9 { state := .running, indexDone := true }, by unfold at_; decide +kernel⟩
  · exact ⟨slotWick 9 { state := .running }, by unfold at_; decide +kernel⟩

/-! ### Witnesses: requests, steps, collectives -/

/-- A request of stream 127 that waits at its tile's port. -/
def waiting : Req := { hostReq with points := [.tilePort 1 49] }

theorem witness_RequestsAreGrantedLandAndFailInTheirTurn :
    tileExists 0 0 = true ∧ (lit.tile 0 0).xfers = [] ∧
      (let x : Xfer := { id := 0, src := 0, dst := 0, length := 8, targetTile := 0, targetEvent := 0, done := 0, ctx := 0
                         landed := 8 }
       let s : State := { wickAs 0 fun t => { t with xfers := [x] } with program := some { prog 0 with tilesCd1 := 1 } }
       let s1 := s.modTile 1 0 fun t => { t with logicalId := some 0 }
       let shift := fun (t : Tile) => { t with xfers := [], activeAt := s.now }
       (s.tile 0 0).xfers = x :: [] ∧ s.stepOpen = true ∧ s.stopped = false ∧ x.landed = x.length ∧
         s.eventPassing x.event = false ∧ ((s.modTile 0 0 shift).bump 0 0 0 1).posOf 1 0 = none ∧
         ((s1.modTile 0 0 shift).bump 0 0 0 1).posOf 1 0 = some 0 ∧ lit.stepOpen = false) ∧
      pointExists (.pseudoChannel 7 63) = true ∧ (lit.noteHeld (.diePort 1 63)).requests = [] ∧
      ownerExists (.tileSlot 1 49 127) = true ∧ lit.requests.find? (fun _ => true) = none ∧
      ({ lit with requests := [waiting] } : State).requests.find? (fun q => q.owner == .tileSlot 1 49 127 && q.seq == 0) =
        some waiting ∧
      ({ lit with stopped := true } : State).stopped = true ∧ refExists (.bsu 7 31 15) = true ∧
      (lit.ftc.getD 2 {}).waiting true = [] := by decide +kernel

/-- A plan of one FLAT record of 64 elements on stack 0, deltas to region 1 of host memory. -/
def planBytes : List Byte :=
  leBytes 64 (2 * 2 ^ 16 + 2 ^ (8 * 0x3A)) ++ leBytes 64 (1 + 2 ^ 16 + 2 ^ 64 + 2 ^ 72 + 64 * 2 ^ 128 + 64 * 2 ^ 192 + 2 ^ 256) ++
    leBytes 64 (64 * 2 ^ 64)

def planned : Program := { prog 0 with sections := (prog 0).sections ++ [(secUpdatePlan, planBytes, 1)] }

/-- A step of the planned program in a phase. -/
def inStep (f : RunStep → RunStep) : State := { lit with dev := .running, program := some planned, run := some (f step1) }

theorem planned_plan : planned.plan = some (planHeaderOf planBytes) := rfl

def head1 : PlanHeader := planHeaderOf planBytes

/-- The same with every stack in HALT. -/
def halting : State := { inStep fun r => { r with phase := .sweeping } with hbm := lit.hbm.map fun k => { k with stage := .halt } }

theorem witness_StepPhasesFollowOneAnother_phases :
    tileExists 1 49 = true ∧ 7 < 8 ∧ (inStep id).run = some step1 ∧ (inStep id).program = some planned ∧
      planned.plan = some head1 ∧
      (inStep fun r => { r with phase := .stats }).inPhase .stats = true ∧
      (inStep fun r => { r with phase := .recordStats }).inPhase .recordStats = true ∧
      (inStep fun r => { r with phase := .opening }).inPhase .opening = true ∧
      (inStep fun r => { r with phase := .digest }).inPhase .digest = true ∧ (inStep id).inPhase .stats = false ∧
      (inStep id).exports = [] ∧ ({ inStep id with clearing := true } : State).clearing = true ∧ lit.clearing = false :=
  ⟨by decide, by decide, rfl, rfl, rfl, by decide +kernel, by decide +kernel, by decide +kernel, by decide +kernel,
    by decide +kernel, rfl, rfl, rfl⟩

/-- A step in a phase with the update's collective `entry` issued: alone in its group, the device completes it at once. -/
def updating (p : StepPhase) (entry : Nat) (own : List Byte) : State :=
  (inStep fun r => { r with phase := p }).issueUpdate entry own 1

theorem done_of {α : Type} {x : Option α} (h : x.isSome = true) : ∃ i, x = some i := Option.isSome_iff_exists.1 h

theorem witness_StepPhasesFollowOneAnother_collectives :
    (∃ i, (updating .stats updStats (zeros_ 8)).updateDone updStats = some i) ∧
      (updating .stats updStats (zeros_ 8)).inPhase .stats = true ∧
      (updating .stats updStats (zeros_ 8)).updateRuns = true ∧
      (∃ i, (updating .recordStats updRecords (zeros_ 4)).updateDone updRecords = some i) ∧
      (∃ w, (updating .opening updOpen (leBytes 8 1)).updateWord updOpen = some w) ∧
      (∃ i, (updating .digest updDigest (zeros_ 32)).updateDone updDigest = some i) ∧
      (inStep id).updateDone updStats = none ∧ (inStep id).updateWord updOpen = none :=
  ⟨done_of (by decide +kernel), by decide +kernel, by decide +kernel, done_of (by decide +kernel), done_of (by decide +kernel),
    done_of (by decide +kernel), by decide +kernel, by decide +kernel⟩

theorem witness_StepPhasesFollowOneAnother_sweep :
    (let s := inStep fun r => { r with phase := .sweeping }
     s.inPhase .sweeping = true ∧ s.exports = [] ∧ s.updateRuns = true ∧
       s.firstFailure (s.sweepReads planned head1.state) = none) ∧
    halting.inPhase .sweeping = true ∧ halting.exports = [] ∧ halting.updateRuns = true ∧
      halting.firstFailure (halting.sweepReads planned head1.state) = some (0, 0, Status.thermalHalt.code) := by decide +kernel

/-- A PREPARED record of step 1. -/
def prepared1 : CommitRecord :=
  { kind := .prepared, outcome := .none, vote := 7, shadowBank := 1, step := 1, programId := 1, jobId := 0, scalars := {}
    stateDigest := [], noiseB := none, steerMode := 0 }

/-- A step that votes, alone in its job. -/
def voting (vote : Nat) : State :=
  ({ inStep fun r => { r with phase := .voting, vote := vote } with commit := { present := true, top := some prepared1 } } :
    State).issueUpdate updReady (leBytes 8 vote) 0

theorem witness_VotesDecideWhetherAStepCommits :
    (∃ r : RunStep, (voting 7).run = some r ∧ (voting 7).prepared = some prepared1 ∧
      (voting 7).program.bind Program.plan = some head1 ∧ (voting 7).inPhase .voting = true ∧
      (voting 7).updateWord updReady = some 7) ∧ bit (7 % 256) 2 = true ∧
      (voting 3).updateWord updReady = some 3 ∧ bit (3 % 256) 2 = false :=
  ⟨⟨_, rfl, by decide +kernel, rfl, by decide +kernel, by decide +kernel⟩, by decide +kernel⟩

/-- An object of step 1 to export. -/
def object1 : Export := { step := 1, kind := .skip }

/-- A device with the planned program, its commit area, region 1 in host memory behind the window, and one object to
export. -/
def exporting (x : Export) : State :=
  { lit with
    program := some planned
    commit := { present := true, programId := 1 }
    exports := [x]
    flash := { lit.flash with protection := { imaged.flash.protection with
      regions := lit.flash.protection.regions.set 1 (some { page0 with base := 0xC * 2 ^ 40, space := 0xC }) } } }

theorem witness_ExportsAndRebuildsCompleteInOrder_start :
    lit.exports = [] ∧ (exporting object1).exports = object1 :: [] ∧ (exporting object1).program = some planned ∧
      planned.plan = some head1 ∧ object1.started = false ∧ (exporting object1).exportsNow = true ∧
      (exporting object1).adopts planned = true ∧ head1.deltaSink ≠ 0 ∧
      (exporting object1).firstFailure [] = none := by decide +kernel

theorem witness_ExportsAndRebuildsCompleteInOrder_ranges :
    let s : State := { exporting { object1 with kind := .update } with hbm := halting.hbm }
    s.firstFailure (s.bankRanges planned head1.state s.commit.epochBank ++
      s.bankRanges planned head1.state (1 - s.commit.epochBank)) = some (0, 0, Status.thermalHalt.code) := by decide +kernel

theorem witness_ExportsAndRebuildsCompleteInOrder_sink :
    (exporting object1).sinkRefuses head1 4096 = false ∧ (exporting object1).sinkRefuses head1 4097 = true ∧
      (exporting { object1 with started := true }).sinkUp head1 = true ∧ (exporting object1).exportRuns = true ∧ head1.deltaSink = 2 ∧
      ({ lit with commit := { lit.commit with rebuild := true } } : State).commit.rebuild = true ∧
      lit.commit.rebuild = false ∧ lit.program = none ∧ lit.commit.present = false := by decide +kernel

/-- A device whose encoders are all busy, with an object of an UPDATE to export. -/
def encoding : State := { exporting { object1 with kind := .update } with ftc := lit.ftc.map fun f => { f with encBusy := 64 } }

theorem witness_ExportsAndRebuildsCompleteInOrder_encoder :
    let x : Export := { object1 with kind := .update }
    let ranges := encoding.bankRanges planned head1.state encoding.commit.epochBank ++
      encoding.bankRanges planned head1.state (1 - encoding.commit.epochBank)
    encoding.firstFailure ranges = none ∧
      encoding.sinkRefuses head1 (encoding.deltaObject x (encoding.deltaSections planned head1.state x)).length = false ∧
      (((exportRef ranges).map encoding.takeEncoder).getD encoding).hasEncoder (exportRef ranges) = false := by decide +kernel

/-- A tensor entry: FP32 or another format, CHANNEL_SLAB on stack 0. -/
def slab (id fmt kind size : Nat) : List Byte :=
  leBytes 4 id ++ [BitVec.ofNat 8 kind, BitVec.ofNat 8 fmt, 3, 0, 0, 1, 0, 0, 1, 0, 0, 0] ++ leBytes 4 2048 ++ leBytes 4 1 ++ leBytes 4 1 ++
    leBytes 4 1 ++ leBytes 8 0 ++ leBytes 8 size ++ zeros_ 16

/-- A plan entry of a kind, of tile 0 of CD0. -/
def collBytes (kind : Nat) : List Byte := leBytes 32 kind ++ leBytes 96 8

/-- A program with a PUT, an Ethernet read and a BSU operation in its plan, and three tensors. -/
def collProg : Program :=
  { prog 0 with
    sections := (prog 0).sections ++
      [(secTensors, slab 0 0 2 65536 ++ slab 1 0xB 6 8192 ++ slab 2 1 2 32768, 3),
        (secCollectivePlan, collBytes ckPut ++ collBytes ckEthRead ++ collBytes ckBsuOp, 3)] }

/-- An instance of entry `e`. -/
def inst (e : Nat) : CollInst := { step := 1, entry := e, sequence := 0, owner := .tile 0 0 0 255, issuedAt := 0, lastActivity := 0 }

/-- `wick` with that program, the instances of both entries, and export queue 0 on port 6, an Ethernet port in service. -/
def collective : State :=
  ({ wick 0 with
    program := some collProg
    beacon := { lit.beacon with instances := [inst 0, inst 1] }
    flash := { lit.flash with policy := { lit.flash.policy with
      exportQueues := [{ queue := 0, port := 6, remoteQpn := 0, remoteAddr := 0, remoteKey := 0, capacity := 4096, remoteIp := 0 }] } } } :
    State).modPort 6 fun p => { p with ethernet := true, state := .ethernetUp }

theorem witness_CollectivesIssueStallAndComplete :
    tileExists 0 0 = true ∧ lit.instance? 0 0 = none ∧ collective.instance? 0 0 = some (inst 0) ∧
      collective.instance? 1 0 = some (inst 1) ∧ ({ collective with stopped := true } : State).stopped = true ∧
      collective.stepOpen = true ∧ collective.stopped = false ∧ (collective.planEntry 1).kind = ckEthRead ∧
      (∃ q, collective.flash.policy.exportQueues.find? (fun q => q.queue == field (collective.planEntry 1).params 0 1) = some q ∧
        (collective.port q.port).state = .ethernetUp) ∧
      (zeros_ 8).length = (collective.planEntry 1).length ∧ (zeros_ 7).length ≠ (collective.planEntry 1).length :=
  ⟨by decide, by decide +kernel, by decide +kernel, by decide +kernel, rfl, by decide +kernel, rfl, by decide +kernel,
    ⟨{ queue := 0, port := 6, remoteQpn := 0, remoteAddr := 0, remoteKey := 0, capacity := 4096, remoteIp := 0 }, by decide +kernel⟩,
    by decide +kernel, by decide +kernel⟩

/-- A descriptor of operation `bop` on the tensors of `collProg`. -/
def bsuDesc (bop : Nat) : BsuDesc :=
  let o : BsuDesc := { bop := bop }
  { bop := bop
    tensorA := if o.usesA then 0 else noTensor
    tensorB := if o.byRows then 1 else if o.usesB then 0 else noTensor
    fmtB := if o.byRows then 0xB else 0
    tensorD := if bop = 7 then 2 else if o.writesD then 0 else noTensor
    fmtD := if bop = 7 then 1 else 0
    slot := if bop = 14 then 15 else 0
    rowElements := if o.byRows then 8 else 0 }

theorem witness_BankSideRowsDispatchTheirOperation :
    tileExists 0 0 = true ∧ collective.program = some collProg ∧ collective.canIssue 0 0 = true ∧ 255 < 256 ∧
      (∀ bop : Fin 15, bop.val ≠ 0 → bsuDescOk collProg { bsuDesc bop.val with bop := bop.val } = true) ∧
      lit.canIssue 0 0 = false ∧
      (∀ g, lit.program = some g → bsuDescOk g (bsuDesc 1) = false) :=
  ⟨by decide, rfl, by decide +kernel, by decide, by decide +kernel, by decide +kernel, fun g h => by cases h⟩

/-- `lit` with bank-side unit 31 of stack 7 changed. -/
def bsuAs (f : Bsu → Bsu) : State := lit.modBsu 7 31 f

/-- An addition under way on that unit. -/
def bsuOp1 : BsuOp :=
  { id := 1, desc := bsuDesc 1, issuer := .tile 0 0 0 255, die := 1, parts := [{ stack := 7, channel := 31, next := 0, stop := 4 }] }

theorem witness_BankSideUnitsRunSliceBySlice :
    bsuExists 7 31 = true ∧ ((bsuAs fun b => { b with slice := some (.op 1) }).bsu 7 31).slice = some (.op 1) ∧
      ((bsuAs fun b => { b with slice := some .exportOut }).bsu 7 31).slice = some .exportOut ∧
      ((bsuAs id).bsu 7 31).slice = none ∧ bsuReasonOk 0x8006 = true ∧ bsuReasonOk 0 = false ∧
      ((bsuAs fun b => { b with state := .retired }).bsu 7 31).state = .retired ∧ ((bsuAs id).bsu 7 31).state ≠ .retired ∧
      (let s : State := { bsuAs id with bsuOps := [bsuOp1] }
       s.bsuOp 1 = some bsuOp1 ∧ bsuOp1.part 7 31 = some { stack := 7, channel := 31, next := 0, stop := 4 }) ∧
      bsuReasonOk Status.thermalHalt.code = true ∧ Status.thermalHalt.code ≠ rsIndexRange ∧ lit.bsuOp 1 = none := by
  decide +kernel

/-! ### Witnesses: stacks, background work, ports, debug -/

/-- `lit` with stack 7 changed. -/
def stackAs (f : Stack → Stack) : State := lit.modStack 7 f

theorem witness_StacksRefreshScrubAndKeepTheirStages :
    7 < 8 ∧ State.reset.stackInService 7 = false ∧ lit.stackInService 7 = true ∧ lit.dev.lit = true ∧
      (lit.stack 7).stage ≠ .halt ∧ (lit.stack 7).scrubRaised = false ∧
      ((stackAs fun k => { k with scrubRaised := true }).stack 7).scrubRaised = true ∧
      (List.replicate 17 (0 : Int)).length = 17 ∧ (∀ x ∈ List.replicate 17 (32767 : Int), -32768 ≤ x ∧ x ≤ 32767) ∧
      (∃ x ∈ List.replicate 17 (32768 : Int), x < -32768 ∨ 32767 < x) ∧ (lit.stack 7).calmSince = none ∧
      ((stackAs fun k => { k with calmSince := some 9 }).stack 7).calmSince = some 9 ∧ quarterExists 1 3 = true :=
  ⟨by decide, by decide +kernel, by decide +kernel, by decide +kernel, by decide +kernel, by decide +kernel, by decide +kernel,
    by decide +kernel, by decide +kernel, ⟨32768, by decide +kernel⟩, by decide +kernel, by decide +kernel, by decide⟩

theorem witness_BackgroundWorkKeepsTheBlockHealthy :
    sramExists (.sharedBuffer 1 12287) = true ∧ lit.sramLit (.sharedBuffer 1 12287) = false ∧ lit.sramLit .lamplighter = true ∧
      19 < 20 ∧ State.reset.dev.lit = false ∧ lit.dev.lit = true ∧ 19 < lit.lasers.length ∧ 255 < 256 ∧
      0 < ({ lit.flash with spareBlocks := 1 } : Flash).spareBlocks ∧ ({ lit.flash with spareBlocks := 0 } : Flash).spareBlocks = 0 ∧
      lit.tele.sampling = false ∧ ({ lit with tele := { lit.tele with sampling := true } } : State).tele.sampling = true := by
  decide +kernel

theorem witness_SnufferHoldsPowerAndTemperature :
    State.reset.dev.answers = false ∧ lit.dev.answers = true ∧ tileExists 1 49 = true ∧
      (let s : State := { lit with pilot := { lit.pilot with calmSince := some 5, level := 1 } }
       s.pilot.calmSince = some 5 ∧ s.dev.lit = true ∧ 0 < s.pilot.level) ∧
      lit.pilot.calmSince = none ∧ (lit.tile 1 49).thermalHold = false ∧
      ((lit.modTile 1 49 fun t => { t with thermalHold := true }).tile 1 49).thermalHold = true ∧
      lit.pilot.therm = false ∧ lit.pilot.dieTempMax < 1760 ∧ lit.pilot.overSince = none ∧
      (let s : State := { lit with pilot := { lit.pilot with dieTempMax := 1760 } }
       s.dev.answers = true ∧ s.pilot.therm = false ∧ 1760 ≤ s.pilot.dieTempMax) ∧
      (let s : State := { lit with pilot := { lit.pilot with therm := true, coolSince := some 3 } }
       s.dev.answers = true ∧ s.pilot.therm = true ∧ s.pilot.coolSince = some 3) := by decide +kernel

/-- `lit` with port 7 up at full width. -/
def portUp : State := lit.modPort 7 fun p => { p with state := .up, width := 4 }

/-- A DATA flit of no bytes with the sequence number expected, and its CRC. -/
def flit1 : Flit := { kind := 1 }
def flit1Good : Flit := { flit1 with crc := crc32c (flitBytes flit1) }

theorem flit_good : crc32c (flitBytes flit1Good) = flit1Good.crc := congrArg crc32c (by simp [flitBytes, flit1Good])

theorem witness_LinkLayerAcceptsFlitsInSequence :
    7 < 8 ∧ (lit.port 7).linked = false ∧ (portUp.port 7).linked = true ∧
      crc32c (flitBytes flit1Good) = flit1Good.crc ∧ flit1Good.kind ≤ 2 ∧ flit1Good.creditVc < 5 ∧
      2 < ({ flit1Good with kind := 3 } : Flit).kind ∧ 5 ≤ ({ flit1Good with creditVc := 5 } : Flit).creditVc ∧ 4 < 5 ∧
      (lit.port 7).inService = false ∧ (portUp.port 7).inService = true :=
  ⟨by decide, by decide +kernel, by decide +kernel, flit_good, by decide +kernel, by decide +kernel, by decide +kernel,
    by decide +kernel, by decide, by decide +kernel, by decide +kernel⟩

theorem witness_LinkRowsComplete :
    7 < 8 ∧ 7 < portUp.ports.length ∧ (portUp.port 7).linked = true ∧ crc32c (flitBytes flit1Good) = flit1Good.crc ∧
      flit1Good.kind = 1 ∧ flit1Good.creditVc < 5 ∧ flit1Good.seq = (portUp.port 7).rxSeq ∧
      ((portUp.modPort 7 fun p => { p with replay := [{ seq := 0, kind := 1, body := [] }] }).port 7).linked = true ∧
      ((portUp.modPort 7 fun p => { p with replay := [{ seq := 0, kind := 1, body := [] }] }).port 7).replay ≠ [] ∧
      (portUp.port 7).inService = true ∧ 4 < 5 ∧ 2 ≤ 3 ∧ 3 < (portUp.port 7).width ∧ 4 ≤ (portUp.port 7).width :=
  ⟨by decide, by decide +kernel, by decide +kernel, flit_good, rfl, by decide +kernel, by decide +kernel, by decide +kernel,
    by decide +kernel, by decide +kernel⟩

theorem witness_FaultNIsAssertedWhileTheDeviceIsFaulted :
    (inState .faulted).dev = .faulted ∧ lit.dev ≠ .faulted ∧ lit.lampServes = true := by decide +kernel

/-- A packet of a type, of key 9, from this device to itself. -/
def packet (ptype : Nat) : Packet := Packet.sealed { ptype := ptype, key := 9 }

/-- `portUp` with key 9 installed. -/
def keyedPort : State :=
  { portUp with flash := { portUp.flash with protection := { portUp.flash.protection with keys := [9] } } }

theorem witness_PortsTrainFailAndReturn :
    (lit.port 7).linked = false ∧ (keyedPort.port 7).linked = true ∧ (packet 0x30).ptype = 0x30 ∧
      ((keyedPort.freed 7 (packet 0x30)).letIn 7 (packet 0x30)).2 = true ∧
      ((portUp.freed 7 (packet 0x30)).letIn 7 (packet 0x30)).2 = false ∧ 4 < 5 ∧
      (lit.port 7).state ≠ .ethernetUp ∧
      ((lit.modPort 7 fun p => { p with ethernet := true, state := .ethernetUp }).port 7).state = .ethernetUp := by
  decide +kernel

theorem witness_PacketsAreCheckedBeforeTheyAct :
    7 < keyedPort.ports.length ∧ lit.takesPackets 7 = false ∧ keyedPort.takesPackets 7 = true ∧
      keyedPort.isMine (packet 0x01) = true ∧ (packet 0x01).key ∉ portUp.flash.protection.keys ∧
      (packet 0x01).key ∈ keyedPort.flash.protection.keys ∧ (packet 0x01).crcOf = (packet 0x01).e2eCrc ∧
      ({ packet 0x01 with hops := 1, e2eCrc := 0 } : Packet).crcOf ≠ 0 ∧
      keyedPort.isMine { packet 0x01 with dstRank := 1 } = false ∧ lit.instOfMsg 0 = none ∧
      (let i : CollInst := { step := 1, entry := 0, sequence := 0, owner := .update, issuedAt := 0, lastActivity := 0, unacked := [0] }
       let s : State := { wick 0 with beacon := { lit.beacon with instances := [i] } }
       s.instOfMsg 0 = some i ∧ s.stepOpen = true) := by decide +kernel

theorem witness_I3cTargetServesTheBoard :
    State.reset.dev.answers = false ∧ lit.dev.answers = true ∧ lit.i3c.dynamicAddr = none ∧
      ({ lit with i3c := { lit.i3c with dynamicAddr := some 8 } } : State).i3c.dynamicAddr ≠ none := by decide +kernel

theorem witness_TinderAnswersOnlyWhenItMay :
    State.reset.lampServes = false ∧ lit.lampServes = true ∧ lit.fuses.debugBlown = false ∧ lit.flash.ownerDigest = none ∧
      owned.tinder.unlocked = false ∧ 0x1001 % 4 ≠ 0 ∧ 64 < 65 ∧ (∀ g ∈ granules 0 (4 * 64), lit.claimed g.1 g.2 = false ∧ lit.bankHeld g.1 = false ∧ lit.calibrating g.1 = false) ∧
      2 ^ 20 < 2 ^ 20 + 1 ∧ (∀ g ∈ granules 0 1, lit.claimed g.1 g.2 = false ∧ lit.bankHeld g.1 = false ∧ lit.calibrating g.1 = false) ∧ debugSpace (0xC * 2 ^ 40) = false ∧
      debugSpace (0xF * 2 ^ 40) = true ∧ lit.fuses.unitId = lit.fuses.unitId ∧ lit.fuses.unitId + 1 ≠ lit.fuses.unitId :=
  ⟨by decide +kernel, by decide +kernel, by decide +kernel, by decide +kernel, by decide +kernel, by decide, by decide,
    by decide +kernel, by decide, by decide +kernel, by decide +kernel, by decide +kernel, rfl, by decide +kernel⟩

theorem witness_BlownDebugFuseEndsJtagDebug :
    State.reset.dev.answers = false ∧ lit.dev.answers = true ∧ lit.fuses.debugBlown = false ∧
      ({ lit with fuses := { lit.fuses with debugBlown := true } } : State).fuses.debugBlown = true ∧ lit.dev.lit = true ∧
      0x10 % 4 = 0 ∧ 0x11 % 4 ≠ 0 ∧ 1 < 2 ∧ 10 < 11 ∧ 10 < lit.dies.length := by decide +kernel

theorem witness_MemoryReadsWhatWasWrittenLast :
    Mem.wf [(3, (1 : Byte)), (5, 2)] = true ∧ 4 < 5 ∧ 3 + ([7, 8] : List Byte).length ≤ 5 ∧
      ∀ a, Mem.get [(3, (1 : Byte))] a = Mem.get [(3, (1 : Byte))] a := ⟨by decide, by decide, by decide, fun _ => rfl⟩

/-- SET_PROTECTION by the Owner gives a next state whose windows differ. -/
theorem witness_OnlySetProtectionChangesTheWindows :
    owned.Inv ∧ ∃ t : State, exec (.setProtection 0 (ownReq windowPayload)) owned = .next t ∧
      t.flash.protection.windows ≠ owned.flash.protection.windows :=
  ⟨owned_inv, _, onMailbox_accepted (owner_accepted owned 0 specSetProtection windowPayload), by decide +kernel⟩

/-! ### Single results, from the manual's worked examples and tables -/

/-- The example under R260: an ACCUM of 3 × 2⁻¹⁰ on BF16 1.0 rounds up when U is 0x1C20 and stays when it is 0x9B00. -/
theorem test_stochastic_rounding :
    bf16Spec.stochastic 0x1C20 (.fin false 1027 (-10)) = 0x3F81 ∧ bf16Spec.stochastic 0x9B00 (.fin false 1027 (-10)) = 0x3F80 := by
  decide +kernel

/-- The example under R271: a tensor of amax 5.3125 has scale 2⁵ in E4M3, and five elements convert as its table says. -/
theorem test_derived_scale : derivedScale .e4m3 0x40AA0000 = (5, false) := by decide +kernel

theorem test_convert_e4m3 :
    (Fmt.e4m3.convert false (.fin false 170 0)).code = 0x73 ∧ (Fmt.e4m3.convert false (.fin false 262 (-11))).code = 0x20 ∧
      (Fmt.e4m3.convert false (.fin false 105 (-15))).code = 0x02 ∧ (Fmt.e4m3.convert false (.fin false 21 (-16))).code = 0 ∧
      (Fmt.e4m3.convert false (.fin true 192 0)).code = 0xF4 := by decide +kernel

/-- The example under R431: two addresses of stacked memory at I = 16 GiB. -/
theorem test_stack_map :
    daStack 0x0A123456780 = 5 ∧ pchOf (2 ^ 34) [] (daSo 0x0A123456780) = some (6, 0x48D1580) ∧
      daStack 0x04D30000100 = 2 ∧ pchOf (2 ^ 34) [] (daSo 0x04D30000100) = some (21, 0x10000100) := by decide +kernel

theorem test_stack_bank :
    plaRow 0x48D1580 = 1165 ∧ plaSid 0x48D1580 = 1 ∧ plaBg 0x48D1580 = 1 ∧ plaBa 0x48D1580 = 1 ∧ layerOf 3 1 = 4 ∧
      plaRow 0x10000100 = 4096 ∧ plaSid 0x10000100 = 0 ∧ plaBg 0x10000100 = 1 ∧ layerOf 10 0 = 1 := by decide +kernel

/-- The example under R519: sub-stream 0 of four BF16 units, encoded with table 3. -/
theorem test_ftc_sub_stream :
    ftcSubEncode (ftcTable 3) [[0x23, 0x3C], [0x80, 0xBC], [0xF0, 0x3B], [0x00, 0x3C]] = [0x23, 0x80, 0xF0, 0x00, 0x89, 0x06] := by
  decide +kernel

/-- The published check values of the two CRCs. -/
theorem test_crc32c : crc32c ([0x31, 0x32, 0x33, 0x34, 0x35, 0x36, 0x37, 0x38, 0x39] : List Byte) = 0xE3069283 := by decide +kernel
theorem test_crc64xz : crc64xz ([0x31, 0x32, 0x33, 0x34, 0x35, 0x36, 0x37, 0x38, 0x39] : List Byte) = 0x995DC9BBDF1939FA := by
  decide +kernel

/-- The published answer of Philox4x32-10 for key and counter zero. -/
theorem test_philox : philox 0 0 0 0 0 0 = [0x6627E8D5, 0xE169C58D, 0xBC57AC4C, 0x9B00DBD8] := by decide +kernel

/-- PADD takes its immediate sign-extended, modulo 2³² (R153). -/
theorem test_padd_wraps : ((after (.padd 0 0 2 0xFFF) (wick 0)).tile 0 0).current.params.getD 2 0 = 0xFFFFFFFF := by
  decide +kernel

/-- LOOP_END at count 1 leaves the loop; at count 2 it goes back to the bundle after LOOP_BEGIN (R155). -/
theorem test_loop_end :
    let at2 := fun (n : Nat) => wickCtx 0 fun c =>
      { c with bundle := 2, loops := modAt c.loops 0 fun _ => { count := n, start := 1, segment := 0 } }
    ((after (.loopEnd 0 0 0) (at2 1)).tile 0 0).current.bundle = 3 ∧
      ((after (.loopEnd 0 0 0) (at2 2)).tile 0 0).current.bundle = 1 := by decide +kernel

/-- A jump past the segment's last bundle is program fault 7 (R155). -/
theorem test_jump_past_the_end : ((after (.jump 0 0 4) (wick 0)).tile 0 0).fault.cause = 7 := by decide +kernel

/-- WAIT with CONSUME subtracts its threshold (R164). -/
theorem test_wait_consumes :
    ((after (.wait 0 0 9 5 true) (wickAs 0 fun t => { t with counters := modAt t.counters 9 fun _ => 7 })).tile 0 0).counters.getD 9 0 = 2 := by
  decide +kernel

/-- A second arrival of a tile at a barrier is program fault 9 (R170). -/
theorem test_second_arrival :
    ((after (.barrier 0 0 0) { wick 0 with barriers := [{ id := 0, arrived := [(0, 0)] }] }).tile 0 0).fault.cause = 9 := by
  decide +kernel

/-- ADDS adds a negative stride modulo 2⁴⁴ (R203). -/
theorem test_adds_wraps :
    ((after (.streamAdds (.tile 0 0 126)) (slotWick (3 + 1 * 2 ^ 6 + 2 * 2 ^ 8)
      { state := .running, a := [0, 1, 0, 0], s := [0, 0, -3, 0] })).slotAt (.tile 0 0 126)).a = [0, 2 ^ 44 - 2, 0, 0] := by
  decide +kernel

/-- A stream's INDEX at the limit ends it with INDEX_RANGE, 0x8003 (R215). -/
theorem test_index_limit :
    ((after (.streamIndex (.tile 0 0 126)) (slotWick 9 { state := .running, fifo := [0] })).slotAt (.tile 0 0 126)).state = .error := by
  decide +kernel

/-- Writing 1 clears a bit of INT_STATUS, writing 0 leaves it (R601). -/
theorem test_int_status_clears :
    (after (.intStatusClear 0x4) { lit with host := { lit.host with intStatus := 0x7 } }).host.intStatus = 0x3 := by decide +kernel

/-- A BAR 2 read outside every region returns all ones and records PROTECTION (R586). -/
theorem test_window_read_denied :
    (after (.bar2Read 0 4 []) lit).host.bar2Data = [0xFF, 0xFF, 0xFF, 0xFF] ∧ (after (.bar2Read 0 4 []) lit).host.errValid = true := by
  decide +kernel

/-- A BAR 2 write lands where the window stands, and reads back (R584). -/
theorem test_window_write_lands :
    (after (.bar2Read 8 2 []) (after (.bar2Write 8 [0xAB, 0xCD] []) mapped)).host.bar2Data = [0xAB, 0xCD] := by decide +kernel

/-- Snuffer's first window over the limit raises the level to 1 and the stacks' cap to three quarters (R737, R738). -/
theorem test_snuffer_raises :
    (after (.snufferWindow 1260000 400 400) { lit with flash := { lit.flash with policy := { lit.flash.policy with powerLimitW := 1200 } } }).pilot.level = 1 ∧
      ((after (.snufferWindow 1260000 400 400) { lit with flash := { lit.flash with policy := { lit.flash.policy with powerLimitW := 1200 } } }).stack 0).dutyCap = .threeQuarters := by
  decide +kernel

/-- A laser source at DRIVE 1,400 retires (R746). -/
theorem test_laser_retires : ((after (.laserTracking 0 1400 1000 300) lit).laser 0).state = .retired := by decide +kernel

/-- A peer's QUIESCE waits for the quiesce point (R539). -/
theorem test_quiesce : ((after (.quiesce 7) portUp).port 7).quiesceAsked = true := by decide +kernel

/-- A packet of a foreign partition key is dropped and counted (R541). -/
theorem test_partition_drop : ((after (.packetAckReceive 7 (packet 0x02)) portUp).port 7).partitionDrops = 1 := by decide +kernel

/-- Tinder answers HELP, and with the debug fuse blown nothing (R700, R706). -/
theorem test_tinder_silent :
    (after .tinderStatus { lit with fuses := { lit.fuses with debugBlown := true } }).tinder = lit.tinder ∧
      (after .tinderStatus lit).tinder ≠ lit.tinder := by decide +kernel

/-- PERST# sets PERST_SEEN and DETACHED (R596, R599). -/
theorem test_perst : (after .perstAssert lit).host.perstSeen = true ∧ (after .perstAssert lit).host.detached = true := by decide +kernel

/-- WAKE in PILOT begins a boot; after a power-up it is cold with cause POWER_UP (R728). -/
theorem test_wake : (after (.wake {}) (inState .pilot)).dev = .booting ∧ (after (.wake {}) (inState .pilot)).pilot.coldCause = .powerUp := by
  decide +kernel

end Sys2Proof.Tests
end

section
/-! PROOF. The scope of the host interface: which doorbells Lamplighter takes (O19), and what a register of BAR 0 does
with a write (O21). -/

namespace Sys2Proof.Machine

/-! ### Mailbox commands -/

/-- Every mailbox command is a doorbell on its mailbox, and a body of its own that runs when the common checks pass. -/
theorem exec_mailboxCommand {i : Instr} {n : Nat} {spec : CmdSpec} {r : Request}
    (h : mailboxCommand i = some (n, spec, r)) :
    ∃ body : State → State → List Byte → State, ∀ s, exec i s = onMailbox n (s.command n spec r (body s)) := by
  unfold mailboxCommand at h
  split at h <;> cases h
  all_goals exact ⟨_, fun _ => rfl⟩

theorem onMailbox_of_lt {n : Nat} (h : n < 16) (t : State) : onMailbox n t = .next t := if_pos h

theorem State.lampServes_eq_false_iff {s : State} :
    s.lampServes = false ↔ s.dev = .dark ∨ s.dev = .pilot ∨ s.lamp.dead = true := by
  unfold State.lampServes
  cases s.dev <;> simp [DevState.lit]

theorem State.command_unserved {s : State} (h : s.lampServes = false) (n : Nat) (spec : CmdSpec) (r : Request)
    (body : State → List Byte → State) : s.command n spec r body = s := by
  simp [State.command, h]

/-- Settles O19: every mailbox command asks first whether Lamplighter serves (R604, R730). -/
theorem unlitDeviceTakesNoMailboxCommand : Obligations.UnlitDeviceTakesNoMailboxCommand := by
  unfold Obligations.UnlitDeviceTakesNoMailboxCommand
  intro i n spec r s hi hn hs
  obtain ⟨body, hbody⟩ := exec_mailboxCommand hi
  rw [hbody, onMailbox_of_lt hn, State.command_unserved (State.lampServes_eq_false_iff.mpr hs)]

/-! ### The values that register writes take -/

theorem ofNat_bits_43_12 (v : BitVec 64) : BitVec.ofNat 32 (bits v.toNat 43 12) = v.extractLsb' 12 32 := by
  apply BitVec.eq_of_toNat_eq
  simp [bits]

theorem toNat_append_eq_mul_add {m n : Nat} (x : BitVec m) (y : BitVec n) : (x ++ y).toNat = x.toNat * 2 ^ n + y.toNat := by
  rw [BitVec.toNat_append, ← Nat.shiftLeft_add_eq_or_of_lt y.isLt, Nat.shiftLeft_eq]

/-- PAGE after a write of the low half of MEMWIN_BASE: bits 31:12 are the word's (R587, R601). -/
theorem page_of_mergeHalf_low (p v : BitVec 32) :
    BitVec.ofNat 32 (bits (mergeHalf (p.toNat * 4096) false v.toNat) 43 12) = p.extractLsb' 20 12 ++ v.extractLsb' 12 20 := by
  apply BitVec.eq_of_toNat_eq
  rw [toNat_append_eq_mul_add]
  simp only [BitVec.toNat_ofNat, BitVec.extractLsb'_toNat, bits, mergeHalf, Bool.false_eq_true, if_false,
    Nat.shiftRight_eq_div_pow]
  omega

/-- PAGE after a write of the high half of MEMWIN_BASE: bits 43:32 are the word's low bits (R587, R601). -/
theorem page_of_mergeHalf_high (p v : BitVec 32) :
    BitVec.ofNat 32 (bits (mergeHalf (p.toNat * 4096) true v.toNat) 43 12) = v.extractLsb' 0 12 ++ p.extractLsb' 0 20 := by
  apply BitVec.eq_of_toNat_eq
  rw [toNat_append_eq_mul_add]
  simp only [BitVec.toNat_ofNat, BitVec.extractLsb'_toNat, bits, mergeHalf, if_true, Nat.shiftRight_eq_div_pow]
  omega

/-! ### Writes to BAR 0 by offset -/

theorem State.writeBar0_unaligned {off : Nat} (h : off % 4 ≠ 0) (s : State) (v : BitVec 32) : s.writeBar0 off v = s :=
  if_pos h

theorem State.writeBar0_hostWord {k : Nat} (h : k < 0x1000) (a : k % 4 = 0) (s : State) (v : BitVec 32) :
    s.writeBar0 (0x10000 + k) v = s.writeHostWord k v := by
  have aligned : ¬ (0x10000 + k) % 4 ≠ 0 := by omega
  have inside : 0x10000 ≤ 0x10000 + k ∧ 0x10000 + k < 0x11000 := by omega
  rw [State.writeBar0, if_neg aligned, if_pos inside, Nat.add_sub_cancel_left]

theorem State.writeBar0_channel {n k : Nat} (hn : n < 8) (h : k < 0x100) (a : k % 4 = 0) (s : State) (v : BitVec 32) :
    s.writeBar0 (0x20000 + 0x100 * n + k) v = s.writeChannel n k v := by
  have aligned : ¬ (0x20000 + 0x100 * n + k) % 4 ≠ 0 := by omega
  have above : ¬ (0x10000 ≤ 0x20000 + 0x100 * n + k ∧ 0x20000 + 0x100 * n + k < 0x11000) := by omega
  have inside : 0x20000 ≤ 0x20000 + 0x100 * n + k ∧ 0x20000 + 0x100 * n + k < 0x20800 := by omega
  have channel : (0x20000 + 0x100 * n + k - 0x20000) / 0x100 = n := by omega
  have word : (0x20000 + 0x100 * n + k) % 0x100 = k := by omega
  rw [State.writeBar0, if_neg aligned, if_neg above, if_pos inside, channel, word]

/-- HOST_LINK_STATUS, HOST_ERR_ADDR, the counters and what R585 does not assign take no write (R601). -/
theorem State.writeHostWord_readOnly {k : Nat} (h : k = 0 ∨ 0x20 ≤ k) (s : State) (v : BitVec 32) :
    s.writeHostWord k v = s := by
  unfold State.writeHostWord
  split
  case h_5 => rfl
  all_goals omega

/-! ### The rows of a lit device -/

section
variable {s : State} (lit : s.dev.lit = true)
include lit

theorem exec_memwinBaseWrite_of_lit (v : BitVec 64) : exec (.memwinBaseWrite v) s = .next (s.writeMemwin v.toNat) :=
  congrArg Host.Outcome.next (if_pos lit)

theorem exec_intStatusClear_of_lit (v : BitVec 64) : exec (.intStatusClear v) s = .next (s.clearInt v.toNat) :=
  congrArg Host.Outcome.next (if_pos lit)

theorem exec_hostErrClear_of_lit (v : BitVec 32) : exec (.hostErrClear v) s = .next (s.clearHostErr v.toNat) :=
  congrArg Host.Outcome.next (if_pos lit)

theorem exec_dmaTailWrite_of_lit {n : Nat} (hn : n < 8) (v : BitVec 32) :
    exec (.dmaTailWrite n v) s = .next (s.writeTail n v.toNat) :=
  (if_pos hn).trans (congrArg Host.Outcome.next (if_pos lit))

theorem exec_registerWrite_bar0_of_lit (off : Nat) (v : BitVec 32) :
    exec (.registerWrite (.bar0 off) v) s = .next (s.writeBar0 off v) :=
  congrArg Host.Outcome.next (if_pos lit)

theorem exec_registerWrite_configMsixEnable_of_lit (v : BitVec 32) :
    exec (.registerWrite .configMsixEnable v) s =
      .next (s.modHost fun h => HostIf.sendPending { h with msixEnabled := v.getLsbD 0 }) :=
  congrArg Host.Outcome.next (if_pos lit)

theorem exec_registerWrite_configCxlCacheEnable_of_lit (v : BitVec 32) :
    exec (.registerWrite .configCxlCacheEnable v) s = .next (s.modHost fun h => { h with cxlEnabled := v.getLsbD 0 }) :=
  congrArg Host.Outcome.next (if_pos lit)

theorem exec_registerWrite_hostWord {k : Nat} (h : k < 0x1000) (a : k % 4 = 0) (v : BitVec 32) :
    exec (.registerWrite (.bar0 (0x10000 + k)) v) s = .next (s.writeHostWord k v) := by
  rw [exec_registerWrite_bar0_of_lit lit, State.writeBar0_hostWord h a]

theorem exec_registerWrite_channel {n k : Nat} (hn : n < 8) (h : k < 0x100) (a : k % 4 = 0) (v : BitVec 32) :
    exec (.registerWrite (.bar0 (0x20000 + 0x100 * n + k)) v) s = .next (s.writeChannel n k v) := by
  rw [exec_registerWrite_bar0_of_lit lit, State.writeBar0_channel hn h a]

end

/-! ### What each writable register takes -/

/-- MEMWIN_BASE takes PAGE (R587). -/
theorem State.writeMemwin_eq (s : State) (v : BitVec 64) :
    s.writeMemwin v.toNat = { s with host := { s.host with memwinPage := v.extractLsb' 12 32 } } := by
  rw [State.writeMemwin, ofNat_bits_43_12, State.modHost]

theorem State.clearInt_eq (s : State) (v : BitVec 64) :
    s.clearInt v.toNat = { s with host := { s.host with intStatus := s.host.intStatus &&& ~~~ v.setWidth 27 } } := by
  rw [State.clearInt, BitVec.ofNat_toNat, State.modHost]

/-- VALID is bit 31, and writing it clears the record (R601; log entry 122). -/
theorem State.clearHostErr_eq (s : State) (v : BitVec 32) :
    s.clearHostErr v.toNat =
      if v.getLsbD 31 = true then
        { s with host := { s.host with errKind := .none, errWrite := false, errValid := false, errAddr := 0 } }
      else s := rfl

theorem State.writeHostWord_memwinLow (s : State) (v : BitVec 32) :
    s.writeHostWord 8 v = { s with host := { s.host with
      memwinPage := s.host.memwinPage.extractLsb' 20 12 ++ v.extractLsb' 12 20 } } := by
  change s.writeMemwin (mergeHalf (s.host.memwinPage.toNat * 4096) false v.toNat) = _
  rw [State.writeMemwin, page_of_mergeHalf_low, State.modHost]

theorem State.writeHostWord_memwinHigh (s : State) (v : BitVec 32) :
    s.writeHostWord 0xC v = { s with host := { s.host with
      memwinPage := v.extractLsb' 0 12 ++ s.host.memwinPage.extractLsb' 0 20 } } := by
  change s.writeMemwin (mergeHalf (s.host.memwinPage.toNat * 4096) true v.toNat) = _
  rw [State.writeMemwin, page_of_mergeHalf_high, State.modHost]

theorem State.writeHostWord_intStatus (s : State) (v : BitVec 32) :
    s.writeHostWord 0x10 v = s.clearInt (v.setWidth 64).toNat := by
  rw [BitVec.toNat_setWidth_of_le (by decide)]
  rfl

/-! ### Each clause of the statement -/

section
variable {s : State} (lit : s.dev.lit = true)
include lit

/-- The 32-bit writes of the host interface's own words: INT_STATUS, HOST_ERR and the two halves of MEMWIN_BASE (R587, R601). -/
theorem registerWrite_host_words (v : BitVec 32) :
    exec (.registerWrite (.bar0 0x10010) v) s = exec (.intStatusClear (v.setWidth 64)) s ∧
    exec (.registerWrite (.bar0 0x10018) v) s = exec (.hostErrClear v) s ∧
    exec (.registerWrite (.bar0 0x10008) v) s = .next { s with host := { s.host with
      memwinPage := s.host.memwinPage.extractLsb' 20 12 ++ v.extractLsb' 12 20 } } ∧
    exec (.registerWrite (.bar0 0x1000C) v) s = .next { s with host := { s.host with
      memwinPage := v.extractLsb' 0 12 ++ s.host.memwinPage.extractLsb' 0 20 } } := by
  have word {k : Nat} (h : k < 0x1000) (a : k % 4 = 0) := exec_registerWrite_hostWord lit h a v
  refine ⟨?_, ?_, ?_, ?_⟩
  · rw [exec_intStatusClear_of_lit lit, ← State.writeHostWord_intStatus]
    exact word (k := 0x10) (by decide) rfl
  · rw [exec_hostErrClear_of_lit lit]
    exact word (k := 0x18) (by decide) rfl
  · rw [← State.writeHostWord_memwinLow]
    exact word (k := 8) (by decide) rfl
  · rw [← State.writeHostWord_memwinHigh]
    exact word (k := 0xC) (by decide) rfl

theorem registerWrite_channel_words {n : Nat} (hn : n < 8) (v : BitVec 32) :
    exec (.registerWrite (.bar0 (0x20000 + 0x100 * n + 0xC)) v) s = exec (.dmaTailWrite n v) s ∧
    exec (.registerWrite (.bar0 (0x20000 + 0x100 * n + 0x10)) v) s = .next s ∧
    exec (.registerWrite (.bar0 (0x20000 + 0x100 * n + 0x14)) v) s = .next s := by
  have word {k : Nat} (h : k < 0x100) (a : k % 4 = 0) := exec_registerWrite_channel lit hn h a v
  refine ⟨?_, ?_, ?_⟩
  · rw [exec_dmaTailWrite_of_lit lit hn]
    exact word (k := 0xC) (by decide) rfl
  · exact word (k := 0x10) (by decide) rfl
  · exact word (k := 0x14) (by decide) rfl

theorem registerWrite_ignored {off : Nat} (v : BitVec 32)
    (h : off % 4 ≠ 0 ∨ off = 0x10000 ∨ (0x10020 ≤ off ∧ off < 0x11000)) :
    exec (.registerWrite (.bar0 off) v) s = .next s := by
  by_cases a : off % 4 = 0
  · obtain ⟨k, rfl⟩ : ∃ k, off = 0x10000 + k := ⟨off - 0x10000, by omega⟩
    rw [exec_registerWrite_hostWord lit (by omega) (by omega), State.writeHostWord_readOnly (by omega)]
  · rw [exec_registerWrite_bar0_of_lit lit, State.writeBar0_unaligned a]

end

/-- Settles O21, register by register: which word an offset names, and what that word takes. -/
theorem hostRegisterWritesFollowTheirAccessType : Obligations.HostRegisterWritesFollowTheirAccessType := by
  unfold Obligations.HostRegisterWritesFollowTheirAccessType
  intro s lit
  refine ⟨fun v => ?_, fun v => ?_, fun v => ?_, fun v => ?_,
    fun n v hn => registerWrite_channel_words lit hn v, fun off v h => registerWrite_ignored lit v h⟩
  · rw [exec_memwinBaseWrite_of_lit lit, State.writeMemwin_eq]
  · rw [exec_intStatusClear_of_lit lit, State.clearInt_eq]
  · rw [exec_hostErrClear_of_lit lit, State.clearHostErr_eq]
  · obtain ⟨int, err, low, high⟩ := registerWrite_host_words lit v
    exact ⟨int, err, low, high, exec_registerWrite_configMsixEnable_of_lit lit v,
      exec_registerWrite_configCxlCacheEnable_of_lit lit v⟩

end Sys2Proof.Machine
end

section
/-! PROOF. The invariant of the machine: the reset state meets it (O3), and every step keeps it (O4). -/

namespace Sys2Proof.Machine

/-! ### The units of the reset state -/

/-- What holds of one value holds of each place of a table filled with it. -/
theorem forall_mem_table {α : Type} {P : α → Prop} {a : α} {n : Nat} (h : P a) : ∀ x ∈ List.replicate n a, P x :=
  List.forall_mem_replicate.mpr (.inr h)

theorem Context.shape_reset : Context.Shape {} := ⟨rfl, rfl⟩

theorem Tile.shape_reset : Tile.Shape {} where
  contexts := rfl
  context := forall_mem_table Context.shape_reset
  counters := List.length_replicate
  bound := forall_mem_table (Nat.zero_le _)
  slots := List.length_replicate

/-- Positions 48 and 49 differ from the others in their state alone (R67). -/
theorem Tile.shape_atReset (i : Nat) : (Tile.atReset i).Shape := by
  unfold Tile.atReset
  split <;> exact Tile.shape_reset.record

theorem Bsu.shape_reset : Bsu.Shape {} := ⟨List.length_replicate⟩

theorem Stack.shape_reset : Stack.Shape {} where
  channels := List.length_replicate
  bsus := List.length_replicate
  bsu := forall_mem_table Bsu.shape_reset

theorem Port.shape_reset : Port.Shape {} := ⟨rfl⟩

theorem State.shape_reset : State.reset.Shape where
  tiles := (List.length_map _).trans List.length_range
  tile := List.forall_mem_map.mpr fun i _ => Tile.shape_atReset (i % 50)
  hbm := List.length_replicate
  stack := forall_mem_table Stack.shape_reset
  ports := List.length_replicate
  port := forall_mem_table Port.shape_reset
  links := by decide
  dies := rfl
  lasers := (List.length_map _).trans List.length_range
  ftc := List.length_replicate
  barriers := (List.length_map _).trans List.length_range
  mailboxes := List.length_replicate
  dma := List.length_replicate
  msix := List.length_replicate

theorem RingOk.empty (n next : Nat) : RingOk n next [] := ⟨Nat.zero_le n, .nil, by simp⟩

/-- Settles O3: each table is filled to its size with units of the right shape, and memories and rings are empty. -/
theorem resetStateMeetsTheInvariant : Obligations.ResetStateMeetsTheInvariant where
  shape := State.shape_reset
  mem := rfl
  hostMem := rfl
  ring := RingOk.empty 4096 _
  flashRing := RingOk.empty 1024 _

/-! ### Every step -/

/-- The invariant says nothing of the queue. -/
theorem State.Inv.withPending {s : State} (h : s.Inv) (q : List Instr) : ({ s with pending := q } : State).Inv :=
  { h with shape := { h.shape with } }

/-- Settles O4: a step is an effect on the state without the front of the queue, and every effect carries the
invariant over. -/
theorem everyStepKeepsTheInvariant : Obligations.EveryStepKeepsTheInvariant := by
  unfold Obligations.EveryStepKeepsTheInvariant
  intro s t inv stepped
  have effect : Changes { s with pending := s.pending.tail } t := step_changes stepped
  exact effect.inv (inv.withPending s.pending.tail)

end Sys2Proof.Machine
end

section
/-! PROOF. Events of lanes and the sparing procedure (O27): what each row does, by the state of its link and lane. -/

namespace Sys2Proof.Machine

/-! ### Rings -/

/-- The loop of a ring stores its codes and what it reports (R19). -/
def State.storeRing (s : State) (r : LaneRef) (role : Nat) (ring : Ring) : State :=
  s.modLane r fun l => { l with rings := modAt l.rings role fun _ => ring }

theorem ringReport_of_limit {heater : BitVec 16} {tuning : Tuning}
    (limit : 65535 * 98 ≤ heater.toNat * 100 ∨ tuning = .rangeLimit) (role : Nat) :
    ringReport role heater tuning = .rangeLimit := if_pos limit

theorem ringReport_of_inRange {heater : BitVec 16} {tuning : Tuning}
    (inRange : ¬(65535 * 98 ≤ heater.toNat * 100 ∨ tuning = .rangeLimit)) (role : Nat) :
    ringReport role heater tuning = if role = 4 then .off else tuning := if_neg inRange

theorem ringReport_ne_rangeLimit {heater : BitVec 16} {tuning : Tuning}
    (inRange : ¬(65535 * 98 ≤ heater.toNat * 100 ∨ tuning = .rangeLimit)) (role : Nat) :
    ringReport role heater tuning ≠ .rangeLimit := by
  rw [ringReport_of_inRange inRange]
  split
  · exact Tuning.noConfusion
  · exact fun limit => inRange (.inr limit)

section
variable {link lane role : Nat} (ring : link < 3 ∧ lane < linkLaneCount link ∧ role < 5)
include ring

theorem exec_ringTuningTick (heater detune : BitVec 16) (tuning : Tuning) (s : State) :
    exec (.ringTuningTick link lane role heater detune tuning) s = .next
      (if s.dev.lit = true then
        if 65535 * 98 ≤ heater.toNat * 100 ∨ tuning = .rangeLimit then
          ((s.storeRing (.die link lane) role ⟨heater, detune, .rangeLimit⟩).newCascade.handleLane
            (.die link lane) .permanent .rangeLimit).inCascade none
        else s.storeRing (.die link lane) role ⟨heater, detune, if role = 4 then .off else tuning⟩
      else s) := by
  change execRingTuningTick link lane role heater detune tuning s = _
  rw [execRingTuningTick, if_pos ring]
  by_cases lit : s.dev.lit = true
  · by_cases limit : 65535 * 98 ≤ heater.toNat * 100 ∨ tuning = .rangeLimit
    · simp only [if_pos lit, if_pos limit, ringReport_of_limit limit, if_true, State.storeRing]
    · simp only [if_pos lit, if_neg limit, if_neg (ringReport_ne_rangeLimit limit role)]
      rw [ringReport_of_inRange limit, State.storeRing]
  · rw [if_neg lit, if_neg lit]

theorem exec_ringOutOfLock (s : State) :
    exec (.ringOutOfLock link lane role) s = .next
      (if s.watched (.die link lane) = true then
        (s.newCascade.handleLane (.die link lane) .transient .transient).inCascade none else s) := by
  change execRingOutOfLock link lane role s = _
  rw [execRingOutOfLock, if_pos ring]
  split <;> rfl

end

/-! ### Lanes -/

section
variable {l : LaneRef} (lane : laneExists l = true) (s : State)
include lane

/-- The window of one lane: a permanent crossing of the error rate, then of the codewords, before a transient one (R29). -/
theorem exec_laneThresholdCrossing (errs words : Nat) :
    exec (.laneThresholdCrossing l errs words) s = .next
      (if s.watched l = true then
        (if berAbove s.flash.policy.lanePermanentBer errs = true then
            (s.countFec l errs words).newCascade.handleLane l .permanent .permanentRate
          else if s.flash.policy.laneUncorrectable < words then
            (s.countFec l errs words).newCascade.handleLane l .permanent .uncorrectable
          else if berAbove s.flash.policy.laneTransientBer errs = true then
            (s.countFec l errs words).newCascade.handleLane l .transient .transient
          else (s.countFec l errs words).newCascade).inCascade none
      else s) := by
  change execLaneThresholdCrossing l errs words s = _
  rw [execLaneThresholdCrossing, if_pos lane]
  by_cases watched : s.watched l = true
  · rw [if_pos watched, if_pos watched]
    dsimp only
    split
    · rfl
    · split
      · rfl
      · split <;> rfl
  · rw [if_neg watched, if_neg watched]

theorem exec_laneLossOfSignal :
    exec (.laneLossOfSignal l) s = .next
      (if s.watched l = true then (s.newCascade.handleLane l .retrainFailed .lossOfSignal).inCascade none else s) := by
  change execLaneLossOfSignal l s = _
  rw [execLaneLossOfSignal, if_pos lane]
  split <;> rfl

theorem exec_quiescePoint :
    exec (.quiescePoint l) s = .next (if s.watched l = true then s.quiesceGroup l else s) := by
  change execQuiescePoint l s = _
  rw [execQuiescePoint, if_pos lane]
  split <;> rfl

theorem exec_laneRetrainComplete (passed : Bool) :
    exec (.laneRetrainComplete l passed) s = .next
      (if (s.lane l).retraining = false then s
      else if passed = true then s.modLane l fun x => { x with retraining := false }
      else ((s.modLane l fun x => { x with retraining := false }).newCascade.handleLane l .retrainFailed
        .retrain).inCascade none) := by
  change execLaneRetrainComplete l passed s = _
  rw [execLaneRetrainComplete, if_pos lane]
  cases (s.lane l).retraining
  · rfl
  · cases passed <;> rfl

/-- The lane after its background retrain has ended, at the time it was due. -/
def State.endBackgroundRetrain (s : State) (l : LaneRef) (due : Nat) : State :=
  (s.advanceTo due).modLane l fun x => { x with backgroundDue := none, retrains := x.retrains + 1 }

theorem exec_backgroundRetrain_of_due {due : Nat} (suspect : (s.lane l).state = .suspect)
    (isDue : (s.lane l).backgroundDue = some due) (passed : Bool) :
    exec (.backgroundRetrain l passed) s = .next
      (if passed = true then
        ((s.endBackgroundRetrain l due).modLane l (Lane.enter (s.endBackgroundRetrain l due).now .spare)).logAppend
          (laneUnit l) .cleared
      else ((s.endBackgroundRetrain l due).newCascade.handleLane l .retrainFailed .retrain).inCascade none) := by
  change execBackgroundRetrain l passed s = _
  rw [execBackgroundRetrain, if_pos lane, suspect, isDue]
  cases passed <;> rfl

theorem exec_backgroundRetrain_of_idle (idle : (s.lane l).state ≠ .suspect ∨ (s.lane l).backgroundDue = none)
    (passed : Bool) : exec (.backgroundRetrain l passed) s = .next s := by
  change execBackgroundRetrain l passed s = _
  rw [execBackgroundRetrain, if_pos lane]
  split
  · rename_i due suspect isDue
    rcases idle with notSuspect | notDue
    · exact absurd suspect notSuspect
    · exact absurd (isDue.symm.trans notDue) (Option.some_ne_none due)
  · rfl

end

/-! ### Rotation of spares -/

section
variable {k : Nat} (link : k < 3) (s : State)
include link

theorem exec_spareLaneRotation_answers : ∃ t, exec (.spareLaneRotation k) s = .next t :=
  (Laws.Operands.spareLaneRotation k).1 (decide_eq_true link) s

theorem exec_spareLaneRotation_of_idle
    (idle : (s.dev ≠ .ready ∧ s.dev ≠ .maintenance) ∨ (s.link k).state = .failed) :
    exec (.spareLaneRotation k) s = .next s := by
  change execSpareLaneRotation k s = _
  rw [execSpareLaneRotation, if_pos link]
  have resting : (!(s.dev == .ready || s.dev == .maintenance) || (s.link k).state == .failed) = true := by
    rcases idle with ⟨notReady, notMaintenance⟩ | failed
    · rw [beq_eq_false_iff_ne.mpr notReady, beq_eq_false_iff_ne.mpr notMaintenance, Bool.or_false, Bool.not_false,
        Bool.true_or]
    · rw [failed]
      exact Bool.or_true _
  exact if_pos resting

theorem exec_spareLaneRotation_of_pending (awake : s.dev = .ready ∨ s.dev = .maintenance)
    (up : (s.link k).state ≠ .failed)
    (waits : (s.link k).pending ≠ [] ∨ (s.link k).lanes.any (·.retraining) = true) :
    exec (.spareLaneRotation k) s =
      .next { s with tele := { s.tele with rotationsDeferred := satAdd s.tele.rotationsDeferred 1 } } := by
  change execSpareLaneRotation k s = _
  rw [execSpareLaneRotation, if_pos link]
  have serves : ¬(!(s.dev == .ready || s.dev == .maintenance) || (s.link k).state == .failed) = true := by
    have notFailed : ((s.link k).state == .failed) = false := beq_eq_false_iff_ne.mpr up
    rw [notFailed, Bool.or_false]
    rcases awake with dev | dev <;> rw [dev] <;> decide
  have deferred : (!(s.link k).pending.isEmpty || (s.link k).lanes.any (·.retraining)) = true := by
    rcases waits with pending | retraining
    · rw [List.isEmpty_eq_false_iff.mpr pending, Bool.not_false, Bool.true_or]
    · rw [retraining, Bool.or_true]
  exact (if_neg serves).trans (if_pos deferred)

theorem spareLaneRotation_waits_for_quiet_link : ∃ t : State, exec (.spareLaneRotation k) s = .next t ∧
    ((s.dev ≠ .ready ∧ s.dev ≠ .maintenance) ∨ (s.link k).state = .failed → t = s) ∧
    ((s.dev = .ready ∨ s.dev = .maintenance) → (s.link k).state ≠ .failed →
      ((s.link k).pending ≠ [] ∨ (s.link k).lanes.any (·.retraining) = true) →
      t = { s with tele := { s.tele with rotationsDeferred := satAdd s.tele.rotationsDeferred 1 } }) := by
  obtain ⟨t, ht⟩ := exec_spareLaneRotation_answers link s
  refine ⟨t, ht, fun idle => ?_, fun awake up waits => ?_⟩
  · exact Host.Outcome.next.inj (ht.symm.trans (exec_spareLaneRotation_of_idle link s idle))
  · exact Host.Outcome.next.inj (ht.symm.trans (exec_spareLaneRotation_of_pending link s awake up waits))

end

/-- Settles O27, row by row: rings, lanes, and the rotation of spares. -/
theorem linksHandleTheirLanesAsTheSparingProcedureSays :
    Obligations.LinksHandleTheirLanesAsTheSparingProcedureSays := by
  unfold Obligations.LinksHandleTheirLanesAsTheSparingProcedureSays
  intro s
  refine ⟨fun link lane role heater detune tuning hlink hlane hrole => ?_, fun l lane => ?_,
    fun k link => spareLaneRotation_waits_for_quiet_link link s⟩
  · have ring : link < 3 ∧ lane < linkLaneCount link ∧ role < 5 := ⟨hlink, hlane, hrole⟩
    exact ⟨exec_ringTuningTick ring heater detune tuning s, exec_ringOutOfLock ring s⟩
  · exact ⟨exec_laneThresholdCrossing lane s, exec_laneLossOfSignal lane s, exec_quiescePoint lane s, fun passed =>
      ⟨exec_laneRetrainComplete lane s passed,
        fun _ suspect isDue => exec_backgroundRetrain_of_due lane s suspect isDue passed,
        fun idle => exec_backgroundRetrain_of_idle lane s idle passed⟩⟩

end Sys2Proof.Machine
end

section
/-! PROOF. JTAG debug before and after the debug fuse is blown (O55). -/

namespace Sys2Proof.Machine

/-! ### What the instructions decode to -/

/-- Shifting out nothing: the device is left alone but for the data register (R706). -/
def State.bypass (s : State) : State := { s with tinder := { s.tinder with jtagOut := [] } }

theorem jtagDebug_of_unpowered {s : State} (off : s.dev.answers = false) (t : State) : jtagDebug s t = .next s := by
  simp [jtagDebug, off]

theorem jtagDebug_of_blown {s : State} (on : s.dev.answers = true) (blown : s.fuses.debugBlown = true) (t : State) :
    jtagDebug s t = .next s.bypass := by
  simp [jtagDebug, on, blown, State.bypass, State.modTinder]

theorem jtagDebug_of_whole {s : State} (on : s.dev.answers = true) (whole : s.fuses.debugBlown = false) (t : State) :
    jtagDebug s t = .next t := by
  simp [jtagDebug, on, whole]

/-- Whatever else it would do, a debug instruction is `jtagDebug` of some effect. -/
theorem exec_jtagFuseDebug (s : State) : exec .jtagFuseDebug s = jtagDebug s s.blowDebug := rfl

theorem exec_debugAccess (a : Nat) (v : Option (BitVec 32)) (s : State) :
    exec (.debugAccess a v) s = jtagDebug s (if s.dev.lit then s.debugAccess a v else s.jtagNothing) := rfl

/-- The core is in the list of halted cores, once. -/
def State.haltCore (s : State) (c : Nat) : State :=
  s.modTinder fun t => { t with coreHalted := if t.coreHalted.contains c then t.coreHalted else t.coreHalted ++ [c] }

theorem exec_coreHalt {c : Nat} (core : c < 2) (s : State) : exec (.coreHalt c) s = jtagDebug s (s.haltCore c) := if_pos core

theorem State.haltCore_mem (s : State) (c : Nat) : c ∈ (s.haltCore c).tinder.coreHalted := by
  change c ∈ if s.tinder.coreHalted.contains c = true then s.tinder.coreHalted else s.tinder.coreHalted ++ [c]
  split
  · rename_i halted
    exact List.contains_iff_mem.mp halted
  · exact List.mem_append_right _ (List.mem_singleton_self c)

theorem State.haltCore_frame (s : State) (c : Nat) :
    { s.haltCore c with tinder := { (s.haltCore c).tinder with coreHalted := s.tinder.coreHalted } } = s := rfl

/-- What the scan chains hold is free (log entry 66). -/
def State.scanOut (s : State) : List Byte :=
  (List.range (Config.freeWord s.freeCount).toNat).map (Config.freeByte s.freeCount)

theorem exec_scanDump (s : State) : exec .scanDump s = jtagDebug s
    { s with freeCount := s.freeCount + 1, tinder := { s.tinder with jtagOut := s.scanOut } } := rfl

/-! ### A debug access -/

section
variable {a : Nat} (aligned : a % 4 = 0) {s : State}
include aligned

theorem State.debugAccess_write (w : BitVec 32) :
    s.debugAccess a (some w) = (s.debugWrite a (leBytes 4 w.toNat)).1.bypass := if_neg (not_not_intro aligned)

theorem State.debugAccess_read_ok {s1 : State} {b : List Byte} (read : s.debugRead a 4 = (s1, .ok b)) :
    s.debugAccess a none = { s1 with tinder := { s1.tinder with jtagOut := b } } := by
  simp only [State.debugAccess, if_neg (not_not_intro aligned), read, State.modTinder]

theorem State.debugAccess_read_error {s1 : State} {e : Status} (read : s.debugRead a 4 = (s1, .error e)) :
    s.debugAccess a none = s1.jtagNothing := by
  simp only [State.debugAccess, if_neg (not_not_intro aligned), read]

end

theorem State.debugAccess_unaligned {a : Nat} (h : a % 4 ≠ 0) (s : State) (v : Option (BitVec 32)) :
    s.debugAccess a v = s.jtagNothing := if_pos h

/-! ### The stand-alone test mode (R59) -/

theorem State.scramble_dies (s : State) (d p : Nat) : (s.scramble d p).dies = s.dies := rfl

theorem State.scrambleShared_dies (s : State) (d : Nat) : (s.scrambleShared d).dies = s.dies := rfl

theorem State.scrambleDie_dies (s : State) (d : Nat) : (s.scrambleDie d).dies = s.dies := by
  unfold State.scrambleDie
  split
  · rw [State.scrambleShared_dies]
    exact foldl_keep (fun t : State => t.dies = s.dies) rfl fun t p h => (t.scramble_dies d p).trans h
  · rfl

theorem State.modLane_dies (s : State) (r : LaneRef) (f : Lane → Lane) : (s.modLane r f).dies = s.dies := by
  cases r <;> rfl

theorem State.loopPorts_dies (s : State) (d : Nat) (tests : List LaneTest) : (s.loopPorts d tests).dies = s.dies :=
  foldl_keep (fun t : State => t.dies = s.dies) rfl fun t r h => (State.modLane_dies t r _).trans h

theorem State.isolate_isolated {s : State} {d : Nat} (die : d < s.dies.length) (passed : Bool) (tests : List LaneTest) :
    ((s.isolate d passed tests).die d).isolated = true := by
  rw [State.die, State.isolate, State.loopPorts_dies, State.scrambleDie_dies]
  change ((modAt s.dies d _).getD d _).isolated = true
  rw [modAt_getD_self _ _ _ _ die]

theorem exec_dieIsolate {d : Nat} (die : d < 11) (passed : Bool) (tests : List LaneTest) (s : State) :
    exec (.dieIsolate d passed tests) s = .next (if s.dev.answers then s.isolate d passed tests else s) := if_pos die

/-! ### Each state of the supplies and the fuse -/

theorem jtag_unpowered {s : State} (off : s.dev.answers = false) :
    exec .jtagFuseDebug s = .next s ∧ (∀ a v, exec (.debugAccess a v) s = .next s) ∧
    (∀ c, c < 2 → exec (.coreHalt c) s = .next s) ∧ exec .scanDump s = .next s ∧
    ∀ d passed tests, d < 11 → exec (.dieIsolate d passed tests) s = .next s := by
  have nothing (t : State) : jtagDebug s t = .next s := jtagDebug_of_unpowered off t
  refine ⟨nothing _, fun a v => nothing _, fun c core => ?_, nothing _, fun d passed tests die => ?_⟩
  · rw [exec_coreHalt core, nothing]
  · rw [exec_dieIsolate die, off, if_neg Bool.false_ne_true]

section
variable {s : State} (on : s.dev.answers = true)
include on

theorem dieIsolate_isolates {d : Nat} (die : d < 11) (passed : Bool) (tests : List LaneTest) :
    exec (.dieIsolate d passed tests) s = .next (s.isolate d passed tests) ∧
    (d < s.dies.length → ((s.isolate d passed tests).die d).isolated = true) :=
  ⟨by rw [exec_dieIsolate die, if_pos on], fun present => State.isolate_isolated present passed tests⟩

theorem jtag_blown (blown : s.fuses.debugBlown = true) :
    exec .jtagFuseDebug s = .next s.bypass ∧ (∀ a v, exec (.debugAccess a v) s = .next s.bypass) ∧
    (∀ c, c < 2 → exec (.coreHalt c) s = .next s.bypass) ∧ exec .scanDump s = .next s.bypass := by
  have bypass (t : State) : jtagDebug s t = .next s.bypass := jtagDebug_of_blown on blown t
  refine ⟨bypass _, fun a v => bypass _, fun c core => ?_, bypass _⟩
  rw [exec_coreHalt core, bypass]

section
variable (whole : s.fuses.debugBlown = false)
include whole

theorem debugAccess_of_lit {a : Nat} (lit : s.dev.lit = true) (v : Option (BitVec 32)) :
    exec (.debugAccess a v) s = .next (s.debugAccess a v) := by
  rw [exec_debugAccess, jtagDebug_of_whole on whole, if_pos lit]

theorem debugAccess_of_unlit_or_unaligned {a : Nat} (h : s.dev.lit = false ∨ a % 4 ≠ 0) (v : Option (BitVec 32)) :
    exec (.debugAccess a v) s = .next s.jtagNothing := by
  rw [exec_debugAccess, jtagDebug_of_whole on whole]
  rcases h with unlit | unaligned
  · rw [unlit, if_neg Bool.false_ne_true]
  · rw [State.debugAccess_unaligned unaligned, ite_self]

theorem coreHalt_records {c : Nat} (core : c < 2) : ∃ t : State, exec (.coreHalt c) s = .next t ∧
    c ∈ t.tinder.coreHalted ∧ { t with tinder := { t.tinder with coreHalted := s.tinder.coreHalted } } = s :=
  ⟨s.haltCore c, by rw [exec_coreHalt core, jtagDebug_of_whole on whole], s.haltCore_mem c, s.haltCore_frame c⟩

end

end

/-- Settles O55, by the state of the supplies and of the fuse. -/
theorem blownDebugFuseEndsJtagDebug : Obligations.BlownDebugFuseEndsJtagDebug := by
  unfold Obligations.BlownDebugFuseEndsJtagDebug
  intro s
  refine ⟨jtag_unpowered, fun on => ⟨fun d passed tests die => dieIsolate_isolates on die passed tests, jtag_blown on,
    fun whole => ⟨jtagDebug_of_whole on whole _, fun a v lit aligned => ?_,
      fun a v h => debugAccess_of_unlit_or_unaligned on whole h v, fun c core => coreHalt_records on whole core,
      s.scanOut, jtagDebug_of_whole on whole _⟩⟩⟩
  rw [debugAccess_of_lit on whole lit]
  cases v with
  | some w => exact congrArg Host.Outcome.next (State.debugAccess_write aligned w)
  | none =>
    rcases read : s.debugRead a 4 with ⟨s1, e | b⟩
    · exact congrArg Host.Outcome.next (State.debugAccess_read_error aligned read)
    · exact congrArg Host.Outcome.next (State.debugAccess_read_ok aligned read)

end Sys2Proof.Machine
end

section
/-! PROOF. Every command answers a next state or names no unit of the package (O9). -/

namespace Sys2Proof.Machine

/-- Whether a command answers or faults, its well-formedness decides alone (log entry 3). -/
theorem exec_decided_by_wf (i : Instr) : Laws.Operands.Statement i :=
  match i with
  | .queryIdentity .. => Laws.Operands.queryIdentity ..
  | .queryState .. => Laws.Operands.queryState ..
  | .attach .. => Laws.Operands.attach ..
  | .readTelemetry .. => Laws.Operands.readTelemetry ..
  | .readEvents .. => Laws.Operands.readEvents ..
  | .openSession .. => Laws.Operands.openSession ..
  | .setProtection .. => Laws.Operands.setProtection ..
  | .mapRegion .. => Laws.Operands.mapRegion ..
  | .setPolicy .. => Laws.Operands.setPolicy ..
  | .setCredential .. => Laws.Operands.setCredential ..
  | .loadProgram .. => Laws.Operands.loadProgram ..
  | .runStep .. => Laws.Operands.runStep ..
  | .abortStep .. => Laws.Operands.abortStep ..
  | .drain .. => Laws.Operands.drain ..
  | .resume .. => Laws.Operands.resume ..
  | .selfTest .. => Laws.Operands.selfTest ..
  | .retireUnitRetire .. => Laws.Operands.retireUnitRetire ..
  | .retireUnitRestore .. => Laws.Operands.retireUnitRestore ..
  | .stageBundle .. => Laws.Operands.stageBundle ..
  | .activateBundle .. => Laws.Operands.activateBundle ..
  | .activateBundleCancel .. => Laws.Operands.activateBundleCancel ..
  | .attest .. => Laws.Operands.attest ..
  | .resetDevice .. => Laws.Operands.resetDevice ..
  | .ownerLockoutExpiry => Laws.Operands.ownerLockoutExpiry
  | .doorbellOverrun .. => Laws.Operands.doorbellOverrun ..
  | .registerWrite .. => Laws.Operands.registerWrite ..
  | .memwinBaseWrite .. => Laws.Operands.memwinBaseWrite ..
  | .intStatusClear .. => Laws.Operands.intStatusClear ..
  | .hostErrClear .. => Laws.Operands.hostErrClear ..
  | .dmaTailWrite .. => Laws.Operands.dmaTailWrite ..
  | .dmaRestart .. => Laws.Operands.dmaRestart ..
  | .dmaDescriptorComplete .. => Laws.Operands.dmaDescriptorComplete ..
  | .bar2Read .. => Laws.Operands.bar2Read ..
  | .bar2Write .. => Laws.Operands.bar2Write ..
  | .hostReadTimeout .. => Laws.Operands.hostReadTimeout ..
  | .hostLinkRetrainComplete => Laws.Operands.hostLinkRetrainComplete
  | .hostLinkLoss => Laws.Operands.hostLinkLoss
  | .perstAssert => Laws.Operands.perstAssert
  | .hostLinkReturn .. => Laws.Operands.hostLinkReturn ..
  | .vddPilotUp => Laws.Operands.vddPilotUp
  | .vddPilotLoss => Laws.Operands.vddPilotLoss
  | .devResetNRelease .. => Laws.Operands.devResetNRelease ..
  | .devResetNAssert => Laws.Operands.devResetNAssert
  | .railExcursion .. => Laws.Operands.railExcursion ..
  | .railsRestored => Laws.Operands.railsRestored
  | .wake .. => Laws.Operands.wake ..
  | .partStartupTimeout => Laws.Operands.partStartupTimeout
  | .partStartupPass .. => Laws.Operands.partStartupPass ..
  | .linkTrainingComplete .. => Laws.Operands.linkTrainingComplete ..
  | .ringTuningTick .. => Laws.Operands.ringTuningTick ..
  | .ringOutOfLock .. => Laws.Operands.ringOutOfLock ..
  | .laneThresholdCrossing .. => Laws.Operands.laneThresholdCrossing ..
  | .laneLossOfSignal .. => Laws.Operands.laneLossOfSignal ..
  | .quiescePoint .. => Laws.Operands.quiescePoint ..
  | .laneRetrainComplete .. => Laws.Operands.laneRetrainComplete ..
  | .backgroundRetrain .. => Laws.Operands.backgroundRetrain ..
  | .spareLaneRotation .. => Laws.Operands.spareLaneRotation ..
  | .bundleIssue .. => Laws.Operands.bundleIssue ..
  | .arrayNop .. => Laws.Operands.arrayNop ..
  | .matmul .. => Laws.Operands.matmul ..
  | .pairBackward .. => Laws.Operands.pairBackward ..
  | .arrayPassWriteBack .. => Laws.Operands.arrayPassWriteBack ..
  | .arrayOpComplete .. => Laws.Operands.arrayOpComplete ..
  | .flickerReplay .. => Laws.Operands.flickerReplay ..
  | .arrayRetired .. => Laws.Operands.arrayRetired ..
  | .spareSubstitutionComplete .. => Laws.Operands.spareSubstitutionComplete ..
  | .tileRetired .. => Laws.Operands.tileRetired ..
  | .vectorNop .. => Laws.Operands.vectorNop ..
  | .vectorAdd .. => Laws.Operands.vectorAdd ..
  | .vectorSub .. => Laws.Operands.vectorSub ..
  | .vectorMul .. => Laws.Operands.vectorMul ..
  | .vectorFma .. => Laws.Operands.vectorFma ..
  | .vectorAxpy .. => Laws.Operands.vectorAxpy ..
  | .vectorMax .. => Laws.Operands.vectorMax ..
  | .vectorMin .. => Laws.Operands.vectorMin ..
  | .vectorExp .. => Laws.Operands.vectorExp ..
  | .vectorLog .. => Laws.Operands.vectorLog ..
  | .vectorRcp .. => Laws.Operands.vectorRcp ..
  | .vectorRsqrt .. => Laws.Operands.vectorRsqrt ..
  | .vectorSum .. => Laws.Operands.vectorSum ..
  | .vectorAmax .. => Laws.Operands.vectorAmax ..
  | .vectorConvert .. => Laws.Operands.vectorConvert ..
  | .vectorAccum .. => Laws.Operands.vectorAccum ..
  | .vectorDropout .. => Laws.Operands.vectorDropout ..
  | .vectorCopy .. => Laws.Operands.vectorCopy ..
  | .vectorOpComplete .. => Laws.Operands.vectorOpComplete ..
  | .streamSlotNop .. => Laws.Operands.streamSlotNop ..
  | .bind .. => Laws.Operands.bind ..
  | .start .. => Laws.Operands.start ..
  | .consume .. => Laws.Operands.consume ..
  | .unbind .. => Laws.Operands.unbind ..
  | .controlNop .. => Laws.Operands.controlNop ..
  | .wait .. => Laws.Operands.wait ..
  | .signal .. => Laws.Operands.signal ..
  | .signalArrival .. => Laws.Operands.signalArrival ..
  | .yieldPoint .. => Laws.Operands.yieldPoint ..
  | .barrier .. => Laws.Operands.barrier ..
  | .barrierOpen .. => Laws.Operands.barrierOpen ..
  | .xfer .. => Laws.Operands.xfer ..
  | .xferComplete .. => Laws.Operands.xferComplete ..
  | .coll .. => Laws.Operands.coll ..
  | .fence .. => Laws.Operands.fence ..
  | .fenceComplete .. => Laws.Operands.fenceComplete ..
  | .halt .. => Laws.Operands.halt ..
  | .contextHalted .. => Laws.Operands.contextHalted ..
  | .nextBundle .. => Laws.Operands.nextBundle ..
  | .loopBegin .. => Laws.Operands.loopBegin ..
  | .loopBeginP .. => Laws.Operands.loopBeginP ..
  | .loopEnd .. => Laws.Operands.loopEnd ..
  | .jump .. => Laws.Operands.jump ..
  | .segment .. => Laws.Operands.segment ..
  | .segmentLoadComplete .. => Laws.Operands.segmentLoadComplete ..
  | .padd .. => Laws.Operands.padd ..
  | .pset .. => Laws.Operands.pset ..
  | .jumpIfGe .. => Laws.Operands.jumpIfGe ..
  | .contextSwitchComplete .. => Laws.Operands.contextSwitchComplete ..
  | .tileIdleDark .. => Laws.Operands.tileIdleDark ..
  | .tileLit .. => Laws.Operands.tileLit ..
  | .streamEnd .. => Laws.Operands.streamEnd ..
  | .streamSeta .. => Laws.Operands.streamSeta ..
  | .streamSets .. => Laws.Operands.streamSets ..
  | .streamAdds .. => Laws.Operands.streamAdds ..
  | .streamAddq .. => Laws.Operands.streamAddq ..
  | .streamLoop .. => Laws.Operands.streamLoop ..
  | .streamLoopq .. => Laws.Operands.streamLoopq ..
  | .streamEndloop .. => Laws.Operands.streamEndloop ..
  | .streamMove .. => Laws.Operands.streamMove ..
  | .streamIndex .. => Laws.Operands.streamIndex ..
  | .streamBackPressureResume .. => Laws.Operands.streamBackPressureResume ..
  | .requestLanded .. => Laws.Operands.requestLanded ..
  | .streamError .. => Laws.Operands.streamError ..
  | .noProgress .. => Laws.Operands.noProgress ..
  | .arbiterGrant .. => Laws.Operands.arbiterGrant ..
  | .ftcUnitGrant .. => Laws.Operands.ftcUnitGrant ..
  | .stepComputeStart => Laws.Operands.stepComputeStart
  | .stepOpenComplete => Laws.Operands.stepOpenComplete
  | .stepStatsComplete => Laws.Operands.stepStatsComplete
  | .recordStatsComplete => Laws.Operands.recordStatsComplete
  | .sweepComplete => Laws.Operands.sweepComplete
  | .digestExchangeComplete => Laws.Operands.digestExchangeComplete
  | .commitReadyComplete => Laws.Operands.commitReadyComplete
  | .stepEnd => Laws.Operands.stepEnd
  | .exportStart => Laws.Operands.exportStart
  | .exportComplete => Laws.Operands.exportComplete
  | .gradientClearComplete => Laws.Operands.gradientClearComplete
  | .commitCopyRebuilt .. => Laws.Operands.commitCopyRebuilt ..
  | .bsuAdd .. => Laws.Operands.bsuAdd ..
  | .bsuMul .. => Laws.Operands.bsuMul ..
  | .bsuAxpy .. => Laws.Operands.bsuAxpy ..
  | .bsuScale .. => Laws.Operands.bsuScale ..
  | .bsuFill .. => Laws.Operands.bsuFill ..
  | .bsuCopy .. => Laws.Operands.bsuCopy ..
  | .bsuConvert .. => Laws.Operands.bsuConvert ..
  | .bsuAccum .. => Laws.Operands.bsuAccum ..
  | .bsuSum .. => Laws.Operands.bsuSum ..
  | .bsuNorm2 .. => Laws.Operands.bsuNorm2 ..
  | .bsuAmax .. => Laws.Operands.bsuAmax ..
  | .bsuGather .. => Laws.Operands.bsuGather ..
  | .bsuScatterAdd .. => Laws.Operands.bsuScatterAdd ..
  | .bsuStream .. => Laws.Operands.bsuStream ..
  | .landingAccum .. => Laws.Operands.landingAccum ..
  | .bsuSliceEnd .. => Laws.Operands.bsuSliceEnd ..
  | .bsuOperationComplete .. => Laws.Operands.bsuOperationComplete ..
  | .bsuOperationError .. => Laws.Operands.bsuOperationError ..
  | .bsuIdleDark .. => Laws.Operands.bsuIdleDark ..
  | .bsuLit .. => Laws.Operands.bsuLit ..
  | .bsuDutyWindow .. => Laws.Operands.bsuDutyWindow ..
  | .refreshDue .. => Laws.Operands.refreshDue ..
  | .refreshForced .. => Laws.Operands.refreshForced ..
  | .refreshManagement .. => Laws.Operands.refreshManagement ..
  | .patrolScrubSector .. => Laws.Operands.patrolScrubSector ..
  | .scrubLate .. => Laws.Operands.scrubLate ..
  | .stackSensorSample .. => Laws.Operands.stackSensorSample ..
  | .stageFall .. => Laws.Operands.stageFall ..
  | .channelRetired .. => Laws.Operands.channelRetired ..
  | .phyCalibration .. => Laws.Operands.phyCalibration ..
  | .sharedPageRetired .. => Laws.Operands.sharedPageRetired ..
  | .beaconPageReplaced .. => Laws.Operands.beaconPageReplaced ..
  | .sharedQuarterDark .. => Laws.Operands.sharedQuarterDark ..
  | .sharedQuarterLit .. => Laws.Operands.sharedQuarterLit ..
  | .sramScrubWord .. => Laws.Operands.sramScrubWord ..
  | .laserTracking .. => Laws.Operands.laserTracking ..
  | .laserOutputDrop .. => Laws.Operands.laserOutputDrop ..
  | .flashRelocation .. => Laws.Operands.flashRelocation ..
  | .telemetrySample .. => Laws.Operands.telemetrySample ..
  | .snufferWindow .. => Laws.Operands.snufferWindow ..
  | .snufferLower => Laws.Operands.snufferLower
  | .tileHold .. => Laws.Operands.tileHold ..
  | .thermAssert => Laws.Operands.thermAssert
  | .thermRelease => Laws.Operands.thermRelease
  | .lamplighterRestart .. => Laws.Operands.lamplighterRestart ..
  | .uncontained .. => Laws.Operands.uncontained ..
  | .flitReceive .. => Laws.Operands.flitReceive ..
  | .flitAckTimeout .. => Laws.Operands.flitAckTimeout ..
  | .laneChange .. => Laws.Operands.laneChange ..
  | .retrainRequest .. => Laws.Operands.retrainRequest ..
  | .quiesce .. => Laws.Operands.quiesce ..
  | .packetForward .. => Laws.Operands.packetForward ..
  | .putReceive .. => Laws.Operands.putReceive ..
  | .packetAckReceive .. => Laws.Operands.packetAckReceive ..
  | .nackReceive .. => Laws.Operands.nackReceive ..
  | .collDataReceive .. => Laws.Operands.collDataReceive ..
  | .collFlagReceive .. => Laws.Operands.collFlagReceive ..
  | .abortReceive .. => Laws.Operands.abortReceive ..
  | .helloReceive .. => Laws.Operands.helloReceive ..
  | .putTimeout .. => Laws.Operands.putTimeout ..
  | .collectiveStall .. => Laws.Operands.collectiveStall ..
  | .collectiveComplete .. => Laws.Operands.collectiveComplete ..
  | .portPeerLoss .. => Laws.Operands.portPeerLoss ..
  | .portTrainingComplete .. => Laws.Operands.portTrainingComplete ..
  | .ethernetLinkUp .. => Laws.Operands.ethernetLinkUp ..
  | .ethernetLaneFailure .. => Laws.Operands.ethernetLaneFailure ..
  | .ethernetRetrain .. => Laws.Operands.ethernetRetrain ..
  | .cnpReceive .. => Laws.Operands.cnpReceive ..
  | .ethernetInboundRequest .. => Laws.Operands.ethernetInboundRequest ..
  | .ethReadComplete .. => Laws.Operands.ethReadComplete ..
  | .i3cStatus => Laws.Operands.i3cStatus
  | .i3cRecords .. => Laws.Operands.i3cRecords ..
  | .i3cEvents .. => Laws.Operands.i3cEvents ..
  | .i3cRegister .. => Laws.Operands.i3cRegister ..
  | .i3cDisec => Laws.Operands.i3cDisec
  | .i3cSetdasa .. => Laws.Operands.i3cSetdasa ..
  | .i3cEntdaa .. => Laws.Operands.i3cEntdaa ..
  | .tinderHelp => Laws.Operands.tinderHelp
  | .tinderStatus => Laws.Operands.tinderStatus
  | .tinderUnlock .. => Laws.Operands.tinderUnlock ..
  | .tinderPeek .. => Laws.Operands.tinderPeek ..
  | .tinderPoke .. => Laws.Operands.tinderPoke ..
  | .tinderDump .. => Laws.Operands.tinderDump ..
  | .tinderTrace .. => Laws.Operands.tinderTrace ..
  | .tinderBreak => Laws.Operands.tinderBreak
  | .tinderGo => Laws.Operands.tinderGo
  | .tinderFuseDebug .. => Laws.Operands.tinderFuseDebug ..
  | .jtagFuseDebug => Laws.Operands.jtagFuseDebug
  | .debugAccess .. => Laws.Operands.debugAccess ..
  | .coreHalt .. => Laws.Operands.coreHalt ..
  | .scanDump => Laws.Operands.scanDump
  | .dieIsolate .. => Laws.Operands.dieIsolate ..
  | .hostLinkRetraining => Laws.Operands.hostLinkRetraining
  | .openSessionHelloTimeout => Laws.Operands.openSessionHelloTimeout
  | .hostSnoop => Laws.Operands.hostSnoop
  | .arpAndNeighbourDiscovery .. => Laws.Operands.arpAndNeighbourDiscovery ..
  | .ecnMarkedTraffic .. => Laws.Operands.ecnMarkedTraffic ..
  | .portLightReturn .. => Laws.Operands.portLightReturn ..
  | .badOpcode .. => Laws.Operands.badOpcode ..
  | .flashAppendComplete .. => Laws.Operands.flashAppendComplete ..

/-- Settles O9, command by command. -/
theorem wellFormedCommandsRun : Obligations.WellFormedCommandsRun := exec_decided_by_wf

end Sys2Proof.Machine
end

section
/-! PROOF. Vector rows: when one issues, and what then joins the queue (O31). -/

namespace Sys2Proof.Machine

/-! ### Words that an operation reads of its tile (R86) -/

theorem State.tmEcc_nil (s : State) (d p : Nat) : s.tmEcc d p [] = (s, false) := rfl

theorem State.tmEcc_corrected (s : State) (d p k : Nat) :
    s.tmEcc d p [(k, .corrected)] = (s.tmCorrectedWord d p, false) := rfl

theorem State.tmEcc_uncorrectable (s : State) (d p k : Nat) :
    s.tmEcc d p [(k, .uncorrectable)] = ((s.tmFailedRead d p).tmAbort d p, true) := rfl

/-! ### Issue of one row -/

/-- The operation that joins the queue: what it takes of the running context and of the tile's memory is read at issue
(R160, R265). -/
def State.vecOpAtIssue (s : State) (d p : Nat) (op : VecOpcode) (desc done : Nat) : VecOp :=
  let t := s.tile d p
  let c := t.current
  let v := vecDescOf (s.tmRead d p (descOffset desc) 32)
  { op := op, desc := v, done := done, ctx := t.running, segment := c.segment, bundle := c.bundle
    elem := c.param 13 % 256 * 2 ^ 32 + c.param 14, addend := c.param 15 % 2 ^ 24
    amaxIn := if v.derived op = true then BitVec.ofNat 32 (leNat (s.tmRead d p v.srcB 4)) else 0 }

/-- The vector rows, each with the operation that it queues (R161). -/
def vectorRows : List (VecOpcode × (Nat → Nat → Nat → Nat → Ecc → Instr)) :=
  [(.add, .vectorAdd), (.sub, .vectorSub), (.mul, .vectorMul), (.fma, .vectorFma), (.axpy, .vectorAxpy),
    (.max, .vectorMax), (.min, .vectorMin), (.exp, .vectorExp), (.log, .vectorLog), (.rcp, .vectorRcp),
    (.rsqrt, .vectorRsqrt), (.sum, .vectorSum), (.amax, .vectorAmax), (.convert, .vectorConvert),
    (.accum, .vectorAccum), (.dropout, .vectorDropout), (.copy, .vectorCopy)]

theorem exec_vectorRow {d p : Nat} (tile : tileExists d p = true) (s : State) (desc done : Nat) (ecc : Ecc) :
    ∀ row ∈ vectorRows, exec (row.2 d p desc done ecc) s = .next (s.vecRow d p row.1 desc done ecc) := by
  simp only [vectorRows, List.forall_mem_cons, List.not_mem_nil, false_implies, implies_true, and_true]
  and_intros <;> exact if_pos tile

section
variable {s : State} {d p desc done : Nat} {op : VecOpcode} {ecc : Ecc}

theorem State.vecRow_of_noIssue (h : s.canIssue d p = false ∨ 1024 ≤ desc ∨ 256 ≤ done) :
    s.vecRow d p op desc done ecc = s := by
  rw [State.vecRow, if_pos]
  simpa [or_assoc] using h

theorem State.vecRow_of_issue (issues : s.canIssue d p = true) (hdesc : desc < 1024) (hdone : done < 256) :
    s.vecRow d p op desc done ecc =
      if 2 ≤ (s.tile d p).vectorQueue.length then s.issueHold d p else s.issueVector d p op desc done ecc := by
  simp [State.vecRow, Tile.vectorFull, issues, Nat.not_le.mpr hdesc, Nat.not_le.mpr hdone]

theorem State.issueVector_of_badDescriptor (bad : vecDescOk op (s.tmRead d p (descOffset desc) 32) = false) :
    s.issueVector d p op desc done ecc = s.progFault d p (s.tile d p).running pfBadDescriptor 0 := by
  simp [State.issueVector, bad]

section
variable (good : vecDescOk op (s.tmRead d p (descOffset desc) 32) = true)
include good

theorem State.issueVector_of_lostWord (lost : (s.tmEcc d p ecc).2 = true) :
    s.issueVector d p op desc done ecc = (s.tmEcc d p ecc).1 := by
  simp [State.issueVector, good, lost]

theorem State.issueVector_of_readWords (read : (s.tmEcc d p ecc).2 = false) :
    s.issueVector d p op desc done ecc =
      ((s.tmEcc d p ecc).1.modTile d p fun x =>
        { x with vectorQueue := x.vectorQueue ++ [s.vecOpAtIssue d p op desc done] }).tag d p done .vector := by
  simp [State.issueVector, good, read, State.vecOpAtIssue]

end

end

/-- Settles O31, by what a row meets: it stays, holds, faults, loses a word it reads, or queues its operation. -/
theorem vectorRowsQueueTheirOperation : Obligations.VectorRowsQueueTheirOperation := by
  unfold Obligations.VectorRowsQueueTheirOperation
  intro s d p tile
  refine ⟨if_pos tile, s.tmEcc_nil d p, fun k => ⟨s.tmEcc_corrected d p k, s.tmEcc_uncorrectable d p k⟩,
    fun desc done ecc row mem => ?_⟩
  have exec_row := exec_vectorRow tile s desc done ecc row mem
  dsimp only
  rw [exec_row]
  refine ⟨fun stays => ?_, fun issues hdesc hdone => ?_⟩
  · rw [State.vecRow_of_noIssue stays]
  rw [State.vecRow_of_issue issues hdesc hdone]
  refine ⟨fun full => by rw [if_pos full]; rfl, fun room => ?_⟩
  rw [if_neg (Nat.not_le.mpr room)]
  refine ⟨fun bad => ?_, fun good => ⟨fun lost => ?_, fun read => ?_⟩⟩
  · rw [State.issueVector_of_badDescriptor bad]; rfl
  · rw [State.issueVector_of_lostWord good lost]
  · rw [State.issueVector_of_readWords good read]; rfl

end Sys2Proof.Machine
end

section
/-! PROOF. Array rows: issue, and what each may do to the operation at the head of the queue (O33). -/

namespace Sys2Proof.Machine

/-- The tile's spare takes the place of array `a`; the time since the operation's end counts as replay (R110, R113). -/
def State.substituteSpare (s : State) (d p a : Nat) (o : ArrayOp) (rest : List ArrayOp) : State :=
  let cycles := cyclesIn (s.now - o.endedAt)
  ((s.chargeStall d p).addStall d p o.ctx .flickerReplay cycles).modTile d p fun x =>
    { x with spareFor := some a, arrayQueue := { o with endedAt := s.now } :: rest
             replayCycles := satAdd x.replayCycles cycles }

section
variable {d p : Nat} (tile : tileExists d p = true) (s : State)

/-! ### Issue (R151, R157) -/

theorem State.arrayRow_eq (a : ArraySlot) (ecc : Ecc) :
    s.arrayRow d p a ecc =
      if s.canIssue d p = true ∧ arrayFieldsOk a = true then
        if 2 ≤ (s.tile d p).arrayQueue.length then s.issueHold d p else s.issueArray d p a ecc
      else s := by
  unfold State.arrayRow Tile.arrayFull
  cases s.canIssue d p
  · simp
  · cases arrayFieldsOk a <;> simp

include tile

theorem exec_matmul_of_single {a : ArraySlot} (single : a.pair = false) (ecc : Ecc) :
    exec (.matmul d p a ecc) s = .next (s.arrayRow d p a ecc) ∧ exec (.pairBackward d p a ecc) s = .next s := by
  change execMatmul d p a ecc s = _ ∧ execPairBackward d p a ecc s = _
  simp [execMatmul, execPairBackward, tile, single]

theorem exec_pairBackward_of_pair {a : ArraySlot} (pair : a.pair = true) (ecc : Ecc) :
    exec (.pairBackward d p a ecc) s = .next (s.arrayRow d p a ecc) ∧ exec (.matmul d p a ecc) s = .next s := by
  change execPairBackward d p a ecc s = _ ∧ execMatmul d p a ecc s = _
  simp [execMatmul, execPairBackward, tile, pair]

/-! ### The head of the queue -/

theorem arrayRows_of_emptyQueue (empty : (s.tile d p).arrayQueue = []) :
    (∀ upsets, exec (.arrayPassWriteBack d p upsets) s = .next s) ∧ exec (.arrayOpComplete d p) s = .next s ∧
      exec (.flickerReplay d p) s = .next s ∧ exec (.spareSubstitutionComplete d p) s = .next s := by
  change (∀ upsets, execArrayPassWriteBack d p upsets s = _) ∧ execArrayOpComplete d p s = _ ∧
    execFlickerReplay d p s = _ ∧ execSpareSubstitutionComplete d p s = _
  simp [execArrayPassWriteBack, execArrayOpComplete, execFlickerReplay, execSpareSubstitutionComplete, tile, empty]

section
variable {o : ArrayOp} {rest : List ArrayOp} (head : (s.tile d p).arrayQueue = o :: rest)
include head

theorem exec_arrayPassWriteBack (upsets : List Upset) :
    exec (.arrayPassWriteBack d p upsets) s =
      .next (if s.gridRuns d p = true ∧ o.phase = .passes then s.passWriteBack d p upsets else s) := by
  change execArrayPassWriteBack d p upsets s = _
  simp [execArrayPassWriteBack, tile, head]

theorem exec_arrayOpComplete :
    exec (.arrayOpComplete d p) s =
      .next (if s.gridRuns d p = true ∧ o.phase = .finished then s.arrayDone d p o else s) := by
  change execArrayOpComplete d p s = _
  simp [execArrayOpComplete, tile, head]

theorem exec_flickerReplay :
    exec (.flickerReplay d p) s = .next
      (if s.gridRuns d p = true ∧ o.phase = .awaitReplay ∧ (o.executions < 3 ∨ o.flickers = []) ∧
        (s.tile d p).pendingSpare = [] ∧ s.retirementDue d p o = false then s.replay d p o else s) := by
  change execFlickerReplay d p s = _
  simp [execFlickerReplay, tile, head, and_assoc]

theorem exec_spareSubstitutionComplete {a : Nat} {more : List Nat} (due : (s.tile d p).pendingSpare = a :: more)
    (runs : s.gridRuns d p = true) (waits : o.phase = .awaitReplay) (spare : (s.tile d p).spareAvailable = true) :
    exec (.spareSubstitutionComplete d p) s = .next (s.substituteSpare d p a o rest) := by
  change execSpareSubstitutionComplete d p s = _
  simp [execSpareSubstitutionComplete, State.substituteSpare, tile, head, due, runs, waits, spare]

end

end

/-- Settles O33, row by row: issue by the slot's PAIR bit, then what the phase of the queue's head lets each row do. -/
theorem arrayOperationsRunTheirPassesAndReplays : Obligations.ArrayOperationsRunTheirPassesAndReplays := by
  unfold Obligations.ArrayOperationsRunTheirPassesAndReplays
  intro s d p tile
  refine ⟨if_pos tile, fun a ecc => ?_, arrayRows_of_emptyQueue tile s, fun o rest head => ?_⟩
  · refine ⟨fun single => ?_, fun pair => ?_⟩
    · obtain ⟨issues, stays⟩ := exec_matmul_of_single tile s single ecc
      rw [State.arrayRow_eq] at issues
      exact ⟨issues, stays⟩
    · obtain ⟨issues, stays⟩ := exec_pairBackward_of_pair tile s pair ecc
      rw [State.arrayRow_eq] at issues
      exact ⟨issues, stays⟩
  · exact ⟨exec_arrayPassWriteBack tile s head, exec_arrayOpComplete tile s head, exec_flickerReplay tile s head,
      fun _ _ due runs waits spare => exec_spareSubstitutionComplete tile s head due runs waits spare⟩

end Sys2Proof.Machine
end

section
/-! PROOF. Retirements that a row of their own reports, Lamplighter's own faults, and flash appends (O34). -/

namespace Sys2Proof.Machine

/-- A retirement by a row of its own: the events that it raises form one cascade (R665). -/
def State.ownCascade (s : State) (f : State → State) : State := (f s.newCascade).inCascade none

/-! ### Arrays and tiles (R112, R114) -/

section
variable {d p : Nat} (tile : tileExists d p = true) (s : State)
include tile

section
variable {a : Nat} (array : a < 17)
include array

theorem exec_arrayRetired_of_belowThreshold (below : s.flickerThreshold d p a = none) :
    exec (.arrayRetired d p a) s = .next s := by
  change execArrayRetired d p a s = _
  simp [execArrayRetired, tile, array, below]

theorem exec_arrayRetired_of_threshold {th : Threshold} (reached : s.flickerThreshold d p a = some th) :
    exec (.arrayRetired d p a) s = .next (s.ownCascade fun x => x.retireArray d p a th) := by
  change execArrayRetired d p a s = _
  simp [execArrayRetired, tile, array, reached, State.ownCascade]

end

theorem exec_tileRetired :
    exec (.tileRetired d p) s = .next
      (if 2 ≤ (inWindow s.now hourNs (s.tile d p).tmUncorrectableTimes).length then
        s.ownCascade fun x => x.retireTile d p .uncorrectable
      else if 1000 < ((inWindowN s.now hourNs (s.tile d p).tmCorrectedTimes).map (·.2)).sum then
        s.ownCascade fun x => x.retireTile d p .correctedRate
      else if ((s.tile d p).arrayQueue.head?.map fun o => decide (3 ≤ o.executions) && !o.flickers.isEmpty) = some true then
        s.ownCascade fun x => x.retireTile d p .replayLimit
      else s) := by
  change execTileRetired d p s = _
  rw [execTileRetired, if_pos tile]
  dsimp only
  split
  · rfl
  split
  · rfl
  simp only [Option.getD_eq_iff, Bool.false_eq_true, and_false, or_false]
  split <;> rfl

end

/-! ### Channels (R641) -/

/-- The threshold that the rule of a code finds reached; 1 to 4 are the rules (log entry 62). -/
def State.channelThreshold (s : State) (st ch : Nat) : Nat → Option Threshold
  | 1 => if s.flash.policy.channelUncorrectable ≤ (inWindow s.now hourNs (s.channel st ch).uncorrectableTimes).length then
      some .uncorrectable else none
  | 2 => if s.flash.policy.channelCorrected < ((inWindowN s.now hourNs (s.channel st ch).correctedTimes).map (·.2)).sum then
      some .correctedRate else none
  | 3 => if s.flash.policy.channelTransient < (inWindow s.now hourNs (s.channel st ch).transientTimes).length then
      some .transientRate else none
  | 4 => if 2 ≤ (inWindow s.now hourNs (s.bsu st ch).sramTimes).length then some .uncorrectable else none
  | _ => none

theorem State.channelThreshold_of_noRule (s : State) (st ch : Nat) {code : Nat} (h : code = 0 ∨ 4 < code) :
    s.channelThreshold st ch code = none := by
  unfold State.channelThreshold
  split
  case h_5 => rfl
  all_goals omega

section
variable {st ch : Nat} (hst : st < 8) (hch : ch < 32) (s : State)
include hst hch

theorem exec_channelRetired (code : Nat) :
    exec (.channelRetired st ch code) s = .next
      ((s.channelThreshold st ch code).elim s fun th => s.ownCascade fun x => x.retireChannel st ch th) := by
  change execChannelRetired st ch code s = _
  rw [execChannelRetired, if_pos ⟨hst, hch⟩]
  change (match s.channelThreshold st ch code with
    | some t => Host.Outcome.next ((s.newCascade.retireChannel st ch t).inCascade none)
    | none => .next s) = _
  cases s.channelThreshold st ch code <;> rfl

theorem exec_channelRetired_of_rule {code : Nat} {due : Prop} [Decidable due] {th : Threshold}
    (rule : s.channelThreshold st ch code = if due then some th else none) :
    exec (.channelRetired st ch code) s = .next (if due then s.ownCascade fun x => x.retireChannel st ch th else s) := by
  rw [exec_channelRetired hst hch, rule]
  split <;> rfl

theorem exec_channelRetired_of_noRule {code : Nat} (h : code = 0 ∨ 4 < code) :
    exec (.channelRetired st ch code) s = .next s := by
  rw [exec_channelRetired hst hch, s.channelThreshold_of_noRule st ch h, Option.elim_none]

end

/-! ### Pages (R641, R642) -/

theorem exec_sharedPageRetired {die page : Nat} (hdie : die < 2) (hpage : page < 12288) (s : State) :
    exec (.sharedPageRetired die page) s = .next
      (if 2 ≤ (s.sharedTimes.filter fun t => t.2.1 == die && t.2.2 == page && decide (s.now ≤ t.1 + hourNs)).length then
        s.ownCascade fun x => x.retireSharedPage die page .uncorrectable else s) := by
  change execSharedPageRetired die page s = _
  rw [execSharedPageRetired, if_pos ⟨hdie, hpage⟩]
  split <;> rfl

/-- The times of a Beacon page's uncorrectable events are forgotten: another page stands in its place (R642). -/
def State.forgetPageTimes (s : State) (page : Nat) : State :=
  { s with beacon := { s.beacon with pageTimes := s.beacon.pageTimes.filter fun t => t.2 != page } }

theorem exec_beaconPageReplaced {page : Nat} (hpage : page < 8192) (s : State) :
    exec (.beaconPageReplaced page) s = .next
      (if 2 ≤ (s.beacon.pageTimes.filter fun t => t.2 == page && decide (s.now ≤ t.1 + hourNs)).length then
        (s.forgetPageTimes page).ownCascade fun x => x.replaceBeaconPage page .uncorrectable else s) := by
  change execBeaconPageReplaced page s = _
  rw [execBeaconPageReplaced, if_pos hpage]
  split <;> rfl

/-! ### Lamplighter's own faults (R605, R645) and flash appends (R671) -/

theorem exec_lamplighterRestart (cause : RestartCause) (s : State) :
    exec (.lamplighterRestart cause) s = .next (if s.lampServes = true then s.lampRestart cause else s) := by
  change execLamplighterRestart cause s = _
  rw [execLamplighterRestart, ← State.lampServes]
  split <;> rfl

theorem exec_uncontained (cause : UncontainedCause) (s : State) :
    exec (.uncontained cause) s =
      .next (if s.lampServes = true then s.enterFaulted .uncontained .uncontained else s) := by
  change execUncontained cause s = _
  rw [execUncontained, ← State.lampServes]
  split <;> rfl

section
variable {s : State}

theorem exec_flashAppendComplete_of_none (idle : nextAppend s.events.appends = none) (ok : Bool) :
    exec (.flashAppendComplete ok) s = .next s := by
  change execFlashAppendComplete ok s = _
  simp only [execFlashAppendComplete, idle]

variable {a : FlashAppend} (served : nextAppend s.events.appends = some a)
include served

theorem exec_flashAppendComplete_ok : exec (.flashAppendComplete true) s = .next (s.appended a) := by
  change execFlashAppendComplete true s = _
  simp only [execFlashAppendComplete, served, if_true]

theorem exec_flashAppendComplete_failed :
    exec (.flashAppendComplete false) s =
      .next (if a.isLog = true ∧ s.dev.lit = true then s.logAppendFailed else s) := by
  change execFlashAppendComplete false s = _
  simp only [execFlashAppendComplete, served, Bool.false_eq_true, if_false, Bool.and_eq_true]
  split <;> rfl

end

/-- Settles O34, row by row: what each counts, against its threshold. -/
theorem unitsRetireAtTheirThresholds : Obligations.UnitsRetireAtTheirThresholds := by
  unfold Obligations.UnitsRetireAtTheirThresholds
  intro s
  exact ⟨fun d p tile => ⟨fun a array => ⟨exec_arrayRetired_of_belowThreshold tile s array,
      fun _ => exec_arrayRetired_of_threshold tile s array⟩, exec_tileRetired tile s⟩,
    fun _ _ hst hch => ⟨exec_channelRetired_of_rule hst hch s rfl, exec_channelRetired_of_rule hst hch s rfl,
      exec_channelRetired_of_rule hst hch s rfl, exec_channelRetired_of_rule hst hch s rfl,
      fun _ noRule => exec_channelRetired_of_noRule hst hch s noRule⟩,
    fun _ _ hdie hpage => exec_sharedPageRetired hdie hpage s, fun _ hpage => exec_beaconPageReplaced hpage s,
    fun cause => exec_lamplighterRestart cause s, fun cause => exec_uncontained cause s,
    exec_flashAppendComplete_of_none,
    fun _ served => ⟨exec_flashAppendComplete_ok served, exec_flashAppendComplete_failed served⟩⟩

end Sys2Proof.Machine
end

section
/-! PROOF. Stream instructions: when a row's instruction stands at its stream's program counter, and what it then does
(O37). -/

namespace Sys2Proof.Machine

/-- The stream acts, and the instruction at its program counter, inside its program, is of operation `op` (R203). -/
def State.StandsAt (s : State) (r : StreamRef) (op : Nat) : Prop :=
  s.streamActs r = true ∧ (s.slotAt r).pc < (s.headOf r).count ∧ (s.streamInstr r).op = op

/-! ### A row acts where its instruction stands -/

section
variable {s : State} {r : StreamRef} (present : refExists r = true) {op : Nat} (f : State → StreamRef → State)
include present

theorem State.instrRow_of_standsAt (stands : s.StandsAt r op) :
    s.instrRow r op f = .next (f (s.chargeOwner (refOwner r)) r) := by
  obtain ⟨acts, inside, is⟩ := stands
  simp [State.instrRow, present, acts, inside, is]

theorem State.instrRow_of_not_standsAt (elsewhere : ¬ s.StandsAt r op) : s.instrRow r op f = .next s := by
  rw [State.instrRow, if_pos present, if_neg]
  simp only [Bool.and_eq_true, beq_iff_eq, decide_eq_true_eq]
  exact fun ⟨⟨acts, is⟩, inside⟩ => elsewhere ⟨acts, inside, is⟩

end

/-! ### The instructions with cases of their own -/

section
variable {s : State} {r : StreamRef}

/-- INDEX on a value at or above the limit (R215). -/
theorem State.doIndex_of_limit {v : Nat} {rest : List Nat} (next : (s.slotAt r).fifo = v :: rest)
    (atLimit : (s.headOf r).indexLimit ≤ v) : s.doIndex r = s.streamFail r rsIndexRange (s.headOf r).srcTier false := by
  simp only [State.doIndex, next, if_pos atLimit]

/-- INDEX pops a value below the limit into its address register (R204). -/
theorem State.doIndex_of_value {v : Nat} {rest : List Nat} (next : (s.slotAt r).fifo = v :: rest)
    (below : v < (s.headOf r).indexLimit) :
    s.doIndex r = s.modSlot r fun y =>
      { (y.resume s.now).step with
        fifo := rest
        a := modAt y.a (s.streamInstr r).ra fun _ =>
          mask44 (y.a.getD (s.streamInstr r).rb 0 + v * ((s.streamInstr r).imm % 2 ^ 32))
        indexed := (s.now, 4) :: inWindowN s.now 8000 y.indexed } := by
  simp only [State.doIndex, next, if_neg (Nat.not_le.mpr below)]

theorem State.doIndex_of_exhausted (empty : (s.slotAt r).fifo = []) (done : (s.slotAt r).indexDone = true) :
    s.doIndex r = s.streamFail r rsIndexExhausted (s.headOf r).srcTier false := by
  simp only [State.doIndex, empty, if_pos done]

theorem State.doIndex_of_emptyFifo (empty : (s.slotAt r).fifo = []) (more : (s.slotAt r).indexDone = false) :
    s.doIndex r = s.streamWaits r .emptyFifo := by
  simp only [State.doIndex, empty, more, Bool.false_eq_true, if_false]

/-- A stream without ENCODE_FTC has nothing to encode (R213). -/
theorem State.encodeRun_of_plain {h : StreamHead} (plain : h.encodeFtc = false) (instr n : Nat) :
    s.encodeRun r h instr n = s := by
  cases n with
  | zero => rfl
  | succ k => simp [State.encodeRun, plain]

/-- END of a stream without ENCODE_FTC closes its blocks, and no request follows (R204). -/
theorem State.doEnd_of_plain (plain : (s.headOf r).encodeFtc = false) :
    s.doEnd r = (s.modSlot r fun y =>
      { y with ended := true, wait := .none, filling := y.filling.map fun b => { b with closed := true } }).streamCheck
        r := by
  rw [State.doEnd, State.encodeRun_of_plain plain]

end

/-- Settles O37: a row whose instruction does not stand at the program counter changes nothing; the others act on the
state with the wait charged, from SETA to MOVE each by its one equation, INDEX by what its FIFO holds, and END by
whether the stream encodes. -/
theorem streamInstructionsActAsTheirTableGives : Obligations.StreamInstructionsActAsTheirTableGives := by
  unfold Obligations.StreamInstructionsActAsTheirTableGives
  intro s r present
  have acts {op : Nat} (f : State → StreamRef → State) (stands : s.StandsAt r op) :=
    State.instrRow_of_standsAt present f stands
  refine ⟨acts State.doSeta, acts State.doSets, acts State.doAdds, acts State.doAddq, acts State.doLoop,
    acts State.doLoopq, acts State.doEndloop, acts State.doMove, fun stands => ?index, fun stands => ?ends, ?elsewhere⟩
  case index =>
    have row : exec (.streamIndex r) s = .next (State.doIndex _ r) := acts State.doIndex stands
    rw [row]
    exact ⟨fun _ _ next atLimit => by rw [State.doIndex_of_limit next atLimit]; rfl,
      fun _ _ next below => by rw [State.doIndex_of_value next below]; rfl,
      fun empty done => by rw [State.doIndex_of_exhausted empty done]; rfl,
      fun empty more => by rw [State.doIndex_of_emptyFifo empty more]⟩
  case ends =>
    have row : exec (.streamEnd r) s = .next (State.doEnd _ r) := acts State.doEnd stands
    exact ⟨row, fun plain => by rw [row, State.doEnd_of_plain plain]⟩
  case elsewhere =>
    simp only [List.forall_mem_cons, List.not_mem_nil, false_imp_iff, implies_true, and_true]
    have stays {op : Nat} (f : State → StreamRef → State) (elsewhere : ¬ s.StandsAt r op) :=
      State.instrRow_of_not_standsAt present f elsewhere
    exact ⟨stays State.doEnd, stays State.doSeta, stays State.doSets, stays State.doAdds, stays State.doAddq,
      stays State.doLoop, stays State.doLoopq, stays State.doEndloop, stays State.doMove, stays State.doIndex⟩

end Sys2Proof.Machine
end

section
/-! PROOF. Memory: a run of bytes reads back as written and leaves the rest, and a canonical memory is known by what it
reads (O56). -/

namespace Sys2Proof.Machine

/-! ### A run of bytes -/

theorem Mem.get_write_outside {m : List Host.Cell} (bs : List Byte) {x y : Nat} (canonical : Mem.wf m = true)
    (outside : y < x ∨ x + bs.length ≤ y) : Mem.get (Mem.write m x bs) y = Mem.get m y := by
  induction bs generalizing m x with
  | nil => rfl
  | cons b bs ih =>
    rw [List.length_cons] at outside
    calc Mem.get (Mem.write (Mem.set m x b) (x + 1) bs) y
      _ = Mem.get (Mem.set m x b) y := ih (Mem.wf_set x b canonical) (by omega)
      _ = Mem.get m y := by rw [Mem.get_set x y b canonical, if_neg (by omega)]

theorem Mem.read_succ (m : List Host.Cell) (x n : Nat) :
    Mem.read m x (n + 1) = Mem.get m x :: Mem.read m (x + 1) n := by
  simp [Mem.read, List.range_succ_eq_map, Nat.add_assoc, Nat.add_comm 1]

theorem Mem.read_write {m : List Host.Cell} (x : Nat) (bs : List Byte) (canonical : Mem.wf m = true) :
    Mem.read (Mem.write m x bs) x bs.length = bs := by
  induction bs generalizing m x with
  | nil => rfl
  | cons b bs ih =>
    have canonical' := Mem.wf_set x b canonical
    have first : Mem.get (Mem.write (Mem.set m x b) (x + 1) bs) x = b := by
      rw [Mem.get_write_outside bs canonical' (.inl x.lt_succ_self), Mem.get_set x x b canonical, if_pos rfl]
    rw [List.length_cons, Mem.read_succ, Mem.write, first, ih (x + 1) canonical']

/-! ### Extensionality -/

theorem Mem.get_of_mem {m : List Host.Cell} {c : Host.Cell} (sorted : m.Pairwise fun a b => a.1 < b.1) (h : c ∈ m) :
    Mem.get m c.1 = c.2 := by
  induction m with
  | nil => cases h
  | cons d m ih =>
    obtain ⟨first, sorted⟩ := List.pairwise_cons.mp sorted
    cases h with
    | head => exact if_pos rfl
    | tail _ h =>
      have later : d.1 < c.1 := first c h
      rw [Mem.get, if_neg (by omega), if_neg (by omega), ih sorted h]

theorem Mem.mem_of_get {m : List Host.Cell} {a : Nat} (listed : Mem.get m a ≠ Mem.unlisted) : (a, Mem.get m a) ∈ m := by
  induction m with
  | nil => exact absurd rfl listed
  | cons d m ih =>
    unfold Mem.get at listed ⊢
    split
    case isTrue here => exact here ▸ List.mem_cons_self
    case isFalse elsewhere =>
      rw [if_neg elsewhere] at listed
      split
      case isTrue below => exact absurd (if_pos below) listed
      case isFalse above =>
        rw [if_neg above] at listed
        exact List.mem_cons_of_mem _ (ih listed)

/-- The entries of a canonical memory are the addresses that do not read as unlisted ones, with what they read. -/
theorem Mem.mem_iff_get {m : List Host.Cell} (canonical : Mem.wf m = true) (c : Host.Cell) :
    c ∈ m ↔ Mem.get m c.1 = c.2 ∧ c.2 ≠ Mem.unlisted := by
  obtain ⟨sorted, listed⟩ := (Mem.wf_iff m).mp canonical
  refine ⟨fun h => ⟨Mem.get_of_mem sorted h, listed c h⟩, fun ⟨reads, h⟩ => ?_⟩
  have entry := Mem.mem_of_get (reads ▸ h)
  rwa [reads] at entry

theorem Mem.ext_get {m k : List Host.Cell} (hm : Mem.wf m = true) (hk : Mem.wf k = true)
    (same : ∀ a, Mem.get m a = Mem.get k a) : m = k := by
  obtain ⟨sorted_m, -⟩ := (Mem.wf_iff m).mp hm
  obtain ⟨sorted_k, -⟩ := (Mem.wf_iff k).mp hk
  have distinct {l : List Host.Cell} (sorted : l.Pairwise fun a b => a.1 < b.1) : l.Nodup :=
    sorted.imp fun lt e => Nat.ne_of_lt lt (congrArg Prod.fst e)
  have permuted : m.Perm k := (List.perm_ext_iff_of_nodup (distinct sorted_m) (distinct sorted_k)).mpr fun c => by
    rw [Mem.mem_iff_get hm, Mem.mem_iff_get hk, same]
  exact permuted.eq_of_pairwise (fun _ _ _ _ lt gt => absurd gt (Nat.lt_asymm lt)) sorted_m sorted_k

/-- Settles O56: a run is written byte by byte, and the entries of a canonical memory are what it reads. -/
theorem memoryReadsWhatWasWrittenLast : Obligations.MemoryReadsWhatWasWrittenLast := by
  unfold Obligations.MemoryReadsWhatWasWrittenLast
  exact ⟨fun _ x bs canonical => ⟨Mem.wf_write x bs canonical, Mem.read_write x bs canonical,
    fun _ => Mem.get_write_outside bs canonical⟩, fun _ _ => Mem.ext_get⟩

end Sys2Proof.Machine
end

section
/-! PROOF. How the oldest object goes to its sink, and how lost copies are rebuilt (O41). -/

namespace Sys2Proof.Machine

/-! ### What leaves the queue of objects alone -/

@[simp] theorem State.modSlot_exports (s : State) (r : StreamRef) (f : StreamSlot → StreamSlot) :
    (s.modSlot r f).exports = s.exports := by
  cases r <;> rfl

@[simp] theorem State.binStall_exports (s : State) (d : Nat) (c : StallCause) (cycles : Nat) :
    (s.binStall d c cycles).exports = s.exports := by
  unfold State.binStall
  split <;> rfl

@[simp] theorem State.endEpisode_exports (s : State) (d p : Nat) : (s.endEpisode d p).exports = s.exports := by
  unfold State.endEpisode
  split
  · exact s.binStall_exports d _ _
  · rfl

@[simp] theorem State.goOnStall_exports (s : State) (d p : Nat) (c : StallCause) (cycles : Nat) :
    (s.goOnStall d p c cycles).exports = s.exports := by
  unfold State.goOnStall
  split
  · split
    · rfl
    · exact State.endEpisode_exports _ d p
  · rfl

@[simp] theorem State.chargeStall_exports (s : State) (d p : Nat) : (s.chargeStall d p).exports = s.exports := by
  unfold State.chargeStall
  split
  · rfl
  · dsimp only
    rw [State.modTile_exports]
    split
    · rfl
    · split
      · exact s.goOnStall_exports d p _ _
      · exact s.endEpisode_exports d p

@[simp] theorem State.chargeOwner_exports (s : State) (o : ReqOwner) : (s.chargeOwner o).exports = s.exports := by
  cases o with
  | tileSlot d p n => exact s.chargeStall_exports d p
  | _ => rfl

@[simp] theorem State.streamWaits_exports (s : State) (r : StreamRef) (w : StreamWait) :
    (s.streamWaits r w).exports = s.exports :=
  (State.modSlot_exports _ r _).trans (s.chargeOwner_exports _)

@[simp] theorem State.takeUnit_exports (s : State) (r : StreamRef) (enc : Bool) :
    (s.takeUnit r enc).exports = s.exports := by
  unfold State.takeUnit
  dsimp only
  split
  · exact State.modSlot_exports _ r _
  · exact State.streamWaits_exports _ r _

@[simp] theorem State.clearIndexDone_exports (s : State) (r : StreamRef) :
    (s.clearIndexDone r).exports = s.exports := by
  unfold State.clearIndexDone
  split
  · exact s.modSlot_exports _ _
  · rfl

@[simp] theorem State.takeFtc_exports (s : State) (r : StreamRef) (h : StreamHead) :
    (s.takeFtc r h).exports = s.exports := by
  unfold State.takeFtc
  split
  · exact s.takeUnit_exports r _
  · rfl

@[simp] theorem State.startSlot_exports (s : State) (r : StreamRef) (ctx done : Nat) (q : List (BitVec 64)) :
    (s.startSlot r ctx done q).exports = s.exports := by
  simp [State.startSlot]

@[simp] theorem State.modBsuOp_exports (s : State) (id : Nat) (f : BsuOp → BsuOp) :
    (s.modBsuOp id f).exports = s.exports := rfl

@[simp] theorem State.chargeBsu_exports (s : State) (st ch : Nat) : (s.chargeBsu st ch).exports = s.exports := rfl

@[simp] theorem State.startBsuStream_exports (s : State) (g : Program) (st ch : Nat) (op : BsuOp) (p : BsuPart) :
    (s.startBsuStream g st ch op p).exports = s.exports := by
  simp [State.startBsuStream]

@[simp] theorem State.kickOnce_exports (s : State) (st ch : Nat) : (s.kickOnce st ch).exports = s.exports := by
  unfold State.kickOnce
  dsimp only
  split
  · rfl
  split
  · split
    · split
      · rfl
      split
      · split
        · exact s.startBsuStream_exports _ st ch _ _
        · rfl
      split <;> rfl
    · rfl
  · split <;> rfl

@[simp] theorem State.kickBsu_exports (s : State) (st ch : Nat) : (s.kickBsu st ch).exports = s.exports := by
  unfold State.kickBsu
  rw [State.modBsu_exports]
  refine foldl_keep (fun t : State => t.exports = s.exports) rfl fun t _ kept => ?_
  dsimp only
  split
  · exact (t.kickOnce_exports st ch).trans kept
  · exact kept

@[simp] theorem State.wakeBsu_exports (s : State) (st ch : Nat) : (s.wakeBsu st ch).exports = s.exports := by
  unfold State.wakeBsu
  split
  · rfl
  · exact State.kickBsu_exports _ st ch
  · exact State.kickBsu_exports _ st ch
  · rfl

@[simp] theorem State.askExport_exports (s : State) (l : List ChannelRange) : (s.askExport l).exports = s.exports :=
  foldl_keep (fun t : State => t.exports = s.exports)
    (foldl_keep (fun t : State => t.exports = s.exports) rfl fun _ _ kept => kept)
    fun t c kept => (t.wakeBsu_exports c.1 c.2).trans kept

/-! ### EXPORT_START (R408, R409) -/

/-- What the object reads of both banks. -/
def State.exportRanges (s : State) (g : Program) (p : PlanHeader) (x : Export) : List ChannelRange :=
  if x.kind = .update then
    s.bankRanges g p.state s.commit.epochBank ++ s.bankRanges g p.state (1 - s.commit.epochBank)
  else []

/-- The object as its sink receives it. -/
def State.formedObject (s : State) (g : Program) (p : PlanHeader) (x : Export) : List Byte :=
  s.deltaObject x (s.deltaSections g p.state x)

/-- The device after the oldest object has asked for its encoder, if it needs one. -/
def State.encoderAsked (s : State) (l : List ChannelRange) : State := ((exportRef l).map s.takeEncoder).getD s

theorem exec_exportStart_of_empty {s : State} (empty : s.exports = []) : exec .exportStart s = .next s := by
  change execExportStart s = _
  simp only [execExportStart, empty]

section
variable {s : State} {x : Export} {rest : List Export} {g : Program} {p : PlanHeader}
  (oldest : s.exports = x :: rest) (loaded : s.program = some g) (plan : g.plan = some p)
include oldest loaded plan

theorem exec_exportStart_of_held
    (held : x.started = true ∨ s.exportsNow = false ∨ s.adopts g = false ∨ p.deltaSink = 0) :
    exec .exportStart s = .next s := by
  change execExportStart s = _
  simp only [execExportStart, oldest, loaded, plan]
  rw [if_pos]
  simpa [or_assoc] using held

section
variable (fresh : x.started = false) (now : s.exportsNow = true) (adopted : s.adopts g = true) (sink : p.deltaSink ≠ 0)
include fresh now adopted sink

theorem exec_exportStart_of_failure {st ch why : Nat}
    (fails : s.firstFailure (s.exportRanges g p x) = some (st, ch, why)) :
    exec .exportStart s = .next ((s.exportFails st ch why).inCascade none) := by
  change execExportStart s = _
  unfold State.exportRanges at fails
  simp [execExportStart, oldest, loaded, plan, fresh, now, adopted, sink, fails]

variable (reads : s.firstFailure (s.exportRanges g p x) = none)
include reads

theorem exec_exportStart_of_refusal (refused : s.sinkRefuses p (s.formedObject g p x).length = true) :
    exec .exportStart s = .next (s.dropExport x .ok) := by
  change execExportStart s = _
  unfold State.exportRanges at reads
  unfold State.formedObject at refused
  simp [execExportStart, oldest, loaded, plan, fresh, now, adopted, sink, reads, refused]

variable (taken : s.sinkRefuses p (s.formedObject g p x).length = false)
include taken

theorem exec_exportStart_of_noEncoder
    (waits : (s.encoderAsked (s.exportRanges g p x)).hasEncoder (exportRef (s.exportRanges g p x)) = false) :
    exec .exportStart s = .next (s.encoderAsked (s.exportRanges g p x)) := by
  change execExportStart s = _
  unfold State.encoderAsked State.exportRanges at *
  unfold State.formedObject at taken
  simp [execExportStart, oldest, loaded, plan, fresh, now, adopted, sink, reads, taken, waits]

theorem exec_exportStart_of_encoder
    (has : (s.encoderAsked (s.exportRanges g p x)).hasEncoder (exportRef (s.exportRanges g p x)) = true) :
    ∃ t : State, exec .exportStart s = .next t ∧
      t.exports = { x with started := true, object := s.formedObject g p x } :: rest := by
  change ∃ t : State, execExportStart s = .next t ∧ _
  unfold State.encoderAsked State.exportRanges at *
  unfold State.formedObject at *
  simp only [execExportStart, oldest, loaded, plan, fresh, now, adopted, sink, reads, taken, has, beq_iff_eq,
    Bool.not_true, Bool.or_self, Bool.false_or, Bool.false_eq_true, if_false]
  exact ⟨_, rfl, State.askExport_exports _ _⟩

end

end

/-! ### EXPORT_COMPLETE (R409) -/

/-- The sink has the object: host memory holds it, or the port of its queue has sent it in frames. -/
def State.delivered (s : State) (p : PlanHeader) (x : Export) : State :=
  if p.deltaSink = 2 then s.hostWrite (((s.region p.deltaTarget).map (·.base)).getD 0) x.object
  else
    match s.exportQueue p with
    | some q => s.modPort q.port fun a => { a with ethFramesSent := satAdd a.ethFramesSent (ceilDiv x.object.length 4096) }
    | none => s

/-- The object is off the queue, and its length noted. -/
def State.tookObject (s : State) (p : PlanHeader) (x : Export) : State :=
  let t := s.delivered p x
  ({ t with sweep := { t.sweep with exportBytes := x.object.length } } : State).popExport

theorem State.delivered_exports (s : State) (p : PlanHeader) (x : Export) : (s.delivered p x).exports = s.exports := by
  unfold State.delivered
  split
  · rfl
  · split <;> rfl

theorem State.delivered_hostMem_of_host (s : State) {p : PlanHeader} (x : Export) (host : p.deltaSink = 2) :
    (s.delivered p x).hostMem = (s.hostWrite (((s.region p.deltaTarget).map (·.base)).getD 0) x.object).hostMem := by
  rw [State.delivered, if_pos host]

theorem State.delivered_hostMem_of_port (s : State) {p : PlanHeader} (x : Export) (port : p.deltaSink ≠ 2) :
    (s.delivered p x).hostMem = s.hostMem := by
  rw [State.delivered, if_neg port]
  split <;> rfl

theorem State.tookObject_exports {s : State} {x : Export} {rest : List Export} (oldest : s.exports = x :: rest)
    (p : PlanHeader) : (s.tookObject p x).exports = rest :=
  congrArg List.tail ((s.delivered_exports p x).trans oldest)

theorem State.tookObject_exportBytes (s : State) (p : PlanHeader) (x : Export) :
    (s.tookObject p x).sweep.exportBytes = x.object.length := rfl

theorem State.tookObject_hostMem (s : State) (p : PlanHeader) (x : Export) :
    (s.tookObject p x).hostMem = (s.delivered p x).hostMem := rfl

theorem exec_exportComplete_of_empty {s : State} (empty : s.exports = []) : exec .exportComplete s = .next s := by
  change execExportComplete s = _
  simp only [execExportComplete, empty]

section
variable {s : State} {x : Export} {rest : List Export} {g : Program} {p : PlanHeader}
  (oldest : s.exports = x :: rest) (loaded : s.program = some g) (plan : g.plan = some p)
include oldest loaded plan

theorem exec_exportComplete_eq :
    exec .exportComplete s = .next
      (if x.started = true ∧ s.sinkUp p = true ∧ s.exportRuns = true then (s.tookObject p x).exportsDone else s) := by
  have planned : s.program.bind Program.plan = some p := by rw [loaded, Option.bind_some, plan]
  change execExportComplete s = _
  simp only [execExportComplete, oldest, planned, Bool.and_eq_true, and_assoc]
  split <;> rfl

theorem exec_exportComplete_of_held (held : x.started = false ∨ s.sinkUp p = false ∨ s.exportRuns = false) :
    exec .exportComplete s = .next s := by
  rw [exec_exportComplete_eq oldest loaded plan, if_neg]
  rintro ⟨started, up, runs⟩
  simp [started, up, runs] at held

theorem exec_exportComplete_of_started (started : x.started = true) (up : s.sinkUp p = true)
    (runs : s.exportRuns = true) : exec .exportComplete s = .next (s.tookObject p x).exportsDone := by
  rw [exec_exportComplete_eq oldest loaded plan, if_pos ⟨started, up, runs⟩]

end

/-! ### What leaves the commit area's description alone -/

@[simp] theorem State.raise_commit (s : State) (e : EventSpec) : (s.raise e).commit = s.commit := by
  unfold State.raise
  dsimp only
  split <;> rfl

@[simp] theorem State.activate_commit (s : State) (a : Nat) : (s.activate a).commit = s.commit := by
  unfold State.activate
  split <;> rfl

@[simp] theorem State.countStack_commit (s : State) (write : Bool) (a n : Nat) :
    (s.countStack write a n).commit = s.commit := by
  refine foldl_keep (fun t : State => t.commit = s.commit) rfl fun t piece kept => ?_
  dsimp only
  split <;> split <;> exact (t.activate_commit piece.1).trans kept

@[simp] theorem State.writeCopy_commit (s : State) (g : Program) (die : Nat) :
    (s.writeCopy g die).commit = s.commit :=
  foldl_keep (fun t : State × List Byte => t.1.commit = s.commit) rfl fun t piece kept =>
    (t.1.countStack_commit true piece.1 piece.2).trans kept

@[simp] theorem State.writeCopies_commit (s : State) (g : Program) : (s.writeCopies g).commit = s.commit := by
  simp [State.writeCopies]

/-! ### COMMIT_COPY_REBUILT (R400, R457) -/

/-- Where copies of the commit area belong (R395). -/
def State.copiesDue (s : State) : List (Nat × Nat) := if s.commit.present then s.commitPlaces else []

/-- The places among them that hold no copy. -/
def State.copiesLost (s : State) : List (Nat × Nat) :=
  s.copiesDue.filter fun c => !s.commit.copies.contains c || (s.recordsAt c).isEmpty

/-- Each of them takes the surviving copy. -/
def State.restoreArea (s : State) : State :=
  let surviving := s.commit.copies.filter fun x => !s.copiesLost.contains x
  let t := s.copiesLost.foldl (fun (u : State) c => u.copyArea surviving c) s
  { t with commit := { t.commit with copies := s.copiesDue, rebuild := false } }

/-- The program copies are written anew, too. -/
def State.restoreCopies (s : State) : State := (s.program.map s.restoreArea.writeCopies).getD s.restoreArea

/-- The places that hold a copy now and held none before. -/
def State.newPlaces (s : State) : List (Nat × Nat) :=
  (s.copiesLost ++
    (((s.program.map fun g => s.copyPlaces g 0 ++ s.copyPlaces g 1).getD []).filter fun c =>
      !s.copyChannels.contains c).map fun c => (c.1, c.2.1)).eraseDups

/-- The event of each place (R457). -/
def State.raiseRebuilt (s : State) (places : List (Nat × Nat)) : State :=
  (places.foldl (fun u c => u.raise { code := .commitCopyRebuilt, unit := channelUnit c.1 c.2, value := c.1 })
    s.newCascade).inCascade none

theorem exec_commitCopyRebuilt_of_no_readBack (s : State) : exec (.commitCopyRebuilt false) s = .next s := by
  change execCommitCopyRebuilt false s = _
  simp [execCommitCopyRebuilt]

theorem exec_commitCopyRebuilt_of_idle {s : State} (idle : s.commit.rebuild = false) :
    exec (.commitCopyRebuilt true) s = .next s := by
  change execCommitCopyRebuilt true s = _
  simp [execCommitCopyRebuilt, idle]

theorem exec_commitCopyRebuilt_of_lost {s : State} (lost : s.commit.rebuild = true) :
    exec (.commitCopyRebuilt true) s = .next (s.restoreCopies.raiseRebuilt s.newPlaces) := by
  change execCommitCopyRebuilt true s = _
  rw [execCommitCopyRebuilt, if_pos (by rw [lost]; rfl)]
  rfl

theorem State.raiseRebuilt_commit (s : State) (places : List (Nat × Nat)) :
    (s.raiseRebuilt places).commit = s.commit :=
  foldl_keep (fun t : State => t.commit = s.commit) rfl fun t _ kept => (t.raise_commit _).trans kept

theorem State.restoreCopies_commit (s : State) : s.restoreCopies.commit = s.restoreArea.commit := by
  unfold State.restoreCopies
  cases s.program with
  | none => rfl
  | some g => rw [Option.map_some, Option.getD_some, State.writeCopies_commit]

/-- Where every copy is in its place and no program is loaded, no byte is written. -/
theorem State.rebuilt_mem_of_whole {s : State} (unloaded : s.program = none) (whole : s.copiesLost = []) :
    (s.restoreCopies.raiseRebuilt s.newPlaces).mem = s.mem := by
  have noPlace : s.newPlaces = [] := by
    rw [State.newPlaces, whole, unloaded]
    rfl
  have area : s.restoreArea.mem = s.mem := by
    rw [State.restoreArea, whole]
    rfl
  rw [noPlace, State.restoreCopies, unloaded]
  exact area

theorem State.copiesLost_of_whole {s : State}
    (whole : ∀ c ∈ s.copiesDue, s.commit.copies.contains c = true ∧ s.recordsAt c ≠ []) : s.copiesLost = [] := by
  refine List.filter_eq_nil_iff.mpr fun c due => ?_
  obtain ⟨held, records⟩ := whole c due
  rw [held, List.isEmpty_eq_false_iff.mpr records]
  decide

theorem exec_commitCopyRebuilt_restores {s : State} (lost : s.commit.rebuild = true) :
    ∃ t : State, exec (.commitCopyRebuilt true) s = .next t ∧ t.commit.rebuild = false ∧
      t.commit.copies = s.copiesDue ∧
      (s.program = none → (∀ c ∈ t.commit.copies, s.commit.copies.contains c = true ∧ s.recordsAt c ≠ []) →
        t.mem = s.mem) := by
  have area : (s.restoreCopies.raiseRebuilt s.newPlaces).commit = s.restoreArea.commit :=
    (State.raiseRebuilt_commit _ _).trans s.restoreCopies_commit
  have copies : (s.restoreCopies.raiseRebuilt s.newPlaces).commit.copies = s.copiesDue := by rw [area]; rfl
  refine ⟨_, exec_commitCopyRebuilt_of_lost lost, by rw [area]; rfl, copies, fun unloaded whole => ?_⟩
  rw [copies] at whole
  exact State.rebuilt_mem_of_whole unloaded (State.copiesLost_of_whole whole)

/-- Settles O41: EXPORT_START by what holds the oldest object back, EXPORT_COMPLETE by the kind of its sink, and
COMMIT_COPY_REBUILT by whether a rebuild is due. -/
theorem exportsAndRebuildsCompleteInOrder : Obligations.ExportsAndRebuildsCompleteInOrder := by
  unfold Obligations.ExportsAndRebuildsCompleteInOrder
  intro s
  refine ⟨fun empty => ⟨exec_exportStart_of_empty empty, exec_exportComplete_of_empty empty⟩,
    fun x rest g p oldest loaded plan => ⟨exec_exportStart_of_held oldest loaded plan,
      fun fresh now adopted sink => ⟨fun st ch why fails => ?failure, fun reads => ⟨fun refused => ?refusal,
        fun taken => ⟨fun waits => ?waiting, fun has => ?begins⟩⟩⟩,
      exec_exportComplete_of_held oldest loaded plan, fun started up runs host => ?toHost,
      fun started up runs port => ?toPort⟩,
    exec_commitCopyRebuilt_of_no_readBack s, exec_commitCopyRebuilt_of_idle, exec_commitCopyRebuilt_restores⟩
  case failure => exact exec_exportStart_of_failure oldest loaded plan fresh now adopted sink fails
  case refusal => exact exec_exportStart_of_refusal oldest loaded plan fresh now adopted sink reads refused
  case waiting => exact exec_exportStart_of_noEncoder oldest loaded plan fresh now adopted sink reads taken waits
  case begins => exact exec_exportStart_of_encoder oldest loaded plan fresh now adopted sink reads taken has
  case toHost =>
    exact ⟨s.tookObject p x, exec_exportComplete_of_started oldest loaded plan started up runs,
      State.tookObject_exports oldest p, s.tookObject_exportBytes p x,
      (s.tookObject_hostMem p x).trans (s.delivered_hostMem_of_host x host)⟩
  case toPort =>
    exact ⟨s.tookObject p x, exec_exportComplete_of_started oldest loaded plan started up runs,
      State.tookObject_exports oldest p, s.tookObject_exportBytes p x,
      (s.tookObject_hostMem p x).trans (s.delivered_hostMem_of_port x port)⟩

end Sys2Proof.Machine
end

section
/-! PROOF. Refresh, the patrol scrubber, the sensors and stages of a stack, PHY calibration, and the quarters of the
shared buffers (O45): each row acts on a stack in service and leaves another alone. -/

namespace Sys2Proof.Machine

/-! ### A row of a stack acts where the stack is in service -/

theorem stackRow_of_inService {st : Nat} {s : State} (hst : st < 8) (serves : s.stackInService st = true) (t : State) :
    stackRow st s t = .next t := by
  rw [stackRow, if_pos hst, if_pos serves]

theorem stackRow_of_outOfService {st : Nat} {s : State} (hst : st < 8) (out : s.stackInService st = false) (t : State) :
    stackRow st s t = .next s := by
  rw [stackRow, if_pos hst, out]
  rfl

/-! ### Refresh (R444, R445, R446, R492) -/

theorem bankExists_of_lt {st pch bank : Nat} (hst : st < 8) (hpch : pch < 64) (hbank : bank < 64) :
    bankExists st pch bank = true := by
  simp [bankExists, hst, hpch, hbank]

/-- The refresh that refresh management asks for: the bank is held meanwhile, and its count starts again. -/
def State.managedRefresh (s : State) (st pch bank : Nat) : State :=
  let b := s.bank st pch bank
  (((s.chargeAll.setBank st pch bank { b with held := true }).advanceTo (s.now + 190)).chargeAll.setBank st pch bank
    { b with row := none, activations := 0 }).modStack st fun x => { x with rfmIssued := satAdd x.rfmIssued 1 }

section
variable {st pch bank : Nat} (bankIn : bankExists st pch bank = true) (s : State)
include bankIn

theorem exec_refreshDue :
    exec (.refreshDue st pch bank) s = stackRow st s
      (if s.bankBusy st pch bank = true then s.postpone st pch bank else s.refreshNow st pch bank) := by
  change execRefreshDue st pch bank s = _
  rw [execRefreshDue, if_pos bankIn]

theorem exec_refreshForced :
    exec (.refreshForced st pch bank) s = stackRow st s
      (if (s.bank st pch bank).held = true then
        if (s.bsu st (pch / 2)).paused = true then s.endPause st (pch / 2) else s.endForced st pch bank
      else s) := by
  change execRefreshForced st pch bank s = _
  rw [execRefreshForced, if_pos bankIn]
  cases (s.bank st pch bank).held <;> rfl

theorem exec_refreshManagement :
    exec (.refreshManagement st pch bank) s = stackRow st s
      (if (s.stack st).activationThreshold ≤ (s.bank st pch bank).activations then s.managedRefresh st pch bank
      else s) := by
  change execRefreshManagement st pch bank s = _
  rw [execRefreshManagement, if_pos bankIn]
  simp only [State.activationsDue, decide_eq_true_eq]
  rfl

end

/-! ### Patrol scrub (R442, R443) -/

/-- The stack with the scrubber's position moved on, where every pseudo-channel in service has been visited. -/
def State.scrubOn (s : State) (st : Nat) : State :=
  if (s.stack st).stage = .halt then s else s.modStack st (Stack.scrubOn s.now)

theorem exec_patrolScrubSector {pch : Nat} (hpch : pch < 64) (st : Nat) (ecc : Ecc) (s : State) :
    exec (.patrolScrubSector st pch ecc) s = stackRow st s
      (let k := (s.scrubOn st).stack st
      if k.stage = .halt ∨ (k.channels.getD (pch / 2) {}).retired = true ∨ pch ∈ k.scrubbed then s.scrubOn st
      else ((s.scrubOn st).newCascade.scrubSector st pch ecc).inCascade none) := by
  change execPatrolScrubSector st pch ecc s = _
  rw [execPatrolScrubSector, if_pos hpch]
  refine congrArg (stackRow st s) (ite_congr (propext ?_) (fun _ => rfl) fun _ => rfl)
  simp only [State.scrubOn, Bool.or_eq_true, decide_eq_true_eq, List.contains_iff_mem, or_assoc]

@[simp] theorem State.raise_nextSeq (s : State) (e : EventSpec) :
    (s.raise e).events.nextSeq = s.events.nextSeq + 1 := by
  unfold State.raise
  dsimp only
  split <;> rfl

@[simp] theorem State.raise_now (s : State) (e : EventSpec) : (s.raise e).now = s.now := by
  unfold State.raise
  dsimp only
  split <;> rfl

/-- The event of a cycle that has reached its 24 hours: one cascade of one record. -/
def State.raiseScrubLate (s : State) (st : Nat) : State :=
  let start := (s.stack st).scrubStart
  let due := s.advanceTo (start + 24 * hourNs)
  ((due.modStack st fun k => { k with scrubLate := true, scrubRaised := true }).newCascade.raise
    { code := .scrubLate, unit := stackUnit st, value := (due.now - start) / hourNs }).inCascade none

theorem State.raiseScrubLate_nextSeq (s : State) (st : Nat) :
    (s.raiseScrubLate st).events.nextSeq = s.events.nextSeq + 1 :=
  State.raise_nextSeq _ _

theorem State.raiseScrubLate_now (s : State) (st : Nat) :
    (s.raiseScrubLate st).now = max s.now ((s.stack st).scrubStart + 24 * hourNs) :=
  State.raise_now _ _

theorem exec_scrubLate (st : Nat) (s : State) :
    exec (.scrubLate st) s =
      stackRow st s (if (s.stack st).scrubRaised = true then s else s.raiseScrubLate st) := rfl

/-! ### What leaves the time alone -/

@[simp] theorem State.modSlot_now (s : State) (r : StreamRef) (f : StreamSlot → StreamSlot) :
    (s.modSlot r f).now = s.now := by
  cases r <;> rfl

@[simp] theorem State.binStall_now (s : State) (d : Nat) (c : StallCause) (cycles : Nat) :
    (s.binStall d c cycles).now = s.now := by
  unfold State.binStall
  split <;> rfl

@[simp] theorem State.endEpisode_now (s : State) (d p : Nat) : (s.endEpisode d p).now = s.now := by
  unfold State.endEpisode
  split
  · exact s.binStall_now d _ _
  · rfl

@[simp] theorem State.goOnStall_now (s : State) (d p : Nat) (c : StallCause) (cycles : Nat) :
    (s.goOnStall d p c cycles).now = s.now := by
  simp only [State.goOnStall]
  split
  case h_1 => split <;> simp [State.countStall]
  case h_2 => rfl

@[simp] theorem State.chargeStall_now (s : State) (d p : Nat) : (s.chargeStall d p).now = s.now := by
  simp only [State.chargeStall]
  split
  case h_1 => rfl
  case h_2 =>
    rw [State.modTile_now]
    split
    · rfl
    · split
      · exact s.goOnStall_now d p _ _
      · exact s.endEpisode_now d p

@[simp] theorem State.chargeOwner_now (s : State) (o : ReqOwner) : (s.chargeOwner o).now = s.now := by
  cases o with
  | tileSlot d p n => exact s.chargeStall_now d p
  | _ => rfl

@[simp] theorem State.takeFtc_now (s : State) (r : StreamRef) (h : StreamHead) : (s.takeFtc r h).now = s.now := by
  simp only [State.takeFtc, State.takeUnit, State.streamWaits]
  split
  · split <;> simp
  · rfl

@[simp] theorem State.clearIndexDone_now (s : State) (r : StreamRef) : (s.clearIndexDone r).now = s.now := by
  unfold State.clearIndexDone
  split
  · exact s.modSlot_now _ _
  · rfl

@[simp] theorem State.startBsuStream_now (s : State) (g : Program) (st ch : Nat) (op : BsuOp) (p : BsuPart) :
    (s.startBsuStream g st ch op p).now = s.now := by
  simp [State.startBsuStream, State.startSlot, State.modBsuOp, State.chargeBsu]

@[simp] theorem State.claim_now (s : State) (st ch : Nat) (k : SliceKind) (elems : Nat × Nat) (fp : List Nat) :
    (s.claim st ch k elems fp).now = s.now := rfl

/-- A free BSU waits, claims a slice, or starts a stream. -/
@[simp] theorem State.kickOnce_now (s : State) (st ch : Nat) : (s.kickOnce st ch).now = s.now := by
  simp only [State.kickOnce, State.claimOp]
  repeat' split
  all_goals simp

/-- A BSU that goes on starts its next work at once. -/
@[simp] theorem State.kickBsu_now (s : State) (st ch : Nat) : (s.kickBsu st ch).now = s.now := by
  rw [State.kickBsu, State.modBsu_now]
  refine foldl_keep (fun t : State => t.now = s.now) rfl fun t _ kept => ?_
  dsimp only
  split
  · exact (t.kickOnce_now st ch).trans kept
  · exact kept

theorem State.kickAll_now (s : State) (st : Nat) (channels : List Nat) :
    (channels.foldl (fun u ch => u.kickBsu st ch) s).now = s.now :=
  foldl_keep (fun u : State => u.now = s.now) rfl fun u ch kept => (u.kickBsu_now st ch).trans kept

/-! ### Sensors and stages (R448, R450, R452) -/

theorem exec_stackSensorSample (st : Nat) (temps : List Int) (s : State) :
    exec (.stackSensorSample st temps) s = stackRow st s
      (let s1 := s.advanceTo ((s.stack st).lastSample + 50 * usNs)
      let s2 := s1.modStack st (Stack.sample s1.now temps)
      if temps.length ≠ 17 ∨ ∃ x ∈ temps, x < -32768 ∨ 32767 < x then s
      else if (s.stack st).stage ≠ .halt ∧ (s2.stack st).stage = .halt then (s2.enterHalt st).inCascade none
      else s2) := by
  change execStackSensorSample st temps s = _
  simp only [execStackSensorSample, Bool.or_eq_true, decide_eq_true_eq, List.any_eq_true]

/-- Readings of all 17 sensors that their words hold are a sample. -/
theorem not_badSample {temps : List Int} (all : temps.length = 17) (inRange : ∀ x ∈ temps, -32768 ≤ x ∧ x ≤ 32767) :
    ¬(temps.length ≠ 17 ∨ ∃ x ∈ temps, x < -32768 ∨ 32767 < x) := by
  rintro (short | ⟨x, read, outside⟩)
  · exact short all
  · have := inRange x read
    omega

/-- A stack that falls to the stage below at a time. -/
def Stack.fall (now : Nat) (k : Stack) : Stack :=
  let y := k.enterStage now k.stage.below
  Stack.noteCalm now { y with hotLayer := if y.stage = .normal then 0 else y.hotLayer }

/-- The fall of a stage that has been calm since `t`, 10 ms after the later of that and its entry; its BSUs go on. -/
def State.fallStage (s : State) (st t : Nat) : State :=
  let due := s.advanceTo (max t (s.stack st).stageSince + 10 * msNs)
  (List.range 32).foldl (fun u ch => u.kickBsu st ch) (due.modStack st (Stack.fall due.now))

theorem State.fallStage_now (s : State) (st t : Nat) :
    (s.fallStage st t).now = max s.now (max t (s.stack st).stageSince + 10 * msNs) := by
  rw [State.fallStage, State.kickAll_now, State.modStack_now, State.advanceTo_now]

theorem exec_stageFall (st : Nat) (s : State) :
    exec (.stageFall st) s = stackRow st s ((s.stack st).calmSince.elim s (s.fallStage st)) := by
  change execStageFall st s = _
  rw [execStageFall]
  refine congrArg (stackRow st s) ?_
  cases (s.stack st).calmSince with
  | none => rfl
  | some t => rw [Option.elim_some, State.fallStage]; rfl

/-! ### PHY calibration (R744) -/

/-- The calibration of a pseudo-channel begins at the end of the one before. -/
def State.calibrate (s : State) (st pch : Nat) : State :=
  let t := s.advanceTo (((s.stack st).calibrating.map (·.2)).getD 0)
  ({ t with tele := { t.tele with phyCalibrations := satAdd t.tele.phyCalibrations 1 } } : State).modStack st
    fun x => { x with calibrating := some (pch, t.now + 200), nextCalibration := (pch + 1) % 64 }

section
variable {st pch : Nat} (hst : st < 8) (hpch : pch < 64) {s : State}
include hst hpch

theorem exec_phyCalibration_of_outOfService (out : s.stackInService st = false) :
    exec (.phyCalibration st pch) s = .next s := by
  change execPhyCalibration st pch s = _
  rw [execPhyCalibration, if_pos ⟨hst, hpch⟩, out, Bool.and_false, Bool.false_and]
  rfl

theorem exec_phyCalibration_of_inService (lit : s.dev.lit = true) (serves : s.stackInService st = true)
    (cool : (s.stack st).stage ≠ .halt) : exec (.phyCalibration st pch) s = .next (s.calibrate st pch) := by
  change execPhyCalibration st pch s = _
  have due : (s.dev.lit && s.stackInService st && (s.stack st).stage != .halt) = true := by
    rw [lit, serves, bne_iff_ne.mpr cool]
    rfl
  rw [execPhyCalibration, if_pos ⟨hst, hpch⟩, if_pos due]
  rfl

end

/-! ### Quarters of the shared buffers (R719, R720) -/

section
variable {d q : Nat} (quarter : quarterExists d q = true) (s : State)
include quarter

theorem exec_sharedQuarterDark :
    exec (.sharedQuarterDark d q) s = .next
      (if s.sharedLit.getD (4 * d + q) false = true then
        { s.advanceTo (s.sharedAccess.getD (4 * d + q) 0 + 100 * usNs) with
          sharedLit := modAt s.sharedLit (4 * d + q) fun _ => false }
      else s) := by
  change execSharedQuarterDark d q s = _
  rw [execSharedQuarterDark, if_pos quarter]

theorem exec_sharedQuarterLit :
    exec (.sharedQuarterLit d q) s = .next
      (if s.dieInService d = true ∧ s.sharedLit.getD (4 * d + q) false = false ∧
          ∃ r ∈ s.requests, r.discarded = false ∧ (inQuarter d q r.src = true ∨ inQuarter d q r.dst = true) then
        { s with
          sharedLit := modAt s.sharedLit (4 * d + q) fun _ => true
          sharedAccess := modAt s.sharedAccess (4 * d + q) fun _ => s.now }
      else s) := by
  change execSharedQuarterLit d q s = _
  rw [execSharedQuarterLit, if_pos quarter]
  simp only [Bool.and_eq_true, Bool.or_eq_true, Bool.not_eq_true', List.any_eq_true, and_assoc]

end

/-! ### Each clause of the statement -/

section
variable {st : Nat} (hst : st < 8) {s : State}
include hst

theorem exec_scrubLate_raises (serves : s.stackInService st = true) (fresh : (s.stack st).scrubRaised = false) :
    ∃ t : State, exec (.scrubLate st) s = .next t ∧ t.events.nextSeq = s.events.nextSeq + 1 ∧
      (s.stack st).scrubStart + 24 * hourNs ≤ t.now := by
  refine ⟨s.raiseScrubLate st, ?_, s.raiseScrubLate_nextSeq st, ?_⟩
  · rw [exec_scrubLate, stackRow_of_inService hst serves, fresh]
    rfl
  · rw [State.raiseScrubLate_now]
    exact Nat.le_max_right _ _

theorem exec_stageFall_falls (serves : s.stackInService st = true) {t : Nat} (calm : (s.stack st).calmSince = some t) :
    ∃ u : State, exec (.stageFall st) s = .next u ∧ max t (s.stack st).stageSince + 10 * msNs ≤ u.now := by
  refine ⟨s.fallStage st t, ?_, ?_⟩
  · rw [exec_stageFall, stackRow_of_inService hst serves, calm, Option.elim_some]
  · rw [State.fallStage_now]
    exact Nat.le_max_right _ _

/-- A stack that is not in service keeps all it has. -/
theorem stackRows_of_outOfService (out : s.stackInService st = false) :
    (∀ temps, exec (.stackSensorSample st temps) s = .next s) ∧ exec (.scrubLate st) s = .next s ∧
      exec (.stageFall st) s = .next s ∧
      ∀ pch, pch < 64 → exec (.phyCalibration st pch) s = .next s ∧
        (∀ ecc, exec (.patrolScrubSector st pch ecc) s = .next s) ∧
        ∀ bank, bank < 64 → exec (.refreshDue st pch bank) s = .next s ∧ exec (.refreshForced st pch bank) s = .next s ∧
          exec (.refreshManagement st pch bank) s = .next s := by
  have idle := stackRow_of_outOfService hst out
  refine ⟨fun temps => ?sample, ?late, ?fall, fun pch hpch =>
    ⟨exec_phyCalibration_of_outOfService hst hpch out, fun ecc => ?scrub, fun bank hbank => ?refresh⟩⟩
  case sample => rw [exec_stackSensorSample, idle]
  case late => rw [exec_scrubLate, idle]
  case fall => rw [exec_stageFall, idle]
  case scrub => rw [exec_patrolScrubSector hpch, idle]
  case refresh =>
    have bankIn := bankExists_of_lt hst hpch hbank
    rw [exec_refreshDue bankIn, exec_refreshForced bankIn, exec_refreshManagement bankIn, idle, idle, idle]
    exact ⟨rfl, rfl, rfl⟩

end

/-- Settles O45: the rows of a stack by whether it is in service, then the quarters of the shared buffers. -/
theorem stacksRefreshScrubAndKeepTheirStages : Obligations.StacksRefreshScrubAndKeepTheirStages := by
  unfold Obligations.StacksRefreshScrubAndKeepTheirStages
  intro s
  refine ⟨fun st hst out => stackRows_of_outOfService hst out, fun st hst serves => ?inService,
    fun d q quarter => ⟨exec_sharedQuarterDark quarter s, exec_sharedQuarterLit quarter s⟩⟩
  have acts := stackRow_of_inService hst serves
  refine ⟨fun pch hpch => ⟨fun bank hbank => ?refresh, fun ecc => ?scrub,
      fun lit cool => exec_phyCalibration_of_inService hst hpch lit serves cool⟩,
    fun raised => ?lateAgain, exec_scrubLate_raises hst serves, fun temps bad => ?badSample,
    fun temps all inRange => ?sample, fun restless => ?restless, fun _ => exec_stageFall_falls hst serves⟩
  case refresh =>
    have bankIn := bankExists_of_lt hst hpch hbank
    exact ⟨(exec_refreshDue bankIn s).trans (acts _), (exec_refreshForced bankIn s).trans (acts _),
      (exec_refreshManagement bankIn s).trans (acts _)⟩
  case scrub => exact (exec_patrolScrubSector hpch st ecc s).trans (acts _)
  case lateAgain => rw [exec_scrubLate, acts, if_pos raised]
  case badSample => rw [exec_stackSensorSample, acts, if_pos bad]
  case sample => rw [exec_stackSensorSample, acts, if_neg (not_badSample all inRange)]
  case restless => rw [exec_stageFall, acts, restless, Option.elim_none]

end Sys2Proof.Machine
end

section
/-! PROOF. Bank-side units: the rows that dispatch an operation (O43), and the rows of one unit, by the slice, the state
and the window it is in (O44). -/

namespace Sys2Proof.Machine

/-! ### Dispatch (R465, R469) -/

/-- The bank-side rows, each with the operation code that it issues (R465). -/
def bankSideRows : List (Nat × (Nat → Nat → Nat → BsuDesc → Instr)) :=
  [(bopAdd, .bsuAdd), (bopMul, .bsuMul), (bopAxpy, .bsuAxpy), (bopScale, .bsuScale), (bopFill, .bsuFill),
    (bopCopy, .bsuCopy), (bopConvert, .bsuConvert), (bopAccum, .bsuAccum), (bopSum, .bsuSum), (bopNorm2, .bsuNorm2),
    (bopAmax, .bsuAmax), (bopGather, .bsuGather), (bopScatterAdd, .bsuScatterAdd), (bopStream, .bsuStream)]

theorem exec_bankSideRow (s : State) (d p done : Nat) (o : BsuDesc) :
    ∀ row ∈ bankSideRows, exec (row.2 d p done o) s = s.bsuRow d p done row.1 o := by
  simp only [bankSideRows, List.forall_mem_cons, List.not_mem_nil, false_implies, implies_true, and_true]
  and_intros <;> rfl

section
variable {s : State} {d p done bop : Nat} {o : BsuDesc} (tile : tileExists d p = true)
include tile

theorem State.bsuRow_of_dispatch {g : Program} (loaded : s.program = some g) (issues : s.canIssue d p = true)
    (hdone : done < 256) (good : bsuDescOk g { o with bop := bop } = true) :
    s.bsuRow d p done bop o = .next (s.bsuColl d p done { o with bop := bop }) := by
  simp [State.bsuRow, tile, loaded, issues, hdone, good]

theorem State.bsuRow_of_noDispatch
    (h : s.canIssue d p = false ∨ 256 ≤ done ∨ ∀ g, s.program = some g → bsuDescOk g { o with bop := bop } = false) :
    s.bsuRow d p done bop o = .next s := by
  rw [State.bsuRow, if_pos tile]
  rcases h with held | noEvent | bad
  case inl => simp [held]
  case inr.inl => simp [Nat.not_lt.mpr noEvent]
  case inr.inr =>
    cases loaded : s.program with
    | none => simp
    | some g => simp [bad g loaded]

end

/-- Settles O43, by what a row's operation meets: a tile that issues it, or one of the reasons that nothing changes. -/
theorem bankSideRowsDispatchTheirOperation : Obligations.BankSideRowsDispatchTheirOperation := by
  unfold Obligations.BankSideRowsDispatchTheirOperation
  intro s d p done o tile row mem
  rw [exec_bankSideRow s d p done o row mem]
  exact ⟨fun _ loaded issues hdone good => State.bsuRow_of_dispatch tile loaded issues hdone good,
    State.bsuRow_of_noDispatch tile⟩

/-! ### Slices, errors, light and windows of one unit -/

section
variable {st ch : Nat} (unit : bsuExists st ch = true) (s : State)
include unit

theorem exec_landingAccum (ecc : Ecc) :
    exec (.landingAccum st ch ecc) s =
      .next (if (s.bsu st ch).slice = some .landing then s.landSlice st ch ecc else s) :=
  if_pos unit

theorem exec_bsuSliceEnd_of_operation (ecc : Ecc) (id : Nat) (running : (s.bsu st ch).slice = some (.op id)) :
    exec (.bsuSliceEnd st ch ecc) s = .next (s.endSlice st ch id ecc) := by
  change execBsuSliceEnd st ch ecc s = _
  rw [execBsuSliceEnd, if_pos unit, running]

theorem exec_bsuSliceEnd_of_exportOut (ecc : Ecc) (sending : (s.bsu st ch).slice = some .exportOut) :
    exec (.bsuSliceEnd st ch ecc) s = .next ((s.releaseSlice st ch 65536).boundary st ch) := by
  change execBsuSliceEnd st ch ecc s = _
  rw [execBsuSliceEnd, if_pos unit, sending]

/-- A landing slice ends with LANDING_ACCUM (R489). -/
theorem exec_bsuSliceEnd_of_landing_or_none (ecc : Ecc)
    (h : (s.bsu st ch).slice = some .landing ∨ (s.bsu st ch).slice = none) :
    exec (.bsuSliceEnd st ch ecc) s = .next s := by
  change execBsuSliceEnd st ch ecc s = _
  rw [execBsuSliceEnd, if_pos unit]
  rcases h with landing | idle
  · rw [landing]
  · rw [idle]

theorem exec_bsuIdleDark :
    exec (.bsuIdleDark st ch) s = .next
      (if (s.bsu st ch).state = .idle ∧ (s.bsu st ch).quiet = true then
        (s.advanceTo ((s.bsu st ch).lastWork + 20000)).modBsu st ch fun x => { x with state := .dark, lighting := false }
      else s) := by
  change execBsuIdleDark st ch s = _
  simp only [execBsuIdleDark, if_pos unit, Bool.and_eq_true, beq_iff_eq, apply_ite Host.Outcome.next]

theorem exec_bsuLit :
    exec (.bsuLit st ch) s = .next
      (if (s.bsu st ch).lighting = true ∧ (s.bsu st ch).state = .dark ∧ s.stackInService st = true then
        (s.modBsu st ch fun x => { x with state := .idle, lighting := false, lastWork := s.now }).kickBsu st ch
      else s) := by
  change execBsuLit st ch s = _
  simp only [execBsuLit, if_pos unit, Bool.and_eq_true, beq_iff_eq, and_assoc, apply_ite Host.Outcome.next]

theorem exec_bsuDutyWindow :
    exec (.bsuDutyWindow st ch) s = .next
      (if (s.bsu st ch).dutySpent = true then
        (s.modBsu st ch fun x =>
          { x with
            dutySpent := false, waitSince := none, stallSince := s.now
            stalls := modAt x.stalls StallCause.thermalHold.code
              (satAdd · (s.now - (s.bsu st ch).waitSince.getD s.now)) }).kickBsu st ch
      else if (s.stack st).dutyCap = .full then s
      else (s.chargeBsu st ch).modBsu st ch fun x =>
        { x with dutySpent := true, waitSince := if x.busy = true then some s.now else none }) := by
  change execBsuDutyWindow st ch s = _
  simp only [execBsuDutyWindow, if_pos unit, apply_ite Host.Outcome.next]

end

/-! ### Errors (R494, R495) -/

section
variable {st ch : Nat} (unit : bsuExists st ch = true) {s : State} {id reason : Nat}
include unit

theorem exec_bsuOperationError_of_noError (h : bsuReasonOk reason = false ∨ (s.bsu st ch).state = .retired) :
    exec (.bsuOperationError id st ch reason) s = .next s := by
  have ignored : (!bsuReasonOk reason || (s.bsu st ch).state == .retired) = true := by simpa using h
  change execBsuOperationError id st ch reason s = _
  rw [execBsuOperationError, if_pos unit]
  exact congrArg Host.Outcome.next (if_pos ignored)

section
variable (known : bsuReasonOk reason = true) (serves : (s.bsu st ch).state ≠ .retired)
include known serves

/-- The operation of a program that has a part on the unit fails, in a step that goes on. -/
theorem exec_bsuOperationError_of_operation {o : BsuOp} {part : BsuPart} (running : s.bsuOp id = some o)
    (here : o.part st ch = some part) :
    exec (.bsuOperationError id st ch reason) s = .next
      (if s.stepOpen = true ∧ s.stopped = false then s.bsuFails st ch o.desc reason false else s) := by
  change execBsuOperationError id st ch reason s = _
  simp [execBsuOperationError, unit, known, serves, running, here]

/-- Without such an operation the landing or the update operation of the unit fails, or else the object it exports. -/
theorem exec_bsuOperationError_of_noOperation (free : s.bsuOp id = none) (hrange : reason ≠ rsIndexRange)
    (hrow : reason ≠ 0x8006) :
    exec (.bsuOperationError id st ch reason) s = .next
      (if s.stepOpen = true ∧ s.stopped = false ∧
          ((s.bsu st ch).landings ≠ [] ∨ (0x20 ≤ (s.bsu st ch).updateOp ∧ (s.bsu st ch).updateOp ≤ 0x23)) then
        s.bsuDeviceFails st ch reason false
      else if (s.bsu st ch).exportPending = true then s.exportFails st ch reason else s) := by
  change execBsuOperationError id st ch reason s = _
  simp [execBsuOperationError, Bsu.failsStep, unit, known, serves, free, hrange, hrow, and_assoc]

end

end

/-! ### The end of an operation (R469) -/

theorem exec_bsuOperationComplete_of_none {s : State} {id : Nat} (free : s.bsuOp id = none) :
    exec (.bsuOperationComplete id) s = .next s := by
  change execBsuOperationComplete id s = _
  rw [execBsuOperationComplete, free]

theorem exec_bsuOperationComplete_of_some {s : State} {id : Nat} {op : BsuOp} (running : s.bsuOp id = some op) :
    exec (.bsuOperationComplete id) s = .next
      (if s.stepOpen = true ∧ s.stopped = false ∧ s.bsuDone op = true then
        op.parts.foldl (fun x q => x.kickBsu q.stack q.channel) (s.finishBsu op) else s) := by
  change execBsuOperationComplete id s = _
  rw [execBsuOperationComplete, running]
  simp only [Bool.and_eq_true, Bool.not_eq_true', and_assoc, apply_ite Host.Outcome.next]

/-- Settles O44: the rows of one unit, then the end of an operation that several units may share. -/
theorem bankSideUnitsRunSliceBySlice : Obligations.BankSideUnitsRunSliceBySlice := by
  unfold Obligations.BankSideUnitsRunSliceBySlice
  intro s
  refine ⟨fun st ch unit => ?_, fun _ => exec_bsuOperationComplete_of_none,
    fun _ _ => exec_bsuOperationComplete_of_some⟩
  exact ⟨exec_landingAccum unit s,
    fun ecc => ⟨exec_bsuSliceEnd_of_operation unit s ecc, exec_bsuSliceEnd_of_exportOut unit s ecc,
      exec_bsuSliceEnd_of_landing_or_none unit s ecc⟩,
    fun _ _ => ⟨exec_bsuOperationError_of_noError unit,
      fun known serves _ _ running here => exec_bsuOperationError_of_operation unit known serves running here,
      exec_bsuOperationError_of_noOperation unit⟩,
    exec_bsuIdleDark unit s, exec_bsuLit unit s, exec_bsuDutyWindow unit s⟩

end Sys2Proof.Machine
end

section
/-! PROOF. The queue of commands: a step runs its front (O1), and no command touches the rest (O5). -/

namespace Sys2Proof.Machine

/-- Settles O5: a step is an effect on the state without the front of the queue, and no effect touches the queue. -/
theorem stepsConsumeTheQueueFromTheFront : Obligations.StepsConsumeTheQueueFromTheFront := by
  unfold Obligations.StepsConsumeTheQueueFromTheFront
  intro s t stepped
  have effect : Changes { s with pending := s.pending.tail } t := step_changes stepped
  exact effect.pending

/-- Settles O1: a queue with a front is the second case of a step. -/
theorem stepRunsTheFrontCommand : Obligations.StepRunsTheFrontCommand := by
  unfold Obligations.StepRunsTheFrontCommand
  intro c rest s
  rfl

end Sys2Proof.Machine
end

section
/-! PROOF. The link layer of a port: flits, their acknowledgement, and control messages (O48, O49). -/

namespace Sys2Proof.Machine

/-! ### What sending leaves alone -/

/-- The counts of a port that only arriving flits and packets move: the sequence number it expects, the flits taken,
and the packets dropped for their partition key. -/
def Port.arrivals (x : Port) : Nat × Nat × Nat := (x.rxSeq, x.flitsReceived, x.partitionDrops)

theorem Port.sendFlits_arrivals (now kind : Nat) (x : Port) (bodies : List (List Byte)) :
    (x.sendFlits now kind bodies).arrivals = x.arrivals :=
  foldl_keep (fun y : Port => y.arrivals = x.arrivals) rfl fun _ _ kept => kept

theorem Port.drain_arrivals (fuel : Nat) (x : Port) (b : List Byte) : (Port.drain fuel x b).1.arrivals = x.arrivals := by
  induction fuel generalizing x b with
  | zero => rfl
  | succ fuel ih =>
    rw [Port.drain]
    split
    case h_4 => rfl
    all_goals
      split
      · exact ih _ _
      · rfl

theorem Port.creditClock_arrivals (now : Nat) (x : Port) : (x.creditClock now).arrivals = x.arrivals := by
  rw [Port.creditClock]
  split <;> rfl

theorem Port.pump_arrivals (now : Nat) (x : Port) : (x.pump now).arrivals = x.arrivals := by
  rw [Port.pump, Port.creditClock_arrivals, Port.sendFlits_arrivals, Port.drain_arrivals]

theorem Port.enqueue_arrivals (now : Nat) (forwarded : Bool) (x : Port) (p : Packet) :
    (x.enqueue now forwarded p).arrivals = x.arrivals := by
  rw [Port.enqueue, Port.pump_arrivals]
  split
  · rfl
  · split <;> rfl

theorem Port.acked_arrivals (x : Port) (seq : Nat) : (x.acked seq).arrivals = x.arrivals := by
  rw [Port.acked]
  split <;> rfl

theorem Port.takeFlit_arrivals (now : Nat) (f : Flit) (x : Port) : (x.takeFlit now f).arrivals = x.arrivals := by
  rw [Port.takeFlit, Port.pump_arrivals]
  have acked : (if f.ackValid || f.nak then x.acked f.ack else x).arrivals = x.arrivals := by
    split
    · exact x.acked_arrivals f.ack
    · rfl
  split <;> exact acked

@[simp] theorem Port.takeFlit_rxSeq (now : Nat) (f : Flit) (x : Port) : (x.takeFlit now f).rxSeq = x.rxSeq :=
  congrArg Prod.fst (x.takeFlit_arrivals now f)

@[simp] theorem Port.takeFlit_flitsReceived (now : Nat) (f : Flit) (x : Port) :
    (x.takeFlit now f).flitsReceived = x.flitsReceived :=
  congrArg (fun a => a.2.1) (x.takeFlit_arrivals now f)

/-! ### Flits (R536, R537) -/

section
variable {n : Nat} (port : n < 8) (s : State)
include port

theorem exec_flitReceive_of_unlinked (unlinked : (s.port n).linked = false) (f : Flit) :
    exec (.flitReceive n f) s = .next s := by
  change execFlitReceive n f s = _
  simp [execFlitReceive, port, unlinked]

theorem exec_flitAckTimeout_of_idle (idle : (s.port n).linked = false ∨ (s.port n).replay = []) :
    exec (.flitAckTimeout n) s = .next s := by
  change execFlitAckTimeout n s = _
  rcases idle with unlinked | acked
  · simp [execFlitAckTimeout, port, unlinked]
  · simp [execFlitAckTimeout, port, acked]

variable (linked : (s.port n).linked = true)
include linked

theorem exec_flitAckTimeout_of_replay (waiting : (s.port n).replay ≠ []) :
    exec (.flitAckTimeout n) s = .next
      ((s.advanceTo ((s.port n).lastSent + 2000)).modPort n
        (Port.replayAll (max s.now ((s.port n).lastSent + 2000)))) := by
  change execFlitAckTimeout n s = _
  simp [execFlitAckTimeout, port, linked, waiting]

theorem exec_flitReceive_of_bad {f : Flit} (bad : crc32c (flitBytes f) ≠ f.crc ∨ 2 < f.kind ∨ 5 ≤ f.creditVc) :
    exec (.flitReceive n f) s = .next
      (s.modPort n fun x => { x with flitCrcErrors := satAdd x.flitCrcErrors 1, nakDue := true }) := by
  have rejected : ¬(crc32c (flitBytes f) = f.crc ∧ f.kind ≤ 2 ∧ f.creditVc < 5) := by
    rintro ⟨crc, kind, vc⟩
    rcases bad with badCrc | badKind | badVc
    · exact badCrc crc
    · omega
    · omega
  change execFlitReceive n f s = _
  simp only [execFlitReceive, port, linked, Bool.and_eq_true, beq_iff_eq, decide_eq_true_eq, and_assoc, rejected,
    if_true, if_false]

theorem exec_flitReceive_of_good {f : Flit} (crc : crc32c (flitBytes f) = f.crc) (kind : f.kind ≤ 2)
    (vc : f.creditVc < 5) : exec (.flitReceive n f) s = .next (s.modPort n (Port.goodFlit s.now f)) := by
  change execFlitReceive n f s = _
  simp [execFlitReceive, port, linked, crc, kind, vc]

end

theorem Port.goodFlit_of_inSequence (now : Nat) {f : Flit} {x : Port} (numbered : f.kind ≠ 0) (next : f.seq = x.rxSeq) :
    x.goodFlit now f =
      { x.takeFlit now f with
        rxSeq := (x.rxSeq + 1) % 4096, flitsReceived := satAdd x.flitsReceived 1, ackDue := true, nakDue := false } := by
  simp [Port.goodFlit, numbered, next]

/-! ### Control messages (R527, R539) -/

/-- The loss of a lane that the peer announces: the lane in use leaves the active set (log entry 63). -/
def State.peerTookLane (s : State) (n lane : Nat) : State :=
  if (s.lane (.port n lane)).state = .active then s.modLane (.port n lane) (Lane.enter s.now .suspect) else s

/-- What a LANE_CHANGE to `w` lanes asks of a port that runs on `width`. -/
def laneChangeOf (lane w width : Nat) : LaneChange := if w < width then .narrow w else .vacated lane none .none

section
variable {n lane : Nat} (port : n < 8) (lane5 : lane < 5) (s : State)
include port

theorem exec_quiesce :
    exec (.quiesce n) s = .next
      (if (s.port n).inService = true then s.modPort n fun x => { x with quiesceAsked := true } else s) := if_pos port

include lane5

theorem exec_retrainRequest :
    exec (.retrainRequest n lane) s = .next
      (if (s.port n).inService = true then s.addPeerChange n (.retrain lane) else s) := by
  change execRetrainRequest n lane s = _
  simp [execRetrainRequest, port, lane5]

theorem exec_laneChange (w : Nat) :
    exec (.laneChange n lane w) s = .next
      (if (s.port n).inService = true ∧ 2 ≤ w ∧ w ≤ (s.port n).width then
        (s.peerTookLane n lane).addPeerChange n (laneChangeOf lane w (s.port n).width)
      else s) := by
  change execLaneChange n lane w s = _
  simp only [execLaneChange, port, lane5, decide_true, Bool.and_self, Bool.and_eq_true, decide_eq_true_eq, and_assoc,
    if_true, apply_ite Host.Outcome.next, State.peerTookLane, laneChangeOf]

end

/-- A port out of service takes no control message. -/
theorem controlMessages_of_outOfService {n lane : Nat} (port : n < 8) (lane5 : lane < 5) {s : State}
    (out : (s.port n).inService = false) :
    (∀ w, exec (.laneChange n lane w) s = .next s) ∧ exec (.retrainRequest n lane) s = .next s ∧
      exec (.quiesce n) s = .next s := by
  refine ⟨fun w => ?_, ?_, ?_⟩
  · simp [exec_laneChange port lane5, out]
  · simp [exec_retrainRequest port lane5, out]
  · simp [exec_quiesce port, out]

/-- A port in service takes each control message. -/
theorem controlMessages_of_inService {n lane : Nat} (port : n < 8) (lane5 : lane < 5) {s : State}
    (serves : (s.port n).inService = true) :
    exec (.retrainRequest n lane) s = .next (s.addPeerChange n (.retrain lane)) ∧
      exec (.quiesce n) s = .next (s.modPort n fun x => { x with quiesceAsked := true }) ∧
      ∀ w, exec (.laneChange n lane w) s = .next
        (if 2 ≤ w ∧ w ≤ (s.port n).width then
          (s.peerTookLane n lane).addPeerChange n (laneChangeOf lane w (s.port n).width)
        else s) := by
  refine ⟨?_, ?_, fun w => ?_⟩
  · simp [exec_retrainRequest port lane5, serves]
  · simp [exec_quiesce port, serves]
  · simp [exec_laneChange port lane5, serves]

/-- Settles O48: a port that is linked or not, then one that is in service or not. -/
theorem linkLayerAcceptsFlitsInSequence : Obligations.LinkLayerAcceptsFlitsInSequence := by
  unfold Obligations.LinkLayerAcceptsFlitsInSequence
  intro s n port
  refine ⟨fun unlinked => ?_, fun linked => ?_, fun lane lane5 => ?_⟩
  · exact ⟨exec_flitReceive_of_unlinked port s unlinked, exec_flitAckTimeout_of_idle port s (.inl unlinked)⟩
  · exact ⟨fun acked => exec_flitAckTimeout_of_idle port s (.inr acked),
      exec_flitAckTimeout_of_replay port s linked,
      fun f => ⟨exec_flitReceive_of_bad port s linked, exec_flitReceive_of_good port s linked⟩⟩
  · exact ⟨controlMessages_of_outOfService port lane5, controlMessages_of_inService port lane5⟩

/-! ### The effect on the port (O49) -/

theorem State.peerTookLane_ports_length (s : State) (n lane : Nat) :
    (s.peerTookLane n lane).ports.length = s.ports.length := by
  rw [State.peerTookLane]
  split
  · exact length_modAt _ _ _
  · rfl

section
variable {s : State} {n : Nat} (present : n < s.ports.length)
include present

theorem State.port_addPeerChange (c : LaneChange) :
    ((s.addPeerChange n c).port n).peerChanges = (s.port n).peerChanges ++ [c] :=
  congrArg Port.peerChanges (s.port_modPort n _ present)

theorem State.peerTookLane_peerChanges (lane : Nat) :
    ((s.peerTookLane n lane).port n).peerChanges = (s.port n).peerChanges := by
  rw [State.peerTookLane]
  split
  · exact (congrArg Port.peerChanges (s.port_modPort n _ present)).trans rfl
  · rfl

variable (port : n < 8)
include port

theorem flitReceive_takes_flit_in_sequence (f : Flit) (linked : (s.port n).linked = true)
    (crc : crc32c (flitBytes f) = f.crc) (kind : f.kind = 1 ∨ f.kind = 2) (vc : f.creditVc < 5)
    (next : f.seq = (s.port n).rxSeq) :
    ∃ t : State, exec (.flitReceive n f) s = .next t ∧ (t.port n).rxSeq = ((s.port n).rxSeq + 1) % 4096 ∧
      (t.port n).flitsReceived = satAdd (s.port n).flitsReceived 1 ∧ (t.port n).ackDue = true ∧
      (t.port n).nakDue = false := by
  refine ⟨_, exec_flitReceive_of_good port s linked crc (by omega) vc, ?_⟩
  rw [State.port_modPort _ _ _ present, Port.goodFlit_of_inSequence s.now (by omega) next]
  exact ⟨rfl, rfl, rfl, rfl⟩

theorem flitAckTimeout_replays (linked : (s.port n).linked = true) (waiting : (s.port n).replay ≠ []) :
    ∃ t : State, exec (.flitAckTimeout n) s = .next t ∧ t.now = max s.now ((s.port n).lastSent + 2000) ∧
      (t.port n).replay = (s.port n).replay ∧
      (t.port n).replayedFlits = satAdd (s.port n).replayedFlits (s.port n).replay.length := by
  refine ⟨_, exec_flitAckTimeout_of_replay port s linked waiting, rfl, ?_⟩
  rw [State.port_modPort _ _ _ (show n < (s.advanceTo _).ports.length from present)]
  exact ⟨rfl, rfl⟩

variable (serves : (s.port n).inService = true) {lane : Nat} (lane5 : lane < 5)
include serves lane5

theorem laneChange_queues_change {w : Nat} (least : 2 ≤ w) (most : w ≤ (s.port n).width) :
    ∃ t : State, exec (.laneChange n lane w) s = .next t ∧
      (t.port n).peerChanges = (s.port n).peerChanges ++ [laneChangeOf lane w (s.port n).width] := by
  obtain ⟨-, -, change⟩ := controlMessages_of_inService port lane5 serves
  refine ⟨_, (change w).trans (by rw [if_pos ⟨least, most⟩]), ?_⟩
  rw [State.port_addPeerChange (Nat.lt_of_lt_of_eq present (s.peerTookLane_ports_length n lane).symm),
    State.peerTookLane_peerChanges present]

end

/-- Settles O49: each row's equation, read at the port. -/
theorem linkRowsComplete : Obligations.LinkRowsComplete := by
  unfold Obligations.LinkRowsComplete
  intro s n port present
  refine ⟨flitReceive_takes_flit_in_sequence present port, flitAckTimeout_replays present port,
    fun serves lane lane5 => ?_⟩
  obtain ⟨retrain, quiesce, -⟩ := controlMessages_of_inService port lane5 serves
  exact ⟨fun w => laneChange_queues_change present port serves lane5,
    ⟨_, retrain, State.port_addPeerChange present _⟩,
    ⟨_, quiesce, congrArg Port.quiesceAsked (s.port_modPort n _ present)⟩⟩

end Sys2Proof.Machine
end

section
/-! PROOF. Packets that reach a port: the checks that come before the effect of a row, forwarding, and the timeout of a
message (O51). -/

namespace Sys2Proof.Machine

/-! ### Answers (R543, R544): a packet that goes out changes the ports alone -/

/-- What holds of a state and is kept when a packet is queued on a port holds after a packet is sent to a rank. -/
theorem State.route_keeps {P : State → Prop} {s : State} (held : P s) (p : Packet) (sel : Nat)
    (sent : ∀ n q, P (s.sendOn n false q)) : P (s.route p sel) := by
  rw [State.route]
  split
  · exact held
  · split
    · exact held
    · exact sent _ _

theorem State.nack_keeps {P : State → Prop} {s : State} (held : P s) (reason : Nat) (p : Packet)
    (sent : ∀ n q, P (s.sendOn n false q)) : P (s.nack reason p) :=
  State.route_keeps held _ _ sent

/-- A table mapped by `g`, with its default, reads as `g` of what the table reads (core Lean has it for `Option` only). -/
theorem getD_map_apply {α β : Type} (g : α → β) (l : List α) (n : Nat) (d : α) :
    (l.map g).getD n (g d) = g (l.getD n d) := by
  rw [List.getD_eq_getElem?_getD, List.getD_eq_getElem?_getD, List.getElem?_map, Option.getD_map]

/-- A property of a port that an update keeps is the same at every port after it. -/
theorem State.port_modPort_keeps {α : Type} {g : Port → α} {f : Port → Port} (kept : ∀ x, g (f x) = g x) (s : State)
    (m n : Nat) : g ((s.modPort m f).port n) = g (s.port n) := by
  calc g ((modAt s.ports m f).getD n {})
    _ = ((modAt s.ports m f).map g).getD n (g {}) := (getD_map_apply g _ n {}).symm
    _ = (s.ports.map g).getD n (g {}) := by rw [modAt_map g _ _ _ kept]
    _ = g (s.ports.getD n {}) := getD_map_apply g _ n {}

theorem State.sendOn_arrivals (s : State) (m : Nat) (forwarded : Bool) (p : Packet) (n : Nat) :
    ((s.sendOn m forwarded p).port n).arrivals = (s.port n).arrivals :=
  State.port_modPort_keeps (fun x => x.enqueue_arrivals s.now forwarded p) s m n

/-! ### The first checks (R541, R542, R543) -/

theorem State.freed_ports_length (s : State) (n : Nat) (p : Packet) : (s.freed n p).ports.length = s.ports.length :=
  length_modAt _ _ _

theorem State.freed_partitionDrops {s : State} {n : Nat} (present : n < s.ports.length) (p : Packet) :
    ((s.freed n p).port n).partitionDrops = (s.port n).partitionDrops :=
  (congrArg Port.partitionDrops (s.port_modPort n _ present)).trans rfl

/-- A packet with a foreign partition key: counted, and answered where its type is. -/
def State.dropForeign (s : State) (n : Nat) (p : Packet) : State :=
  let s1 := s.modPort n fun x => { x with partitionDrops := satAdd x.partitionDrops 1 }
  if Machine.answered p = true then s1.nack nackPartition p else s1

/-- A packet whose end-to-end CRC fails: counted and refused. -/
def State.refuseCrc (s : State) (n : Nat) (p : Packet) : State :=
  (s.modPort n fun x => { x with e2eCrcErrors := satAdd x.e2eCrcErrors 1 }).nack nackE2e p

section
variable {s : State} {p : Packet} (n : Nat)

theorem State.letIn_of_foreignKey (foreign : p.key ∉ s.flash.protection.keys) :
    s.letIn n p = (s.dropForeign n p, false) := by
  simp [State.letIn, foreign, State.dropForeign]

theorem State.letIn_of_badCrc (key : p.key ∈ s.flash.protection.keys) (bad : p.crcOf ≠ p.e2eCrc) :
    s.letIn n p = (s.refuseCrc n p, false) := by
  simp [State.letIn, key, bad, State.refuseCrc]

theorem State.letIn_of_good (key : p.key ∈ s.flash.protection.keys) (crc : p.crcOf = p.e2eCrc) :
    s.letIn n p = (s.modPort n fun x => { x with bytes := x.bytes + p.payload.length }, true) := by
  simp [State.letIn, key, crc]

/-- A property that the count of the drop and a packet queued on a port keep holds of the dropped packet's state. -/
theorem State.dropForeign_keeps {P : State → Prop}
    (counted : P (s.modPort n fun x => { x with partitionDrops := satAdd x.partitionDrops 1 }))
    (sent : ∀ u m q, P u → P (u.sendOn m false q)) : P (s.dropForeign n p) := by
  rw [State.dropForeign]
  split
  · exact State.nack_keeps counted _ p fun m q => sent _ m q counted
  · exact counted

theorem State.dropForeign_frame : (s.dropForeign n p).mem = s.mem ∧ (s.dropForeign n p).hostMem = s.hostMem ∧
    (s.dropForeign n p).run = s.run ∧ (s.dropForeign n p).program = s.program :=
  State.dropForeign_keeps (P := fun u => u.mem = s.mem ∧ u.hostMem = s.hostMem ∧ u.run = s.run ∧ u.program = s.program)
    n ⟨rfl, rfl, rfl, rfl⟩ fun _ _ _ kept => kept

theorem State.dropForeign_partitionDrops (present : n < s.ports.length) :
    ((s.dropForeign n p).port n).partitionDrops = satAdd (s.port n).partitionDrops 1 :=
  State.dropForeign_keeps (P := fun u => (u.port n).partitionDrops = satAdd (s.port n).partitionDrops 1) n
    (congrArg Port.partitionDrops (s.port_modPort n _ present))
    fun u m q kept => (congrArg (fun a => a.2.2) (u.sendOn_arrivals m false q n)).trans kept

end

/-! ### A row for packets of one type -/

section
variable {n : Nat} (port : n < 8) {s : State} {p : Packet} {ptype : Nat} (f : State → State)
include port

theorem State.packetRow_of_other (other : s.takesPackets n = false ∨ p.ptype ≠ ptype ∨ s.isMine p = false) :
    s.packetRow n p ptype f = .next s := by
  have skipped : (s.takesPackets n && p.ptype == ptype && s.isMine p) = false := by
    rcases other with closed | type | elsewhere
    · simp [closed]
    · simp [type]
    · simp [elsewhere]
  simp [State.packetRow, port, skipped]

variable (opens : s.takesPackets n = true) (type : p.ptype = ptype) (mine : s.isMine p = true)
include opens type mine

theorem State.packetRow_of_foreignKey (foreign : p.key ∉ s.flash.protection.keys) :
    s.packetRow n p ptype f = .next ((s.freed n p).dropForeign n p) := by
  simp [State.packetRow, port, opens, type, mine,
    State.letIn_of_foreignKey n (show p.key ∉ (s.freed n p).flash.protection.keys from foreign)]

variable (key : p.key ∈ s.flash.protection.keys)
include key

theorem State.packetRow_of_badCrc (bad : p.crcOf ≠ p.e2eCrc) :
    s.packetRow n p ptype f = .next ((s.freed n p).refuseCrc n p) := by
  simp [State.packetRow, port, opens, type, mine,
    State.letIn_of_badCrc n (show p.key ∈ (s.freed n p).flash.protection.keys from key) bad]

theorem State.packetRow_of_good (crc : p.crcOf = p.e2eCrc) :
    s.packetRow n p ptype f =
      .next (f ((s.freed n p).modPort n fun x => { x with bytes := x.bytes + p.payload.length })) := by
  simp [State.packetRow, port, opens, type, mine,
    State.letIn_of_good n (show p.key ∈ (s.freed n p).flash.protection.keys from key) crc]

end

/-- Every row for packets passes the same checks before its effect `f`. -/
theorem packetRow_checks_before_effect {row : Instr} {s : State} {n : Nat} {p : Packet} {ptype : Nat}
    (port : n < 8) (present : n < s.ports.length) (f : State → State)
    (runs : exec row s = s.packetRow n p ptype f) :
    (s.takesPackets n = false ∨ p.ptype ≠ ptype ∨ s.isMine p = false → exec row s = .next s) ∧
    (s.takesPackets n = true → p.ptype = ptype → s.isMine p = true →
      (p.key ∉ s.flash.protection.keys → ∃ t : State, exec row s = .next t ∧
        (t.port n).partitionDrops = satAdd (s.port n).partitionDrops 1 ∧ t.mem = s.mem ∧ t.hostMem = s.hostMem ∧
        t.run = s.run ∧ t.program = s.program) ∧
      (p.key ∈ s.flash.protection.keys → p.crcOf ≠ p.e2eCrc →
        exec row s = .next ((s.freed n p).refuseCrc n p)) ∧
      (p.key ∈ s.flash.protection.keys → p.crcOf = p.e2eCrc →
        exec row s = .next (f ((s.freed n p).modPort n fun x => { x with bytes := x.bytes + p.payload.length })))) := by
  rw [runs]
  refine ⟨State.packetRow_of_other port f, fun opens type mine => ⟨fun foreign => ?_,
    State.packetRow_of_badCrc port f opens type mine, State.packetRow_of_good port f opens type mine⟩⟩
  have drops : (((s.freed n p).dropForeign n p).port n).partitionDrops = satAdd (s.port n).partitionDrops 1 := by
    rw [State.dropForeign_partitionDrops n (Nat.lt_of_lt_of_eq present (s.freed_ports_length n p).symm),
      State.freed_partitionDrops present]
  exact ⟨_, State.packetRow_of_foreignKey port f opens type mine foreign, drops, State.dropForeign_frame n⟩

/-! ### The effects of acknowledgements and refusals (R544, R545) -/

/-- The acknowledgement of a message: the collective that waits for it may end with it, in a step that goes on. -/
def State.takeAck (s : State) (p : Packet) : State :=
  match s.instOfMsg (p.address.toNat % 2 ^ 32) with
  | none => s
  | some i =>
    let j := { i with unacked := i.unacked.filter (· != p.address.toNat % 2 ^ 32), lastActivity := s.now }
    let s1 := s.modInst i.entry i.sequence fun _ => j
    if j.unacked = [] ∧ s1.stepOpen = true ∧ s1.stopped = false then s1.finishInst (s1.planEntry i.entry) j else s1

/-- A refusal fails the fabric of the step that it names, while that step is open. -/
def State.takeNack (s : State) (n : Nat) (p : Packet) : State :=
  if s.stepOpen = true ∧ p.step = stepWord s.stepNo then
    s.fabricFails n p.srcRank p.entry (bits p.address.toNat 47 32) else s

/-- A PUT writes its payload, and is acknowledged or refused by what became of the write. -/
def State.takePut (s : State) (p : Packet) (ecc : Ecc) : State :=
  match s.unwire p with
  | (s1, none) => s1.nack nackMemory p
  | (s1, some bs) =>
    match s1.putWrite (p.address.toNat % 2 ^ 44) bs ecc with
    | (s2, some d) => s2.nack d.nackReason p
    | (s2, none) => s2.answer 0x02 0 p

theorem exec_putReceive (n : Nat) (p : Packet) (ecc : Ecc) (s : State) :
    exec (.putReceive n p ecc) s = s.packetRow n p 0x01 fun t => t.takePut p ecc := rfl

theorem exec_packetAckReceive (n : Nat) (p : Packet) (s : State) :
    exec (.packetAckReceive n p) s = s.packetRow n p 0x02 fun t => t.takeAck p := by
  change execPacketAckReceive n p s = _
  refine congrArg (s.packetRow n p 0x02) (funext fun t => ?_)
  dsimp only [State.takeAck]
  cases t.instOfMsg (p.address.toNat % 2 ^ 32) with
  | none => rfl
  | some i => simp only [Bool.and_eq_true, Bool.not_eq_true', List.isEmpty_iff, and_assoc]

theorem exec_nackReceive (n : Nat) (p : Packet) (s : State) :
    exec (.nackReceive n p) s = s.packetRow n p 0x03 fun t => t.takeNack n p := by
  change execNackReceive n p s = _
  simp only [execNackReceive, State.takeNack, Bool.and_eq_true, beq_iff_eq]

/-! ### Forwarding (R535) and the timeout of a message (R545) -/

section
variable {n : Nat} (port : n < 8) {s : State} {p : Packet}
include port

theorem exec_packetForward_of_none (idle : s.takesPackets n = false ∨ s.isMine p = true) :
    exec (.packetForward n p) s = .next s := by
  change execPacketForward n p s = _
  rcases idle with closed | mine
  · simp [execPacketForward, port, closed]
  · simp [execPacketForward, port, mine]

variable (opens : s.takesPackets n = true) (elsewhere : s.isMine p = false)
include opens elsewhere

theorem exec_packetForward_of_key (key : p.key ∈ s.flash.protection.keys) :
    exec (.packetForward n p) s = .next ((s.freed n p).forward p) := by
  change execPacketForward n p s = _
  simp [execPacketForward, port, opens, elsewhere, key]

theorem exec_packetForward_of_foreignKey (foreign : p.key ∉ s.flash.protection.keys) :
    exec (.packetForward n p) s = .next ((s.freed n p).dropForeign n p) := by
  change execPacketForward n p s = _
  simp [execPacketForward, port, opens, elsewhere, foreign, State.dropForeign]

end

theorem exec_putTimeout_of_none {s : State} {id : Nat} (idle : s.instOfMsg id = none ∨ s.stepOpen = false) :
    exec (.putTimeout id) s = .next s := by
  change execPutTimeout id s = _
  rw [execPutTimeout]
  split
  next => rfl
  next waiting =>
    rcases idle with answered | closed
    · simp [answered] at waiting
    · simp [closed]

theorem exec_putTimeout_of_some {s : State} {id : Nat} {i : CollInst} (waiting : s.instOfMsg id = some i)
    (running : s.stepOpen = true) :
    exec (.putTimeout id) s = .next
      ((s.advanceTo (i.issuedAt + s.stallLimit)).fabricFails 0xFF (s.planEntry i.entry).peer i.entry rsNoProgress) := by
  change execPutTimeout id s = _
  rw [execPutTimeout, waiting]
  exact if_pos running

/-- Settles O51: the rows for packets share their checks; then forwarding and the timeout. -/
theorem packetsAreCheckedBeforeTheyAct : Obligations.PacketsAreCheckedBeforeTheyAct := by
  unfold Obligations.PacketsAreCheckedBeforeTheyAct
  intro s n pkt port s0 take present
  have checks {row : Instr} {ptype : Nat} :=
    packetRow_checks_before_effect (row := row) (p := pkt) (ptype := ptype) port present
  refine ⟨fun ecc => checks (fun t => t.takePut pkt ecc) (exec_putReceive n pkt ecc s),
    checks (fun t => t.takeAck pkt) (exec_packetAckReceive n pkt s),
    checks (fun t => t.takeNack n pkt) (exec_nackReceive n pkt s),
    checks (fun t => t.collPacket n pkt) rfl, checks (fun t => t.collPacket n pkt) rfl,
    checks (fun t => t.takeAbort n pkt) rfl, exec_packetForward_of_none port, fun opens elsewhere => ?_,
    fun _ => ⟨exec_putTimeout_of_none, fun _ => exec_putTimeout_of_some⟩⟩
  exact ⟨exec_packetForward_of_key port opens elsewhere, exec_packetForward_of_foreignKey port opens elsewhere⟩

end Sys2Proof.Machine
end

section
/-! PROOF. Ports that train, fail and return, HELLO, and the rows of Ethernet mode (O50). -/

namespace Sys2Proof.Machine

section
variable {n : Nat} (port : n < 8) (s : State)
include port

/-! ### HELLO (R529, R544) -/

theorem exec_helloReceive_of_none {p : Packet} (idle : (s.port n).linked = false ∨ p.ptype ≠ 0x30) :
    exec (.helloReceive n p) s = .next s := by
  change execHelloReceive n p s = _
  rcases idle with unlinked | type
  · simp [execHelloReceive, port, unlinked]
  · simp [execHelloReceive, port, type]

section
variable {p : Packet} (linked : (s.port n).linked = true) (type : p.ptype = 0x30)
include linked type

theorem exec_helloReceive_of_dropped (dropped : ((s.freed n p).letIn n p).2 = false) :
    exec (.helloReceive n p) s = .next ((s.freed n p).letIn n p).1 := by
  change execHelloReceive n p s = _
  simp only [execHelloReceive, port, linked, type, BEq.rfl, Bool.and_self, if_true]
  split
  next checked => rw [checked]
  next checked => simp [checked] at dropped

theorem exec_helloReceive_of_passed (passed : ((s.freed n p).letIn n p).2 = true) :
    exec (.helloReceive n p) s = .next
      (((((s.freed n p).letIn n p).1.takeHello n (p.address.toNat % 2 ^ 14) (bits p.address.toNat 18 16)).helloTurn
        n).checkHello) := by
  change execHelloReceive n p s = _
  simp only [execHelloReceive, port, linked, type, BEq.rfl, Bool.and_self, if_true]
  split
  next checked => simp [checked] at passed
  next checked => rw [checked]

end

/-! ### Loss of the peer and its return (R575, R779, R780) -/

theorem exec_portPeerLoss :
    exec (.portPeerLoss n) s = .next
      (if (s.port n).ethernet = false ∧
          ((s.port n).state = .up ∨ (s.port n).state = .degraded ∨ (s.port n).state = .miswired) then
        (s.newCascade.failPort n .lossOfSignal).modPort n fun x => { x with peerLost := true }
      else s) := by
  change execPortPeerLoss n s = _
  simp only [execPortPeerLoss, port, if_true, apply_ite Host.Outcome.next, Bool.and_eq_true, Bool.or_eq_true,
    Bool.not_eq_true', beq_iff_eq, or_assoc]

theorem exec_portLightReturn :
    exec (.portLightReturn n) s = .next
      (if (s.port n).state = .failed ∧ (s.port n).peerLost = true then
        s.modPort n fun x => { x with state := .training }
      else s) := by
  change execPortLightReturn n s = _
  simp only [execPortLightReturn, port, if_true, Bool.and_eq_true, beq_iff_eq]

/-! ### Training (R528) -/

/-- A port of `w` good lanes, two or more, comes up afresh; fewer than four are an event. -/
def State.portUpWith (s trained : State) (n w : Nat) : State :=
  let s2 := (trained.modPort n fun x => { x.freshLink with width := w, state := stateOfWidth w }).raiseNewlyRetired s
    (.port n 0)
  let s3 := if w < 4 then s2.raise (narrowEvent (.port n 0) w .selfTest) else s2
  (s3.portBack n).sendHello n

theorem exec_portTrainingComplete (tests : List LaneTest) :
    exec (.portTrainingComplete n tests) s = .next
      (let trained := s.newCascade.trainGroup tests (.port n 0)
      if (s.port n).state = .training ∧ (s.port n).ethernet = false then
        if trained.2 < 2 then (trained.1.raiseNewlyRetired s (.port n 0)).failPort n .selfTest
        else s.portUpWith trained.1 n trained.2
      else s) := by
  change execPortTrainingComplete n tests s = _
  simp only [execPortTrainingComplete, port, if_true, apply_ite Host.Outcome.next, Bool.and_eq_true,
    Bool.not_eq_true', beq_iff_eq]
  rfl

/-! ### Ethernet mode (R547, R548, R549, R550) -/

theorem exec_ethernetLinkUp :
    exec (.ethernetLinkUp n) s = .next
      (if (s.port n).state = .training ∧ (s.port n).ethernet = true then
        s.modPort n fun x => { x with state := .ethernetUp, width := 4 }
      else s) := by
  change execEthernetLinkUp n s = _
  simp only [execEthernetLinkUp, port, if_true, Bool.and_eq_true, beq_iff_eq]

/-- The port is down until its next attempt. -/
def State.ethernetDown (s : State) (n : Nat) : State :=
  s.modPort n fun x => { x with state := .ethernetDown, width := 0, retryAt := s.now + 10000000000 }

/-- An object on its way over the port starts again. -/
def State.restartExportOn (s : State) (n : Nat) : State := if s.exportsOn n = true then s.cutExports else s

theorem exec_ethernetLaneFailure {lane : Nat} (lane5 : lane < 5) :
    exec (.ethernetLaneFailure n lane) s = .next
      (if (s.port n).state = .ethernetUp ∧ lane < 4 then
        ((s.ethernetDown n).restartExportOn n).newCascade.raise
          { code := .portDown, unit := { kind := .port, link := n } }
      else s) := by
  change execEthernetLaneFailure n lane s = _
  simp only [execEthernetLaneFailure, port, lane5, decide_true, Bool.and_self, if_true, apply_ite Host.Outcome.next,
    Bool.and_eq_true, beq_iff_eq, decide_eq_true_eq]
  rfl

theorem exec_ethernetRetrain (passed : Bool) :
    exec (.ethernetRetrain n passed) s = .next
      (let s1 := s.advanceTo (s.port n).retryAt
      if (s.port n).state = .ethernetDown then s1.modPort n fun x =>
        if passed = true then { x with state := .ethernetUp, width := 4 } else { x with retryAt := s1.now + 10000000000 }
      else s) := by
  change execEthernetRetrain n passed s = _
  simp only [execEthernetRetrain, port, if_true, apply_ite Host.Outcome.next, beq_iff_eq]
  rfl

/-! ### Frames (R548) -/

section
variable (answered : Bool) (f : Port → Port)

theorem State.frame_of_up (up : (s.port n).state = .ethernetUp) :
    s.frame n answered f = .next (s.modPort n fun x =>
      { f x with
        ethFramesReceived := satAdd x.ethFramesReceived 1
        ethFramesSent := satAdd x.ethFramesSent (bool01 answered) }) := by
  simp [State.frame, port, up]

theorem State.frame_of_notUp (down : (s.port n).state ≠ .ethernetUp) : s.frame n answered f = .next s := by
  simp [State.frame, port, down]

end

end

/-- Settles O50: each row's equation; a frame by whether the link is up. -/
theorem portsTrainFailAndReturn : Obligations.PortsTrainFailAndReturn := by
  unfold Obligations.PortsTrainFailAndReturn
  intro s n port
  refine ⟨fun pkt => ⟨exec_helloReceive_of_none port s, fun linked type => ?_⟩, exec_portPeerLoss port s,
    exec_portTrainingComplete port s, exec_portLightReturn port s, exec_ethernetLinkUp port s,
    fun _ => exec_ethernetLaneFailure port s, exec_ethernetRetrain port s, fun down => ?_, fun up => ?_⟩
  · exact ⟨exec_helloReceive_of_dropped port s linked type, exec_helloReceive_of_passed port s linked type⟩
  · exact ⟨State.frame_of_notUp port s true _ down, State.frame_of_notUp port s true _ down,
      State.frame_of_notUp port s true _ down, State.frame_of_notUp port s.takeFree false _ down⟩
  · exact ⟨State.frame_of_up port s true _ up, State.frame_of_up port s true _ up, State.frame_of_up port s true _ up,
      State.frame_of_up port s.takeFree false _ up⟩

end Sys2Proof.Machine
end

section
/-! PROOF. The windows of host memory (O57): no command changes them but a SET_PROTECTION that passes every common
check of R621. -/

namespace Sys2Proof.Machine

section
variable {s : State} {n : Nat} {spec : CmdSpec} {r : Request}

/-! ### Requests that fail a check -/

/-- The credential, the lockout and the digest that check 3 reads are not of the mailbox. -/
theorem State.copied_checkRole_allowed :
    ((s.copied n spec r).checkRole spec r).2 = (s.checkRole spec r).2 := by
  have lockout : (s.copied n spec r).lockedOut = s.lockedOut := rfl
  have flash : (s.copied n spec r).flash = s.flash := rfl
  unfold State.checkRole
  rw [lockout, flash]
  split
  · rfl
  · split
    · rfl
    · split
      · rfl
      · split <;> rfl

theorem eq_false_or_of_not_and_not {a b : Bool} (h : ¬ (a && !b) = true) : a = false ∨ b = true := by
  revert h
  cases a <;> cases b <;> decide

/-- Check 5, of the device's state and of the recovery image (R621, R687). -/
theorem State.states_and_image (h : ¬ (!spec.states s.dev ||
    s.bundle.running == .r && s.dev != .booting && !spec.recovery) = true) :
    spec.states s.dev = true ∧ (s.bundle.running = .r → s.dev = .booting ∨ spec.recovery = true) := by
  rw [Bool.or_eq_true, not_or] at h
  obtain ⟨states, image⟩ := h
  refine ⟨by simpa using states, fun recovery => (eq_false_or_of_not_and_not image).imp_left fun other => ?_⟩
  rw [recovery, BEq.rfl, Bool.true_and] at other
  exact bne_eq_false_iff_eq.mp other

/-- What checks 2 to 7 ask, each of the state as they find it (R621). -/
theorem State.checks_eq_ok {p : List Byte} (passed : (s.checks n spec r).2 = .ok p) :
    headerOk spec r = true ∧ (s.checkRole spec r).2 = true ∧ (s.host.detached = false ∨ spec.detachedOk = true) ∧
      spec.states s.dev = true ∧ (s.bundle.running = .r → s.dev = .booting ∨ spec.recovery = true) ∧
      s.conflicts n spec.cls = false ∧ s.payload r = some p ∧ s.resultOk r = true := by
  unfold State.checks at passed
  split at passed
  next => cases passed
  next header =>
  by_cases role : (s.checkRole spec r).2 = true
  · rw [State.checkRole_state role] at passed
    dsimp only at passed
    rw [if_neg (show ¬ (!true) = true by decide)] at passed
    split at passed
    next => cases passed
    next attached =>
    split at passed
    next => cases passed
    next allowed =>
    split at passed
    next => cases passed
    next conflict =>
    split at passed
    next => cases passed
    next payload =>
    split at passed
    next result =>
      cases passed
      obtain ⟨states, image⟩ := State.states_and_image allowed
      exact ⟨by simpa only [Bool.not_eq_true', Bool.not_eq_false] using header, role,
        eq_false_or_of_not_and_not attached, states, image, Bool.eq_false_iff.mpr conflict, payload, result⟩
    next => cases passed
  · have refused : (s.checkRole spec r).2 = false := Bool.eq_false_iff.mpr role
    simp only [refused, Bool.not_false, if_true] at passed
    cases passed

/-- A doorbell that is taken and whose copied request passes the checks is accepted. -/
theorem State.accepts_of_checks {p : List Byte} (there : n < 16) (serves : s.lampServes = true)
    (free : (s.mbox n).open_ = true) (passed : ((s.copied n spec r).checks n spec r).2 = .ok p) :
    s.Accepts n spec r p := by
  obtain ⟨header, role, attached, allowed, image, conflict, payload, result⟩ := State.checks_eq_ok passed
  rw [State.copied_checkRole_allowed] at role
  rw [State.copied_conflicts] at conflict
  exact { there, serves, free, header, role, attached, allowed, image, conflict, payload, result }

/-- A request that is not accepted never reaches the body of its command. -/
theorem State.command_of_not_accepted (there : n < 16) (refused : ∀ p, ¬ s.Accepts n spec r p)
    (body other : State → List Byte → State) : s.command n spec r body = s.command n spec r other := by
  unfold State.command
  split
  · rfl
  next serves =>
  split
  · rfl
  next free =>
  cases passed : (s.newCascade.submit n spec.opcode r).checks n spec r with | mk s1 res =>
  cases res with
  | error st => rfl
  | ok p =>
    have serves : s.lampServes = true := by simpa only [Bool.not_eq_true', Bool.not_eq_false] using serves
    have free : (s.mbox n).open_ = true := by simpa only [Bool.not_eq_true', Bool.not_eq_false] using free
    exact absurd (State.accepts_of_checks there serves free (congrArg Prod.snd passed)) (refused p)

/-- Such a request leaves the host windows, and host memory outside them, alone. -/
theorem State.command_evolves_of_not_accepted (there : n < 16) (refused : ∀ p, ¬ s.Accepts n spec r p)
    (body : State → List Byte → State) : Evolves s (s.command n spec r body) := by
  rw [State.command_of_not_accepted there refused body fun t _ => t]
  exact State.command_evolves (Evolves.refl s) fun _ _ same => same

end

/-! ### The statement -/

/-- Settles O57: every other command leaves the windows alone, and SET_PROTECTION changes them in its body only. -/
theorem onlySetProtectionChangesTheWindows : Obligations.OnlySetProtectionChangesTheWindows := by
  unfold Obligations.OnlySetProtectionChangesTheWindows
  intro c s t _ ran changed
  by_cases owner : ∃ n r, c = .setProtection n r
  · obtain ⟨n, r, rfl⟩ := owner
    obtain ⟨body, row⟩ := exec_mailboxCommand (i := .setProtection n r) rfl
    rw [row, onMailbox] at ran
    split at ran
    next there =>
      cases ran
      refine Classical.byContradiction fun refused => ?_
      have same : Evolves s (s.command n specSetProtection r (body s)) :=
        State.command_evolves_of_not_accepted there (fun p accepted => refused ⟨n, r, p, rfl, accepted⟩) (body s)
      exact changed same.windows
    next => cases ran
  · have same : OutEvolves s (exec c s) := exec_evolves (Evolves.refl s) c fun n r e => owner ⟨n, r, e⟩
    rw [ran] at same
    exact absurd (Evolves.windows same) changed

end Sys2Proof.Machine
end

section
/-! PROOF. Owner commands that replace the set-up (O13): the state that each body leaves, and the response and frame that
they share. -/

namespace Sys2Proof.Machine

/-! ### What host memory and a response take of the state they start from -/

theorem State.hostWrite_hostMem_congr {b c : State} (mem : c.hostMem = b.hostMem)
    (windows : c.flash.protection.windows = b.flash.protection.windows) (a : Nat) (bs : List Byte) :
    (c.hostWrite a bs).hostMem = (b.hostWrite a bs).hostMem := by
  have byte (w : Bool) (x : Nat) : c.hostByte w x = b.hostByte w x := by
    unfold State.hostByte State.windowOf
    rw [windows]
  simp only [State.hostWrite, byte, mem]

/-- An answer reads host interface, host memory and windows of its base alone. -/
theorem Answered.congr_base {n opcode : Nat} {r : Request} {st : Status} {result : List Byte} {b c t : State}
    (h : Answered n r opcode st result b t) (host : c.host = b.host) (mem : c.hostMem = b.hostMem)
    (windows : c.flash.protection.windows = b.flash.protection.windows) : Answered n r opcode st result c t :=
  { h with
    hostMem := by rw [host, State.hostWrite_hostMem_congr mem windows, mem]; exact h.hostMem
    vector := by rw [host]; exact h.vector }

/-- A body that leaves events, mailboxes and host interface as the copying of the request did, and then answers: beside
the response and its event cascade, all is as the body left it. -/
theorem State.answered_frame {s u : State} {n : Nat} {spec : CmdSpec} {r : Request} {p : List Byte} {st : Status}
    {result : List Byte} (i : s.Inv) (a : s.Accepts n spec r p) (k : st ≠ .internal)
    (events : u.events = (s.copied n spec r).events) (lamp : u.lamp = (s.copied n spec r).lamp)
    (host : u.host = s.host) :
    let t := (u.respond n st result).inCascade none
    Answered n r spec.opcode st result u t ∧
      t = { u with events := t.events, lamp := t.lamp, host := t.host, hostMem := t.hostMem } ∧
      KeepsRest n s { s with events := t.events, lamp := t.lamp, host := t.host, hostMem := t.hostMem } := by
  intro t
  obtain ⟨answered, rest, ev, ho, la, others⟩ :=
    State.answered (st := st) (result := result) i a.there k a.free (congrArg Lamplighter.mailboxes lamp)
  refine ⟨answered, ?_, rfl, ?_, ?_, ?_, ?_, others⟩
  · exact congrArg
      (fun x : State => { x with events := t.events, lamp := t.lamp, host := t.host, hostMem := t.hostMem }) rest
  · change { t.events with cascade := s.events.cascade } = s.events
    rw [show t.events = _ from ev, events]
    rfl
  · rw [host] at ho
    exact ho
  · rw [lamp] at la
    exact congrArg (fun x : Lamplighter => { x with mailboxes := s.lamp.mailboxes, commands := s.lamp.commands }) la
  · rw [lamp] at la
    exact congrArg Lamplighter.commands la

section
variable {s : State} {n : Nat} {spec : CmdSpec} {r : Request} {p : List Byte}

/-- A body that replaces contents of the flash. -/
theorem State.answered_newFlash (i : s.Inv) (a : s.Accepts n spec r p) (f : Flash) (result : List Byte) :
    let t := (({ s.copied n spec r with flash := f } : State).respond n .ok result).inCascade none
    Answered n r spec.opcode .ok result { s with flash := f } t ∧ t.flash = f ∧
      KeepsRest n s { t with flash := s.flash } := by
  intro t
  obtain ⟨answered, same, keeps⟩ := State.answered_frame (u := { s.copied n spec r with flash := f }) (st := .ok)
    (result := result) i a nofun rfl rfl rfl
  have restored : { t with flash := s.flash } =
      { s with events := t.events, lamp := t.lamp, host := t.host, hostMem := t.hostMem } :=
    congrArg (fun x : State => { x with flash := s.flash }) same
  refine ⟨answered.congr_base rfl rfl rfl, congrArg State.flash same, ?_⟩
  rw [restored]
  exact keeps

/-- A new protection set-up, answered with its epoch (R698). -/
theorem State.answered_newProtection (i : s.Inv) (a : s.Accepts n spec r p) (q : Protection) :
    let u := (s.copied n spec r).newProtection q
    let t := (u.respond n .ok (leBytes 8 u.flash.protection.epoch)).inCascade none
    t.flash = { s.flash with protection := { q with epoch := (q.epoch + 1) % 2 ^ 64 } } ∧
      Answered n r spec.opcode .ok (leBytes 8 t.flash.protection.epoch) { s with flash := t.flash } t ∧
      KeepsRest n s { t with flash := s.flash } := by
  intro u t
  obtain ⟨answered, flash, keeps⟩ := State.answered_newFlash i a u.flash (leBytes 8 u.flash.protection.epoch)
  have flash : t.flash = u.flash := flash
  refine ⟨flash, ?_, keeps⟩
  rw [flash]
  exact answered

/-- An accepted request whose body leaves `u`. -/
theorem onMailbox_accepted_body {body : State → List Byte → State} {u : State} (a : s.Accepts n spec r p)
    (effect : body (s.copied n spec r) p = u) :
    onMailbox n (s.command n spec r body) = .next (u.inCascade none) := by
  rw [onMailbox_accepted a, effect]

/-! ### SET_PROTECTION and MAP_REGION (R696, R697) -/

/-- A payload whose fields and windows are valid, with distinct keys that hold the session's own, replaces windows and
keys. -/
theorem exec_setProtection_of_valid {ws : List Window} (a : s.Accepts n specSetProtection r p)
    (windowCount : field p 0 2 ≤ 64) (keyCount : field p 2 2 ≤ 16) (reserved : field p 4 4 = 0)
    (size : p.length = 8 + 32 * field p 0 2 + 8 * field p 2 2) (windows : windowsOf p (field p 0 2) = some ws)
    (apart : noPair (fun a b => overlaps a.base a.size b.base b.size) ws = true)
    (nonzero : 0 ∉ keysOf p (field p 0 2) (field p 2 2))
    (distinct : noPair (· == ·) (keysOf p (field p 0 2) (field p 2 2)) = true)
    (session : ∀ d, s.topo = some d → BitVec.ofNat 64 d.key ∈ keysOf p (field p 0 2) (field p 2 2)) :
    let u := (s.copied n specSetProtection r).newProtection
      { s.flash.protection with windows := ws, keys := keysOf p (field p 0 2) (field p 2 2) }
    exec (.setProtection n r) s = .next ((u.respond n .ok (leBytes 8 u.flash.protection.epoch)).inCascade none) := by
  intro u
  refine onMailbox_accepted_body a ?_
  have fields : ¬ (64 < field p 0 2 ∨ 16 < field p 2 2 ∨ field p 4 4 ≠ 0 ∨
      p.length ≠ 8 + 32 * field p 0 2 + 8 * field p 2 2) := by omega
  have topo : (s.copied n specSetProtection r).topo = s.topo := rfl
  have flash : (s.copied n specSetProtection r).flash = s.flash := rfl
  have nonzero : 0#64 ∉ keysOf p (field p 0 2) (field p 2 2) := nonzero
  rw [if_neg fields, windows, topo]
  cases known : s.topo with
  | none => simp [apart, distinct, nonzero, flash, u]
  | some d => simp [apart, distinct, nonzero, session d known, flash, u]

/-- A payload of valid operations that leave the table's entries apart, on memory that is available, is applied in
order. -/
theorem exec_mapRegion_of_valid {ops : List MapOp} (a : s.Accepts n specMapRegion r p) (nonempty : 1 ≤ field p 0 2)
    (limit : field p 0 2 ≤ (if r.flags.getLsbD 0 = true then 1638 else 48)) (reserved : field p 2 6 = 0)
    (size : p.length = 8 + 40 * field p 0 2) (valid : s.mapOps p (field p 0 2) = some ops)
    (apart : s.tableDisjoint (applyMapOps s.flash.protection.regions ops) ops = true)
    (available : ∀ o ∈ ops, ∀ e, o.entry = some e → s.regionUnavailable e = false) :
    let u := (s.copied n specMapRegion r).newProtection
      { s.flash.protection with regions := applyMapOps s.flash.protection.regions ops }
    exec (.mapRegion n r) s = .next ((u.respond n .ok (leBytes 8 u.flash.protection.epoch)).inCascade none) := by
  intro u
  refine onMailbox_accepted_body a ?_
  have fields : ¬ (field p 0 2 = 0 ∨ (if r.flags.getLsbD 0 then 1638 else 48) < field p 0 2 ∨ field p 2 6 ≠ 0 ∨
      p.length ≠ 8 + 40 * field p 0 2) := by omega
  have parsed : (s.copied n specMapRegion r).mapOps p (field p 0 2) = s.mapOps p (field p 0 2) := rfl
  have table : (s.copied n specMapRegion r).tableDisjoint = s.tableDisjoint := rfl
  have memory : (s.copied n specMapRegion r).regionUnavailable = s.regionUnavailable := rfl
  have served : (ops.any fun o => (o.entry.map s.regionUnavailable).getD false) = false := by
    rw [List.any_eq_false]
    intro o mem
    cases entry : o.entry with
    | none => simp
    | some e => simp [available o mem e entry]
  have flash : (s.copied n specMapRegion r).flash = s.flash := rfl
  rw [if_neg fields, parsed, valid, memory, table]
  simp [apart, served, flash, u]

/-! ### SET_POLICY (R636) -/

/-- The checks of the items read nothing of the mailboxes. -/
theorem State.copied_applyItems (items : List (Nat × List Byte)) (q : Policy) :
    (s.copied n spec r).applyItems items q = s.applyItems items q := by
  induction items generalizing q with
  | nil => rfl
  | cons item items ih =>
    have one : (s.copied n spec r).applyItem q item.1 item.2 = s.applyItem q item.1 item.2 := rfl
    have dev : (s.copied n spec r).dev = s.dev := rfl
    simp only [State.applyItems, one, dev, ih]

theorem exec_setPolicy_of_valid {items : List (Nat × List Byte)} {q : Policy} (a : s.Accepts n specSetPolicy r p)
    (parsed : policyItems p.length p = some items) (applied : s.applyItems items s.flash.policy = .ok q)
    (rates : berRule q = true) (thermal : s.thermalRule q = true) :
    exec (.setPolicy n r) s = .next
      ((((s.copied n specSetPolicy r).setPolicy q).respond n .ok []).inCascade none) := by
  refine onMailbox_accepted_body a ?_
  have checked : (s.copied n specSetPolicy r).applyItems items (s.copied n specSetPolicy r).flash.policy = .ok q :=
    (State.copied_applyItems items _).trans applied
  have rule : (s.copied n specSetPolicy r).thermalRule q = true := thermal
  simp [parsed, checked, rates, rule]

/-- A new policy reaches the flash, the thresholds of the stacks and the ports whose mode it changes; the rest is kept. -/
theorem State.answered_setPolicy (i : s.Inv) (a : s.Accepts n spec r p) (q : Policy) :
    let t := (((s.copied n spec r).setPolicy q).respond n .ok []).inCascade none
    Answered n r spec.opcode .ok [] s t ∧ t.flash = { s.flash with policy := q } ∧
      t.hbm = s.hbm.map (fun k => { k with threshEffective := lowered k.thresh q.thermalOffsets }) ∧
      t.ports = (s.switchPorts q.ethernetMode).ports ∧
      KeepsRest n s { t with flash := s.flash, hbm := s.hbm, ports := s.ports } := by
  intro t
  obtain ⟨answered, same, keeps⟩ := State.answered_frame (u := (s.copied n spec r).setPolicy q) (st := .ok)
    (result := []) i a nofun rfl rfl rfl
  have restored : { t with flash := s.flash, hbm := s.hbm, ports := s.ports } =
      { s with events := t.events, lamp := t.lamp, host := t.host, hostMem := t.hostMem } :=
    congrArg (fun x : State => { x with flash := s.flash, hbm := s.hbm, ports := s.ports }) same
  have ports := congrArg State.ports same
  refine ⟨answered.congr_base rfl rfl rfl, congrArg State.flash same, congrArg State.hbm same, ports, ?_⟩
  rw [restored]
  exact keeps

end

/-! ### The statement -/

/-- Settles O13: the body of each command on a valid payload, and what its answer keeps. -/
theorem ownerCommandsReplaceTheSetUp : Obligations.OwnerCommandsReplaceTheSetUp := by
  unfold Obligations.OwnerCommandsReplaceTheSetUp
  intro s n r p i
  refine ⟨fun a => ?_, fun ws a wc kc reserved size windows apart nonzero distinct session => ?_,
    fun ops a count limit reserved size valid apart available => ?_, fun items q a parsed applied rates thermal => ?_⟩
  · obtain ⟨answered, flash, keeps⟩ :=
      State.answered_newFlash i a { s.flash with ownerDigest := some (shake256 p 32) } []
    exact ⟨_, onMailbox_accepted a, answered.congr_base rfl rfl rfl, flash, keeps⟩
  · exact ⟨_, exec_setProtection_of_valid a wc kc reserved size windows apart nonzero distinct session,
      State.answered_newProtection i a _⟩
  · obtain ⟨flash, answered, keeps⟩ := State.answered_newProtection i a
      { s.flash.protection with regions := applyMapOps s.flash.protection.regions ops }
    have windows := congrArg (fun f : Flash => f.protection.windows) flash
    exact ⟨_, exec_mapRegion_of_valid a count limit reserved size valid apart available, flash,
      answered.congr_base rfl rfl windows.symm, keeps⟩
  · exact ⟨_, exec_setPolicy_of_valid a parsed applied rates thermal, State.answered_setPolicy i a q⟩

end Sys2Proof.Machine
end

section
/-! PROOF. ATTACH (O12): the state that it answers from holds nothing, and the answer leaves it so. -/

namespace Sys2Proof.Machine

/-! ### What ATTACH releases (R597, R598, R635) -/

theorem Mailbox.attach_of_held_none {m : Mailbox} (h : m.held = none) : m.attach = m := by
  rw [Mailbox.attach, h]

theorem State.attached_mbox (s : State) (m : Nat) : s.attached.mbox m = (s.mbox m).attach := by
  simp only [State.mbox, State.attached, List.getD_eq_getElem?_getD, List.getElem?_map]
  cases s.lamp.mailboxes[m]? <;> rfl

theorem State.placeResult_lamp (s : State) (r : Request) (result : List Byte) :
    (s.placeResult r result).1.lamp = s.lamp := by
  unfold State.placeResult
  dsimp only
  split
  · split <;> rfl
  · rfl

/-- An answer holds nothing for the next ATTACH in a mailbox that held nothing (R597). -/
theorem State.respond_held {s : State} {n : Nat} {st : Status} (result : List Byte) (k : st ≠ .internal)
    (size : n < s.lamp.mailboxes.length) (empty : (s.mbox n).held = none) :
    ((s.respond n st result).mbox n).held = none := by
  rw [State.respond, if_neg k, State.respondWith, empty]
  dsimp only [Option.filter_none]
  rw [State.mbox, State.signal, State.modMbox]
  dsimp only
  rw [State.placeResult_lamp, modAt_getD_self _ _ _ _ size]
  exact empty

section
variable (s : State) (n : Nat) (spec : CmdSpec) (r : Request)

theorem State.copied_mailboxes_length : (s.copied n spec r).lamp.mailboxes.length = s.lamp.mailboxes.length :=
  length_modAt _ _ _

/-- The state that the body of ATTACH answers from. -/
def State.released : State := ((s.copied n spec r).dropHeld n).attached

theorem State.released_mailboxes_length : (s.released n spec r).lamp.mailboxes.length = s.lamp.mailboxes.length :=
  ((List.length_map _).trans (length_modAt _ _ _)).trans (State.copied_mailboxes_length s n spec r)

/-- The mailbox that carries ATTACH keeps its request. -/
theorem State.released_mbox_self (size : n < s.lamp.mailboxes.length) :
    (s.released n spec r).mbox n =
      { s.mbox n with state := .submitted, opcode := spec.opcode, request := r, held := none } := by
  have copied : n < (s.copied n spec r).lamp.mailboxes.length := by rwa [State.copied_mailboxes_length]
  have dropped : ((s.copied n spec r).dropHeld n).mbox n = { (s.copied n spec r).mbox n with held := none } :=
    modAt_getD_self _ _ _ _ copied
  rw [State.released, State.attached_mbox, dropped, State.copied_mbox spec r size]
  exact Mailbox.attach_of_held_none rfl

theorem State.released_mbox_ne {m : Nat} (h : m ≠ n) : (s.released n spec r).mbox m = (s.mbox m).attach := by
  have dropped : ((s.copied n spec r).dropHeld n).mbox m = (s.copied n spec r).mbox m :=
    modAt_getD_ne _ _ _ _ _ h.symm
  rw [State.released, State.attached_mbox, dropped, State.copied_mbox_ne _ _ _ _ _ h]

/-- The release reaches the host interface and the mailboxes. -/
theorem State.released_keeps :
    { s.released n spec r with events := s.events, host := s.host, lamp := s.lamp, hostMem := s.hostMem } = s := by
  dsimp only [State.released, State.attached, State.dropHeld, State.modMbox, State.copied, State.submit, State.newCascade]

end

/-! ### The statement -/

theorem exec_attach_of_accepts {s : State} {n : Nat} {r : Request} {p : List Byte} (a : s.Accepts n specAttach r p) :
    exec (.attach n r) s = .next (((s.released n specAttach r).respond n .ok s.attachRecord).inCascade none) :=
  onMailbox_accepted a

/-- Settles O12: the body releases what is held and then answers, and the answer changes its own mailbox alone. -/
theorem attachEndsDetachmentAndReleasesWhatWasHeld : Obligations.AttachEndsDetachmentAndReleasesWhatWasHeld := by
  unfold Obligations.AttachEndsDetachmentAndReleasesWhatWasHeld
  intro s n r p i a
  have inside : n < s.lamp.mailboxes.length := by
    rw [i.shape.mailboxes]
    exact a.there
  have size : n < (s.released n specAttach r).lamp.mailboxes.length := by rwa [State.released_mailboxes_length]
  have own := State.released_mbox_self s n specAttach r inside
  obtain ⟨answered, rest, host, -, others⟩ :=
    State.respond_answers (st := .ok) (result := s.attachRecord) nofun size (by rw [own]; rfl)
  rw [own] at answered
  refine ⟨_, exec_attach_of_accepts a, answered.state, answered.status, answered.final, answered.length,
    answered.inline, congrArg HostIf.detached host, congrArg HostIf.perstSeen host, congrArg HostIf.dma host,
    fun m other => (others m other).trans (State.released_mbox_ne s n specAttach r other),
    State.respond_held s.attachRecord nofun size (by rw [own]), ?_, fun inline => ?_⟩
  · exact (congrArg
      (fun x : State => { x with events := s.events, host := s.host, lamp := s.lamp, hostMem := s.hostMem }) rest).trans
        (State.released_keeps s n specAttach r)
  · exact answered.hostMem.trans (if_neg fun external => Bool.false_ne_true (inline.symm.trans external.1))

end Sys2Proof.Machine
end

section
/-! PROOF. The memory window, snoops, and reads of host memory that never complete (O23). -/

namespace Sys2Proof.Machine

/-! ### Accesses of a lit device within the BAR (R588) -/

/-- A denial is counted in the bundle's counters (R712). -/
theorem State.countDenial_eq (s : State) (d : Denial) :
    s.countDenial d = { s with bundle := (s.countDenial d).bundle } := by
  unfold State.countDenial
  split <;> rfl

section
variable {s : State} (lit : s.dev.lit = true) {off n : Nat} (nonempty : 0 < n) (inside : off + n ≤ 2 ^ 36)
include lit nonempty inside

theorem bar2_served : (s.hostServed && inWindowBar off n) = true :=
  Bool.and_eq_true_iff.mpr ⟨lit, Bool.and_eq_true_iff.mpr ⟨decide_eq_true nonempty, decide_eq_true inside⟩⟩

theorem exec_bar2Read_in_bar (ecc : Ecc) :
    exec (.bar2Read off n ecc) s = .next ((s.newCascade.windowRead off n ecc).inCascade none) :=
  congrArg Host.Outcome.next (if_pos (bar2_served lit nonempty inside))

end

theorem exec_bar2Write_in_bar {s : State} (lit : s.dev.lit = true) {off : Nat} {data : List Byte}
    (nonempty : 0 < data.length) (inside : off + data.length ≤ 2 ^ 36) (ecc : Ecc) :
    exec (.bar2Write off data ecc) s = .next ((s.newCascade.windowWrite off data ecc).inCascade none) :=
  congrArg Host.Outcome.next (if_pos (bar2_served lit nonempty inside))

/-! ### Accesses by whether the device can serve them (R587, R588, R589) -/

section
variable {s s1 : State} {off : Nat} {ecc : Ecc}

theorem State.windowRead_of_denied {n : Nat} {e : Denial}
    (denied : s.checkWindow false (s.windowAddr off) n = some e) :
    s.windowRead off n ecc =
      ((s.countDenial e).hostError e.hostErr false (s.windowAddr off)).complete (List.replicate n 0xFF) false := by
  rw [State.windowRead, denied]

theorem State.windowRead_of_served {n : Nat} {b : List Byte}
    (allowed : s.checkWindow false (s.windowAddr off) n = none)
    (answers : s.iodIgnored (s.windowAddr off) = false)
    (served : ((s.awaitSlices (s.windowAddr off) n).countIod (s.windowAddr off) n).serveRead (s.windowAddr off) n ecc =
      (s1, .ok b)) :
    s.windowRead off n ecc = s1.complete b false := by
  simp only [State.windowRead, allowed, answers, served, Bool.false_eq_true, if_false]

theorem State.windowWrite_of_denied {data : List Byte} {e : Denial}
    (denied : s.checkWindow true (s.windowAddr off) data.length = some e) :
    s.windowWrite off data ecc = (s.countDenial e).hostError e.hostErr true (s.windowAddr off) := by
  rw [State.windowWrite, denied]

theorem State.windowWrite_of_served {data : List Byte}
    (allowed : s.checkWindow true (s.windowAddr off) data.length = none)
    (answers : s.iodIgnored (s.windowAddr off) = false)
    (served : ((s.awaitSlices (s.windowAddr off) data.length).countIod (s.windowAddr off) data.length).serveWrite
      (s.windowAddr off) data ecc = (s1, none)) :
    s.windowWrite off data ecc = s1 := by
  simp only [State.windowWrite, allowed, answers, served, Bool.false_eq_true, if_false]

end

/-! ### Snoops and reads that never complete (R580, R584) -/

theorem exec_hostSnoop_of_enabled {s : State} (lit : s.dev.lit = true) (enabled : s.cxlCache = true) :
    exec .hostSnoop s = .next { s with host := { s.host with snoopsAnswered := s.host.snoopsAnswered + 1 } } := by
  have answered : (s.hostServed && s.cxlCache) = true := by simp [State.hostServed, lit, enabled]
  exact congrArg Host.Outcome.next (if_pos answered)

theorem exec_hostReadTimeout_of_exists {s : State} {r : HostRead} (present : hostReadExists r = true) :
    exec (.hostReadTimeout r) s = .next (s.hostReadLost r) := if_pos present

theorem State.hostReadLost_mailbox {s : State} {n : Nat} (submitted : (s.mbox n).state = .submitted) :
    s.hostReadLost (.mailbox n) = s.respond n .hostLinkLost [] := if_pos submitted

theorem State.hostReadLost_dma {s : State} {n : Nat} {job : DmaJob} (current : (s.dmaCh n).current = some job)
    (going : job.failed = none) (reads : job.desc.toDevice = true) :
    s.hostReadLost (.dma n) = s.dmaFinish n job .hostLinkLost 0 := by
  simp [State.hostReadLost, current, going, reads]

theorem State.readLost_of_oldest {s : State} {o : ReqOwner} {q : Req}
    (oldest : (s.requests.find? fun q => q.owner == o && !q.discarded && q.data.isNone && daSpace q.src == 0xC) = some q) :
    s.readLost o = s.requestFails q .hostLost false := by
  rw [State.readLost, oldest]

/-! ### The statement -/

/-- Settles O23: accesses denied and served, snoops, and each unit's read that never completes. -/
theorem memoryWindowServesOrRecordsAnError : Obligations.MemoryWindowServesOrRecordsAnError := by
  unfold Obligations.MemoryWindowServesOrRecordsAnError
  intro s
  refine ⟨fun off n ecc e lit nonempty inside denied => ?_,
    fun off n ecc s1 b lit nonempty inside allowed answers served => ?_,
    fun off data ecc e lit nonempty inside denied => ?_,
    fun off data ecc s1 lit nonempty inside allowed answers served => ?_, exec_hostSnoop_of_enabled,
    fun n there submitted => ?_, fun n job there current going reads => ?_, fun d p k q die tile slot oldest => ?_⟩
  · refine ⟨_, exec_bar2Read_in_bar lit nonempty inside ecc, ?_⟩
    rw [State.windowRead_of_denied denied, State.countDenial_eq]
    exact ⟨rfl, rfl, rfl, rfl, rfl, rfl, rfl, rfl⟩
  · rw [exec_bar2Read_in_bar lit nonempty inside, State.windowRead_of_served allowed answers served]
    rfl
  · refine ⟨_, exec_bar2Write_in_bar lit nonempty inside ecc, ?_⟩
    rw [State.windowWrite_of_denied denied, State.countDenial_eq]
    exact ⟨rfl, rfl, rfl, rfl, rfl, rfl⟩
  · rw [exec_bar2Write_in_bar lit nonempty inside, State.windowWrite_of_served allowed answers served]
  · have present : hostReadExists (.mailbox n) = true := decide_eq_true there
    rw [exec_hostReadTimeout_of_exists present, State.hostReadLost_mailbox submitted]
  · have present : hostReadExists (.dma n) = true := decide_eq_true there
    rw [exec_hostReadTimeout_of_exists present, State.hostReadLost_dma current going reads]
  · have present : hostReadExists (.tileStream d p k) = true := by simp [hostReadExists, tileExists, die, tile, slot]
    rw [exec_hostReadTimeout_of_exists present]
    exact congrArg Host.Outcome.next (State.readLost_of_oldest oldest)

end Sys2Proof.Machine
end

section
/-! PROOF. Requests that Lamplighter refuses or ignores: which check failed and what that changes (O17), the lockout of
OWNER requests (O18), and doorbells that name no command or a mailbox that is busy (O20). -/

namespace Sys2Proof.Machine

/-! ### What raising an event leaves (R663 to R666) -/

@[simp] theorem State.raise_lamp (s : State) (e : EventSpec) : (s.raise e).lamp = s.lamp := by
  unfold State.raise
  dsimp only
  split <;> rfl

theorem getLast?_pushRing {α : Type} {n : Nat} (room : 0 < n) (l : List α) (x : α) :
    (pushRing n l x).getLast? = some x := by
  have kept : ¬ (l ++ [x]).length ≤ (l ++ [x]).length - n := by
    rw [List.length_append, List.length_singleton]
    omega
  rw [pushRing, takeLast, List.getLast?_drop, if_neg kept, List.getLast?_concat]

theorem remark_code (root : Nat) (h : Option Nat) (capacity : List Byte) (r : EventRecord) :
    (remark root h capacity r).code = r.code := by
  unfold remark
  split
  · split <;> rfl
  · rfl

/-- The record that is raised stands last in the ring (R663). -/
theorem State.raise_last_code (s : State) (e : EventSpec) :
    ((s.raise e).events.ring.getLast?).map (·.code) = some e.code := by
  unfold State.raise
  dsimp only
  split <;>
  · dsimp only [State.traceOut, State.signal]
    rw [List.getLast?_map, getLast?_pushRing (by decide)]
    exact congrArg some (remark_code ..)

/-! ### A credential that fails (R620) -/

/-- The lockout begins, and the count of failures begins anew. -/
def State.beginLockout (s : State) : State :=
  { s with lamp := { s.lamp with
      authFails := [], authFailures := satAdd s.lamp.authFailures 1, lockoutUntil := some (s.now + minNs) } }

/-- The sixteenth failure within 60 s. -/
theorem State.authFailed_of_sixteenth {s : State} (full : 15 ≤ (inWindow s.now minNs s.lamp.authFails).length) :
    s.authFailed =
      (s.beginLockout.newCascade.raise { code := .ownerLockout, unit := deviceUnit }).inCascade none :=
  if_pos (Nat.succ_le_succ full)

/-- A failure below the sixteenth. -/
theorem State.authFailed_of_fewer {s : State} (few : ¬ 15 ≤ (inWindow s.now minNs s.lamp.authFails).length) :
    s.authFailed =
      { s with lamp := { s.lamp with
          authFails := s.now :: inWindow s.now minNs s.lamp.authFails
          authFailures := satAdd s.lamp.authFailures 1 } } :=
  if_neg fun full => few (Nat.le_of_succ_le_succ full)

theorem State.authFailed_lamp_of_sixteenth {s : State}
    (full : 15 ≤ (inWindow s.now minNs s.lamp.authFails).length) : s.authFailed.lamp = s.beginLockout.lamp := by
  rw [State.authFailed_of_sixteenth full, State.inCascade, State.raise_lamp]
  rfl

/-- A failed credential touches neither the mailboxes nor the count of refusals. -/
theorem State.authFailed_lamp (s : State) :
    s.authFailed.lamp.mailboxes = s.lamp.mailboxes ∧
      s.authFailed.lamp.commandsRefused = s.lamp.commandsRefused := by
  by_cases full : 15 ≤ (inWindow s.now minNs s.lamp.authFails).length
  · rw [State.authFailed_lamp_of_sixteenth full]
    exact ⟨rfl, rfl⟩
  · rw [State.authFailed_of_fewer full]
    exact ⟨rfl, rfl⟩

theorem State.authFailed_now_of_sixteenth {s : State}
    (full : 15 ≤ (inWindow s.now minNs s.lamp.authFails).length) : s.authFailed.now = s.now := by
  rw [State.authFailed_of_sixteenth full]
  exact State.raise_now _ _

/-- The sixteenth failure within 60 s locks OWNER requests out for the next 60 s, and raises OWNER_LOCKOUT. -/
theorem State.authFailed_locks_out {s : State} (full : 15 ≤ (inWindow s.now minNs s.lamp.authFails).length) :
    s.authFailed.lockedOut = true ∧ s.authFailed.lamp.lockoutUntil = some (s.now + 60000000000) ∧
      ((s.authFailed.events.ring.getLast?).map (·.code)) = some .ownerLockout := by
  have minute : minNs = 60000000000 := rfl
  have ends : s.authFailed.lamp.lockoutUntil = some (s.now + minNs) :=
    congrArg Lamplighter.lockoutUntil (State.authFailed_lamp_of_sixteenth full)
  rw [minute] at ends
  refine ⟨?_, ends, ?_⟩
  · simp [State.lockedOut, ends, State.authFailed_now_of_sixteenth full]
  · rw [State.authFailed_of_sixteenth full]
    exact State.raise_last_code _ _

section
variable {s s1 : State} {n : Nat} {spec : CmdSpec} {r : Request} {st : Status}

/-! ### How the common checks fail (R621) -/

/-- Check 3 changes the state only to count a credential that an OWNER request claims in vain. -/
theorem State.checkRole_counts_owner_failure :
    (s.checkRole spec r).1 = s ∨ (s.checkRole spec r).1 = s.authFailed ∧ r.role ≠ 0 := by
  unfold State.checkRole
  split
  next => exact .inl rfl
  next owner =>
    split
    next => exact .inl rfl
    next =>
      split
      next => exact .inl rfl
      next => split <;> [exact .inl rfl; exact .inr ⟨rfl, owner⟩]

/-- A check that fails leaves the state as it found it, unless a credential failed. -/
theorem State.checks_eq_error (failed : s.checks n spec r = (s1, .error st)) :
    st ≠ .internal ∧ (s1 = s ∨ s1 = s.authFailed ∧ st = .notPrivileged ∧ r.role ≠ 0) := by
  unfold State.checks at failed
  split at failed
  next => cases failed; exact ⟨nofun, .inl rfl⟩
  by_cases role : (s.checkRole spec r).2 = true
  · rw [State.checkRole_state role] at failed
    dsimp only at failed
    rw [if_neg (show ¬ (!true) = true by decide)] at failed
    split at failed
    next => cases failed; exact ⟨nofun, .inl rfl⟩
    split at failed
    next => cases failed; exact ⟨nofun, .inl rfl⟩
    split at failed
    next => cases failed; exact ⟨nofun, .inl rfl⟩
    split at failed
    next => cases failed; exact ⟨nofun, .inl rfl⟩
    split at failed
    next => cases failed
    next => cases failed; exact ⟨nofun, .inl rfl⟩
  · have refused : (s.checkRole spec r).2 = false := Bool.eq_false_iff.mpr role
    simp only [refused, Bool.not_false, if_true] at failed
    cases failed
    exact ⟨nofun, State.checkRole_counts_owner_failure.imp_right fun ⟨counted, owner⟩ => ⟨counted, rfl, owner⟩⟩

/-- While the lockout lasts, the credential of an OWNER request is not looked at (R620). -/
theorem State.checks_of_lockedOut (locked : s.lockedOut = true) (owner : r.role = 1)
    (header : headerOk spec r = true) : s.checks n spec r = (s, .error .notPrivileged) := by
  have role : s.checkRole spec r = (s, false) := by
    rw [State.checkRole, if_neg (by rw [owner]; decide), if_pos locked]
  simp [State.checks, header, role]

/-! ### What a refusal answers and keeps (R609, R621, R638) -/

theorem State.command_of_failed (serves : s.lampServes = true) (free : (s.mbox n).open_ = true)
    (failed : (s.copied n spec r).checks n spec r = (s1, .error st)) (body : State → List Byte → State) :
    s.command n spec r body = (s1.refuse n st).inCascade none := by
  have failed : (s.newCascade.submit n spec.opcode r).checks n spec r = (s1, .error st) := failed
  simp only [State.command, serves, free, failed, Bool.not_true, Bool.false_eq_true, if_false]

theorem exec_mailboxCommand_of_failed {i : Instr} (listed : mailboxCommand i = some (n, spec, r)) (there : n < 16)
    (serves : s.lampServes = true) (free : (s.mbox n).open_ = true)
    (failed : (s.copied n spec r).checks n spec r = (s1, .error st)) :
    exec i s = .next ((s1.refuse n st).inCascade none) := by
  obtain ⟨body, row⟩ := exec_mailboxCommand listed
  rw [row, onMailbox_of_lt there, State.command_of_failed serves free failed]

/-- A refusal from a state that has the copied request: the response, one more refusal, and the rest as it was. -/
theorem State.refuse_answers (i : s.Inv) (there : n < 16) (k : st ≠ .internal) (free : (s.mbox n).open_ = true)
    (mailboxes : s1.lamp.mailboxes = (s.copied n spec r).lamp.mailboxes) :
    let t := (s1.refuse n st).inCascade none
    Answered n r spec.opcode st [] s1 t ∧
      t.lamp.commandsRefused = satAdd s1.lamp.commandsRefused 1 ∧
      { t with events := s1.events, host := s1.host, lamp := s1.lamp, hostMem := s1.hostMem } = s1 := by
  intro t
  obtain ⟨answered, rest, -, -, lamp, -⟩ := State.answered
    (u := { s1 with lamp := { s1.lamp with commandsRefused := satAdd s1.lamp.commandsRefused 1 } })
    (st := st) (result := []) i there k free mailboxes
  exact ⟨answered.congr_base rfl rfl rfl, congrArg Lamplighter.commandsRefused lamp,
    congrArg (fun x : State => { x with lamp := s1.lamp }) rest⟩

/-- A refusal from the copied state itself changes nothing else but the mailbox and the two counters. -/
theorem State.refuse_keepsRest (i : s.Inv) (there : n < 16) (k : st ≠ .internal) (free : (s.mbox n).open_ = true) :
    let t := ((s.copied n spec r).refuse n st).inCascade none
    KeepsRest n s { t with lamp := { t.lamp with commandsRefused := s.lamp.commandsRefused } } := by
  intro t
  obtain ⟨-, rest, events, host, lamp, others⟩ := State.answered (spec := spec) (r := r)
    (u := { s.copied n spec r with lamp := { (s.copied n spec r).lamp with
      commandsRefused := satAdd s.lamp.commandsRefused 1 } })
    (st := st) (result := []) i there k free rfl
  exact
    { state := congrArg
        (fun x : State => { x with events := s.events, host := s.host, lamp := s.lamp, hostMem := s.hostMem }) rest
      events := congrArg (fun x : Events => { x with cascade := s.events.cascade }) events
      host := host
      lamp := congrArg (fun x : Lamplighter => { x with
        mailboxes := s.lamp.mailboxes, commands := s.lamp.commands
        commandsRefused := s.lamp.commandsRefused }) lamp
      count := congrArg Lamplighter.commands lamp
      others := others }

end

/-! ### The statements -/

/-- Settles O17: the checks leave the copied state, or that state with one more failed credential, and the refusal
from it changes its response and the count. -/
theorem refusedRequestsHaveNoEffectButTheResponse : Obligations.RefusedRequestsHaveNoEffectButTheResponse := by
  unfold Obligations.RefusedRequestsHaveNoEffectButTheResponse
  intro i n spec r s s1 st inv listed there serves free failed
  obtain ⟨k, left⟩ := State.checks_eq_error failed
  have lamp : s1.lamp.mailboxes = (s.copied n spec r).lamp.mailboxes ∧
      s1.lamp.commandsRefused = s.lamp.commandsRefused := by
    rcases left with rfl | ⟨rfl, -⟩
    · exact ⟨rfl, rfl⟩
    · exact State.authFailed_lamp _
  obtain ⟨mailboxes, refusals⟩ := lamp
  obtain ⟨answered, counted, rest⟩ := State.refuse_answers inv there k free mailboxes
  rw [refusals] at counted
  refine ⟨_, exec_mailboxCommand_of_failed listed there serves free failed, answered, counted, rest, fun other => ?_⟩
  rcases left with rfl | ⟨-, status, owner⟩
  · exact ⟨rfl, State.refuse_keepsRest inv there k free⟩
  · exact absurd other (not_or.mpr ⟨not_not.mpr status, owner⟩)

/-- Settles O18: the lockout fails check 3 before the credential is looked at, and its sixteenth failure begins it. -/
theorem lockoutShutsOutEveryOwnerRequest : Obligations.LockoutShutsOutEveryOwnerRequest := by
  unfold Obligations.LockoutShutsOutEveryOwnerRequest
  refine ⟨fun i n spec r s inv listed there serves free locked owner header => ?_, fun s => State.authFailed_locks_out⟩
  have failed : (s.copied n spec r).checks n spec r = (s.copied n spec r, .error .notPrivileged) :=
    State.checks_of_lockedOut locked owner header
  obtain ⟨answered, counted, -⟩ :=
    State.refuse_answers (spec := spec) (r := r) (st := .notPrivileged) inv there nofun free rfl
  exact ⟨_, exec_mailboxCommand_of_failed listed there serves free failed, answered.congr_base rfl rfl rfl, counted,
    State.refuse_keepsRest inv there nofun free⟩

/-! ### Doorbells that run no command (R612, R620, R621) -/

theorem State.inCascade_of_closed {s : State} (closed : s.events.cascade = none) : s.inCascade none = s := by
  rw [State.inCascade, ← closed]

theorem State.placeResult_events (s : State) (r : Request) (result : List Byte) :
    (s.placeResult r result).1.events = s.events := by
  unfold State.placeResult
  dsimp only
  split
  · split <;> rfl
  · rfl

/-- A response other than INTERNAL raises no event. -/
theorem State.respond_events {s : State} {st : Status} (k : st ≠ .internal) (n : Nat) (result : List Byte) :
    (s.respond n st result).events = s.events := by
  rw [State.respond, if_neg k, State.respondWith]
  dsimp only
  split
  · rfl
  · exact State.placeResult_events s _ result

section
variable {s : State} {n : Nat}

theorem State.command_of_busy (serves : s.lampServes = true) (busy : (s.mbox n).open_ = false) (spec : CmdSpec)
    (r : Request) (body : State → List Byte → State) : s.command n spec r body = s.overrun := by
  simp [State.command, serves, busy]

theorem exec_mailboxCommand_of_busy {i : Instr} {spec : CmdSpec} {r : Request}
    (listed : mailboxCommand i = some (n, spec, r)) (there : n < 16) (serves : s.lampServes = true)
    (busy : (s.mbox n).open_ = false) : exec i s = .next s.overrun := by
  obtain ⟨body, row⟩ := exec_mailboxCommand listed
  rw [row, onMailbox_of_lt there, State.command_of_busy serves busy]

theorem exec_doorbellOverrun_of_busy (there : n < 16) (serves : s.lampServes = true)
    (busy : (s.mbox n).open_ = false) : exec (.doorbellOverrun n) s = .next s.overrun := by
  have ignored : (s.lampServes && !(s.mbox n).open_) = true := by rw [serves, busy]; rfl
  exact (onMailbox_of_lt there _).trans (congrArg Host.Outcome.next (if_pos ignored))

theorem State.refuse_events {st : Status} (k : st ≠ .internal) : (s.refuse n st).events = s.events :=
  State.respond_events k n []

/-- An OPCODE that is not listed is refused once its request is copied. -/
theorem exec_badOpcode_of_open (there : n < 16) (serves : s.lampServes = true) (free : (s.mbox n).open_ = true)
    (spec : CmdSpec) (r : Request) :
    exec (.badOpcode n spec.opcode r) s = .next (((s.copied n spec r).refuse n .badOpcode).inCascade none) := by
  have closed : ((s.copied n spec r).refuse n .badOpcode).events.cascade = none :=
    congrArg Events.cascade (State.refuse_events (st := .badOpcode) nofun)
  rw [State.inCascade_of_closed closed]
  refine (onMailbox_of_lt there _).trans (congrArg Host.Outcome.next ?_)
  simp [serves, free, State.copied]

theorem exec_ownerLockoutExpiry_of_locked {t : Nat} (locked : s.lamp.lockoutUntil = some t) :
    exec .ownerLockoutExpiry s =
      .next { s with now := max s.now t, lamp := { s.lamp with lockoutUntil := none } } := by
  change execOwnerLockoutExpiry s = _
  rw [execOwnerLockoutExpiry, locked]
  rfl

end

/-- Settles O20: a busy mailbox only counts the doorbell, and an unlisted opcode is refused as a failed check is. -/
theorem doorbellsOnABusyMailboxAreCounted : Obligations.DoorbellsOnABusyMailboxAreCounted := by
  unfold Obligations.DoorbellsOnABusyMailboxAreCounted
  intro s n there inv
  refine ⟨fun serves busy => ⟨exec_doorbellOverrun_of_busy there serves busy, fun i spec r listed =>
      exec_mailboxCommand_of_busy listed there serves busy⟩, fun op r serves free => ?_,
    fun t => exec_ownerLockoutExpiry_of_locked⟩
  let spec : CmdSpec := { opcode := op, states := litStates }
  obtain ⟨answered, counted, -⟩ :=
    State.refuse_answers (spec := spec) (r := r) (st := .badOpcode) inv there nofun free rfl
  exact ⟨_, exec_badOpcode_of_open there serves free spec r, answered.congr_base rfl rfl rfl, counted,
    State.refuse_keepsRest inv there nofun free⟩

end Sys2Proof.Machine
end

section
/-! PROOF. Supplies and resets (O25) and the idle clock (O2): what each event keeps and what it loses. -/

namespace Sys2Proof.Machine

/-! ### From DARK to PILOT (R623) -/

theorem State.pilotReady_iff {s : State} : s.pilotReady = true ↔
    s.dev = .dark ∧ s.pilot.vddPilot = true ∧ s.pilot.devResetN = true ∧ s.pilot.railsUp = 0xFF#8 := by
  simp only [State.pilotReady, Bool.and_eq_true, beq_iff_eq, and_assoc]

theorem State.pilotStart_of_ready {s : State}
    (ready : s.dev = .dark ∧ s.pilot.vddPilot = true ∧ s.pilot.devResetN = true ∧ s.pilot.railsUp = 0xFF#8) :
    s.pilotStart = { s with dev := .pilot } := if_pos (State.pilotReady_iff.mpr ready)

theorem State.pilotStart_of_not_ready {s : State}
    (waits : ¬(s.dev = .dark ∧ s.pilot.vddPilot = true ∧ s.pilot.devResetN = true ∧ s.pilot.railsUp = 0xFF#8)) :
    s.pilotStart = s := if_neg fun ready => waits (State.pilotReady_iff.mp ready)

theorem step_of_emptyQueue {s : State} (empty : s.pending = []) :
    step s = .next { s.pilotStart with now := s.now + 40 } := by
  rw [step, empty]
  rfl

/-- Settles O2: an empty queue ticks the idle clock, which starts the pilot domain where every supply is up. -/
theorem emptyQueueOnlyLetsTimePass : Obligations.EmptyQueueOnlyLetsTimePass := by
  unfold Obligations.EmptyQueueOnlyLetsTimePass
  refine fun s empty => ⟨fun waits => ?_, fun ready => ?_⟩
  · rw [step_of_emptyQueue empty, State.pilotStart_of_not_ready waits]
  · rw [step_of_emptyQueue empty, State.pilotStart_of_ready ready]

/-! ### What a reset keeps (R671, R726) -/

/-- The origin of the next boot is all that a reset notes before the device goes dark (R728). -/
theorem State.markReset_eq (s : State) : ∃ o, s.markReset = { s with pilot := { s.pilot with origin := o } } := by
  unfold State.markReset
  split
  · exact ⟨_, rfl⟩
  · exact ⟨_, rfl⟩

/-- No byte lies both below and above the end of the stacks. -/
theorem State.loseStacks_loseSram_mem (s : State) : s.loseStacks.loseSram.mem = [] := by
  change (s.mem.filter fun c => 2 ^ 40 ≤ c.1).filter (fun c => c.1 < 2 ^ 40) = []
  simp only [List.filter_filter, List.filter_eq_nil_iff, Bool.and_eq_true, decide_eq_true_eq]
  omega

theorem hbmRail_iff (r : Rail) : hbmRail r = true ↔ r = .vppHbm ∨ r = .vddHbm ∨ r = .vddqHbm := by
  cases r <;> simp [hbmRail]

/-! ### The supplies and DEV_RESET_N -/

theorem exec_vddPilotUp (s : State) :
    exec .vddPilotUp s = .next (if s.pilot.vddPilot = true then s else { s with
      pilot := { s.pilot with
        vddPilot := true, origin := .powerUp, warm := none, railFault := 0, lastBootOnMain := false, faultedSince := false }
      tele := { s.tele with series := 0 } }) := by
  change execVddPilotUp s = _
  rw [execVddPilotUp]
  split <;> rfl

/-- The state without any supply (R726). -/
def State.unpowered (s : State) : State :=
  { (s.toDark true).loseStacks.loseSram with pilot := {}, tele := {}, now := 0 }

theorem exec_vddPilotLoss (s : State) :
    exec .vddPilotLoss s = .next (if s.pilot.vddPilot = true then s.unpowered else s) := by
  change execVddPilotLoss s = _
  rw [execVddPilotLoss]
  split <;> rfl

/-- The pilot domain starts anew with the supplies and the pin as `p` has them: BOOT_NS is zero (R715). -/
def State.startClock (s : State) (p : Pilot) : State := { s with now := 0, pilot := p }

theorem State.startClock_pilotStart {s : State} {p : Pilot} {up : Prop} [Decidable up]
    (ready : (s.startClock p).pilotReady = true ↔ up) :
    (s.startClock p).pilotStart = { s with now := 0, pilot := p, dev := if up then .pilot else s.dev } := by
  by_cases h : up
  · rw [State.pilotStart, if_pos (ready.mpr h), if_pos h]
    rfl
  · rw [State.pilotStart, if_neg (h ∘ ready.mp), if_neg h]
    rfl

theorem exec_devResetNRelease (rails : BitVec 8) (straps : BitVec 2) (s : State) :
    exec (.devResetNRelease rails straps) s = .next
      (if s.pilot.vddPilot = true ∧ s.pilot.devResetN = false then
        { s with
          now := 0
          pilot := { s.pilot with devResetN := true, railsUp := rails, straps := straps }
          dev := if s.dev = .dark ∧ rails = 0xFF then .pilot else s.dev }
      else s) := by
  change execDevResetNRelease rails straps s = _
  rw [execDevResetNRelease]
  by_cases held : s.pilot.vddPilot = true ∧ s.pilot.devResetN = false
  · have ready : (s.startClock { s.pilot with devResetN := true, railsUp := rails, straps := straps }).pilotReady = true ↔
        s.dev = .dark ∧ rails = 0xFF := by
      rw [State.pilotReady_iff]
      simp [State.startClock, held.1]
    rw [if_pos (by simp [held]), if_pos held]
    exact congrArg Host.Outcome.next (State.startClock_pilotStart ready)
  · rw [if_neg (by simpa using held), if_neg held]

theorem exec_railsRestored (s : State) :
    exec .railsRestored s = .next
      (if s.pilot.vddPilot = true ∧ s.dev = .dark then
        { s with
          now := 0
          pilot := { s.pilot with railsUp := 0xFF }
          dev := if s.pilot.devResetN = true then .pilot else .dark }
      else s) := by
  change execRailsRestored s = _
  rw [execRailsRestored]
  by_cases down : s.pilot.vddPilot = true ∧ s.dev = .dark
  · have ready : (s.startClock { s.pilot with railsUp := 0xFF }).pilotReady = true ↔ s.pilot.devResetN = true := by
      rw [State.pilotReady_iff]
      simp [State.startClock, down]
    rw [if_pos (by simp [down]), if_pos down, ← down.2]
    exact congrArg Host.Outcome.next (State.startClock_pilotStart ready)
  · rw [if_neg (by simpa using down), if_neg down]

/-- The state that an assertion of DEV_RESET_N leaves (R726, R727). -/
def State.resetAsserted (s : State) : State :=
  let t := s.markReset.toDark true
  { t with pilot := { t.pilot with devResetN := false } }

theorem exec_devResetNAssert (s : State) :
    exec .devResetNAssert s = .next (if s.pilot.devResetN = true then s.resetAsserted else s) := by
  change execDevResetNAssert s = _
  rw [execDevResetNAssert]
  split <;> rfl

/-! ### A rail excursion (R725, R726) -/

/-- The reset that a rail excursion acts as, while DEV_RESET_N is released. -/
def State.excursionReset (s : State) : State := if s.pilot.devResetN then s.toDark true else s

/-- An HBM rail takes the contents of the stacks with it. -/
def State.railFalls (s : State) (r : Rail) : State := if hbmRail r then s.loseStacks else s

/-- What the supply monitors record of the excursion. -/
def Pilot.excursion (p : Pilot) (released : Bool) (r : Rail) : Pilot :=
  { p with
    railsUp := p.railsUp &&& ~~~(railMask r)
    railFault := if released then p.railFault ||| railMask r else p.railFault
    origin := if released then .excursion else p.origin }

/-- The state that an excursion leaves. -/
def State.excursion (s : State) (r : Rail) : State :=
  let t := s.excursionReset.railFalls r
  { t with pilot := t.pilot.excursion s.pilot.devResetN r }

theorem exec_railExcursion (r : Rail) (s : State) :
    exec (.railExcursion r) s = .next (if s.pilot.vddPilot = true then s.excursion r else s) := by
  change execRailExcursion r s = _
  rw [execRailExcursion]
  split <;> rfl

/-- Whatever the rail, an excursion is a reset in all but the stacks and the monitors. -/
theorem State.excursion_eq (s : State) (r : Rail) :
    s.excursion r = { s.excursionReset with
      pilot := s.excursionReset.pilot.excursion s.pilot.devResetN r
      mem := (s.excursion r).mem, badSectors := (s.excursion r).badSectors
      commit := (s.excursion r).commit, exports := (s.excursion r).exports } := by
  unfold State.excursion State.railFalls
  split <;> rfl

section
variable (s : State)

theorem State.excursionReset_keeps : s.excursionReset.fuses = s.fuses ∧ s.excursionReset.hostMem = s.hostMem ∧
    s.excursionReset.mem = s.mem ∧ s.excursionReset.pilot.railsUp = s.pilot.railsUp := by
  unfold State.excursionReset
  split <;> exact ⟨rfl, rfl, rfl, rfl⟩

theorem State.excursionReset_commit :
    s.excursionReset.commit = if s.pilot.devResetN = true then { copies := s.commit.copies } else s.commit := by
  unfold State.excursionReset
  split <;> rfl

theorem State.excursion_of_released {s : State} (released : s.pilot.devResetN = true) (r : Rail) :
    (s.excursion r).dev = .dark ∧ (s.excursion r).pilot.origin = .excursion ∧ (s.excursion r).program = none ∧
      (s.excursion r).pilot.warm = s.pilot.warm ∧
      (s.excursion r).pilot.railFault = s.pilot.railFault ||| 1#8 <<< r.bit := by
  rw [State.excursion_eq, State.excursionReset, if_pos released, released]
  exact ⟨rfl, rfl, rfl, rfl, rfl⟩

theorem State.excursion_of_hbmRail {r : Rail} (hbm : hbmRail r = true) :
    (s.excursion r).commit = {} ∧ (s.excursion r).mem = s.mem.filter fun c => 2 ^ 40 ≤ c.1 := by
  obtain ⟨-, -, mem, -⟩ := s.excursionReset_keeps
  rw [State.excursion, State.railFalls, if_pos hbm, ← mem]
  exact ⟨rfl, rfl⟩

theorem State.excursion_of_otherRail {r : Rail} (other : ¬ hbmRail r = true) :
    (s.excursion r).mem = s.mem ∧
      (s.excursion r).commit = if s.pilot.devResetN = true then { copies := s.commit.copies } else s.commit := by
  obtain ⟨-, -, mem, -⟩ := s.excursionReset_keeps
  rw [State.excursion, State.railFalls, if_neg other, ← State.excursionReset_commit]
  exact ⟨mem, rfl⟩

theorem State.excursion_keeps (r : Rail) :
    (s.excursion r).pilot.railsUp = s.pilot.railsUp &&& ~~~(1#8 <<< r.bit) ∧ (s.excursion r).fuses = s.fuses ∧
      (s.excursion r).hostMem = s.hostMem := by
  obtain ⟨fuses, hostMem, -, railsUp⟩ := s.excursionReset_keeps
  rw [State.excursion_eq, ← fuses, ← hostMem, ← railsUp]
  exact ⟨rfl, rfl, rfl⟩

end

/-! ### The statement -/

/-- Settles O25: the state that each event leaves, and what it keeps of the state before. -/
theorem resetSourcesKeepWhatTheirTableKeeps : Obligations.ResetSourcesKeepWhatTheirTableKeeps := by
  unfold Obligations.ResetSourcesKeepWhatTheirTableKeeps
  intro s
  refine ⟨exec_vddPilotUp s, ⟨_, exec_vddPilotLoss s, fun off => ?_, fun on => ?_⟩,
    fun rails straps => exec_devResetNRelease rails straps s,
    ⟨_, exec_devResetNAssert s, fun held => ?_, fun released => ?_⟩,
    fun r => ⟨_, exec_railExcursion r s, fun off => ?_, fun on => ?_⟩, exec_railsRestored s⟩
  · rw [off]
    rfl
  · rw [if_pos on]
    exact ⟨rfl, rfl, State.loseStacks_loseSram_mem _, rfl, rfl, rfl, rfl, rfl, rfl, rfl⟩
  · rw [held]
    rfl
  · obtain ⟨origin, marked⟩ := s.markReset_eq
    rw [if_pos released, State.resetAsserted, marked]
    exact ⟨rfl, rfl, rfl, rfl, rfl, rfl, rfl, rfl, rfl, rfl, rfl, rfl, rfl, rfl, rfl, rfl, rfl⟩
  · rw [off]
    rfl
  · rw [if_pos on]
    obtain ⟨railsUp, fuses, hostMem⟩ := s.excursion_keeps r
    refine ⟨railsUp, fuses, hostMem, fun released => State.excursion_of_released released r, fun hbm => ?_,
      fun vpp vdd vddq => ?_⟩
    · exact s.excursion_of_hbmRail ((hbmRail_iff r).mpr hbm)
    · exact s.excursion_of_otherRail fun hbm => ((hbmRail_iff r).mp hbm).elim vpp (Or.rec vdd vddq)

end Sys2Proof.Machine
end

section
/-! PROOF. Queries (O10) and reads of records (O11): the result that each body answers with, and the frame that they
share. -/

namespace Sys2Proof.Machine

section
variable {s : State} {n : Nat} {r : Request} {p : List Byte}

/-! ### Queries (R627, R634, R689) -/

/-- QUERY_IDENTITY, whose result the copying of the request does not reach. -/
theorem exec_queryIdentity_of_accepts (a : s.Accepts n specQueryIdentity r p) :
    exec (.queryIdentity n r) s =
      .next (((s.copied n specQueryIdentity r).respond n .ok s.identityResult).inCascade none) :=
  onMailbox_accepted a

theorem exec_queryState_of_accepts (a : s.Accepts n specQueryState r p) :
    exec (.queryState n r) s =
      .next (((s.copied n specQueryState r).respond n .ok s.stateRecord).inCascade none) :=
  onMailbox_accepted a

/-- ATTEST has counted itself when it answers (R712). -/
def State.attested (s : State) : State :=
  { s with bundle := { s.bundle with attestations := satAdd s.bundle.attestations 1 } }

theorem exec_attest_of_valid (a : s.Accepts n specAttest r p) (key : field p 32 1 ≤ 1) (reserved : field p 33 7 = 0) :
    exec (.attest n r) s =
      .next (((s.copied n specAttest r).attested.respond n .ok
        (s.attestResult (slice p 0 32) (field p 32 1 == 1))).inCascade none) := by
  refine onMailbox_accepted_body a ?_
  have fields : ¬ (1 < field p 32 1 ∨ field p 33 7 ≠ 0) := by omega
  rw [if_neg fields]
  rfl

theorem State.attested_answers (i : s.Inv) (a : s.Accepts n specAttest r p) (result : List Byte) :
    let t := ((s.copied n specAttest r).attested.respond n .ok result).inCascade none
    Answered n r 0x42 .ok result s t ∧
      t.bundle = { s.bundle with attestations := satAdd s.bundle.attestations 1 } ∧
      KeepsRest n s { t with bundle := s.bundle } := by
  intro t
  obtain ⟨answered, same, keeps⟩ := State.answered_frame (u := (s.copied n specAttest r).attested) (st := .ok)
    (result := result) i a nofun rfl rfl rfl
  have restored : { t with bundle := s.bundle } =
      { s with events := t.events, lamp := t.lamp, host := t.host, hostMem := t.hostMem } :=
    congrArg (fun x : State => { x with bundle := s.bundle }) same
  refine ⟨answered.congr_base rfl rfl rfl, congrArg State.bundle same, ?_⟩
  rw [restored]
  exact keeps

end

/-- Settles O10: each body answers from the copied state, which the result of a query does not tell from the state
found. -/
theorem queriesAnswerAndChangeNothingElse : Obligations.QueriesAnswerAndChangeNothingElse := by
  unfold Obligations.QueriesAnswerAndChangeNothingElse
  intro s n r p i
  refine ⟨fun a => ?_, fun a => ?_, fun a key reserved => ?_⟩
  · exact ⟨_, exec_queryIdentity_of_accepts a,
      State.answered_only (spec := specQueryIdentity) (r := r) (st := .ok) i a.there nofun a.free⟩
  · exact ⟨_, exec_queryState_of_accepts a,
      State.answered_only (spec := specQueryState) (r := r) (st := .ok) i a.there nofun a.free⟩
  · exact ⟨_, exec_attest_of_valid a key reserved, State.attested_answers i a _⟩

section
variable {s : State} {n : Nat} {r : Request} {p : List Byte}

/-! ### READ_TELEMETRY (R753) -/

/-- The threshold that a reader leaves behind. -/
def Telemetry.limitAfter (t : Telemetry) (p : List Byte) : Nat :=
  if field p 10 1 = 1 then field p 12 2 else t.threshold

/-- The reader's cursor stands behind the records that it took, and vector 25 waits for the next excess (log entry
122). -/
def State.telemetryRead (s : State) (p : List Byte) : State :=
  let next := (s.telemetryResult (field p 0 8) (field p 8 2)).2
  { s with tele := { s.tele with
      cursor := next
      signalled := s.tele.signalled && decide (s.tele.limitAfter p < s.tele.nextSeq - next)
      threshold := s.tele.limitAfter p } }

theorem exec_readTelemetry_of_valid (a : s.Accepts n specReadTelemetry r p) (least : 1 ≤ field p 8 2)
    (most : field p 8 2 ≤ 2048) (flags : field p 10 1 ≤ 1) (reserved : field p 11 1 = 0) (tail : field p 14 2 = 0)
    (threshold : field p 10 1 = 1 → 1 ≤ field p 12 2 ∧ field p 12 2 ≤ 2047) :
    exec (.readTelemetry n r) s =
      .next ((((s.copied n specReadTelemetry r).telemetryRead p).respond n .ok
        (s.telemetryResult (field p 0 8) (field p 8 2)).1).inCascade none) := by
  refine onMailbox_accepted_body a ?_
  have fields : ¬ (field p 8 2 = 0 ∨ 2048 < field p 8 2 ∨ 1 < field p 10 1 ∨ field p 11 1 ≠ 0 ∨ field p 14 2 ≠ 0 ∨
      field p 10 1 = 1 ∧ (field p 12 2 = 0 ∨ 2047 < field p 12 2)) := by omega
  rw [if_neg fields]
  rfl

theorem State.telemetryRead_answers (i : s.Inv) (a : s.Accepts n specReadTelemetry r p) (result : List Byte) :
    let t := (((s.copied n specReadTelemetry r).telemetryRead p).respond n .ok result).inCascade none
    Answered n r 0x04 .ok result s t ∧ t.tele = (s.telemetryRead p).tele ∧ KeepsRest n s { t with tele := s.tele } := by
  intro t
  obtain ⟨answered, same, keeps⟩ := State.answered_frame (u := (s.copied n specReadTelemetry r).telemetryRead p)
    (st := .ok) (result := result) i a nofun rfl rfl rfl
  have restored : { t with tele := s.tele } =
      { s with events := t.events, lamp := t.lamp, host := t.host, hostMem := t.hostMem } :=
    congrArg (fun x : State => { x with tele := s.tele }) same
  refine ⟨answered.congr_base rfl rfl rfl, (congrArg State.tele same).trans rfl, ?_⟩
  rw [restored]
  exact keeps

/-! ### READ_EVENTS (R668) -/

/-- What an acknowledgement makes of a record. -/
def EventRecord.ackedBelow (flags seq : Nat) (e : EventRecord) : EventRecord :=
  if bit flags 0 = true ∧ e.seq < seq then { e with acknowledged := true } else e

/-- Both rings once the reader has acknowledged, where bit 0 of its FLAGS says so. -/
def State.eventsRead (s : State) (p : List Byte) : State :=
  { s with
    events := { s.events with ring := s.events.ring.map (EventRecord.ackedBelow (field p 10 1) (field p 0 8)) }
    flash := { s.flash with
      eventRing := s.flash.eventRing.map (EventRecord.ackedBelow (field p 10 1) (field p 0 8)) } }

theorem State.eventsRead_eq (s : State) (p : List Byte) :
    s.eventsRead p = if bit (field p 10 1) 0 then s.acknowledge (field p 0 8) else s := by
  by_cases asked : bit (field p 10 1) 0 = true
  · have acked : EventRecord.ackedBelow (field p 10 1) (field p 0 8) =
        fun e => if e.seq < field p 0 8 then { e with acknowledged := true } else e := by
      funext e
      simp only [EventRecord.ackedBelow, asked, true_and]
    rw [if_pos asked, State.eventsRead, acked]
    rfl
  · have same : EventRecord.ackedBelow (field p 10 1) (field p 0 8) = id := by
      funext e
      exact if_neg fun both => asked both.1
    rw [if_neg asked, State.eventsRead, same, List.map_id, List.map_id]

/-- The records of the ring that bit 1 of FLAGS selects. -/
def State.eventsAnswer (s : State) (p : List Byte) : List Byte :=
  eventsResult (if bit (field p 10 1) 1 then s.flash.eventRing else s.events.ring) s.events.nextSeq (field p 0 8)
    (field p 8 2)

theorem exec_readEvents_of_valid (a : s.Accepts n specReadEvents r p) (least : 1 ≤ field p 8 2)
    (most : field p 8 2 ≤ 1024) (flags : field p 10 1 ≤ 3) (reserved : field p 11 5 = 0) :
    exec (.readEvents n r) s =
      .next ((((s.copied n specReadEvents r).eventsRead p).respond n .ok
        ((s.eventsRead p).eventsAnswer p)).inCascade none) := by
  refine onMailbox_accepted_body a ?_
  have fields : ¬ (field p 8 2 = 0 ∨ 1024 < field p 8 2 ∨ 3 < field p 10 1 ∨ field p 11 5 ≠ 0) := by omega
  rw [if_neg fields]
  dsimp only
  rw [← State.eventsRead_eq]
  rfl

theorem State.eventsRead_answers (i : s.Inv) (a : s.Accepts n specReadEvents r p) (result : List Byte) :
    let t := (((s.copied n specReadEvents r).eventsRead p).respond n .ok result).inCascade none
    Answered n r 0x05 .ok result s t ∧ t.events.ring = (s.eventsRead p).events.ring ∧
      t.flash = (s.eventsRead p).flash ∧
      KeepsRest n s { t with events := { t.events with ring := s.events.ring }, flash := s.flash } := by
  intro t
  obtain ⟨answered, rest, events, host, lamp, others⟩ := State.answered (u := (s.copied n specReadEvents r).eventsRead p)
    (st := .ok) (result := result) i a.there nofun a.free rfl
  refine ⟨answered.congr_base rfl rfl rfl, (congrArg Events.ring events).trans rfl,
    (congrArg State.flash rest).trans rfl, ?_⟩
  exact
    { state := congrArg (fun x : State => { x with
        events := s.events, host := s.host, lamp := s.lamp, hostMem := s.hostMem, flash := s.flash }) rest
      events := congrArg (fun x : Events => { x with cascade := s.events.cascade, ring := s.events.ring }) events
      host := host
      lamp := congrArg (fun x : Lamplighter => { x with
        mailboxes := s.lamp.mailboxes, commands := s.lamp.commands }) lamp
      count := congrArg Lamplighter.commands lamp
      others := others }

end

/-- Settles O11: what each body leaves of the telemetry cursor and of the rings, and the response and frame that its
answer adds. -/
theorem recordReadsReturnTheRecordsFromASequenceNumber : Obligations.RecordReadsReturnTheRecordsFromASequenceNumber := by
  unfold Obligations.RecordReadsReturnTheRecordsFromASequenceNumber
  intro s n r p i
  refine ⟨fun a least most flags reserved tail threshold => ?_, fun a least most flags reserved => ?_⟩
  · exact ⟨_, exec_readTelemetry_of_valid a least most flags reserved tail threshold, State.telemetryRead_answers i a _⟩
  · obtain ⟨answered, ring, flash, keeps⟩ :=
      State.eventsRead_answers i a ((s.eventsRead p).eventsAnswer p)
    refine ⟨_, exec_readEvents_of_valid a least most flags reserved, ?_, ⟨ring, congrArg Flash.eventRing flash⟩, ?_,
      keeps⟩
    · rw [ring, flash]
      exact answered
    · rw [flash]
      rfl

end Sys2Proof.Machine
end

section
/-! PROOF. Background work (O46): scrubbing, lasers, flash wear and telemetry, each in the state in which its row acts and in
those in which it does not. -/

namespace Sys2Proof.Machine

/-! ### On-chip scrub (R743) -/

section
variable {s : State} {word : SramRef} (present : sramExists word = true)

/-- A pass of the scrubber that ends with this word is counted. -/
def State.scrubPassed (s : State) (done : Bool) : State :=
  if done = true then { s with tele := { s.tele with scrubPasses := satAdd s.tele.scrubPasses 1 } } else s

/-- What the word's outcome makes of it. -/
def State.scrubbedAs (s : State) (word : SramRef) : Option EccOutcome → State
  | none | some .onDie | some .retried => s
  | some .corrected => s.scrubCorrectedWord word
  | some .uncorrectable => s.scrubFailedWord word

include present

theorem exec_sramScrubWord_of_dark (dark : s.sramLit word = false) (ecc : Option EccOutcome) (done : Bool) :
    exec (.sramScrubWord word ecc done) s = .next s := by
  change execSramScrubWord word ecc done s = _
  rw [execSramScrubWord, if_pos present, if_neg (Bool.eq_false_iff.mp dark)]

theorem exec_sramScrubWord_of_lit (lit : s.sramLit word = true) (ecc : Option EccOutcome) (done : Bool) :
    exec (.sramScrubWord word ecc done) s = .next ((s.scrubPassed done).scrubbedAs word ecc) := by
  change execSramScrubWord word ecc done s = _
  rw [execSramScrubWord, if_pos present, if_pos lit]
  cases ecc with
  | none => rfl
  | some outcome => cases outcome <;> rfl

end

/-! ### Lasers (R745, R746) -/

section
variable {s : State} {i : Nat} (source : i < 20)
include source

theorem exec_laserTracking_of_unlit (unlit : s.dev.lit = false) (drive output : Nat) (temp : BitVec 16) :
    exec (.laserTracking i drive output temp) s = .next s := by
  change execLaserTracking i drive output temp s = _
  rw [execLaserTracking, if_pos source, if_neg (Bool.eq_false_iff.mp unlit)]

theorem exec_laserOutputDrop (output : Nat) :
    exec (.laserOutputDrop i output) s = .next
      (if s.dev.lit = true ∧ (s.laser i).state = .active then
        (s.modLaser i fun l => { l with output := output }).retireLaser i else s) := by
  change execLaserOutputDrop i output s = _
  rw [execLaserOutputDrop, if_pos source]
  by_cases drops : s.dev.lit = true ∧ (s.laser i).state = .active
  · rw [if_pos (by simpa using drops), if_pos drops]
  · rw [if_neg (by simpa using drops), if_neg drops]

end

/-- The reading of a source: an ACTIVE one has its set point with the first reading, and its time counted. -/
def Laser.reading (drive output : Nat) (temp : BitVec 16) (l : Laser) : Laser :=
  { l with
    drive := drive, output := output, temp := temp, lowering := false
    setOutput := if l.setOutput = 0 ∧ l.state = .active then output else l.setOutput
    onSeconds := if l.state = .active then l.onSeconds + 1 else l.onSeconds }

/-- An output is never 1 dB below itself. -/
theorem not_oneDbBelow_self (output : Nat) : oneDbBelow output output = false :=
  decide_eq_false (Nat.not_lt.mpr (Nat.le_mul_of_pos_right _ (by decide)))

/-- Where the first reading has just become the set point, the output does not lie below it. -/
theorem oneDbBelow_reading {l : Laser} (active : l.state = .active) (drive output : Nat) (temp : BitVec 16) :
    oneDbBelow output (l.reading drive output temp).setOutput = true ↔
      l.setOutput ≠ 0 ∧ oneDbBelow output l.setOutput = true := by
  by_cases first : l.setOutput = 0
  · simp [Laser.reading, first, active, not_oneDbBelow_self]
  · simp [Laser.reading, first]

theorem exec_laserTracking_of_lit {s : State} {i : Nat} (source : i < 20) (lit : s.dev.lit = true)
    (listed : i < s.lasers.length) (drive output : Nat) (temp : BitVec 16) :
    let s1 := s.modLaser i (Laser.reading drive output temp)
    exec (.laserTracking i drive output temp) s = .next
      (if (s.laser i).state ≠ .active then s1
      else if 1400 ≤ drive then s1.retireLaser i
      else if 1250 ≤ drive ∨ ((s.laser i).setOutput ≠ 0 ∧ oneDbBelow output (s.laser i).setOutput = true) then
        s1.replaceLaser i
      else s1) := by
  intro s1
  change execLaserTracking i drive output temp s = _
  rw [execLaserTracking, if_pos source, if_pos lit]
  have read : (fun l : Laser => { l with
      drive := drive, output := output, temp := temp, lowering := false
      setOutput := if l.setOutput = 0 && l.state == .active then output else l.setOutput
      onSeconds := if l.state = .active then l.onSeconds + 1 else l.onSeconds }) = Laser.reading drive output temp := by
    funext l
    simp [Laser.reading]
  rw [read]
  have own : s1.laser i = (s.laser i).reading drive output temp := State.laser_modLaser s i _ listed
  have state : ((s.laser i).reading drive output temp).state = (s.laser i).state := rfl
  dsimp only
  rw [own, state]
  by_cases active : (s.laser i).state = .active
  · rw [if_neg (not_not.mpr active), if_neg (not_not.mpr active)]
    have weak : (decide (1250 ≤ drive) || oneDbBelow output ((s.laser i).reading drive output temp).setOutput) = true ↔
        1250 ≤ drive ∨ (s.laser i).setOutput ≠ 0 ∧ oneDbBelow output (s.laser i).setOutput = true := by
      rw [Bool.or_eq_true, decide_eq_true_eq, oneDbBelow_reading active]
    simp only [weak]
    split
    · rfl
    · split <;> rfl
  · rw [if_pos active, if_pos active]

/-! ### Flash wear (R748) -/

theorem exec_flashRelocation {b : Nat} (block : b < 256) (ok : Bool) (s : State) :
    exec (.flashRelocation b ok) s = .next
      (if s.dev.lit = true ∧ s.events.appends = [] ∧
        s.flash.erases.sum + 1000 * 256 < s.flash.erases.getD b 0 * 256 then
        { s with
          flash := s.flash.eraseBlock b ok
          tele := { s.tele with flashRelocations := satAdd s.tele.flashRelocations 1 } }
      else s) := by
  have due : (s.dev.lit && s.events.appends.isEmpty &&
        decide (s.flash.erases.sum + 1000 * 256 < s.flash.erases.getD b 0 * 256)) = true ↔
      s.dev.lit = true ∧ s.events.appends = [] ∧
        s.flash.erases.sum + 1000 * 256 < s.flash.erases.getD b 0 * 256 := by
    rw [Bool.and_eq_true, Bool.and_eq_true, List.isEmpty_iff, decide_eq_true_eq, and_assoc]
  change execFlashRelocation b ok s = _
  rw [execFlashRelocation, if_pos block]
  simp only [due]
  split <;> rfl

theorem Flash.eraseBlock_of_erased (f : Flash) (b : Nat) :
    f.eraseBlock b true = { f with erases := modAt f.erases b (· + 1) } := rfl

theorem Flash.eraseBlock_of_noSpare {f : Flash} (noSpare : f.spareBlocks = 0) (b : Nat) :
    f.eraseBlock b false = { f with erases := modAt f.erases b (· + 1) } := by
  rw [Flash.eraseBlock, noSpare]
  rfl

/-- A block whose erase fails gives its place to a spare that has not been erased. -/
theorem Flash.eraseBlock_of_spare {f : Flash} (spare : 0 < f.spareBlocks) (b : Nat) :
    f.eraseBlock b false =
      { f with
        erases := modAt f.erases b fun _ => 0
        spareBlocks := f.spareBlocks - 1
        retiredBlocks := f.retiredBlocks + 1 } :=
  if_neg (by simp [Nat.ne_of_gt spare])

/-! ### Telemetry (R749, R754, R757) -/

/-- What of the closed interval the interrupts leave alone. -/
def State.intervalPart (s : State) : Nat × Nat × Nat × Nat × List Host.Cell :=
  (s.tele.nextSeq, s.tele.records, s.tele.lastSample, s.now, s.mem)

theorem State.teleInterrupt_intervalPart (s : State) : s.teleInterrupt.intervalPart = s.intervalPart := by
  unfold State.teleInterrupt
  split <;> rfl

theorem State.i3cInterrupt_intervalPart (s : State) : s.i3cInterrupt.intervalPart = s.intervalPart := by
  unfold State.i3cInterrupt
  split <;> rfl

/-- The interval that ends at the next tick of 1 ms, closed, and the interrupts that its record raises. -/
def State.sampled (s : State) (mean : Nat) : State :=
  let tick := nextTick msNs s.tele.lastSample
  ((s.advanceTo tick).closeInterval tick mean).teleInterrupt.i3cInterrupt

theorem State.sampled_intervalPart (s : State) (mean : Nat) :
    (s.sampled mean).intervalPart =
      (s.tele.nextSeq + 1, satAdd s.tele.records 1, nextTick msNs s.tele.lastSample,
        max s.now (nextTick msNs s.tele.lastSample), s.mem) :=
  (State.i3cInterrupt_intervalPart _).trans (State.teleInterrupt_intervalPart _)

theorem exec_telemetrySample_of_idle {s : State} (idle : s.dev.lit = false ∨ s.tele.sampling = false) (mean : Nat) :
    exec (.telemetrySample mean) s = .next s :=
  if_neg (by rcases idle with off | off <;> simp [off])

theorem exec_telemetrySample_of_sampling {s : State} (lit : s.dev.lit = true) (sampling : s.tele.sampling = true)
    (mean : Nat) : exec (.telemetrySample mean) s = .next (s.sampled mean) :=
  if_pos (Bool.and_eq_true_iff.mpr ⟨lit, sampling⟩)

theorem telemetrySample_appends {s : State} (lit : s.dev.lit = true) (sampling : s.tele.sampling = true) (mean : Nat) :
    ∃ t : State, exec (.telemetrySample mean) s = .next t ∧
      t.tele.nextSeq = s.tele.nextSeq + 1 ∧ t.tele.records = satAdd s.tele.records 1 ∧
      t.tele.lastSample = (s.tele.lastSample / 1000000 + 1) * 1000000 ∧ t.tele.lastSample ≤ t.now ∧ t.mem = s.mem := by
  have closed := s.sampled_intervalPart mean
  simp only [State.intervalPart, Prod.mk.injEq] at closed
  obtain ⟨nextSeq, records, lastSample, now, mem⟩ := closed
  refine ⟨_, exec_telemetrySample_of_sampling lit sampling mean, nextSeq, records, lastSample, ?_, mem⟩
  rw [lastSample, now]
  exact Nat.le_max_right _ _

/-! ### The statement -/

/-- Settles O46: each row by whether its unit is lit, and by what it reads there. -/
theorem backgroundWorkKeepsTheBlockHealthy : Obligations.BackgroundWorkKeepsTheBlockHealthy := by
  unfold Obligations.BackgroundWorkKeepsTheBlockHealthy
  intro s
  refine ⟨fun word done present => ⟨fun dark ecc => exec_sramScrubWord_of_dark present dark ecc done, fun lit => ?_⟩,
    fun i source => ⟨fun unlit => ⟨exec_laserTracking_of_unlit source unlit, fun output => ?_⟩,
      fun lit drive output temp => ⟨fun listed => exec_laserTracking_of_lit source lit listed drive output temp, ?_⟩⟩,
    fun b ok block => exec_flashRelocation block ok s,
    fun f b => ⟨f.eraseBlock_of_erased b, fun noSpare => Flash.eraseBlock_of_noSpare noSpare b,
      fun spare => Flash.eraseBlock_of_spare spare b⟩,
    fun mean => ⟨fun idle => exec_telemetrySample_of_idle idle mean,
      fun lit sampling => telemetrySample_appends lit sampling mean⟩⟩
  · have row (ecc : Option EccOutcome) := exec_sramScrubWord_of_lit present lit ecc done
    exact ⟨row none, row (some .onDie), row (some .retried), row (some .corrected), row (some .uncorrectable)⟩
  · rw [exec_laserOutputDrop source, if_neg fun drops => Bool.false_ne_true (unlit.symm.trans drops.1)]
  · rw [exec_laserOutputDrop source]
    simp only [lit, true_and]

end Sys2Proof.Machine
end

section
/-! PROOF. FAULT_N (O52): entering FAULTED drives the pin low, and no evaluation of minimum service takes a FAULTED
device out of FAULTED. -/

namespace Sys2Proof.Machine

/-! ### The pin (R606) -/

theorem State.faultN_of_faulted {s : State} (faulted : s.dev = .faulted) : s.faultN = .low := by
  rw [State.faultN, faulted]
  rfl

theorem State.faultN_of_other {s : State} (other : s.dev ≠ .faulted) : s.faultN = .hiZ := by
  rw [State.faultN, beq_eq_false_iff_ne.mpr other]
  rfl

/-! ### Minimum service and the state of the device (R650 to R652) -/

@[simp] theorem State.raise_dev (s : State) (e : EventSpec) : (s.raise e).dev = s.dev := by
  unfold State.raise
  dsimp only
  split <;> rfl

@[simp] theorem State.dieLeaves_dev (s : State) (d reason : Nat) : (s.dieLeaves d reason).dev = s.dev :=
  State.raise_dev _ _

@[simp] theorem State.checkDie_dev (s : State) (d : Nat) : (s.checkDie d).dev = s.dev := by
  unfold State.checkDie
  split
  · exact s.dieLeaves_dev d _
  · rfl

@[simp] theorem State.checkLinkCc_dev (s : State) : s.checkLinkCc.dev = s.dev := by
  unfold State.checkLinkCc
  split
  · exact s.dieLeaves_dev _ 3
  · rfl

/-- A FAULTED device stays there, below minimum service too (R652). -/
theorem State.checkDevice_of_faulted {s : State} (faulted : s.dev = .faulted) : s.checkDevice = s := by
  unfold State.checkDevice
  rw [faulted]
  exact ite_self s

theorem State.applyService_of_faulted {s : State} (faulted : s.dev = .faulted) : s.applyService.dev = .faulted := by
  have kept : ((s.checkDie 0).checkDie 1).checkLinkCc.dev = .faulted := by
    rw [State.checkLinkCc_dev, State.checkDie_dev, State.checkDie_dev, faulted]
  rw [State.applyService, State.checkDevice_of_faulted kept, kept]

theorem State.serviceAfter_of_faulted {s : State} (faulted : s.dev = .faulted) (r : Option RunStep) :
    (s.serviceAfter r).dev = .faulted := by
  cases r with
  | none => exact faulted
  | some x => exact State.applyService_of_faulted faulted

/-- However the step ends, the device is FAULTED (R605, R646). -/
theorem State.enterFaulted_dev (s : State) (reason : FaultReason) (code : EventCode) :
    (s.enterFaulted reason code).dev = .faulted :=
  State.serviceAfter_of_faulted (State.raise_dev _ _) _

/-- Settles O52: FAULT_N follows the state of the device, and both rows end in FAULTED. -/
theorem faultNIsAssertedWhileTheDeviceIsFaulted : Obligations.FaultNIsAssertedWhileTheDeviceIsFaulted := by
  unfold Obligations.FaultNIsAssertedWhileTheDeviceIsFaulted
  intro s
  refine ⟨State.faultN_of_faulted, State.faultN_of_other, fun serves => ⟨fun cause => ?_, fun cause => ?_⟩⟩
  · have faulted : (s.lampRestart cause).dev = .faulted := State.enterFaulted_dev _ _ _
    exact ⟨_, by rw [exec_lamplighterRestart, if_pos serves], faulted, State.faultN_of_faulted faulted⟩
  · have faulted := s.enterFaulted_dev .uncontained .uncontained
    exact ⟨_, by rw [exec_uncontained, if_pos serves], faulted, State.faultN_of_faulted faulted⟩

end Sys2Proof.Machine
end

section
/-! PROOF. Fuses (O6) and sequence numbers (O7): both are parts of what every step keeps. -/

namespace Sys2Proof.Machine

/-- A fused bit stays blown (R686). -/
theorem Fuses.Grow.revoked_getLsbD {a b : Fuses} (grow : a.Grow b) {i : Nat} (blown : a.keysRevoked.getLsbD i = true) :
    b.keysRevoked.getLsbD i = true := by
  rw [← grow.revoked, BitVec.getLsbD_and] at blown
  exact (Bool.and_eq_true_iff.mp blown).2

/-- Settles O6: every step lets the fuses only grow, and keeps what is fused in the dies. -/
theorem fusesAreOnlyEverBlown : Obligations.FusesAreOnlyEverBlown := by
  unfold Obligations.FusesAreOnlyEverBlown
  intro s t stepped
  have effect : Changes { s with pending := s.pending.tail } t := step_changes stepped
  have grow : s.fuses.Grow t.fuses := effect.fuses
  exact ⟨grow.rollback, fun _ => grow.revoked_getLsbD, grow.debug, grow.unitId, effect.dies⟩

/-- Settles O7: every step lets the next SEQ only rise, and keeps the order and the bound of each ring. -/
theorem eventSequenceNumbersNeverRepeat : Obligations.EventSequenceNumbersNeverRepeat := by
  unfold Obligations.EventSequenceNumbersNeverRepeat
  intro s t stepped
  have effect : Changes { s with pending := s.pending.tail } t := step_changes stepped
  exact ⟨effect.seq, effect.ring, effect.flashRing⟩

end Sys2Proof.Machine
end

section
/-! PROOF. SELF_TEST, RETIRE_UNIT and STAGE_BUNDLE (O16): what an accepted request with a valid payload does. -/

namespace Sys2Proof.Machine

/-! ### SELF_TEST (R734, R735) -/

section
variable {s : State} {n : Nat} {r : Request} {p : List Byte}

/-- A test of the items of SCOPE is PENDING while it runs, and answers with what it found. -/
theorem exec_selfTest_of_valid (rep : SelfTestReport) (a : s.Accepts n specSelfTest r p) (least : 1 ≤ field p 0 1)
    (most : field p 0 1 ≤ 15) (reserved : field p 1 7 = 0) :
    let u := (s.copied n specSelfTest r).respondPending n 0
    let v := u.runSelfTest (field p 0 1) rep
    exec (.selfTest n r rep) s = .next ((v.respond n .ok (selfTestResult u v (field p 0 1) rep)).inCascade none) := by
  intro u v
  have fields : ¬(field p 0 1 = 0 ∨ 15 < field p 0 1 ∨ field p 1 7 ≠ 0) := by omega
  exact onMailbox_accepted_body a (if_neg fields)

/-! ### RETIRE_UNIT (R660, R661) -/

section
variable {u : UnitAddr} (reserved : field p 1 7 = 0) (named : unitOfBytes (slice p 8 8) = some u)
  (retirable : s.retirable u = true)
include reserved named retirable

/-- ACTION RETIRE of a unit in service. -/
theorem State.retireCommand_of_retire (action : field p 0 1 = 0) (inService : s.unitRetired u = false) :
    s.retireCommand n 0 p = (s.retireUnit u).respond n .ok (retireResult 0 s.events.nextSeq) := by
  simp [State.retireCommand, named, action, reserved, retirable, inService]

/-- ACTION RESTORE of a retired unit. -/
theorem State.retireCommand_of_restore (action : field p 0 1 = 1) (retired : s.unitRetired u = true) :
    s.retireCommand n 1 p =
      ((s.logAppend u .restore).raise { code := .unitRestorePending, unit := u }).respond n .ok
        (retireResult 1 s.events.nextSeq) := by
  simp [State.retireCommand, named, action, reserved, retirable, retired]

end

/-! ### STAGE_BUNDLE (R681, R682) -/

/-- The state that a block is written in, and whether the staging cancelled an activation: block 0 starts anew. -/
def State.stagingFrom (s : State) (index count : Nat) : State × Bool :=
  if index = 0 then s.startStaging count else (s, false)

/-- A block with the right check sum, and with the right header where it is block 0, is written; the last one ends the
staging. -/
theorem State.stageBlock_of_intact {index count crc : Nat} {b : List Byte} (intact : (crc32c b).toNat = crc)
    (header : index = 0 → stageHeaderOk b count = true) :
    let s2 := (s.stagingFrom index count).1.writeBlock b
    let cancelled := (s.stagingFrom index count).2
    s.stageBlock n index count crc b =
      if index + 1 = count then (s2.respondPending n 0).finishStaging n cancelled
      else s2.respond n .ok (stageResult s2.bundle.nextIndex cancelled) := by
  have checked : (decide (index = 0) && !stageHeaderOk b count) = false := by
    by_cases first : index = 0
    · simp [header first]
    · simp [first]
  intro s2 cancelled
  simp only [State.stageBlock, intact, checked, ne_eq, not_true_eq_false, if_false, Bool.false_eq_true]
  rfl

/-- The fields of the payload are in range, and its block is read in place (R681). -/
structure StageFields (r : Request) (p : List Byte) : Prop where
  inline : r.flags.getLsbD 0 = false
  least : 1 ≤ field p 4 4
  most : field p 4 4 ≤ 1024
  index : field p 0 4 < field p 4 4
  reserved : field p 0x18 8 = 0
  space : daSpace (field p 0x10 8) = 0xC
  full : field p 0 4 + 1 ≠ field p 4 4 → field p 8 4 = 65536
  nonempty : 1 ≤ field p 8 4
  size : field p 8 4 ≤ 65536
  beats : field p 8 4 % 64 = 0

/-- A valid block in turn is fetched through the windows. -/
theorem exec_stageBundle_of_valid {b : List Byte} (a : s.Accepts n specStageBundle r p) (valid : StageFields r p)
    (inTurn : field p 0 4 = 0 ∨ s.bundle.stage = .staging ∧ field p 0 4 = s.bundle.nextIndex ∧
      field p 4 4 = s.bundle.blockCount)
    (fetched : s.hostRead (field p 0x10 8) (field p 8 4) = some b) :
    exec (.stageBundle n r) s = .next
      (((s.copied n specStageBundle r).stageBlock n (field p 0 4) (field p 4 4) (field p 0xC 4) b).inCascade none) := by
  refine onMailbox_accepted_body a ?_
  obtain ⟨inline, least, most, index, reserved, space, full, nonempty, size, beats⟩ := valid
  have bundle : (s.copied n specStageBundle r).bundle = s.bundle := rfl
  have read : (s.copied n specStageBundle r).hostRead (field p 0x10 8) (field p 8 4) = some b := fetched
  dsimp only
  rw [if_neg, if_neg, read]
  · rw [bundle]
    rintro ⟨later, other⟩
    obtain ⟨staging, next, count⟩ := inTurn.resolve_left later
    simp [staging, ← next, ← count] at other
  · simp only [inline, Bool.false_eq_true, false_or, Bool.not_eq_true', beq_eq_false_iff_ne]
    omega

end

/-! ### The statement -/

/-- Settles O16: the body of each command on a valid payload. -/
theorem serviceCommandsTestRetireAndStage : Obligations.ServiceCommandsTestRetireAndStage := by
  unfold Obligations.ServiceCommandsTestRetireAndStage
  intro s n r p
  refine ⟨fun rep a least most reserved => ⟨_, _, rfl, rfl, exec_selfTest_of_valid rep a least most reserved⟩,
    fun u a action reserved named retirable inService => ?_, fun u a action reserved named retirable retired => ?_,
    fun b a inline least most index reserved space full nonempty size beats inTurn fetched intact header => ?_⟩
  · exact onMailbox_accepted_body a (State.retireCommand_of_retire reserved named retirable action inService)
  · exact onMailbox_accepted_body a (State.retireCommand_of_restore reserved named retirable action retired)
  · have fields : StageFields r p :=
      ⟨inline, least, most, index, reserved, space, full, nonempty, size, beats⟩
    refine ⟨_, _, _, rfl, rfl, ?_⟩
    rw [exec_stageBundle_of_valid a fields inTurn fetched, State.stageBlock_of_intact intact header]
    rfl

end Sys2Proof.Machine
end

section
/-! PROOF. The I3C target (O53): when a read is served, and what each command of the bus changes. -/

namespace Sys2Proof.Machine

section
variable {s : State}

/-! ### Reads (R756) -/

/-- A device that answers serves a read when it is lit and the arguments are in range, and refuses it
otherwise. -/
theorem State.i3cRead_of_answers (answers : s.dev.answers = true) {bad good : Prop} [Decidable bad] [Decidable good]
    (range : bad ↔ ¬good) (t : State) :
    (if !s.dev.answers then .next s else if !s.dev.lit ∨ bad then .next s.i3cRefuse else .next t :
      Host.Outcome State Fault Refusal) = .next (if s.dev.lit = true ∧ good then t else s.i3cRefuse) := by
  cases lit : s.dev.lit <;> by_cases inRange : good <;> simp [answers, range, inRange]

theorem exec_i3cStatus_of_answers (answers : s.dev.answers = true) :
    exec .i3cStatus s = .next (s.i3cReply true s.i3cStatusBytes) := if_pos answers

/-- The state after a read of records: the target's own cursor has moved, and its signal may come again (R757). -/
def State.i3cReadRecords (s : State) (seq count : Nat) : State :=
  let r := s.telemetryResult seq count
  ({ s with i3c := { s.i3c with
      cursor := r.2
      signalled := s.i3c.signalled && decide (s.tele.threshold < s.tele.nextSeq - r.2) } } : State).i3cReply true r.1

theorem exec_i3cRecords_of_answers (answers : s.dev.answers = true) (seq count : Nat) :
    exec (.i3cRecords seq count) s = .next
      (if s.dev.lit = true ∧ 1 ≤ count ∧ count ≤ 8 then s.i3cReadRecords seq count else s.i3cRefuse) :=
  State.i3cRead_of_answers answers (by omega) _

theorem exec_i3cEvents_of_answers (answers : s.dev.answers = true) (seq count : Nat) :
    exec (.i3cEvents seq count) s = .next
      (if s.dev.lit = true ∧ 1 ≤ count ∧ count ≤ 16 then
        s.i3cReply true (eventsResult s.events.ring s.events.nextSeq seq count) else s.i3cRefuse) :=
  State.i3cRead_of_answers answers (by omega) _

theorem exec_i3cRegister_of_answers (answers : s.dev.answers = true) (addr words : Nat) :
    exec (.i3cRegister addr words) s = .next
      (if s.dev.lit = true ∧ 1 ≤ words ∧ words ≤ 16 ∧ addr % 4 = 0 ∧ daSpace addr = 0xF then
        s.i3cReply true ((List.range words).flatMap fun i => leBytes 4 (s.spaceFWord (addr + 4 * i)))
      else s.i3cRefuse) :=
  State.i3cRead_of_answers answers (by omega) _

/-! ### Addresses (R755) -/

/-- An address is taken by a target that answers and has none. -/
theorem State.takesAddress_iff (answers : s.dev.answers = true) :
    (s.dev.answers && s.i3c.dynamicAddr.isNone) = true ↔ s.i3c.dynamicAddr = none := by
  rw [answers, Bool.true_and, Option.isNone_iff_eq_none]

end

/-- Settles O53: a DARK device leaves every row without effect; else each read is served or refused by its range, and
an address is taken once. -/
theorem i3cTargetServesTheBoard : Obligations.I3cTargetServesTheBoard := by
  unfold Obligations.I3cTargetServesTheBoard
  intro s served refused
  refine ⟨fun dark => ?_, fun answers => ⟨exec_i3cStatus_of_answers answers, exec_i3cRecords_of_answers answers,
    exec_i3cEvents_of_answers answers, exec_i3cRegister_of_answers answers, if_pos answers, fun a =>
      ⟨fun free => ?_, fun taken => ?_⟩⟩⟩
  · have silent : (!s.dev.answers) = true := by rw [dark]; rfl
    have unanswered : ¬s.dev.answers = true := Bool.eq_false_iff.mp dark
    have noAddress : ¬(s.dev.answers && s.i3c.dynamicAddr.isNone) = true := fun takes =>
      unanswered (Bool.and_eq_true_iff.mp takes).1
    exact ⟨if_neg unanswered, fun _ _ => if_pos silent, fun _ _ => if_pos silent, fun _ _ => if_pos silent,
      if_neg unanswered, fun _ => if_neg noAddress, fun _ => if_neg noAddress⟩
  · have takes := (State.takesAddress_iff answers).mpr free
    exact ⟨if_pos takes, if_pos takes⟩
  · have keeps := mt (State.takesAddress_iff answers).mp taken
    exact ⟨if_neg keeps, if_neg keeps⟩

end Sys2Proof.Machine
end

section
/-! PROOF. The sequencing field (O28): where each operation leaves the running context of a tile that can issue. -/

namespace Sys2Proof.Machine

section
variable {s : State} {d p : Nat}

/-! ### A tile that can issue is there, and so is its running context -/

theorem State.tileIx_lt_of_canIssue (issues : s.canIssue d p = true) : tileIx d p < s.tiles.length := by
  by_contra beyond
  have unmapped : (s.tile d p).logicalId = none :=
    congrArg Tile.logicalId (List.getD_eq_default _ _ (Nat.le_of_not_lt beyond))
  simp [State.canIssue, State.tileRuns, State.usedTile, unmapped] at issues

theorem Tile.running_lt_of_ready {t : Tile} (ready : (t.current.state == .ready) = true) :
    t.running < t.contexts.length := by
  by_contra beyond
  have absent : t.current = {} := List.getD_eq_default _ _ (Nat.le_of_not_lt beyond)
  rw [absent] at ready
  exact absurd ready (by decide)

theorem State.running_lt_of_canIssue (issues : s.canIssue d p = true) :
    (s.tile d p).running < (s.tile d p).contexts.length := by
  simp only [State.canIssue, Bool.and_eq_true] at issues
  obtain ⟨⟨-, ready⟩, -⟩ := issues
  exact Tile.running_lt_of_ready ready

/-! ### A change of the running context -/

theorem State.tile_modCtx (there : tileIx d p < s.tiles.length) (n : Nat) (f : Context → Context) :
    (s.modCtx d p n f).tile d p = (s.tile d p).modCtx n f :=
  s.tile_modTile d p _ there

theorem Tile.current_modCtx {t : Tile} (there : t.running < t.contexts.length) (f : Context → Context) :
    (t.modCtx t.running f).current = f t.current :=
  modAt_getD_self _ _ _ _ there

theorem State.modCtx_twice (s : State) (d p n : Nat) (f g : Context → Context) :
    (s.modCtx d p n f).modCtx d p n g = s.modCtx d p n fun c => g (f c) := by
  simp only [State.modCtx, State.modTile_twice, Tile.modCtx, modAt_modAt]

/-- The directory entry of a tile does not read its contexts. -/
theorem State.segmentOf_modCtx (there : tileIx d p < s.tiles.length) (n : Nat) (f : Context → Context) (g : Nat) :
    (s.modCtx d p n f).segmentOf d p g = s.segmentOf d p g := by
  simp only [State.segmentOf, State.entryOf, State.modCtx_program, State.tile_modCtx there]
  rfl

/-! ### Transfers within the segment (R155) -/

theorem State.gotoBundle_of_lt {b : Nat} (inSegment : b < (s.segmentOf d p (s.tile d p).current.segment).bundles) :
    s.gotoBundle d p b = s.modCtx d p (s.tile d p).running fun c => { c with bundle := b } :=
  if_pos inSegment

theorem State.gotoBundle_of_ge {b : Nat} (past : (s.segmentOf d p (s.tile d p).current.segment).bundles ≤ b) :
    s.gotoBundle d p b = s.progFault d p (s.tile d p).running pfSegmentRange 0 :=
  if_neg (Nat.not_lt.mpr past)

section
variable (issues : s.canIssue d p = true) {f : Context → Context}
  (segment : (f (s.tile d p).current).segment = (s.tile d p).current.segment)
include issues segment

/-- A register of the running context changes, and the context goes on within its segment. -/
theorem State.gotoBundle_modCtx {b : Nat} (inSegment : b < (s.segmentOf d p (s.tile d p).current.segment).bundles) :
    (s.modCtx d p (s.tile d p).running f).gotoBundle d p b =
      s.modCtx d p (s.tile d p).running fun c => { f c with bundle := b } := by
  have there := State.tileIx_lt_of_canIssue issues
  have running : ((s.modCtx d p (s.tile d p).running f).tile d p).running = (s.tile d p).running := by
    rw [State.tile_modCtx there]; rfl
  have current : ((s.modCtx d p (s.tile d p).running f).tile d p).current = f (s.tile d p).current := by
    rw [State.tile_modCtx there, Tile.current_modCtx (State.running_lt_of_canIssue issues)]
  rw [State.gotoBundle_of_lt, running, State.modCtx_twice]
  rwa [State.segmentOf_modCtx there, current, segment]

theorem State.nextOf_modCtx (bundle : (f (s.tile d p).current).bundle = (s.tile d p).current.bundle)
    (inSegment : (s.tile d p).current.bundle + 1 < (s.segmentOf d p (s.tile d p).current.segment).bundles) :
    (s.modCtx d p (s.tile d p).running f).nextOf d p =
      s.modCtx d p (s.tile d p).running fun c => { f c with bundle := (s.tile d p).current.bundle + 1 } := by
  have there := State.tileIx_lt_of_canIssue issues
  rw [State.nextOf, State.tile_modCtx there, Tile.current_modCtx (State.running_lt_of_canIssue issues), bundle]
  exact State.gotoBundle_modCtx issues segment inSegment

end

/-! ### Parameters (R154, R172) -/

theorem ofInt_signExtend_eq (imm : Nat) :
    BitVec.ofInt 32 (Machine.signExtend 12 imm) = (BitVec.ofNat 12 imm).signExtend 32 := by
  rw [BitVec.signExtend, BitVec.toInt_eq_toNat_cond, BitVec.toNat_ofNat, Machine.signExtend]
  norm_num

section
variable (issues : s.canIssue d p = true)
  (inSegment : (s.tile d p).current.bundle + 1 < (s.segmentOf d p (s.tile d p).current.segment).bundles)
include issues inSegment

theorem State.setParam_eq (reg : Nat) (v : BitVec 32) :
    s.setParam d p reg v = s.modCtx d p (s.tile d p).running fun c =>
      { c with params := modAt c.params reg fun _ => v, bundle := (s.tile d p).current.bundle + 1 } :=
  State.nextOf_modCtx issues rfl rfl inSegment

theorem State.paramAdd_eq (reg imm : Nat) :
    s.paramAdd d p reg imm = s.modCtx d p (s.tile d p).running fun c =>
      { c with
        params := modAt c.params reg fun _ =>
          (s.tile d p).current.params.getD reg 0 + (BitVec.ofNat 12 imm).signExtend 32
        bundle := (s.tile d p).current.bundle + 1 } := by
  rw [State.paramAdd, State.setParam_eq issues inSegment, State.param, BitVec.ofNat_toNat, BitVec.setWidth_eq,
    ofInt_signExtend_eq]

/-! ### Loops (R155) -/

/-- A loop of `count` begins at the next bundle (R155). -/
def State.beginLoop (s : State) (d p reg count : Nat) : State :=
  s.modCtx d p (s.tile d p).running fun c =>
    { c with
      loops := modAt c.loops reg fun _ =>
        { count := count, start := (s.tile d p).current.bundle + 1, segment := (s.tile d p).current.segment }
      bundle := (s.tile d p).current.bundle + 1 }

theorem State.loopFrom_eq (reg count : Nat) :
    s.loopFrom d p reg count =
      if count = 0 then s.progFault d p (s.tile d p).running 5 0
      else if 4095 < count then s.progFault d p (s.tile d p).running 10 0
      else s.beginLoop d p reg count := by
  rw [State.loopFrom, State.nextOf_modCtx issues rfl rfl inSegment]
  rfl

theorem State.loopBack_of_count {reg : Nat} (segment : ((s.tile d p).loopReg reg).segment = (s.tile d p).current.segment)
    (positive : 0 < ((s.tile d p).loopReg reg).count) (bounded : ((s.tile d p).loopReg reg).count < 4096)
    (start : ((s.tile d p).loopReg reg).start < (s.segmentOf d p (s.tile d p).current.segment).bundles) :
    s.loopBack d p reg = s.modCtx d p (s.tile d p).running fun c =>
      { c with
        loops := modAt c.loops reg fun y => { y with count := ((s.tile d p).loopReg reg).count - 1 }
        bundle := if ((s.tile d p).loopReg reg).count = 1 then (s.tile d p).current.bundle + 1
          else ((s.tile d p).loopReg reg).start } := by
  have count : (((s.tile d p).loopReg reg).count + 4095) % 4096 = ((s.tile d p).loopReg reg).count - 1 := by omega
  rw [State.loopBack, if_neg (not_not.mpr segment)]
  simp only [count]
  by_cases last : ((s.tile d p).loopReg reg).count = 1
  · rw [if_pos (by omega), State.nextOf_modCtx issues rfl rfl inSegment]
    simp only [if_pos last]
  · rw [if_neg (by omega), State.gotoBundle_modCtx issues rfl start]
    simp only [if_neg last]

end

theorem State.loopBack_of_otherSegment {reg : Nat}
    (other : ((s.tile d p).loopReg reg).segment ≠ (s.tile d p).current.segment) :
    s.loopBack d p reg = s.progFault d p (s.tile d p).running pfLoopSegment 0 :=
  if_pos other

/-! ### Rows -/

/-- A row of a tile, with its effect `t` (`State.seqRow`): it acts where the tile can issue and the row's fields are in
range. -/
def State.issueRow (s : State) (d p : Nat) (fields : Bool) (t : State) : Host.Outcome State Fault Refusal :=
  if tileExists d p then .next (if s.canIssue d p && fields then t else s) else .fault .noSuchUnit

theorem State.issueRow_of_noIssue (tile : tileExists d p = true) (still : s.canIssue d p = false) (fields : Bool)
    (t : State) : s.issueRow d p fields t = .next s := by
  simp [State.issueRow, tile, still]

section
variable (tile : tileExists d p = true) (issues : s.canIssue d p = true)
include tile issues

theorem State.issueRow_of_canIssue {fields : Bool} (inRange : fields = true) (t : State) :
    s.issueRow d p fields t = .next t := by
  simp [State.issueRow, tile, issues, inRange]

theorem exec_nextBundle_of_canIssue : exec (.nextBundle d p) s = .next (s.nextOf d p) :=
  State.issueRow_of_canIssue tile issues rfl _

theorem exec_loopEnd_of_canIssue {reg : Nat} (register : reg < 4) :
    exec (.loopEnd d p reg) s = .next (s.loopBack d p reg) :=
  State.issueRow_of_canIssue tile issues (decide_eq_true register) _

section
variable {imm : Nat} (immediate : imm < 4096)
include immediate

theorem exec_jump_of_canIssue : exec (.jump d p imm) s = .next (s.gotoBundle d p (imm % 2048)) :=
  State.issueRow_of_canIssue tile issues (decide_eq_true immediate) _

theorem exec_loopRows_of_canIssue {reg : Nat} (register : reg < 4) :
    exec (.loopBegin d p reg imm) s = .next (s.loopFrom d p reg imm) ∧
      exec (.loopBeginP d p reg imm) s = .next (s.loopFrom d p reg (s.param d p (imm % 16))) := by
  have fields : (decide (reg < 4) && decide (imm < 4096)) = true := by simp [register, immediate]
  have row := State.issueRow_of_canIssue tile issues fields
  exact ⟨row _, row _⟩

theorem exec_paramRows_of_canIssue {reg : Nat} (register : reg < 16) :
    exec (.pset d p reg imm) s = .next (s.setParam d p reg (BitVec.ofNat 32 imm)) ∧
      exec (.padd d p reg imm) s = .next (s.paramAdd d p reg imm) ∧
      exec (.jumpIfGe d p reg imm) s = .next (s.jumpGe d p reg imm) := by
  have fields : (decide (reg < 16) && decide (imm < 4096)) = true := by simp [register, immediate]
  have row := State.issueRow_of_canIssue tile issues fields
  exact ⟨row _, row _, row _⟩

end

end

theorem sequencing_of_noIssue (tile : tileExists d p = true) (still : s.canIssue d p = false) (reg imm : Nat) :
    exec (.nextBundle d p) s = .next s ∧ exec (.jump d p imm) s = .next s ∧ exec (.pset d p reg imm) s = .next s ∧
      exec (.padd d p reg imm) s = .next s ∧ exec (.jumpIfGe d p reg imm) s = .next s ∧
      exec (.loopBegin d p reg imm) s = .next s ∧ exec (.loopBeginP d p reg imm) s = .next s ∧
      exec (.loopEnd d p reg) s = .next s := by
  have row := State.issueRow_of_noIssue tile still
  exact ⟨row true _, row _ _, row _ _, row _ _, row _ _, row _ _, row _ _, row _ _⟩

end

/-- Settles O28: each row is its operation on a tile that can issue, and nothing on one that cannot. -/
theorem sequencingOperationsActAsTheirTableGives : Obligations.SequencingOperationsActAsTheirTableGives := by
  unfold Obligations.SequencingOperationsActAsTheirTableGives
  intro s d p tile
  refine ⟨fun issues reg imm immediate => ?_, sequencing_of_noIssue tile⟩
  dsimp only
  refine ⟨exec_jump_of_canIssue tile issues immediate, fun inSegment => ⟨?_, fun register => ?_, fun register => ?_⟩,
    fun past => ?_⟩
  · rw [exec_nextBundle_of_canIssue tile issues, State.nextOf, State.gotoBundle_of_lt inSegment]
  · obtain ⟨pset, padd, jumpIfGe⟩ := exec_paramRows_of_canIssue tile issues immediate register
    rw [pset, padd, jumpIfGe, State.setParam_eq issues inSegment, State.paramAdd_eq issues inSegment, State.jumpGe]
    refine ⟨rfl, rfl, fun below => ?_, fun reached inside => ?_⟩
    · exact congrArg _ ((if_neg (Nat.not_le.mpr below)).trans (State.gotoBundle_of_lt inSegment))
    · exact congrArg _ ((if_pos reached).trans (State.gotoBundle_of_lt inside))
  · obtain ⟨loopBegin, loopBeginP⟩ := exec_loopRows_of_canIssue tile issues immediate register
    rw [loopBegin, loopBeginP, exec_loopEnd_of_canIssue tile issues register]
    refine ⟨?_, ?_, fun other => ?_, fun segment positive bounded start => ?_⟩
    · rw [State.loopFrom_eq issues inSegment, if_neg (show ¬4095 < imm by omega)]
      rfl
    · exact congrArg _ (State.loopFrom_eq issues inSegment reg _)
    · exact congrArg _ (State.loopBack_of_otherSegment other)
    · exact congrArg _ (State.loopBack_of_count issues inSegment segment positive bounded start)
  · rw [exec_nextBundle_of_canIssue tile issues, State.nextOf, State.gotoBundle_of_ge past]
    rfl

end Sys2Proof.Machine
end

section
/-! PROOF. What the accounting of stalls, the choice of a context, and the end of a step leave of the state. -/

namespace Sys2Proof.Machine

/-! ### Schedule and accounting (R174 to R178, R223 to R226) -/

/-- A tile without its contexts, its schedule and the account of its stalls. -/
def Tile.still (t : Tile) : Tile :=
  { t with
    contexts := [], switching := none, contextSwitches := 0, switchCycles := 0, stallSince := none, episode := none
    activeAt := 0, lighting := false }

/-- A bank-side unit without the account of its stalls. -/
def Bsu.still (b : Bsu) : Bsu := { b with stalls := [], stallSince := 0 }

def Stack.still (k : Stack) : Stack := { k with bsus := k.bsus.map Bsu.still }

/-- All of the state but the schedule of the tiles and the account of stalls. -/
def State.still (s : State) : State :=
  { s with
    tiles := s.tiles.map Tile.still
    hbm := s.hbm.map Stack.still
    tele := { s.tele with histStall := [] } }

theorem State.modTile_still (s : State) (d p : Nat) {f : Tile → Tile} (kept : ∀ x, (f x).still = x.still) :
    (s.modTile d p f).still = s.still :=
  congrArg (fun tiles => { s.still with tiles := tiles }) (modAt_map Tile.still _ _ _ kept)

@[simp] theorem State.modCtx_still (s : State) (d p n : Nat) (f : Context → Context) :
    (s.modCtx d p n f).still = s.still :=
  State.modTile_still (f := fun t => t.modCtx n f) s d p fun _ => rfl

@[simp] theorem State.binStall_still (s : State) (d : Nat) (c : StallCause) (cycles : Nat) :
    (s.binStall d c cycles).still = s.still := by
  rw [State.binStall]
  split <;> rfl

@[simp] theorem State.endEpisode_still (s : State) (d p : Nat) : (s.endEpisode d p).still = s.still := by
  rw [State.endEpisode]
  split
  · rw [State.modTile_still, State.binStall_still]
    exact fun _ => rfl
  · rfl

@[simp] theorem State.goOnStall_still (s : State) (d p : Nat) (c : StallCause) (cycles : Nat) :
    (s.goOnStall d p c cycles).still = s.still := by
  have counted : (s.countStall d p (s.tile d p).running c cycles).still = s.still := State.modCtx_still ..
  rw [State.goOnStall]
  split
  · split
    · rw [State.modTile_still, counted]
      exact fun _ => rfl
    · rw [State.modTile_still, State.endEpisode_still, counted]
      exact fun _ => rfl
  · rw [State.modTile_still, counted]
    exact fun _ => rfl

@[simp] theorem State.chargeStall_still (s : State) (d p : Nat) : (s.chargeStall d p).still = s.still := by
  rw [State.chargeStall]
  split
  · rfl
  · rw [State.modTile_still _ _ _ (by exact fun _ => rfl)]
    split
    · rfl
    · split
      · exact State.goOnStall_still ..
      · exact State.endEpisode_still ..

@[simp] theorem State.endStall_still (s : State) (d p : Nat) : (s.endStall d p).still = s.still := by
  rw [State.endStall, State.modTile_still, State.endEpisode_still, State.chargeStall_still]
  exact fun _ => rfl

theorem State.modBsu_still (s : State) (st ch : Nat) {f : Bsu → Bsu} (kept : ∀ b, (f b).still = b.still) :
    (s.modBsu st ch f).still = s.still := by
  have units (k : Stack) : Stack.still { k with bsus := modAt k.bsus ch f } = k.still :=
    congrArg (fun bsus => { k with bsus := bsus }) (modAt_map Bsu.still _ _ _ kept)
  exact congrArg (fun hbm => { s.still with hbm := hbm }) (modAt_map Stack.still _ _ _ units)

@[simp] theorem State.chargeBsu_still (s : State) (st ch : Nat) : (s.chargeBsu st ch).still = s.still := by
  rw [State.chargeBsu, State.modBsu_still]
  exact fun _ => rfl

@[simp] theorem State.endStalls_still (s : State) : s.endStalls.still = s.still := by
  rw [State.endStalls]
  refine foldl_keep (fun x : State => x.still = s.still) (foldl_keep (fun x : State => x.still = s.still) rfl ?_) ?_
  · exact fun x i kept => (x.endStall_still _ _).trans kept
  · exact fun x i kept => (x.chargeBsu_still _ _).trans kept

@[simp] theorem State.switchTo_still (s : State) (d p m : Nat) : (s.switchTo d p m).still = s.still := by
  rw [State.switchTo, State.modTile_still, State.endStall_still]
  exact fun _ => rfl

@[simp] theorem State.settle_still (s : State) (d p : Nat) : (s.settle d p).still = s.still := by
  have put (x : State) (kept : x.still = s.still) :
      (x.modTile d p fun y => { y with contexts := y.contexts.mapIdx (s.wakeCtx (s.tile d p)) }).still = s.still := by
    rw [State.modTile_still, kept]
    exact fun _ => rfl
  have stays := put s rfl
  have switches (m : Nat) := put _ (s.switchTo_still d p m)
  have resumes := put _ (s.endStall_still d p)
  rw [State.settle]
  dsimp only
  split
  · rfl
  · split
    case h_1 => exact stays
    case h_2 =>
      split
      · split
        · exact stays
        · split
          · exact resumes
          · split
            · exact switches _
            · exact stays
      · exact stays
    all_goals
      split
      · split
        · exact switches _
        · exact stays
      · exact stays

@[simp] theorem State.askLight_still (s : State) (d p : Nat) : (s.askLight d p).still = s.still := by
  refine State.modTile_still s d p fun t => ?_
  split <;> rfl

/-! ### What a stop leaves (R185, R186) -/

/-- What neither the schedule nor the end of a step changes of a tile. -/
def Tile.lasting (t : Tile) : Tile :=
  { t.still with arrayQueue := [], vectorQueue := [], xfers := [], segLoads := [], slots := [] }

/-- What neither the schedule nor the end of a step changes of the tiles and of device memory. -/
def State.lasting (s : State) : List Tile × List Host.Cell := (s.tiles.map Tile.lasting, s.mem)

theorem State.lasting_of_still {s t : State} (same : t.still = s.still) : t.lasting = s.lasting := by
  have tiles (x : State) : x.tiles.map Tile.lasting = x.still.tiles.map Tile.lasting := by
    simp only [State.still, List.map_map]
    rfl
  have mem : t.mem = s.mem := (congrArg State.mem same : t.still.mem = s.still.mem)
  rw [State.lasting, State.lasting, tiles, tiles s, same, mem]

theorem State.tile_lasting {s t : State} (same : t.lasting = s.lasting) (d p : Nat) :
    (t.tile d p).lasting = (s.tile d p).lasting := by
  have read (x : State) : (x.tile d p).lasting = (x.tiles.map Tile.lasting).getD (tileIx d p) (Tile.lasting {}) :=
    (getD_map_apply Tile.lasting x.tiles _ {}).symm
  have tiles : t.tiles.map Tile.lasting = s.tiles.map Tile.lasting := congrArg Prod.fst same
  rw [read, read s, tiles]

theorem Tile.counters_of_lasting {t u : Tile} (same : t.lasting = u.lasting) : t.counters = u.counters :=
  (congrArg Tile.counters same : t.lasting.counters = u.lasting.counters)

theorem Tile.fault_of_lasting {t u : Tile} (same : t.lasting = u.lasting) : t.fault = u.fault :=
  (congrArg Tile.fault same : t.lasting.fault = u.lasting.fault)

@[simp] theorem State.cutExports_tiles (s : State) : s.cutExports.tiles = s.tiles := rfl
@[simp] theorem State.cutExports_mem (s : State) : s.cutExports.mem = s.mem := rfl

theorem State.lasting_of_discarded {s t : State} (discarded : t.tiles = s.tiles.map Tile.discardWork)
    (mem : t.mem = s.mem) : t.lasting = s.lasting := by
  rw [State.lasting, State.lasting, discarded, mem, List.map_map]
  rfl

@[simp] theorem State.stopWork_lasting (s : State) : s.stopWork.lasting = s.lasting := by
  have discarded : s.stopWork.tiles = s.endStalls.tiles.map Tile.discardWork := by
    rw [State.stopWork, State.cutExports_tiles]
  have mem : s.stopWork.mem = s.endStalls.mem := by
    rw [State.stopWork, State.cutExports_mem]
  rw [State.lasting_of_discarded discarded mem, State.lasting_of_still s.endStalls_still]

@[simp] theorem State.raise_lasting (s : State) (e : EventSpec) : (s.raise e).lasting = s.lasting := by
  rw [State.raise]
  dsimp only
  split <;> rfl

@[simp] theorem State.raise_stopped (s : State) (e : EventSpec) : (s.raise e).stopped = s.stopped := by
  rw [State.raise]
  dsimp only
  split <;> rfl

theorem State.withRun_lasting (s : State) (r : Option RunStep) (e : Events) :
    State.lasting { s with run := r, events := e } = s.lasting := rfl

@[simp] theorem State.abortBy_lasting (s : State) (c : AbortCause) (origin : Nat) :
    (s.abortBy c origin).lasting = s.lasting := by
  rw [State.abortBy]
  split
  · rfl
  · split
    · rfl
    · split
      · split <;> rfl
      · rw [State.withRun_lasting, State.raise_lasting, State.stopWork_lasting]

@[simp] theorem State.sendAborts_lasting (s : State) (k origin cause entry : Nat) (except : Option Nat) :
    (s.sendAborts k origin cause entry except).lasting = s.lasting :=
  foldl_keep (fun x : State => x.lasting = s.lasting) rfl fun _ _ kept => kept

@[simp] theorem State.abortStep_lasting (s : State) (c : AbortCause) : (s.abortStep c).lasting = s.lasting := by
  rw [State.abortStep]
  split
  · exact (State.sendAborts_lasting ..).trans (s.abortBy_lasting c _)
  · exact s.abortBy_lasting c _

/-- A step that is open stops where it aborts. -/
theorem State.abortStep_stopped {s : State} (opened : s.stepOpen = true) (c : AbortCause) :
    (s.abortStep c).stopped = true := by
  have stops : (s.abortBy c s.rank).stopped = true := by
    cases running : s.run with
    | none => simp [State.stepOpen, running] at opened
    | some r =>
      simp only [State.stepOpen, running, Option.map_some, Option.getD_some, Bool.and_eq_true, Option.isNone_iff_eq_none,
        Bool.not_eq_true'] at opened
      obtain ⟨fresh, uncommitted⟩ := opened
      simp only [State.abortBy, running, uncommitted, fresh, Bool.false_eq_true, if_false, State.raise_stopped]
      rfl
  rw [State.abortStep]
  split
  · exact foldl_keep (fun x : State => x.stopped = true) stops fun _ _ kept => kept
  · exact stops

end Sys2Proof.Machine
end

section
/-! PROOF. Events and their counters (O30): an increment that fits its counter is added, and one past 0xFFFF is a program
fault. -/

namespace Sys2Proof.Machine

/-- Tile positions that exist lie in the table at places of their own. -/
theorem tileIx_lt {d p : Nat} (tile : tileExists d p = true) : tileIx d p < 100 := by
  simp only [tileExists, Bool.and_eq_true, decide_eq_true_eq] at tile
  simp only [tileIx]
  omega

theorem tileIx_ne {d p e q : Nat} (tile : tileExists d p = true) (other : tileExists e q = true) (ne : (e, q) ≠ (d, p)) :
    tileIx d p ≠ tileIx e q := by
  simp only [tileExists, Bool.and_eq_true, decide_eq_true_eq] at tile other
  simp only [tileIx]
  intro same
  exact ne (Prod.ext (by omega) (by omega))

theorem State.tile_shape {s : State} {d p : Nat} (i : s.Inv) (tile : tileExists d p = true) : (s.tile d p).Shape := by
  have there : tileIx d p < s.tiles.length := i.shape.tiles ▸ tileIx_lt tile
  rw [State.tile, List.getD_eq_getElem _ _ there]
  exact i.shape.tile _ (List.getElem_mem there)

/-! ### Program faults (R185, R190) -/

section
variable {s : State} {d p n cause slot : Nat}

theorem State.recordFault_run : (s.recordFault d p n cause slot).run = s.run :=
  (congrArg State.run (s.endStall_still d p) : (s.endStall d p).still.run = s.still.run)

theorem State.progFault_of_fresh (fresh : s.faultedNow = false) (opened : s.stepOpen = true)
    (runs : s.stopped = false) :
    s.progFault d p n cause slot = (s.recordFault d p n cause slot).newCascade.abortStep
      { status := .programRejected, kind := 4, detail := (s.tile d p).faultDetail d n cause } := by
  simp [State.progFault, fresh, opened, runs]

theorem State.progFault_lasting (fresh : s.faultedNow = false) (opened : s.stepOpen = true)
    (runs : s.stopped = false) (d p n cause slot : Nat) :
    (s.progFault d p n cause slot).lasting = (s.recordFault d p n cause slot).lasting := by
  rw [State.progFault_of_fresh fresh opened runs, State.abortStep_lasting]
  rfl

theorem State.recordFault_tile (there : tileIx d p < s.tiles.length) :
    let t := (s.recordFault d p n cause slot).tile d p
    t.counters = (s.tile d p).counters ∧ t.fault.valid = true ∧ t.fault.cause = cause := by
  have counters := Tile.counters_of_lasting (State.tile_lasting (State.lasting_of_still (s.endStall_still d p)) d p)
  have there' : tileIx d p < (s.endStall d p).tiles.length := (State.endStall_evolves (Evolves.refl s)).tiles ▸ there
  dsimp only
  rw [State.recordFault, State.tile_modTile _ _ _ _ there']
  exact ⟨counters, rfl, rfl⟩

/-- The stop that follows keeps the record of the fault, and the counters as they were. -/
theorem State.progFault_tile (there : tileIx d p < s.tiles.length) (fresh : s.faultedNow = false)
    (opened : s.stepOpen = true) (runs : s.stopped = false) :
    let t := (s.progFault d p n cause slot).tile d p
    t.counters = (s.tile d p).counters ∧ t.fault.valid = true ∧ t.fault.cause = cause := by
  have kept := State.tile_lasting (State.progFault_lasting fresh opened runs d p n cause slot) d p
  obtain ⟨counters, valid, recorded⟩ := State.recordFault_tile there
  exact ⟨(Tile.counters_of_lasting kept).trans counters, (congrArg FaultInfo.valid (Tile.fault_of_lasting kept)).trans valid,
    (congrArg FaultInfo.cause (Tile.fault_of_lasting kept)).trans recorded⟩

theorem State.progFault_stopped (fresh : s.faultedNow = false) (opened : s.stepOpen = true) (runs : s.stopped = false) :
    (s.progFault d p n cause slot).stopped = true := by
  rw [State.progFault_of_fresh fresh opened runs]
  refine State.abortStep_stopped ?_ _
  rw [State.stepOpen, State.newCascade_run, State.recordFault_run]
  exact opened

end

/-! ### One increment (R166) -/

section
variable {s : State} {d p counter inc : Nat}

/-- An increment is judged: the tile is used, the step is open, and no fault has come at this moment. -/
structure State.CountsOn (s : State) (d p : Nat) : Prop where
  opened : s.stepOpen = true
  runs : s.stopped = false
  fresh : s.faultedNow = false
  used : s.usedTile d p = true

theorem State.bump_of_overflow (counts : s.CountsOn d p) (overflow : 0xFFFF < (s.tile d p).counters.getD counter 0 + inc) :
    s.bump d p counter inc = s.progFault d p (s.tile d p).running pfCounterOverflow 0 := by
  obtain ⟨opened, runs, fresh, used⟩ := counts
  simp only [State.bump, opened, runs, fresh, used, overflow, Bool.not_true, Bool.or_self, Bool.false_and,
    Bool.false_eq_true, if_false, if_true]

/-- The counter takes its sum; the tile is lit and its contexts wake, which keeps every counter. -/
theorem State.bump_lasting (counts : s.CountsOn d p) (fits : (s.tile d p).counters.getD counter 0 + inc ≤ 0xFFFF) :
    (s.bump d p counter inc).lasting = (s.modTile d p fun x =>
      { x with
        counters := modAt x.counters counter fun _ => (s.tile d p).counters.getD counter 0 + inc }).lasting := by
  obtain ⟨opened, runs, fresh, used⟩ := counts
  simp only [State.bump, opened, runs, fresh, used, Nat.not_lt.mpr fits, Bool.not_true, Bool.or_self, Bool.false_and,
    Bool.false_eq_true, if_false]
  exact State.lasting_of_still ((State.settle_still _ d p).trans (State.askLight_still _ d p))

end

/-- Settles O30, by whether the sum fits the counter. -/
theorem eventsReachTheirCountersOrFault : Obligations.EventsReachTheirCountersOrFault := by
  unfold Obligations.EventsReachTheirCountersOrFault
  intro s d p counter inc i tile hcounter opened runs fresh used
  have counts : s.CountsOn d p := ⟨opened, runs, fresh, used⟩
  have there : tileIx d p < s.tiles.length := i.shape.tiles ▸ tileIx_lt tile
  refine ⟨fun fits => ?_, fun overflow => ?_⟩
  · have read (e q : Nat) := Tile.counters_of_lasting (State.tile_lasting (State.bump_lasting counts fits) e q)
    have own := read d p
    rw [State.tile_modTile _ _ _ _ there] at own
    have sized : counter < (s.tile d p).counters.length := (State.tile_shape i tile).counters ▸ hcounter
    refine ⟨?_, fun k other => ?_, fun e q tile' other => ?_⟩
    · exact (congrArg (·.getD counter 0) own).trans (modAt_getD_self _ _ _ _ sized)
    · exact (congrArg (·.getD k 0) own).trans (modAt_getD_ne _ _ _ _ _ (Ne.symm other))
    · have elsewhere := read e q
      rwa [State.tile_modTile_ne _ _ _ _ _ _ (tileIx_ne tile tile' other)] at elsewhere
  · rw [State.bump_of_overflow counts overflow]
    exact ⟨rfl, State.progFault_stopped fresh opened runs, State.progFault_tile there fresh opened runs⟩

end Sys2Proof.Machine
end

section
/-! PROOF. The completion of an FP32 addition (O32): what it writes to tile memory, and that nothing that follows the
write touches memory again. -/

namespace Sys2Proof.Machine

/-! ### Writing tile memory and reading it back -/

/-- A run written byte by byte, each by a function of its place. -/
theorem Mem.foldl_set_zipIdx (f : Byte × Nat → Byte) (m : List Host.Cell) (x k : Nat) (bs : List Byte) :
    (bs.zipIdx k).foldl (fun m e => Mem.set m (x + e.2) (f e)) m = Mem.write m (x + k) ((bs.zipIdx k).map f) := by
  induction bs generalizing m k with
  | nil => rfl
  | cons b bs ih => exact ih _ (k + 1)

theorem Mem.get_write_at {m : List Host.Cell} (x : Nat) {bs : List Byte} (canonical : Mem.wf m = true) {i : Nat}
    (inside : i < bs.length) : Mem.get (Mem.write m x bs) (x + i) = bs[i] := by
  have read := congrArg (·[i]?) (Mem.read_write x bs canonical)
  simpa [Mem.read, inside] using read

section
variable {s t : State} {d p : Nat}

/-- The bytes that tile memory stores for a run: each under the tile's mask (R734). -/
def State.tmStored (s : State) (d p off : Nat) (bs : List Byte) : List Byte :=
  bs.zipIdx.map fun e => e.1 ^^^ s.tmMask d p (tileBase d p + off + e.2)

theorem State.tmStored_length (off : Nat) (bs : List Byte) : (s.tmStored d p off bs).length = bs.length := by
  simp [State.tmStored]

theorem State.tmWrite_mem (s : State) (d p off : Nat) (bs : List Byte) :
    (s.tmWrite d p off bs).mem = Mem.write s.mem (tileBase d p + off) (s.tmStored d p off bs) :=
  Mem.foldl_set_zipIdx _ s.mem (tileBase d p + off) 0 bs

theorem State.tmWrite_get_outside (canonical : Mem.wf s.mem = true) (off : Nat) (bs : List Byte) {a : Nat}
    (outside : a < tileBase d p + off ∨ tileBase d p + off + bs.length ≤ a) :
    Mem.get (s.tmWrite d p off bs).mem a = Mem.get s.mem a := by
  rw [State.tmWrite_mem]
  exact Mem.get_write_outside _ canonical (by rwa [State.tmStored_length])

theorem State.tmRead_tmWrite_self (canonical : Mem.wf s.mem = true) (off : Nat) (bs : List Byte) :
    (s.tmWrite d p off bs).tmRead d p off bs.length = bs := by
  refine List.ext_getElem (by simp [State.tmRead]) fun i _ inside => ?_
  have stored : i < (s.tmStored d p off bs).length := (State.tmStored_length off bs).symm ▸ inside
  have written : Mem.get (s.tmWrite d p off bs).mem (tileBase d p + off + i) =
      bs[i] ^^^ s.tmMask d p (tileBase d p + off + i) := by
    rw [State.tmWrite_mem, Mem.get_write_at _ canonical stored]
    simp [State.tmStored]
  have mask : (s.tmWrite d p off bs).tmMask = s.tmMask := rfl
  simp only [State.tmRead, List.getElem_map, List.getElem_range, written, mask, BitVec.xor_assoc, BitVec.xor_self,
    BitVec.xor_zero]

theorem State.tmRead_tmWrite_disjoint (canonical : Mem.wf s.mem = true) {off n place : Nat} {bs : List Byte}
    (disjoint : off + n ≤ place ∨ place + bs.length ≤ off) :
    (s.tmWrite d p place bs).tmRead d p off n = s.tmRead d p off n := by
  refine List.map_congr_left fun i inside => ?_
  have below : i < n := List.mem_range.mp inside
  rw [State.tmWrite_get_outside canonical place bs (by omega)]
  rfl

theorem State.tmWrite_wf (canonical : Mem.wf s.mem = true) (off : Nat) (bs : List Byte) :
    Mem.wf (s.tmWrite d p off bs).mem = true := by
  rw [State.tmWrite_mem]
  exact Mem.wf_write _ _ canonical

theorem State.noteAmax_get_outside (canonical : Mem.wf s.mem = true) {ctx : Nat} (m : Option (BitVec 32)) {a : Nat}
    (outside : a < tileBase d p + amaxCell ctx ∨ tileBase d p + amaxCell ctx + 4 ≤ a) :
    Mem.get (s.noteAmax d p ctx m).mem a = Mem.get s.mem a := by
  cases m with
  | none => rfl
  | some x => exact State.tmWrite_get_outside canonical _ _ (by rwa [leBytes_length])

theorem State.noteAmax_tmRead_disjoint (canonical : Mem.wf s.mem = true) {ctx off n : Nat} (m : Option (BitVec 32))
    (disjoint : off + n ≤ amaxCell ctx ∨ amaxCell ctx + 4 ≤ off) :
    (s.noteAmax d p ctx m).tmRead d p off n = s.tmRead d p off n := by
  cases m with
  | none => rfl
  | some x => exact State.tmRead_tmWrite_disjoint canonical (by rwa [leBytes_length])

/-! ### What reads of tile memory rest on -/

/-- Device memory, and which tiles' memories are left undefined (R734). -/
def State.memView (s : State) : List (Option Nat) × List Host.Cell := (s.tiles.map Tile.scrambled, s.mem)

theorem State.memView_of_lasting (same : t.lasting = s.lasting) : t.memView = s.memView := by
  have masks (x : State) : x.tiles.map Tile.scrambled = (x.tiles.map Tile.lasting).map Tile.scrambled := by
    rw [List.map_map]
    rfl
  have tiles : t.tiles.map Tile.lasting = s.tiles.map Tile.lasting := congrArg Prod.fst same
  have mem : t.mem = s.mem := congrArg Prod.snd same
  rw [State.memView, State.memView, masks, masks s, tiles, mem]

theorem State.modTile_memView (s : State) (d p : Nat) {f : Tile → Tile} (kept : ∀ x, (f x).scrambled = x.scrambled) :
    (s.modTile d p f).memView = s.memView :=
  congrArg (·, s.mem) (modAt_map Tile.scrambled _ _ _ kept)

theorem State.mem_of_memView (same : t.memView = s.memView) : t.mem = s.mem := congrArg Prod.snd same

theorem State.tmMask_of_memView (same : t.memView = s.memView) (d p : Nat) : t.tmMask d p = s.tmMask d p := by
  have read (x : State) : (x.tile d p).scrambled = (x.tiles.map Tile.scrambled).getD (tileIx d p) none :=
    (getD_map_apply Tile.scrambled x.tiles _ {}).symm
  have masks : t.tiles.map Tile.scrambled = s.tiles.map Tile.scrambled := congrArg Prod.fst same
  funext key
  rw [State.tmMask, State.tmMask, read, read s, masks]

theorem State.tmRead_of_memView (same : t.memView = s.memView) (d p : Nat) : t.tmRead d p = s.tmRead d p := by
  funext off n
  rw [State.tmRead, State.tmRead, State.mem_of_memView same, State.tmMask_of_memView same]

/-! ### An event at a counter leaves memory alone -/

theorem State.recordFault_memView (s : State) (d p n cause slot : Nat) :
    (s.recordFault d p n cause slot).memView = s.memView := by
  rw [State.recordFault, State.modTile_memView, State.memView_of_lasting (State.lasting_of_still (s.endStall_still d p))]
  exact fun _ => rfl

theorem State.secondFault_memView (s : State) (d p n cause slot : Nat) :
    (s.secondFault d p n cause slot).memView = s.memView := by
  have cleared : ({ s with tiles := s.tiles.map fun x => { x with fault := {} } } : State).memView = s.memView :=
    congrArg (·, s.mem) (List.map_map.trans rfl)
  rw [State.secondFault]
  split
  · exact (State.recordFault_memView _ d p n cause slot).trans cleared
  · exact State.modTile_memView s d p fun _ => rfl

theorem State.progFault_memView (s : State) (d p n cause slot : Nat) :
    (s.progFault d p n cause slot).memView = s.memView := by
  rw [State.progFault]
  split
  · exact s.secondFault_memView d p n cause slot
  · split
    · rfl
    · rw [State.memView_of_lasting (State.abortStep_lasting _ _)]
      exact s.recordFault_memView d p n cause slot

theorem State.bump_memView (s : State) (d p counter inc : Nat) : (s.bump d p counter inc).memView = s.memView := by
  have woken (x : State) : ((x.askLight d p).settle d p).memView = x.memView :=
    State.memView_of_lasting (State.lasting_of_still ((State.settle_still _ d p).trans (x.askLight_still d p)))
  rw [State.bump]
  split
  · rfl
  · split
    · exact s.progFault_memView ..
    · split
      · rfl
      · split
        · exact s.progFault_memView ..
        · exact (woken _).trans (State.modTile_memView s d p fun _ => rfl)

end

/-! ### FP32 results (R239, R242, R251, R252) -/

theorem leNat_lt (bs : List Byte) : leNat bs < 2 ^ (8 * bs.length) := by
  induction bs with
  | nil => exact Nat.one_pos
  | cons b bs ih =>
    have byte : b.toNat < 256 := b.isLt
    have power : 2 ^ (8 * (bs.length + 1)) = 256 * 2 ^ (8 * bs.length) := by
      rw [Nat.mul_succ, pow_add, Nat.mul_comm]
      norm_num
    rw [List.length_cons, power, leNat]
    omega

/-- FP32 elements fill whole bytes, so that no bit of the last byte is kept. -/
theorem State.writeCodes_fp32 (s : State) (d p off : Nat) (codes : List Nat) :
    s.writeCodes d p .fp32 off codes = s.tmWrite d p off (leBytes (4 * codes.length) (packCodes 32 codes)) := by
  have span : Machine.flatBytes .fp32 codes.length = 4 * codes.length := by
    simp only [Machine.flatBytes, ceilDiv, Fmt.bitsOf]
    omega
  have length : (s.tmRead d p off (4 * codes.length)).length = 4 * codes.length := by simp [State.tmRead]
  have bound := leNat_lt (s.tmRead d p off (4 * codes.length))
  have bits : 8 * (4 * codes.length) = codes.length * 32 := by omega
  rw [length, bits] at bound
  have kept : leNat (s.tmRead d p off (4 * codes.length)) >>> (codes.length * 32) = 0 := by
    rw [Nat.shiftRight_eq_div_pow, Nat.div_eq_of_lt bound]
  simp only [State.writeCodes, span, Fmt.bitsOf, kept, Nat.zero_mul, Nat.add_zero]

/-- An addition of FP32 operands to an FP32 result. -/
structure VecOp.Fp32Add (o : VecOp) : Prop where
  op : o.op = .add
  fmtA : fmtOf o.desc.fmtA = .fp32
  fmtB : fmtOf o.desc.fmtB = .fp32
  fmtD : fmtOf o.desc.fmtD = .fp32

/-- The codes of the sums, rounded once (R251, R252). -/
def VecOp.sumCodes (o : VecOp) (rd : TmRead) : List Nat :=
  (List.range o.desc.length).map fun i =>
    (Fmt.fp32.convert false ((flatElem rd .fp32 o.desc.srcA o.desc.length i).add
      (flatElem rd .fp32 o.desc.srcB o.desc.length i))).code

theorem VecOp.sumCodes_length (o : VecOp) (rd : TmRead) : (o.sumCodes rd).length = o.desc.length := by
  simp [VecOp.sumCodes]

section
variable {s : State} {d p : Nat} {o : VecOp} (add : o.Fp32Add)
include add

theorem VecOp.Fp32Add.derived : o.desc.derived o.op = false := by
  rw [VecDesc.derived, add.op]
  rfl

theorem vecResult_codes_of_add (rd : TmRead) (v : VecEnv) : (vecResult rd o v).codes = o.sumCodes rd := by
  obtain ⟨op, fmtA, fmtB, fmtD⟩ := add
  refine List.ext_getElem (by simp [vecResult, op, outOf, VecOp.sumCodes]) fun i _ _ => ?_
  simp [vecResult, op, fmtA, fmtB, fmtD, outOf, VecOp.sumCodes, srcElem, vecElem, VecOpcode.readsB]

/-- What the operation writes: the sums, and the context's amax cell where RECORD_AMAX is set (R261). -/
theorem State.vectorDone_memView (s : State) (d p : Nat) : ∃ m : Option (BitVec 32),
    (s.vectorDone d p o).memView =
      (let u := (s.chargeStall d p).tmWrite d p o.desc.dst
        (leBytes (4 * o.desc.length) (packCodes 32 (o.sumCodes (s.tmRead d p))))
      if o.desc.recordAmax = true then u.noteAmax d p o.ctx m else u).memView := by
  have noted (x : State) (res : Outcome) : (((x.modTile d p fun t =>
      { t.modCtx o.ctx fun c => c.note res o.segment o.bundle with vectorQueue := t.vectorQueue.drop 1 }).opEnded d p).bump
        d p o.done 1).memView = x.memView := by
    rw [State.bump_memView, State.opEnded, State.modTile_memView, State.modTile_memView] <;> exact fun _ => rfl
  simp only [State.vectorDone, noted, add.derived, add.fmtD, Fmt.isMx, Bool.false_eq_true, if_false,
    vecResult_codes_of_add add, State.writeCodes_fp32, VecOp.sumCodes_length]
  exact ⟨_, rfl⟩

/-- Memory as the operation leaves it, where its amax cell is not written or does not matter (R239, R261). -/
theorem State.vectorDone_get (i : s.Inv) {a : Nat}
    (outside : a < tileBase d p + o.desc.dst ∨ tileBase d p + o.desc.dst + 4 * o.desc.length ≤ a)
    (amax : o.desc.recordAmax = false ∨ a < tileBase d p + amaxCell o.ctx ∨ tileBase d p + amaxCell o.ctx + 4 ≤ a) :
    Mem.get (s.vectorDone d p o).mem a = Mem.get s.mem a := by
  obtain ⟨m, done⟩ := State.vectorDone_memView add s d p
  have charged := State.memView_of_lasting (State.lasting_of_still (s.chargeStall_still d p))
  have canonical : Mem.wf (s.chargeStall d p).mem = true := (State.mem_of_memView charged).symm ▸ i.mem
  rw [State.mem_of_memView done, ← State.mem_of_memView charged]
  have sums := State.tmWrite_get_outside canonical o.desc.dst
    (leBytes (4 * o.desc.length) (packCodes 32 (o.sumCodes (s.tmRead d p)))) (d := d) (p := p) (a := a)
    (by rwa [leBytes_length])
  dsimp only
  split
  next recorded =>
    have cell := amax.resolve_left (by simp [recorded])
    rw [State.noteAmax_get_outside (State.tmWrite_wf canonical _ _) _ cell, sums]
  next => exact sums

theorem State.vectorDone_tmRead (i : s.Inv)
    (amax : o.desc.recordAmax = false ∨ o.desc.dst + 4 * o.desc.length ≤ amaxCell o.ctx ∨ amaxCell o.ctx + 4 ≤ o.desc.dst) :
    (s.vectorDone d p o).tmRead d p o.desc.dst (4 * o.desc.length) =
      leBytes (4 * o.desc.length) (packCodes 32 (o.sumCodes (s.tmRead d p))) := by
  obtain ⟨m, done⟩ := State.vectorDone_memView add s d p
  have charged := State.memView_of_lasting (State.lasting_of_still (s.chargeStall_still d p))
  have canonical : Mem.wf (s.chargeStall d p).mem = true := (State.mem_of_memView charged).symm ▸ i.mem
  have sums := State.tmRead_tmWrite_self canonical o.desc.dst
    (leBytes (4 * o.desc.length) (packCodes 32 (o.sumCodes (s.tmRead d p)))) (d := d) (p := p)
  rw [leBytes_length] at sums
  rw [State.tmRead_of_memView done]
  dsimp only
  split
  next recorded =>
    have cell := amax.resolve_left (by simp [recorded])
    rw [State.noteAmax_tmRead_disjoint (State.tmWrite_wf canonical _ _) _ cell, sums]
  next => exact sums

end

theorem exec_vectorOpComplete {s : State} {d p : Nat} {o : VecOp} {rest : List VecOp} (tile : tileExists d p = true)
    (runs : s.gridRuns d p = true) (head : (s.tile d p).vectorQueue = o :: rest) :
    exec (.vectorOpComplete d p) s = .next (if (s.tile d p).vecBlocked o = true then s else s.vectorDone d p o) := by
  change execVectorOpComplete d p s = _
  cases blocked : (s.tile d p).vecBlocked o <;> simp [execVectorOpComplete, tile, head, runs, blocked]

/-- Settles O32: the destination is written before the amax cell, and nothing that follows writes memory. -/
theorem vectorAddWritesTheRoundedSums : Obligations.VectorAddWritesTheRoundedSums := by
  unfold Obligations.VectorAddWritesTheRoundedSums
  intro s d p o rest i tile runs head op fmtA fmtB fmtD
  have add : o.Fp32Add := ⟨op, fmtA, fmtB, fmtD⟩
  dsimp only
  rw [exec_vectorOpComplete tile runs head]
  refine ⟨fun locked => by rw [if_pos locked], fun free => ⟨s.vectorDone d p o, ?_, fun amax => ?_, fun a outside amax => ?_⟩⟩
  · rw [if_neg (Bool.eq_false_iff.mp free)]
  · exact State.vectorDone_tmRead add i amax
  · exact State.vectorDone_get add i outside amax

end Sys2Proof.Machine
end

section
/-! PROOF. Issue of a bundle (O35): what a tile that can issue has, and what the bundle at its program counter does. -/

namespace Sys2Proof.Machine

section
variable {s : State} {d p : Nat}

/-- A tile that can issue is lit, in service and used by a step that nothing has stopped, held or broken into (R113,
R178, R703, R738). -/
theorem State.conditions_of_canIssue (issues : s.canIssue d p = true) :
    s.stopped = false ∧ s.tinder.broken = false ∧ (s.tile d p).thermalHold = false ∧ (s.tile d p).lit = true ∧
      s.run ≠ none ∧ s.program ≠ none ∧ (s.tile d p).state = .available ∧ (s.tile d p).switching = none ∧
      (s.tile d p).pendingSpare = [] ∧ (s.tile d p).current.state = .ready := by
  simp only [State.canIssue, State.tileRuns, State.computing, State.usedTile, Bool.and_eq_true, Bool.not_eq_true',
    beq_iff_eq, Option.isSome_iff_ne_none, Option.isNone_iff_eq_none, List.isEmpty_iff] at issues
  obtain ⟨⟨⟨⟨⟨⟨⟨⟨⟨opened, runs⟩, -⟩, ⟨⟨program, -⟩, available⟩, -⟩, lit⟩, cool⟩, whole⟩, settled⟩, ready⟩, spare⟩ := issues
  have run : s.run ≠ none := by
    intro none
    simp [State.stepOpen, none] at opened
  exact ⟨runs, whole, cool, lit, run, program, available, settled, spare, ready⟩

section
variable (tile : tileExists d p = true) (ecc : Ecc)
include tile

theorem exec_bundleIssue_of_noIssue (still : s.canIssue d p = false) : exec (.bundleIssue d p ecc) s = .next s := by
  change execBundleIssue d p ecc s = _
  simp [execBundleIssue, tile, still]

theorem exec_bundleIssue_of_canIssue (issues : s.canIssue d p = true) {w : Nat} (fetched : s.fetchBundle d p = some w) :
    exec (.bundleIssue d p ecc) s = .next (s.tryBundle d p (bundleOf w) ecc) := by
  change execBundleIssue d p ecc s = _
  simp [execBundleIssue, tile, issues, fetched]

end

theorem State.tryBundle_of_unmetWait {b : BundleOps} {k th : Nat} {c : Bool} (wait : b.control = .wait k th c)
    (unmet : (s.tile d p).counters.getD k 0 < th) (ecc : Ecc) : s.tryBundle d p b ecc = s.blockOn d p (.wait k th) := by
  have waits : s.bundleWaitMet d p b = false := by
    rw [State.bundleWaitMet, wait]
    exact decide_eq_false (Nat.not_le.mpr unmet)
  simp [State.tryBundle, waits, State.bundleBlocks, wait]

theorem State.tryBundle_of_metWait {b : BundleOps} (met : s.bundleWaitMet d p b = true) (ecc : Ecc) :
    s.tryBundle d p b ecc = if s.bundleHolds d p b = true then s.issueHold d p else s.bundleIssues d p b ecc := by
  simp [State.tryBundle, met]

end

/-- Settles O35: each cause is one that a tile which can issue does not have; the rest is by the bundle's WAIT. -/
theorem nothingIssuesWhileTheTilesAreStopped : Obligations.NothingIssuesWhileTheTilesAreStopped := by
  unfold Obligations.NothingIssuesWhileTheTilesAreStopped
  intro s d p ecc tile
  refine ⟨fun cause => exec_bundleIssue_of_noIssue tile ecc ?_, fun issues w fetched => ?_⟩
  · refine Bool.eq_false_iff.mpr fun issues => ?_
    obtain ⟨runs, whole, cool, lit, run, program, available, settled, spare, ready⟩ := State.conditions_of_canIssue issues
    simp [runs, whole, cool, lit, run, program, available, settled, spare, ready] at cause
  · dsimp only
    rw [exec_bundleIssue_of_canIssue tile ecc issues fetched]
    exact ⟨fun k th c wait unmet => congrArg _ (State.tryBundle_of_unmetWait wait unmet ecc),
      fun met => congrArg _ (State.tryBundle_of_metWait met ecc)⟩

end Sys2Proof.Machine
end

section
/-! PROOF. The operations of a bundle's stream slots (O36), by whether the tile can issue and by the state of the slot. -/

namespace Sys2Proof.Machine

section
variable {s : State} {d p : Nat} (tile : tileExists d p = true)

/-! ### Rows (R162) -/

include tile

theorem slotRows_of_noIssue (still : s.canIssue d p = false) (n a b : Nat) :
    exec (.bind d p n a) s = .next s ∧ exec (.start d p n a b) s = .next s ∧
      exec (.consume d p n a) s = .next s ∧ exec (.unbind d p n) s = .next s := by
  change execBind d p n a s = _ ∧ execStart d p n a b s = _ ∧ execConsume d p n a s = _ ∧ execUnbind d p n s = _
  simp [execBind, execStart, execConsume, execUnbind, tile, still]

section
variable (issues : s.canIssue d p = true) {n : Nat} (named : n < 127)
include issues named

theorem exec_bind_of_canIssue {g : Program} {prog : Nat} (loaded : s.program = some g)
    (listed : prog < g.entries secStreams) : exec (.bind d p n prog) s = .next (s.opBind d p n prog) := by
  change execBind d p n prog s = _
  simp [execBind, tile, issues, slotNamed, named, loaded, listed]

theorem exec_start_of_canIssue {arg done : Nat} (register : arg < 16) (counter : done < 256) :
    exec (.start d p n arg done) s = .next (s.opStart d p n arg done) := by
  change execStart d p n arg done s = _
  simp [execStart, tile, issues, slotNamed, named, register, counter]

theorem exec_consume_of_canIssue {blocks : Nat} (least : 1 ≤ blocks) (width : blocks < 4096) :
    exec (.consume d p n blocks) s = .next (s.opConsume d p n blocks) := by
  change execConsume d p n blocks s = _
  simp [execConsume, tile, issues, slotNamed, named, width, least]

theorem exec_unbind_of_canIssue : exec (.unbind d p n) s = .next (s.opUnbind d p n) := by
  change execUnbind d p n s = _
  simp [execUnbind, tile, issues, slotNamed, named]

end

end

/-! ### CONSUME by the state of its slot (R211) -/

section
variable {s : State} {d p n blocks : Nat}

theorem State.opConsume_of_unbound (unbound : ((s.tile d p).slot n).state = .unbound) :
    s.opConsume d p n blocks = s.progFault d p (s.tile d p).running pfSlotUnbound n := by
  simp only [State.opConsume, unbound]

theorem State.opConsume_of_error (failed : ((s.tile d p).slot n).state = .error) : s.opConsume d p n blocks = s := by
  simp only [State.opConsume, failed]

theorem State.opConsume_of_held (live : ((s.tile d p).slot n).state = .idle ∨ ((s.tile d p).slot n).state = .running)
    (held : blocks ≤ ((s.tile d p).slot n).blocksHeld) :
    s.opConsume d p n blocks = s.modSlot (.tile d p n) fun y =>
      { y with
        blocksHeld := y.blocksHeld - blocks
        heldBytes := y.heldBytes.drop blocks
        released := (s.now, (y.heldBytes.take blocks).sum) :: inWindowN s.now 8000 y.released } := by
  rcases live with state | state <;> simp only [State.opConsume, state, if_neg (Nat.not_lt.mpr held)]

section
variable (excess : ((s.tile d p).slot n).blocksHeld < blocks)
include excess

theorem State.opConsume_of_running_excess (running : ((s.tile d p).slot n).state = .running) :
    s.opConsume d p n blocks = s.streamFail (.tile d p n) rsConsume tierTile true := by
  simp only [State.opConsume, running, if_pos excess, if_true]

/-- The stream has ended: its slot fails as if it ran (log 29). -/
theorem State.opConsume_of_idle_excess (idle : ((s.tile d p).slot n).state = .idle) :
    s.opConsume d p n blocks =
      (s.modSlot (.tile d p n) fun y => { y with state := .running }).streamFail (.tile d p n) rsConsume tierTile true := by
  simp only [State.opConsume, idle, if_pos excess, reduceCtorEq, if_false]

end

end

/-- Settles O36: a tile that cannot issue does nothing; else each row by the state of its slot. -/
theorem slotOperationsFollowTheStateOfTheirSlot : Obligations.SlotOperationsFollowTheStateOfTheirSlot := by
  unfold Obligations.SlotOperationsFollowTheStateOfTheirSlot
  intro s d p tile
  refine ⟨if_pos tile, fun n named => ⟨fun still => slotRows_of_noIssue tile still n, fun issues =>
    ⟨fun g prog loaded listed => ?_, fun arg done register counter => ?_, fun blocks least width => ?_, ?_⟩⟩⟩
  · rw [exec_bind_of_canIssue tile issues named loaded listed, State.opBind]
    dsimp only
    cases ((s.tile d p).slot n).state <;> rfl
  · dsimp only
    rw [exec_start_of_canIssue tile issues named register counter, State.opStart]
    cases ((s.tile d p).slot n).state <;> rfl
  · dsimp only
    rw [exec_consume_of_canIssue tile issues named least width]
    exact ⟨fun unbound => congrArg _ (State.opConsume_of_unbound unbound),
      fun failed => congrArg _ (State.opConsume_of_error failed),
      fun live held => congrArg _ (State.opConsume_of_held live held),
      fun running excess => congrArg _ (State.opConsume_of_running_excess excess running),
      fun idle excess => congrArg _ (State.opConsume_of_idle_excess excess idle)⟩
  · rw [exec_unbind_of_canIssue tile issues named, State.opUnbind]
    dsimp only
    cases ((s.tile d p).slot n).state <;> rfl

end Sys2Proof.Machine
end

section
/-! PROOF. Control operations (O29): what each does on a tile that can issue, and when a wait, a barrier, a fence, a segment
load, a switch or a change of light ends. -/

namespace Sys2Proof.Machine

/-- A signal on its way from one tile to one counter of another. -/
def SignalMsg.goes (d p e q counter : Nat) (m : SignalMsg) : Bool :=
  m.fromDie == d && m.fromPos == p && m.toDie == e && m.toPos == q && m.counter == counter

section
variable {d p : Nat} (tile : tileExists d p = true) (s : State)
include tile

/-! ### WAIT, SIGNAL and YIELD (R164, R166, R169, R174) -/

theorem exec_wait (counter threshold : Nat) (consume : Bool) :
    exec (.wait d p counter threshold consume) s = .next
      (if s.canIssue d p = true ∧ counter < 256 ∧ threshold < 65536 then
        if threshold ≤ (s.tile d p).counters.getD counter 0 then
          if consume = true then s.modTile d p fun x => { x with counters := modAt x.counters counter (· - threshold) }
          else s
        else s.blockOn d p (.wait counter threshold)
      else s) := by
  change execWait d p counter threshold consume s = _
  simp only [execWait, tile, if_true, State.opWait, Tile.waitMet, State.waitConsume, Bool.and_eq_true, decide_eq_true_eq,
    and_assoc]

section
variable {s} {counter scope target inc : Nat}

theorem exec_signal_of_canIssue (issues : s.canIssue d p = true) (register : counter < 256) (named : scope < 3)
    (least : 1 ≤ inc) (width : inc < 65536) :
    exec (.signal d p counter scope target inc) s = .next (s.opSignal d p counter scope target inc) := by
  change execSignal d p counter scope target inc s = _
  simp [execSignal, tile, issues, register, named, least, width]

end

section
variable {e q counter : Nat} (there : tileExists e q = true) (register : counter < 256)
include there register

theorem exec_signalArrival_of_none (none : s.signals.find? (SignalMsg.goes d p e q counter) = none) :
    exec (.signalArrival d p e q counter) s = .next s := by
  unfold SignalMsg.goes at none
  change execSignalArrival d p e q counter s = _
  simp only [execSignalArrival, tile, there, register, none, decide_true, Bool.and_self, if_true]

theorem exec_signalArrival_of_oldest {m : SignalMsg}
    (oldest : s.signals.find? (SignalMsg.goes d p e q counter) = some m) :
    exec (.signalArrival d p e q counter) s = .next
      (if s.stopped = false ∧ s.eventPassing m.passing = false then
        ({ s with signals := s.signals.erase m } : State).bump e q counter m.increment
      else s) := by
  unfold SignalMsg.goes at oldest
  have arrives : exec (.signalArrival d p e q counter) s = if (s.stopped || s.eventPassing m.passing) = true then .next s
      else .next (({ s with signals := s.signals.erase m } : State).bump e q counter m.increment) := by
    change execSignalArrival d p e q counter s = _
    simp only [execSignalArrival, tile, there, register, oldest, decide_true, Bool.and_self, if_true]
  rw [arrives]
  by_cases waits : (s.stopped || s.eventPassing m.passing) = true
  · rw [if_pos waits, if_neg]
    rintro ⟨runs, passed⟩
    simp [runs, passed] at waits
  · rw [if_neg waits, if_pos (by simpa using waits)]

end

theorem exec_yieldPoint :
    exec (.yieldPoint d p) s = .next
      (if s.canIssue d p = true ∧ (s.tile d p).held = [] then
        match (List.range 8).find? fun n => n != (s.tile d p).running && ((s.tile d p).ctx n).state == .ready with
        | some m => s.switchTo d p m
        | none => s
      else s) := by
  change execYieldPoint d p s = _
  by_cases issues : s.canIssue d p = true
  · obtain ⟨-, -, -, -, -, -, -, settled, -, -⟩ := State.conditions_of_canIssue issues
    by_cases held : (s.tile d p).held = []
    · simp only [execYieldPoint, tile, issues, State.yieldNow, settled, held, Option.isSome_none, List.isEmpty_nil,
        Bool.not_true, Bool.or_self, Bool.false_eq_true, if_true, if_false, and_self] <;> rfl
    · simp [execYieldPoint, tile, issues, State.yieldNow, held]
  · simp [execYieldPoint, tile, issues]

/-! ### Barriers, fences and HALT (R164, R170) -/

theorem exec_barrier_of_member {id : Nat} (named : id < 32) (issues : s.canIssue d p = true)
    (member : s.barrierMember d p id = true) :
    exec (.barrier d p id) s = .next (s.opBarrier d p id) := by
  change execBarrier d p id s = _
  simp [execBarrier, tile, named, issues, member]

omit tile in
theorem exec_barrierOpen {id : Nat} (named : id < 32) :
    exec (.barrierOpen id) s = .next
      (if s.computing = true ∧ s.barrierTiles id ≠ [] ∧
          ∀ m ∈ s.barrierTiles id, m ∈ (s.barriers.getD id { id := id }).arrived then s.openBarrier id
      else s) := by
  change execBarrierOpen id s = _
  simp only [execBarrierOpen, if_pos named, Bool.and_eq_true, Bool.not_eq_true', List.isEmpty_eq_false_iff, ne_eq,
    List.all_eq_true, List.contains_iff_mem, and_assoc]

theorem exec_fence_of_canIssue {scopes : Nat} (named : scopes < 32) (issues : s.canIssue d p = true) :
    exec (.fence d p scopes) s = .next
      (if s.fenceMet d p (s.tile d p).running scopes s.nextReq = true then s
      else s.blockOn d p (.fence scopes s.nextReq)) := by
  change execFence d p scopes s = _
  simp [execFence, tile, named, issues, State.opFence]

theorem exec_fenceComplete {ctx scopes upTo : Nat} (there : ctx < 8)
    (waits : ((s.tile d p).ctx ctx).reason = .fence scopes upTo) :
    exec (.fenceComplete d p ctx) s = .next
      (if s.stepOpen = true ∧ s.stopped = false ∧ ((s.tile d p).ctx ctx).state = .blocked ∧
        s.fenceMet d p ctx scopes upTo = true then s.unblock d p ctx .ready else s) := by
  change execFenceComplete d p ctx s = _
  simp [execFenceComplete, tile, there, waits, and_assoc]

theorem exec_halt : exec (.halt d p) s = .next (if s.canIssue d p = true then s.blockOn d p .halt else s) :=
  if_pos tile

/-! ### Segments and switches (R149, R176) -/

theorem exec_segment (imm : Nat) :
    exec (.segment d p imm) s = .next
      (if s.canIssue d p = true ∧ s.hasSegment d p imm = true then s.segmentTo d p imm else s) := by
  change s.issueRow d p (s.hasSegment d p imm) (s.segmentTo d p imm) = _
  simp only [State.issueRow, tile, if_true, Bool.and_eq_true]

theorem exec_segmentLoadComplete {l : SegLoad} {rest : List SegLoad} (oldest : (s.tile d p).segLoads = l :: rest) :
    exec (.segmentLoadComplete d p) s = .next
      (if s.stepOpen = true ∧ s.stopped = false ∧ s.loadLanded d p l = true then s.segmentLoaded d p l rest else s) := by
  change execSegmentLoadComplete d p s = _
  simp [execSegmentLoadComplete, tile, oldest, and_assoc]

theorem exec_contextSwitchComplete_of_switching {m : Nat} (switching : (s.tile d p).switching = some m) :
    exec (.contextSwitchComplete d p) s = .next
      (((s.advanceTo (s.now + nsOfCycles 16)).modTile d p fun x =>
        { x with
          running := m, switching := none
          activeAt := (s.advanceTo (s.now + nsOfCycles 16)).now }).settle d p) := by
  change execContextSwitchComplete d p s = _
  simp [execContextSwitchComplete, tile, switching]

theorem exec_contextSwitchComplete_of_settled (settled : (s.tile d p).switching = none) :
    exec (.contextSwitchComplete d p) s = .next s := by
  change execContextSwitchComplete d p s = _
  simp [execContextSwitchComplete, tile, settled]

/-! ### Light (R180, R181) -/

theorem exec_tileIdleDark :
    exec (.tileIdleDark d p) s = .next
      (if s.computing = true ∧ s.usedTile d p = true ∧ (s.tile d p).lit = true ∧ s.keepLit = false ∧
        s.allHeld (s.tile d p) = true ∧ s.tileQuiet d p = true then
        (s.advanceTo ((s.tile d p).activeAt + nsOfCycles 4096)).modTile d p fun x =>
          { x with lit := false, lighting := false }
      else s) := by
  change execTileIdleDark d p s = _
  simp only [execTileIdleDark, tile, if_true, Bool.and_eq_true, Bool.not_eq_true', and_assoc]
  split <;> rfl

theorem exec_tileLit :
    exec (.tileLit d p) s = .next
      (if (s.tile d p).lighting = true ∧ (s.tile d p).state = .available ∧ s.dieInService d = true then
        (s.modTile d p fun x => { x with lit := true, lighting := false, rampDue := true, activeAt := s.now }).settle d p
      else s) := by
  change execTileLit d p s = _
  simp only [execTileLit, tile, if_true, Bool.and_eq_true, beq_iff_eq, and_assoc]
  split <;> rfl

end

/-- Settles O29, row by row: each acts where its conditions hold. -/
theorem controlOperationsHoldSignalAndSwitch : Obligations.ControlOperationsHoldSignalAndSwitch := by
  unfold Obligations.ControlOperationsHoldSignalAndSwitch
  intro s d p tile
  refine ⟨if_pos tile, exec_wait tile s, fun counter scope target inc register named least width issues => ?_,
    fun e q counter there register => ?_, exec_yieldPoint tile s, fun id named => ⟨fun issues member => ?_,
    exec_barrierOpen s named⟩, fun scopes named issues => exec_fence_of_canIssue tile s named issues,
    fun ctx scopes upTo there waits => exec_fenceComplete tile s there waits, exec_halt tile s, exec_segment tile s,
    fun l rest oldest => exec_segmentLoadComplete tile s oldest,
    fun m switching => exec_contextSwitchComplete_of_switching tile s switching,
    exec_contextSwitchComplete_of_settled tile s, exec_tileIdleDark tile s, exec_tileLit tile s⟩
  · rw [exec_signal_of_canIssue tile issues register named least width, State.opSignal]
    exact ⟨fun e q target => by rw [target], fun none => by rw [none]⟩
  · exact ⟨exec_signalArrival_of_none tile s there register, fun m => exec_signalArrival_of_oldest tile s there register⟩
  · rw [exec_barrier_of_member tile s named issues member, State.opBarrier]
    simp only [List.contains_iff_mem]
    rfl

end Sys2Proof.Machine
end

section
/-! PROOF. Collectives (O42): a COLL, and the rows that end a collective in flight or fail it. -/

namespace Sys2Proof.Machine

/-! ### COLL (R469, R553) -/

/-- COLL acts where the tile can issue and the entry is its own. -/
theorem exec_coll {d p : Nat} (tile : tileExists d p = true) (s : State) (entry done : Nat) :
    exec (.coll d p entry done) s = .next
      (if s.canIssue d p = true ∧ s.collOf d p entry = true ∧ done < 256 then s.opColl d p entry done else s) := by
  change execColl d p entry done s = _
  simp only [execColl, tile, if_true, Bool.and_eq_true, decide_eq_true_eq, and_assoc]

/-! ### Rows that end a collective in flight, or fail it (R551, R560, R568) -/

section
variable {s : State} {entry sequence : Nat}

theorem collectiveRows_of_absent (absent : s.beacon.instances.find? (fun i => i.is entry sequence) = none) :
    exec (.collectiveStall entry sequence) s = .next s ∧ exec (.collectiveComplete entry sequence) s = .next s ∧
      ∀ data, exec (.ethReadComplete entry sequence data) s = .next s := by
  change execCollectiveStall entry sequence s = _ ∧ execCollectiveComplete entry sequence s = _ ∧
    ∀ data, execEthReadComplete entry sequence data s = _
  refine ⟨?_, ?_, fun data => ?_⟩
  · rw [execCollectiveStall]
    split
    · rfl
    next found => exact nomatch absent.symm.trans found
  · rw [execCollectiveComplete]
    split
    · rfl
    next found => exact nomatch absent.symm.trans found
  · rw [execEthReadComplete]
    split
    · rfl
    next found => exact nomatch absent.symm.trans found

/-- No Ethernet read ends in a step that has ended. -/
theorem exec_ethReadComplete_of_ended (ended : (!s.stepOpen || s.stopped) = true) (data : Option (List Byte)) :
    exec (.ethReadComplete entry sequence data) s = .next s := by
  change execEthReadComplete entry sequence data s = _
  rw [execEthReadComplete]
  split
  · rfl
  · exact if_pos (by simp [ended])

section
variable {i : CollInst} (present : s.beacon.instances.find? (fun i => i.is entry sequence) = some i)
include present

theorem exec_collectiveStall_of_present :
    exec (.collectiveStall entry sequence) s = .next
      (if s.stepOpen && !s.stopped && (s.planEntry entry).grouped && !s.partDone (s.planEntry entry) i then
        (s.advanceTo (i.lastActivity + s.stallLimit)).fabricFails 0xFF s.rank entry rsNoProgress
      else s) := by
  change execCollectiveStall entry sequence s = _
  rw [execCollectiveStall]
  split
  next missing => exact nomatch present.symm.trans missing
  next found =>
    obtain rfl := Option.some.inj (present.symm.trans found)
    exact (apply_ite Host.Outcome.next _ _ _).symm

theorem exec_collectiveComplete_of_present :
    exec (.collectiveComplete entry sequence) s = .next
      (if i.owner ≠ .update ∧ (s.stepOpen && !s.stopped && s.partDone (s.planEntry entry) i) = true then
        s.finishInst (s.planEntry entry) i
      else s) := by
  change execCollectiveComplete entry sequence s = _
  rw [execCollectiveComplete]
  split
  next missing => exact nomatch present.symm.trans missing
  next found =>
    obtain rfl := Option.some.inj (present.symm.trans found)
    cases owner : i.owner <;> simp

theorem collectiveRows_of_ended (ended : s.stepOpen = false ∨ s.stopped = true) :
    exec (.collectiveStall entry sequence) s = .next s ∧ exec (.collectiveComplete entry sequence) s = .next s ∧
      ∀ data, exec (.ethReadComplete entry sequence data) s = .next s := by
  have shut : (s.stepOpen && !s.stopped) = false := by simpa [imp_iff_not_or] using ended
  rw [exec_collectiveStall_of_present present, exec_collectiveComplete_of_present present, shut]
  exact ⟨rfl, by simp, exec_ethReadComplete_of_ended (by simpa using ended)⟩

variable (opened : s.stepOpen = true) (runs : s.stopped = false)
include opened runs

theorem exec_collectiveStall_of_open :
    exec (.collectiveStall entry sequence) s = .next
      (if (s.planEntry entry).grouped = true ∧ s.partDone (s.planEntry entry) i = false then
        (s.advanceTo (i.lastActivity + s.stallLimit)).fabricFails 0xFF s.rank entry rsNoProgress
      else s) := by
  simp only [exec_collectiveStall_of_present present, opened, runs, Bool.not_false, Bool.true_and, Bool.and_eq_true,
    Bool.not_eq_true']

theorem exec_collectiveComplete_of_open :
    exec (.collectiveComplete entry sequence) s = .next
      (if i.owner ≠ .update ∧ s.partDone (s.planEntry entry) i = true then s.finishInst (s.planEntry entry) i else s) := by
  simp only [exec_collectiveComplete_of_present present, opened, runs, Bool.not_false, Bool.true_and]

variable (kind : (s.planEntry entry).kind = ckEthRead)
include kind

theorem exec_ethReadComplete_of_failure :
    exec (.ethReadComplete entry sequence none) s = .next (s.fabricFails
      (((s.flash.policy.exportQueues.find? fun q => q.queue == field (s.planEntry entry).params 0 1).map (·.port)).getD 0xFF)
      s.rank entry rsNoProgress) := by
  change execEthReadComplete entry sequence none s = _
  rw [execEthReadComplete]
  split
  next missing => exact nomatch present.symm.trans missing
  next => exact if_neg (by simp [opened, runs, kind])

variable {q : ExportQueue}
  (queue : (s.flash.policy.exportQueues.find? fun x => x.queue == field (s.planEntry entry).params 0 1) = some q)
include queue

theorem exec_ethReadComplete_of_data (bs : List Byte) :
    exec (.ethReadComplete entry sequence (some bs)) s = .next
      (if bs.length = (s.planEntry entry).length ∧ (s.port q.port).state = .ethernetUp then
        let s2 := (s.deposit entry (s.planEntry entry).dstTensor (s.planEntry entry).dstOffset bs).modPort q.port fun x =>
          { x with ethFramesReceived := satAdd x.ethFramesReceived (ceilDiv bs.length 4096) }
        if s2.stepOpen = true then s2.finishInst (s.planEntry entry) i else s2
      else s) := by
  change execEthReadComplete entry sequence (some bs) s = _
  rw [execEthReadComplete]
  split
  next missing => exact nomatch present.symm.trans missing
  next found =>
    obtain rfl := Option.some.inj (present.symm.trans found)
    simp only [opened, runs, kind, queue, bne_self_eq_false, Bool.not_true, Bool.or_self, Bool.false_eq_true, if_false,
      Option.map_some, Option.getD_some, Option.some.injEq, beq_iff_eq]
    split <;> rfl

end

end

/-- Settles O42: COLL by what its entry is, then each row by whether the collective is in flight, and the step open. -/
theorem collectivesIssueStallAndComplete : Obligations.CollectivesIssueStallAndComplete := by
  unfold Obligations.CollectivesIssueStallAndComplete
  intro s
  refine ⟨fun d p entry done tile => exec_coll tile s entry done, fun entry sequence => collectiveRows_of_absent,
    fun entry sequence i present => ⟨collectiveRows_of_ended present, fun opened runs =>
      ⟨exec_collectiveStall_of_open present opened runs, exec_collectiveComplete_of_open present opened runs,
        fun kind => ⟨exec_ethReadComplete_of_failure present opened runs kind, fun bs q queue => ?_⟩⟩⟩⟩
  have row := exec_ethReadComplete_of_data present opened runs kind queue bs
  rw [row]
  refine ⟨fun whole up => ?_, fun lacks => ?_⟩
  · rw [if_pos ⟨whole, up⟩]
  · rw [if_neg fun ⟨whole, up⟩ => lacks.elim (absurd whole) (absurd up)]

end Sys2Proof.Machine
end

section
/-! PROOF. The phases of a step (O39): each row's phase, and what the row does in it. -/

namespace Sys2Proof.Machine

section
variable {s : State}

/-! ### The compute phase (R179, R631) -/

theorem exec_contextHalted {d p ctx : Nat} (tile : tileExists d p = true) (there : ctx < 8) :
    exec (.contextHalted d p ctx) s = .next
      (if s.computing = true ∧ s.usedTile d p = true ∧ ((s.tile d p).ctx ctx).state = .blocked ∧
          ((s.tile d p).ctx ctx).reason = .halt ∧ s.ctxQuiet d p ctx = true then
        if (s.unblock d p ctx .halted).allHalted = true then (s.unblock d p ctx .halted).endCompute
        else s.unblock d p ctx .halted
      else s) := by
  change execContextHalted d p ctx s = _
  simp only [execContextHalted, tile, there, decide_true, Bool.and_self, if_true, Bool.and_eq_true, beq_iff_eq, and_assoc]
  split <;> rfl

section
variable {r : RunStep} {g : Program} (running : s.run = some r) (loaded : s.program = some g)
include running loaded

theorem exec_stepComputeStart_of_running :
    exec .stepComputeStart s = .next
      (if s.inPhase .lighting = true ∧ s.tilesLit = true then
        let t := s.startTiles g r.k r.mb
        { t with run := t.run.map fun x => { x with phase := .compute, contextsIssued := true } }
      else s) := by
  change execStepComputeStart s = _
  simp only [execStepComputeStart, running, loaded, Bool.and_eq_true]
  split <;> rfl

/-! ### STEP_STATS and RECORD_STATS (R386) -/

omit running loaded in
theorem exec_stepStatsComplete_of_wait
    (waits : s.updateDone updStats = none ∨ s.inPhase .stats = false ∨ s.updateRuns = false) :
    exec .stepStatsComplete s = .next s := by
  change execStepStatsComplete s = _
  rw [execStepStatsComplete]
  split
  next _ _ _ _ _ done =>
    rw [done] at waits
    have waits : ¬(s.inPhase .stats && s.updateRuns) = true := by simpa [imp_iff_not_or] using waits
    rw [if_neg waits]
  next => rfl

/-- The state once the sums are taken: the collective is over, and its modes and noise are noted (R415, R416). -/
def State.statsTaken (s : State) (i : CollInst) (mb : Nat) : State :=
  ((s.endUpdate updStats).endUpdateOp.noteStatsPass.noteModes i.trailer.toNat).noteNoise (lowestMode i.trailer.toNat) mb
    (wordAt i.result 0) (wordAt i.result 1)

theorem exec_stepStatsComplete_of_done {i : CollInst} (done : s.updateDone updStats = some i)
    (phase : s.inPhase .stats = true) (runs : s.updateRuns = true) :
    exec .stepStatsComplete s = .next
      (if bit i.trailer.toNat 0 = true then
        let u : State := { s.statsTaken i r.mb with
          run := (s.statsTaken i r.mb).run.map fun x => { x with nonFinite := true } }
        u.castVote 0b101 u.commit.stateDigest
      else if g.flatRecords = [] then (s.statsTaken i r.mb).beginSweep
      else ((s.statsTaken i r.mb).setPhase .recordStats).issueUpdate updRecords ((s.statsTaken i r.mb).recordShare g) 0) := by
  change execStepStatsComplete s = _
  simp only [execStepStatsComplete, running, loaded, done, phase, runs, Bool.and_self, if_true, List.isEmpty_iff]
  rw [← State.statsTaken]
  split
  · rfl
  · split <;> rfl

omit running loaded in
theorem exec_recordStatsComplete_of_wait (waits : s.updateDone updRecords = none ∨ s.inPhase .recordStats = false) :
    exec .recordStatsComplete s = .next s := by
  change execRecordStatsComplete s = _
  rw [execRecordStatsComplete]
  split
  next _ _ _ _ _ done =>
    have waits : ¬s.inPhase .recordStats = true := by simpa [done] using waits
    rw [if_neg waits]
  next => rfl

theorem exec_recordStatsComplete_of_done {i : CollInst} (done : s.updateDone updRecords = some i)
    (phase : s.inPhase .recordStats = true) :
    exec .recordStatsComplete s = .next (State.beginSweep
      { s.endUpdate updRecords with run := some { r with stats := withReduced g.records r.stats i.result } }) := by
  change execRecordStatsComplete s = _
  simp only [execRecordStatsComplete, running, loaded, done, phase, if_true]

/-! ### STEP_OPEN (R404) and the sweep (R386, R409) -/

section
variable {p : PlanHeader} (planned : g.plan = some p)
include planned

omit running in
theorem exec_stepOpenComplete_of_formed {w : Nat} (formed : s.updateWord updOpen = some w)
    (phase : s.inPhase .opening = true) :
    exec .stepOpenComplete s = .next
      (if bit w 0 = true then (((s.endUpdate updOpen).resolveDoubt p s.stepNo w).retakeMb g).placeStep
      else ((s.endUpdate updOpen).resolveDoubt p s.stepNo w).notCurrent) := by
  have header : s.program.bind Program.plan = some p := by rw [loaded]; exact planned
  change execStepOpenComplete s = _
  rw [execStepOpenComplete, header, loaded, formed]
  exact if_pos phase

theorem exec_sweepComplete :
    exec .sweepComplete s =
      if (s.inPhase .sweeping && s.exports.isEmpty && s.updateRuns) = true then
        match s.firstFailure (s.sweepReads g p.state) with
        | some (st, ch, why) => .next (s.bsuDeviceFails st ch why false)
        | none => .next (s.finishSweep g p r)
      else .next s := by
  change execSweepComplete s = _
  simp only [execSweepComplete, running, loaded, planned] <;> split <;> rfl

theorem exec_sweepComplete_of_wait (waits : s.inPhase .sweeping = false ∨ s.exports ≠ [] ∨ s.updateRuns = false) :
    exec .sweepComplete s = .next s := by
  rw [exec_sweepComplete running loaded planned, if_neg]
  simp only [Bool.and_eq_true, List.isEmpty_iff]
  rintro ⟨⟨phase, exported⟩, runs⟩
  simp [phase, exported, runs] at waits

section
variable (phase : s.inPhase .sweeping = true) (exported : s.exports = []) (runs : s.updateRuns = true)
include phase exported runs

theorem exec_sweepComplete_of_whole (whole : s.firstFailure (s.sweepReads g p.state) = none) :
    exec .sweepComplete s = .next (s.finishSweep g p r) := by
  rw [exec_sweepComplete running loaded planned, if_pos (by simp [phase, exported, runs]), whole]

theorem exec_sweepComplete_of_failure {st ch why : Nat}
    (failure : s.firstFailure (s.sweepReads g p.state) = some (st, ch, why)) :
    exec .sweepComplete s = .next (s.bsuDeviceFails st ch why false) := by
  rw [exec_sweepComplete running loaded planned, if_pos (by simp [phase, exported, runs]), failure]

end

end

end

theorem exec_stepOpenComplete_of_wait (waits : s.updateWord updOpen = none ∨ s.inPhase .opening = false) :
    exec .stepOpenComplete s = .next s := by
  change execStepOpenComplete s = _
  rw [execStepOpenComplete]
  split
  next _ _ _ _ _ formed =>
    have waits : ¬s.inPhase .opening = true := by simpa [formed] using waits
    rw [if_neg waits]
  next => rfl

/-! ### DIGEST_EXCHANGE (R407) and the step's end (R623) -/

theorem exec_digestExchangeComplete_of_wait (waits : s.updateDone updDigest = none ∨ s.inPhase .digest = false) :
    exec .digestExchangeComplete s = .next s := by
  change execDigestExchangeComplete s = _
  rw [execDigestExchangeComplete]
  split
  next _ _ _ done =>
    have waits : ¬s.inPhase .digest = true := by simpa [done] using waits
    rw [if_neg waits]
  next => rfl

section
variable {r : RunStep} (running : s.run = some r)
include running

theorem exec_digestExchangeComplete_of_done {i : CollInst} (done : s.updateDone updDigest = some i)
    (phase : s.inPhase .digest = true) :
    exec .digestExchangeComplete s = .next
      (let l := chunks 32 (i.result.length / 32) i.result
      let t := s.endUpdate updDigest
      let r1 := { r with digestOk := l.all fun x => x == sliceZ r.stateDigest 0 32, lowestDigest := l.head? }
      State.castVote
        { t with
          run := some r1
          sweep := { t.sweep with digestComparisons := satAdd t.sweep.digestComparisons 1 } } r1.sweepVote r1.stateDigest) := by
  change execDigestExchangeComplete s = _
  simp only [execDigestExchangeComplete, running, done, phase, if_true]

theorem exec_stepEnd_of_running :
    exec .stepEnd s = .next (if r.abort ≠ none ∨ r.phase = .ended then s.endStep r else s) := by
  change execStepEnd s = _
  simp only [execStepEnd, running, Bool.or_eq_true, beq_iff_eq, Option.isSome_iff_ne_none]

end

/-! ### Gradient clearing (R369) -/

theorem gradientClearComplete_clears {g : Program} (loaded : s.program = some g) (clears : s.clearing = true)
    (runs : s.updateRuns = true) : ∃ t : State, exec .gradientClearComplete s = .next t ∧
      t.clearing = false ∧ t.stateBlock.clearTime = t.now - t.clearSince := by
  have row : exec .gradientClearComplete s = execGradientClearComplete s := rfl
  rw [row]
  simp only [execGradientClearComplete, loaded, clears, runs, Bool.and_self, if_true]
  exact ⟨_, rfl, rfl, rfl⟩

theorem exec_gradientClearComplete_of_wait (waits : s.clearing = false ∨ s.program = none ∨ s.updateRuns = false) :
    exec .gradientClearComplete s = .next s := by
  change execGradientClearComplete s = _
  rw [execGradientClearComplete]
  split
  next _ loaded =>
    have waits : ¬(s.clearing && s.updateRuns) = true := by simpa [loaded, imp_iff_not_or] using waits
    rw [if_neg waits]
  next => rfl

end

/-- Settles O39, phase by phase: each row outside its phase, and in it. -/
theorem stepPhasesFollowOneAnother : Obligations.StepPhasesFollowOneAnother := by
  unfold Obligations.StepPhasesFollowOneAnother
  intro s
  refine ⟨fun d p ctx tile there => exec_contextHalted tile there, fun r g running loaded =>
    ⟨exec_stepComputeStart_of_running running loaded, exec_stepStatsComplete_of_wait,
      fun i done phase runs => exec_stepStatsComplete_of_done running loaded done phase runs,
      exec_recordStatsComplete_of_wait, fun i done phase => exec_recordStatsComplete_of_done running loaded done phase,
      fun p planned => ⟨exec_stepOpenComplete_of_wait,
        fun w formed phase => exec_stepOpenComplete_of_formed loaded planned formed phase, fun phase exported runs => ?_,
        exec_sweepComplete_of_wait running loaded planned⟩⟩,
    fun r running => ⟨exec_digestExchangeComplete_of_wait,
      fun i done phase => exec_digestExchangeComplete_of_done running done phase⟩,
    fun r running => exec_stepEnd_of_running running, fun g loaded clears runs =>
      gradientClearComplete_clears loaded clears runs, exec_gradientClearComplete_of_wait⟩
  exact ⟨exec_sweepComplete_of_whole running loaded planned phase exported runs,
    fun st ch why failure => exec_sweepComplete_of_failure running loaded planned phase exported runs failure⟩

end Sys2Proof.Machine
end

section
/-! PROOF. OPEN_SESSION, LOAD_PROGRAM and RUN_STEP (O14): the state that each body leaves on a valid payload. -/

namespace Sys2Proof.Machine

section
variable {s : State} {n : Nat} {r : Request} {p : List Byte}

/-! ### OPEN_SESSION (R628) -/

/-- The session that a payload describes. -/
def sessionOf (p : List Byte) : Session :=
  { jobId := field p 0 8, seed := field p 8 8, firstStep := field p 0x10 8, rank := field p 0x18 2
    topology := slice p 0x20 64 }

/-- The session is open, the program unloaded, and mailbox `n` waits for HELLO (R332, R628). -/
def State.sessionOpened (s : State) (n : Nat) (p : List Byte) : State :=
  { s.unloadProgram with
    session := some (sessionOf p)
    lamp := { s.lamp with helloWait := some n }
    beacon := { s.beacon with tokens := [], early := [] } }

theorem exec_openSession_of_valid (a : s.Accepts n specOpenSession r p) (reserved : field p 0x1A 6 = 0)
    (valid : (topoOf (slice p 0x20 64)).valid = true) (rank : field p 0x18 2 < (topoOf (slice p 0x20 64)).devices)
    (torcor : s.ethernetClash ((topoOf (slice p 0x20 64)).ports (field p 0x18 2)) = false)
    (key : s.flash.protection.keys.contains (BitVec.ofNat 64 (topoOf (slice p 0x20 64)).key) = true) :
    let u := (s.copied n specOpenSession r).sessionOpened n p
    exec (.openSession n r) s = .next ((u.torcorPorts.foldl State.sendHello u).checkHello.inCascade none) := by
  intro u
  refine onMailbox_accepted_body a ?_
  have clash : (s.copied n specOpenSession r).ethernetClash = s.ethernetClash := rfl
  have flash : (s.copied n specOpenSession r).flash = s.flash := rfl
  rw [clash, flash, if_neg]
  · rfl
  · simp only [reserved, valid, torcor, key]
    simp [rank]

theorem exec_openSessionHelloTimeout_of_waiting (waits : s.lamp.helloWait = some n) :
    exec .openSessionHelloTimeout s = .next
      (({ s with lamp := { s.lamp with helloWait := none } } : State).respond n .ok s.sessionResult) := by
  change Host.Outcome.next s.finishSession = _
  rw [State.finishSession, waits]

/-! ### LOAD_PROGRAM (R144, R630) -/

theorem exec_loadProgram_of_valid {t : State} {b : List Byte} {ecc : Ecc} (a : s.Accepts n specLoadProgram r p)
    (space : daSpace (field p 0 8) = 0 ∨ daSpace (field p 0 8) = 0xC)
    (image : (s.copied n specLoadProgram r).readImage (field p 0 8) (field p 8 8) ecc = (t, b))
    (passes : t.loadFailure b (field p 8 8) = none) :
    let x := (t.respondPending n 0).install (programOf b)
    exec (.loadProgram n r ecc) s =
      .next ((x.1.respond n .ok (x.1.loadResult (field b 0x20 8) 0 x.2)).inCascade none) := by
  intro x
  refine onMailbox_accepted_body a ?_
  rw [if_pos space, State.loadImage, image]
  simp only [passes]
  rfl

/-! ### RUN_STEP (R403, R631) -/

theorem exec_runStep_of_valid {g : Program} (a : s.Accepts n specRunStep r p) (payload : stepPayloadOk p = true)
    (loaded : s.program = some g)
    (passes : (s.copied n specRunStep r).stepFailure (field p 0 8) (field p 8 2) = none) :
    let t := (s.copied n specRunStep r).enterStep n (field p 0 8) ((s.stepMb g (field p 8 2)).getD (field p 8 2))
      (field p 8 2) (BitVec.ofNat 32 (field p 0xC 4)) g
    exec (.runStep n r) s = .next
      (State.inCascade (match s.beacon.tokens.find? fun x => x.step == field p 0 8 && !x.own && !x.acted with
        | some x => t.lateToken x
        | none => if g.hasUpdatePlan then t.issueUpdate updOpen (leBytes 8 (t.openWord (field p 0 8))) 0
            else t.placeStep) none) := by
  intro t
  refine onMailbox_accepted_body a ?_
  have program : (s.copied n specRunStep r).program = some g := loaded
  have tokens : (s.copied n specRunStep r).beacon.tokens = s.beacon.tokens := rfl
  rw [if_pos payload, State.runStep, passes, program, tokens]
  rfl

end

/-- Settles O14: the body of each command on a valid payload. -/
theorem sessionAndProgramCommandsInstallWhatTheyCheck : Obligations.SessionAndProgramCommandsInstallWhatTheyCheck := by
  unfold Obligations.SessionAndProgramCommandsInstallWhatTheyCheck
  intro s n r p _
  refine ⟨?_, ?_, ?_, exec_openSessionHelloTimeout_of_waiting⟩
  · intro a reserved valid rank torcor key
    exact ⟨(s.copied n specOpenSession r).sessionOpened n p, rfl,
      exec_openSession_of_valid a reserved valid rank torcor key⟩
  · intro t b ecc a space image passes
    exact ⟨((t.respondPending n 0).install (programOf b)).1, ((t.respondPending n 0).install (programOf b)).2, rfl,
      exec_loadProgram_of_valid a space image passes⟩
  · intro g a payload loaded passes
    refine Exists.intro ((s.copied n specRunStep r).enterStep n (field p 0 8)
      ((s.stepMb g (field p 8 2)).getD (field p 8 2)) (field p 8 2) (BitVec.ofNat 32 (field p 0xC 4)) g) ⟨rfl, ?_⟩
    rw [exec_runStep_of_valid a payload loaded passes]
    cases s.beacon.tokens.find? fun x => x.step == field p 0 8 && !x.own && !x.acted with
    | none => rfl
    | some x => rfl

end Sys2Proof.Machine
end
